-- ==== Sys2Proof/Word.lean ====
section
/-! DEFINITION. The word types of the LX-6400 and their plainest arithmetic (R6, R7, R63, R64). -/

namespace Sys2Proof

/-- A word is 32 bits (R6). -/
abbrev Word := BitVec 32

/-- A byte. -/
abbrev Byte := BitVec 8

/-- The 72-bit accumulator A.G : A.H : A.L (R63, R64). -/
abbrev Acc := BitVec 72

/-- A D-space word address, an index register (R63). -/
abbrev DAddr := BitVec 24

/-- A slate: an 8-bit epoch above a 56-bit count (R342). -/
abbrev Slate := BitVec 64

/-- A GUARD32 as it travels: the value in bits 31:0, its complement in bits 63:32 (R292). -/
abbrev Pair := BitVec 64

end Sys2Proof
end

