-- ==== Sys2Proof/Forms.lean ====
section
/-! DEFINITION. The operand forms of the commands: who executes an instruction, its prefixes, its
operand descriptor (R75 to R80), the access path of a dictionary access (R289), a Uamin frame (R318). -/

namespace Sys2Proof

/-- A Hervel processor: one of the 64 lanes or of the 8 control cores (R63). -/
inductive Agent where
  | lane (n : Fin 64)
  | core (c : Fin 8)
  deriving DecidableEq, Repr

/-- The prefixes an instruction carries (R80). `rep` holds the count byte m of REP; `late` says that REP stands behind two
others, where the decoder reads no count byte (R84). -/
structure Prefix where
  wide  : Bool := false
  guard : Bool := false
  sat   : Bool := false
  rep   : Option Byte := none
  late  : Bool := false
  deriving DecidableEq, Repr

/-- Post-modification of an index register, the POST field of IDX (R75). -/
inductive Post where
  | none
  | offset
  | inc
  | dec
  deriving DecidableEq, Repr

/-- Displacement of IDX mode, the DISP field (R75). -/
inductive Disp where
  | none
  | d8 (d : BitVec 8)
  | d16 (d : BitVec 16)
  deriving DecidableEq, Repr

/-- Offset of SPR mode (R75). -/
inductive SprOff where
  | none
  | u8 (o : BitVec 8)
  | u16 (o : BitVec 16)
  deriving DecidableEq, Repr

/-- Width of an immediate, the SIZE field of IMM (R75); its fourth value is reserved and has no name
here: a descriptor that carries it is an undefined instruction (R84). -/
inductive ImmSize where
  | b8
  | b16
  | b24
  deriving DecidableEq, Repr

/-- An operand as its descriptor selects it (R75). An immediate carries its extension bytes as `raw`;
under WIDE all 32 bits of `raw` are the word. -/
inductive Operand where
  | reg (code : Fin 32)
  | imm (size : ImmSize) (hi : Bool) (raw : Word)
  | dir (long : Bool) (addr : DAddr)
  | idx (y : Bool) (post : Post) (disp : Disp)
  | spr (off : SprOff)
  deriving DecidableEq, Repr

/-- The operand bytes of a user opcode, as the FORM of its entry gives them (R134, R135). -/
inductive UserArg where
  | none
  | desc (o : Operand)
  | byte (b : Byte)
  deriving DecidableEq, Repr

/-- The access paths of the dictionary (R289): the field network, the Uamin link, the service console and
each control core. -/
inductive Path where
  | field
  | link
  | console
  | core (c : Fin 8)
  deriving DecidableEq, Repr

/-- The output-stage operands a change of which waits for a zero crossing (R170). -/
inductive OutOperand where
  | routing
  | trim
  | mute
  deriving DecidableEq, Repr

/-- A frame on HDI between a fall and a rise of HSEL_N (R316, R318). `bits` is the number of HCLK rising
edges; `ready` is how many read words were in the shifter when their first bit was due (R328). -/
structure Frame where
  alive : Byte
  len   : BitVec 16
  addr  : Word
  dummy : Nat
  data  : List Word
  crc   : Word
  bits  : Nat
  ready : Nat
  deriving DecidableEq, Repr

/-- A section of the body of a show image (R148, R372). A program section carries its guarded header and the slot map that
Galrekin recorded, as pairs of byte and slot; a spectra section the words of a path's spectra (R195). -/
inductive ShowSection where
  | kind (k : Byte)
  | table (core : Bool) (target : Fin 8) (entries : List (BitVec 160))
  | program (lane : Fin 64) (header : Pair) (bytes : List Byte) (slotMap : List (Nat × Nat))
  | coreProgram (core : Fin 8) (header : Pair) (bytes : List Byte)
  | bitmap (lane : Fin 64) (bits : BitVec 8192)
  | spectra (path : Fin 256) (words : List Word)
  deriving DecidableEq, Repr

/-- A class E engine: a crystallizer or the ASRC engine (R181, R198). -/
inductive Engine where
  | cx (e : Fin 16)
  | asrc
  deriving DecidableEq, Repr

end Sys2Proof
end

