-- ==== Sys2Proof/Syntax.lean ====
section
/-! DEFINITION. The commands of the LX-6400: one constructor for each row of spec/opcode_table.json, in the
table's order. A row that is an instruction carries the processor that issues it, its prefixes and its
operand; a row that is a register write carries its access path and the value; a row that is an event
carries what the event brings from outside. -/

namespace Sys2Proof

/-- The commands, one constructor per row of the opcode table. -/
inductive Instr where
  | nop (u : Agent) (p : Prefix)
  | lda (u : Agent) (p : Prefix) (o : Operand)
  | sta (u : Agent) (p : Prefix) (o : Operand)
  | ldx (u : Agent) (p : Prefix) (o : Operand)
  | ldy (u : Agent) (p : Prefix) (o : Operand)
  | stx (u : Agent) (p : Prefix) (o : Operand)
  | sty (u : Agent) (p : Prefix) (o : Operand)
  | ldi (u : Agent) (p : Prefix) (o : Operand)
  | inp (u : Agent) (p : Prefix) (rd : Fin 32) (pa : BitVec 16)
  | out (u : Agent) (p : Prefix) (rs : Fin 32) (pa : BitVec 16)
  | push (u : Agent) (p : Prefix) (rs : Fin 32)
  | pop (u : Agent) (p : Prefix) (rd : Fin 32)
  | mov (u : Agent) (p : Prefix) (rd : Fin 32) (o : Operand)
  | add (u : Agent) (p : Prefix) (o : Operand)
  | sub (u : Agent) (p : Prefix) (o : Operand)
  | cmp (u : Agent) (p : Prefix) (o : Operand)
  | and (u : Agent) (p : Prefix) (o : Operand)
  | or (u : Agent) (p : Prefix) (o : Operand)
  | xor (u : Agent) (p : Prefix) (o : Operand)
  | neg (u : Agent) (p : Prefix)
  | abs (u : Agent) (p : Prefix)
  | div (u : Agent) (p : Prefix) (o : Operand)
  | rnd (u : Agent) (p : Prefix)
  | sata (u : Agent) (p : Prefix)
  | mul (u : Agent) (p : Prefix) (o : Operand)
  | mac (u : Agent) (p : Prefix) (o : Operand)
  | msu (u : Agent) (p : Prefix) (o : Operand)
  | tap (u : Agent) (p : Prefix)
  | tapm (u : Agent) (p : Prefix)
  | lsl (u : Agent) (p : Prefix) (n : Byte)
  | lsr (u : Agent) (p : Prefix) (n : Byte)
  | asr (u : Agent) (p : Prefix) (n : Byte)
  | rol (u : Agent) (p : Prefix) (n : Byte)
  | lslMem (u : Agent) (p : Prefix) (o : Operand) (n : Byte)
  | lsrMem (u : Agent) (p : Prefix) (o : Operand) (n : Byte)
  | asrMem (u : Agent) (p : Prefix) (o : Operand) (n : Byte)
  | rolMem (u : Agent) (p : Prefix) (o : Operand) (n : Byte)
  | bfx (u : Agent) (p : Prefix) (pos width : Byte)
  | bfi (u : Agent) (p : Prefix) (pos width : Byte)
  | clz (u : Agent) (p : Prefix)
  | perm (u : Agent) (p : Prefix) (sel : Byte)
  | bra (u : Agent) (p : Prefix) (disp : Word)
  | beq (u : Agent) (p : Prefix) (disp : Word)
  | bne (u : Agent) (p : Prefix) (disp : Word)
  | bmi (u : Agent) (p : Prefix) (disp : Word)
  | bpl (u : Agent) (p : Prefix) (disp : Word)
  | bvs (u : Agent) (p : Prefix) (disp : Word)
  | bvc (u : Agent) (p : Prefix) (disp : Word)
  | bc (u : Agent) (p : Prefix) (disp : Word)
  | bnc (u : Agent) (p : Prefix) (disp : Word)
  | bge (u : Agent) (p : Prefix) (disp : Word)
  | blt (u : Agent) (p : Prefix) (disp : Word)
  | bgt (u : Agent) (p : Prefix) (disp : Word)
  | ble (u : Agent) (p : Prefix) (disp : Word)
  | bsr (u : Agent) (p : Prefix) (disp : Word)
  | ret (u : Agent) (p : Prefix)
  | loop (u : Agent) (p : Prefix) (level : Fin 4) (o : Operand) (disp : BitVec 16)
  | getw (u : Agent) (p : Prefix) (rd : Fin 32)
  | rti (u : Agent) (p : Prefix)
  | halt (u : Agent) (p : Prefix)
  | phase (u : Agent) (p : Prefix)
  | userOpcode (u : Agent) (p : Prefix) (i : Fin 16) (arg : UserArg)
  | undefinedOpcode (u : Agent) (reason : Byte) (len : Fin 16)
  | interruptEntry (c : Fin 8)
  | farAccessPerformed (n : Fin 64)
  | farReadDelivery (n : Fin 64)
  | tapmMoveWrite (u : Agent)
  | houseTick (edge : Nat)
  | inputWordLatch (g : Fin 6) (right : Bool) (words : List Word)
  | busyWindowEnd (n : Fin 64)
  | laneLoadComplete (n : Fin 64)
  | safeRequestForce (p : Path) (n : Fin 64)
  | safeRequestRelease (p : Path) (n : Fin 64)
  | laneEnableWrite (p : Path) (n : Fin 64) (v : Byte)
  | laneClearFaults (p : Path) (n : Fin 64)
  | laneClearCounters (p : Path) (n : Fin 64)
  | farGrantWrite (p : Path) (n : Fin 64) (v : Byte)
  | objectWrite (p : Path) (index : BitVec 16) (sub : Byte) (data : List Byte)
  | spliceRequestFlipOnly (p : Path) (seq : BitVec 16) (atSlate : Bool)
  | spliceRequestFlipAndCopy (p : Path) (seq : BitVec 16) (atSlate : Bool)
  | spliceCancel (p : Path) (seq : BitVec 16)
  | spliceCopyWord (n : Fin 64)
  | dtEntryWrite (p : Path) (core : Bool) (k : Fin 8) (i : Fin 16) (entry : BitVec 160)
  | dtClear (p : Path) (core : Bool) (k : Fin 8)
  | portWsEdge (g : Fin 6) (rise : Bool) (edges : Nat)
  | outputCapture (g : Fin 6) (right : Bool)
  | zcTimeout (c : Fin 96)
  | glitchRunEnd (g : Fin 6)
  | waitGoodFrames (g : Fin 6)
  | prerollComplete (g : Fin 6)
  | clockStopDetected (g : Fin 6)
  | holdFadeStep (g : Fin 6)
  | rateChangeDetected (g : Fin 6)
  | relockMeasureComplete (g : Fin 6)
  | relockComplete (g : Fin 6)
  | portEnableWrite (p : Path) (g : Fin 6) (v : Byte)
  | portOffEntry (g : Fin 6)
  | portTestWrite (p : Path) (g : Fin 6) (v : Byte)
  | portTestApply (g : Fin 6)
  | portClearFaults (p : Path) (g : Fin 6)
  | portClearCounters (p : Path) (g : Fin 6)
  | streamEnableWrite (p : Path) (g : Fin 6) (v : Byte)
  | outputOperandWrite (p : Path) (op : OutOperand) (c : Fin 96) (v : Pair)
  | leaderWrite (p : Path) (v : Byte)
  | steerUpdate
  | sharedClockCheck (g : Fin 6)
  | classEPrefetch
  | classSHandover
  | cxFwd (e : Fin 16)
  | cxInv (e : Fin 16)
  | cxSmac (e : Fin 16)
  | cxTail (e : Fin 16)
  | asrcConvert (v : Fin 16)
  | asrcLocked (v : Fin 16)
  | firingComplete (slot : Fin 512) (rung : Fin 8)
  | schDone (c : Fin 8) (w : Word)
  | schPost (c : Fin 8) (w : Word)
  | schTake (c : Fin 8) (w : Word)
  | schHoldLimitExpiry (slot : Fin 512)
  | schClearFaults (p : Path)
  | schClearCounters (p : Path)
  | nodeEnableWrite (p : Path) (v : Byte)
  | nodeClear (p : Path)
  | edgeEnableWrite (p : Path) (v : Byte)
  | edgeClear (p : Path)
  | rpEnableWrite (p : Path) (r : Fin 256) (v : Byte)
  | cpEnableWrite (p : Path) (q : Fin 256) (v : Byte)
  | irLoadStart (p : Path)
  | irLoadComplete
  | asEnableWrite (p : Path) (v : Fin 16) (on : Byte)
  | coreHoldReset (p : Path) (c : Fin 8)
  | coreRelease (p : Path) (c : Fin 8)
  | coreClearFaults (p : Path) (c : Fin 8)
  | coreClearResets (p : Path) (c : Fin 8)
  | ring (c : Fin 8) (w : Word)
  | iclr (c : Fin 8) (w : Word)
  | tcmp (c : Fin 8) (w : Word)
  | timerCompare (c : Fin 8)
  | pgOwnerWrite (p : Path) (g : Fin 8) (v : Byte)
  | pgHandoverComplete (g : Fin 8)
  | pgGroupClearComplete (g : Fin 8)
  | pgPowerOff (p : Path) (g : Fin 8)
  | pgPowerOn (p : Path) (g : Fin 8)
  | pgPowerRetention (p : Path) (g : Fin 8)
  | pgPowerTransitionComplete (g : Fin 8)
  | pgClear (p : Path) (g : Fin 8)
  | dramClearComplete
  | dmaEnableWrite (p : Path) (ch : Fin 32) (v : Byte)
  | dmaKick (p : Path) (ch : Fin 32)
  | dmaAbort (p : Path) (ch : Fin 32)
  | dmaRestart (p : Path) (ch : Fin 32)
  | dmaSkip (p : Path) (ch : Fin 32)
  | dmaHeadPoll (ch : Fin 32)
  | dmaReadBeat (ch : Fin 32)
  | dmaWriteBeat (ch : Fin 32)
  | dmaBeatRetry (ch : Fin 32)
  | dmaStatusWriteback (ch : Fin 32)
  | dmaOwnClear (ch : Fin 32)
  | dmaHeadAdvance (ch : Fin 32)
  | dmaAbortSettle (ch : Fin 32)
  | dmaClearFaults (p : Path) (ch : Fin 32)
  | dmaClearCounters (p : Path) (ch : Fin 32)
  | usdoDownload (client : Byte) (index : BitVec 16) (sub : Byte) (data : List Byte) (more : Bool)
  | usdoUpload (client : Byte) (index : BitVec 16) (sub : Byte)
  | usdoIdleTimeout (client : Byte)
  | rpdoReceive (k : Fin 16) (data : List Byte)
  | syncReceive (counter : Option Byte)
  | syncProduce
  | tpdoValueSample
  | tpdoEventTimer (k : Fin 16)
  | completionTpdoSend
  | nmtStartRemoteNode (node : Byte)
  | nmtStopRemoteNode (node : Byte)
  | nmtEnterPreOperational (node : Byte)
  | nmtResetNode (node : Byte)
  | nmtResetCommunication (node : Byte)
  | lssSwitchStateGlobal (mode : Byte)
  | lssSwitchStateSelective (vendor product revision serial : Word)
  | lssConfigureNodeId (node : Byte)
  | lssConfigureBitTiming (table index : Byte)
  | lssActivateBitTiming (delay : BitVec 16)
  | lssStoreConfiguration
  | lssInquireIdentity (cs : Byte)
  | lssIdentifyRemoteSlave (vendor product revLow revHigh serLow serHigh : Word)
  | lssIdentifyNonConfiguredSlave
  | emcyTransmit
  | heartbeatProduce
  | heartbeatReceive (node : Byte)
  | heartbeatTimeout (i : Fin 4)
  | busOff
  | busOffRecovery
  | errorPassive
  | errorFieldClear (p : Path)
  | softResetCommand (p : Path)
  | handleCancelWrite (p : Path) (h : BitVec 16)
  | hvTailWrite (p : Path) (v : Byte)
  | storeParameters (p : Path) (sub : Byte)
  | storeComplete (ok : Bool)
  | restoreDefaults (p : Path) (sub : Byte)
  | restoreComplete
  | readWin (f : Frame)
  | writeWin (f : Frame)
  | readMem (f : Frame)
  | writeMem (f : Frame)
  | odRead (f : Frame)
  | odWrite (f : Frame)
  | odFetch (f : Frame)
  | harvest (f : Frame)
  | status (f : Frame)
  | writeGuarded (f : Frame)
  | uaminWriteLanded
  | odRequestComplete
  | ulIrqPendClear (w : Word)
  | cdcEntryAppend (p : Path) (entry : BitVec 64)
  | codecEntryStart
  | codecWordComplete (rx : Word)
  | cdcFlushQueue (p : Path)
  | cdcEmptyReply (p : Path)
  | cdcFlushBoth (p : Path)
  | cdcRxWordRead (p : Path)
  | cdcRxBlockRead (p : Path)
  | pllUnlock (i : Fin 3)
  | pllLockHeld (i : Fin 3)
  | counterWrap
  | vinWarning (mv : BitVec 16)
  | vinRecovery (mv : BitVec 16)
  | vinHigh (mv : BitVec 16)
  | coreRailWarning (mv : BitVec 16)
  | coreRailRecovery (mv : BitVec 16)
  | holdSafeEnd
  | pwrRequestNap (p : Path)
  | pwrRequestDormant (p : Path)
  | napEntryComplete
  | wakeEvent (sources : Byte)
  | wakeTimerExpiry
  | serviceNHoldWake
  | wakeComplete
  | por (boot : BitVec 2)
  | bor
  | pinReset
  | resetProper (boot : BitVec 2)
  | bootFirmwareStart (bootTime : Word)
  | recoveryPoll
  | rcvProgram
  | rcvEnd (boot : BitVec 2)
  | rcvProgramComplete
  | showLoadSlot (p : Path) (i : Fin 4)
  | showLoadSource (p : Path)
  | showSlotWrite (p : Path) (i : Fin 4)
  | showLoadComplete
  | showSlotWriteComplete
  | fltClearWrite (p : Path) (code : BitVec 16)
  | junctionWarning (t0 t1 : BitVec 16)
  | sensorImplausible (t0 t1 : BitVec 16)
  | watchdogRestart
  | watchdogExpiry
  | supGraceExpiry (c : Fin 8)
  | supEngineLimitExpiry (e : Engine)
  | supRevokeClear (p : Path) (g : Fin 8)
  | supRevokeKeep (p : Path) (g : Fin 8)
  | supAbortDma (p : Path) (ch : Fin 32)
  | supResetCore (p : Path) (c : Fin 8)
  | supResetEngine (p : Path) (e : Engine)
  | supForceSafe (p : Path) (n : Fin 64)
  | supReleaseSafe (p : Path) (n : Fin 64)
  | supCancelHandle (p : Path) (h : BitVec 16)
  | custKeyWrite (p : Path) (i : Fin 4) (key : BitVec 256)
  | showQuorumWrite (p : Path) (v : Byte)
  | fullErase (p : Path)
  | fullEraseComplete
  | attNonceWrite (p : Path) (nonce : BitVec 256)
  | attestationComplete
  | dbgTokenWrite (p : Path) (token : List Byte)
  | dbgLockWrite (p : Path)
  | vfyStart (p : Path)
  | vfyComplete
  | extest
  | samplePreload
  | idcode
  | bypass (code : Byte)
  | dbgCore
  | dbgFabric
  | dbgTrace
  | tapReset
  | meterUpdate
  | levelUpdate
  | toneChannelWrite (p : Path) (v : Byte)
  | toneSwitch
  | serviceNRise
  | bistPanMarch (p : Path)
  | bistDram (p : Path)
  | bistLaneSelfTest (p : Path)
  | bistCrystallizerAsrc (p : Path)
  | bistPortInternalLoopback (p : Path)
  | bistPortExternalLoopback (p : Path)
  | bistCanLoopback (p : Path)
  | bistRefSteeringRange (p : Path)
  | bistTemperatureSensors (p : Path)
  | bistComplete (failDetail : Option Word)
  | conInfo
  | conSt
  | conRd (index : BitVec 16) (sub : Byte)
  | conWr (index : BitVec 16) (sub : Byte) (value : Nat)
  | conLog (n : Nat)
  | conClr (code : BitVec 16)
  | conMeter (mode : Byte) (channel : Option Byte)
  | conLvl (channel : Byte)
  | conLvlReport
  | conTone (channel : Byte) (hz : BitVec 16) (dbfs : BitVec 16)
  | conToneOff
  | conBist (test : Byte) (arg : BitVec 64)
  | conBistQuery
  | conReset
  | conBadLine (tooLong : Bool)
  | gpEdge (k : Fin 16) (level : Bool)
  | gpEdgeClr (p : Path) (w : BitVec 16)
  | vinMinReset (p : Path)
  | holdCountClear (p : Path)
  | reservedCommandFrame (cmd : Byte) (f : Frame)
  | pinResetRelease (boot : BitVec 2)
  | currentLimit
  | powerStageRestart (boot : BitVec 2)
  | junctionCooled (t0 t1 : BitVec 16)
  | tpdoInhibitTimeExpiry (k : Fin 16)
  | consoleCharacter (ch : Byte)
  deriving DecidableEq, Repr

end Sys2Proof
end

