-- ==== Sys2Proof/Machine/Fade.lean ====
section
/-! DEFINITION. The raised-cosine fade gain r(p) of R154, by integer arithmetic to 120 fraction bits. -/

namespace Sys2Proof.Machine

/-- The Taylor series of the sine at `x` in Q120: `n` more terms, the next one being `t`, the k-th of the series. -/
def sinTerms (x : Nat) : Nat → Nat → Int → Int
  | 0, _, _ => 0
  | n + 1, k, t => t + sinTerms x n (k + 1) (-(t * x * x / 2 ^ 240) / ((2 * k + 2) * (2 * k + 3)))

/-- r(p) = 0.5 (1 - cos(pi p / F)) as a Q1.31 factor rounded to nearest; 2^31 passes the word unchanged (R154). -/
def raisedCosine (p len : Nat) : Nat :=
  if len ≤ p then 2 ^ 31
  else if p = 0 then 0
  else
    let x := 4175892906503776358826876457663557747 * p / (2 * len)
    let s := (sinTerms x 24 0 x).toNat
    (s * s + 2 ^ 208) / 2 ^ 209

/-- A word times a gain of `frac` fraction bits, rounded with ties toward plus infinity and saturated (R154, R169). -/
def scaleWord (w : Word) (gain frac : Nat) : Word :=
  let v := (w.toInt * gain + 2 ^ (frac - 1)) / 2 ^ frac
  if v > 0x7FFFFFFF then 0x7FFFFFFF else if v < -0x80000000 then 0x80000000 else BitVec.ofInt 32 v

/-- A word scaled by r(p). -/
def fadeWord (w : Word) (p len : Nat) : Word := scaleWord w (raisedCosine p len) 31

end Sys2Proof.Machine
end

