-- ==== Sys2Proof/Config.lean ====
section
/-! DEFINITION. What a unit fixes (the ordering variant, the identity of the unit) and the free values: results the
manual leaves to an implementation, or to arithmetic it does not state bit by bit. None has a body, so nothing can
rest on a value of one. -/

namespace Sys2Proof.Config

/-- The ordering variant (R1): true for the LX-6400-M8, false for the LX-6400-M4. -/
opaque variantM8 : Bool

/-- Revision number and serial number of 0x1018:03 and :04 (R294), per unit. -/
opaque revision : BitVec 32
opaque serial : BitVec 32

/-- The texts of 0x1009 and 0x100A, the certificates of 0x3E00 and the unit public key (R294, R405), per unit. -/
opaque hwVersion : List Byte
opaque swVersion : List Byte
opaque unitCert : List Byte
opaque interCert : List Byte
opaque unitPubkey : BitVec 256

/-- A free value: the k-th one that a run consumes. -/
opaque free : Nat → Nat

/-- A free word that an engine's arithmetic depends on, the `i`-th for `args`: the deviation of a binary32 result from the exact one, a
filter tap, an error of the conversion, a loop error (R182 to R190, R199 to R203). The model uses it within the bounds the rules
state. -/
opaque engineWord : List Word → Nat → Word

/-- A measured rate of DRAM traffic over the last 10 ms (R270): the k-th reading. -/
opaque measured : Nat → Nat

/-- The LX status of a show whose guard bitmap R126 rejects; the manual gives none. -/
opaque bitmapStatus : BitVec 16

/-- SHA-256 (R392 to R406) of a byte string. -/
opaque sha256 : List Byte → BitVec 256

/-- Whether an Ed25519 signature of a message is valid under a public key (R392). -/
opaque ed25519Valid : BitVec 256 → List Byte → List Byte → Bool

/-- The signature made with the unit's own key (R400). -/
opaque unitSign : List Byte → List Byte

/-- The Akkear firmware key and the Akkear debug key, whose public halves the boot ROM holds (R397, R402). -/
opaque firmwareKey : BitVec 256
opaque debugKey : BitVec 256

/-- The bytes of firmware slots A (0) and B (1) of a unit as delivered (R363). -/
opaque firmwareImage : Nat → List Byte

/-- The sections that the body of a show image holds, in order (R148). The manual gives their content, not their layout. -/
opaque showSections : List Byte → List ShowSection

/-- The state in which the cells of a compatibility-mode group power up (R262): byte `a` at power-up `k`. -/
opaque powerUpByte : Nat → Nat → Byte

/-- The tone generator's word at sample `k` since phase 0, for a frequency in Hz and a level in 0.01 dBFS at a frame rate
(R418). -/
opaque toneWord : Nat → Nat → Nat → Nat → Word

/-- The boot ROM that all control cores share (R70), by byte address. -/
opaque bootRom : Nat → Byte

end Sys2Proof.Config
end

