-- ==== Sys2Proof/Machine/Objects.lean ====
section
/-! DEFINITION. The objects of the dictionary (R13, R289): the table of every object, from the object tables of the
chapters, and the register that holds each one. A register is a key of the object store and its default. The key is
index * 256 + sub-index; an object kept per access path (R290) adds (path + 1) * 2^24, an object kept per node or edge
behind a selector (R231, R232) adds (item + 1) * 2^40. -/

namespace Sys2Proof.Machine

/-- The data types of R291, with the bytes of each. -/
inductive ObjType where
  | bool
  | uint (bytes : Nat)
  | int (bytes : Nat)
  | real32
  | guard32
  | handle16
  | octets (bytes : Nat)
  | domain
  | vstring
  deriving DecidableEq, Repr

/-- The access rights of R293. -/
inductive Access where
  | ro
  | rw
  | rws
  | wo
  | const
  deriving DecidableEq, Repr

/-- The values an object accepts; the others are reserved (R11). `custom` objects have their check in the chapter's own
write. A `guard` domain is over the value of the pair. -/
inductive Dom where
  | any
  | range (lo hi : Nat)
  | rangeOr (lo hi extra : Nat)
  | bits (mask : Nat)
  | srange (lo hi : Int)
  | guard (lo hi : Nat)
  | mult (n : Nat)
  | custom
  deriving DecidableEq, Repr

/-- A row of an object table: `cnt` indices from `idx` in steps of `stride`, `nsub` sub-indices from `sub`. -/
structure ObjRow where
  idx    : Nat
  cnt    : Nat
  stride : Nat
  sub    : Nat
  nsub   : Nat
  type   : ObjType
  acc    : Access
  dflt   : Nat
  dom    : Dom
  deriving DecidableEq, Repr

/-- A register of the object store. -/
structure Reg where
  key  : Nat
  dflt : Nat
  deriving DecidableEq, Repr

/-- The GUARD32 pair of a value: the value below, its complement above (R292). -/
def guardOf (v : Nat) : Nat := v + (0xFFFFFFFF - v) * 2 ^ 32

/-- The bytes of a type; 0 for a type of variable length. -/
def ObjType.bytes : ObjType → Nat
  | .bool => 1
  | .uint n => n
  | .int n => n
  | .real32 => 4
  | .guard32 => 8
  | .handle16 => 2
  | .octets n => n
  | .domain => 0
  | .vstring => 0

/-- Marks a COB-ID that stands at its default, to which the node-ID is added (R294, R310). -/
def byNode : Nat := 2 ^ 40

namespace Obj

def deviceType : Reg := ⟨0x1000 * 256 + 0, 0⟩
def errorRegister : Reg := ⟨0x1001 * 256 + 0, 0⟩
def cobSync : Reg := ⟨0x1005 * 256 + 0, 128⟩
def syncPeriod : Reg := ⟨0x1006 * 256 + 0, 0⟩
def deviceName : Reg := ⟨0x1008 * 256 + 0, 0⟩
def hwVersion : Reg := ⟨0x1009 * 256 + 0, 0⟩
def swVersion : Reg := ⟨0x100A * 256 + 0, 0⟩
def storeCmd (j : Nat) : Reg := ⟨0x1010 * 256 + 1 + j, 1⟩
def restoreCmd (j : Nat) : Reg := ⟨0x1011 * 256 + 1 + j, 1⟩
def cobEmcy : Reg := ⟨0x1014 * 256 + 0, byNode + 0x80⟩
def emcyInhibit : Reg := ⟨0x1015 * 256 + 0, 0⟩
def consHeartbeat (j : Nat) : Reg := ⟨0x1016 * 256 + 1 + j, 0⟩
def prodHeartbeat : Reg := ⟨0x1017 * 256 + 0, 0⟩
def identity (j : Nat) : Reg := ⟨0x1018 * 256 + 1 + j, 0⟩
def syncOverflow : Reg := ⟨0x1019 * 256 + 0, 0⟩
def errBehaviour : Reg := ⟨0x1029 * 256 + 1, 0⟩
def rpdoCob (n : Nat) : Reg := ⟨(0x1400 + n) * 256 + 1, 2147483648⟩
def rpdoType (n : Nat) : Reg := ⟨(0x1400 + n) * 256 + 2, 255⟩
def rpdoMapCount (n : Nat) : Reg := ⟨(0x1600 + n) * 256 + 0, 0⟩
def rpdoMap (n j : Nat) : Reg := ⟨(0x1600 + n) * 256 + 1 + j, 0⟩
def tpdoCob (n : Nat) : Reg := ⟨(0x1800 + n) * 256 + 1, if n = 15 then byNode + 0x80000480 else 0x80000000⟩
def tpdoType (n : Nat) : Reg := ⟨(0x1800 + n) * 256 + 2, 255⟩
def tpdoInhibit (n : Nat) : Reg := ⟨(0x1800 + n) * 256 + 3, 0⟩
def tpdoEventTimer (n : Nat) : Reg := ⟨(0x1800 + n) * 256 + 5, 0⟩
def tpdoMapCount (n : Nat) : Reg := ⟨(0x1A00 + n) * 256 + 0, 0⟩
def tpdoMap (n j : Nat) : Reg := ⟨(0x1A00 + n) * 256 + 1 + j, 0⟩
def nodeId : Reg := ⟨0x2002 * 256 + 1, 18446742974197924095⟩
def bitRate : Reg := ⟨0x2002 * 256 + 2, 18446743992105173010⟩
def nodeIdActive : Reg := ⟨0x2002 * 256 + 3, 255⟩
def canTerm : Reg := ⟨0x2003 * 256 + 1, 0⟩
def resetCmd : Reg := ⟨0x2010 * 256 + 1, 0⟩
def resetCause : Reg := ⟨0x2011 * 256 + 1, 1⟩
def bootMode : Reg := ⟨0x2011 * 256 + 2, 0⟩
def bootPins : Reg := ⟨0x2011 * 256 + 3, 0⟩
def fwSlot : Reg := ⟨0x2011 * 256 + 4, 0⟩
def fwFallback : Reg := ⟨0x2011 * 256 + 5, 0⟩
def bootTime : Reg := ⟨0x2011 * 256 + 6, 0⟩
def warmResets : Reg := ⟨0x2011 * 256 + 7, 0⟩
def wdtResets : Reg := ⟨0x2011 * 256 + 8, 0⟩
def showSelect : Reg := ⟨0x2020 * 256 + 1, 0⟩
def showLoad : Reg := ⟨0x2020 * 256 + 2, 0⟩
def showSource : Reg := ⟨0x2020 * 256 + 3, 67108864⟩
def showActive : Reg := ⟨0x2020 * 256 + 4, 255⟩
def showHandle : Reg := ⟨0x2020 * 256 + 5, 0⟩
def showResult : Reg := ⟨0x2020 * 256 + 6, 0⟩
def gpCfg (j : Nat) : Reg := ⟨0x2030 * 256 + 1 + j, 0⟩
def gpIn : Reg := ⟨0x2030 * 256 + 17, 0⟩
def gpOut : Reg := ⟨0x2030 * 256 + 18, 0⟩
def gpEdge : Reg := ⟨0x2030 * 256 + 19, 0⟩
def gpEdgeClr : Reg := ⟨0x2030 * 256 + 20, 0⟩
def pwrState : Reg := ⟨0x2100 * 256 + 1, 0⟩
def pwrRequest : Reg := ⟨0x2100 * 256 + 2, 0⟩
def wakeEn : Reg := ⟨0x2100 * 256 + 3, 15⟩
def wakeTimer : Reg := ⟨0x2100 * 256 + 4, 0⟩
def wakeCause : Reg := ⟨0x2100 * 256 + 5, 0⟩
def pwrResult : Reg := ⟨0x2100 * 256 + 6, 0⟩
def napCount : Reg := ⟨0x2100 * 256 + 7, 0⟩
def dormantCount : Reg := ⟨0x2100 * 256 + 8, 0⟩
def pllLock : Reg := ⟨0x2101 * 256 + 1, 15⟩
def refNominal : Reg := ⟨0x2101 * 256 + 2, 24576000⟩
def pllUnlocks : Reg := ⟨0x2101 * 256 + 3, 0⟩
def slate : Reg := ⟨0x2102 * 256 + 1, 0⟩
def epoch : Reg := ⟨0x2102 * 256 + 2, 0⟩
def wakeSlate : Reg := ⟨0x2102 * 256 + 3, 0⟩
def vinMv : Reg := ⟨0x2103 * 256 + 1, 0⟩
def vcoreMv : Reg := ⟨0x2103 * 256 + 2, 0⟩
def holdSafe : Reg := ⟨0x2103 * 256 + 3, 0⟩
def vinMinMv : Reg := ⟨0x2103 * 256 + 4, 65535⟩
def holdCount : Reg := ⟨0x2103 * 256 + 5, 0⟩
def supplyClear : Reg := ⟨0x2103 * 256 + 6, 0⟩
def portEnable (n : Nat) : Reg := ⟨(0x2200 + 16 * n) * 256 + 1, 0⟩
def portFormat (n : Nat) : Reg := ⟨(0x2200 + 16 * n) * 256 + 2, 41⟩
def portRate (n : Nat) : Reg := ⟨(0x2200 + 16 * n) * 256 + 3, 48000⟩
def portInMask (n : Nat) : Reg := ⟨(0x2200 + 16 * n) * 256 + 4, 65535⟩
def portOutMask (n : Nat) : Reg := ⟨(0x2200 + 16 * n) * 256 + 5, 65535⟩
def portClock (n : Nat) : Reg := ⟨(0x2200 + 16 * n) * 256 + 6, 0⟩
def portPreroll (n : Nat) : Reg := ⟨(0x2200 + 16 * n) * 256 + 7, 64⟩
def zcTimeout (n : Nat) : Reg := ⟨(0x2200 + 16 * n) * 256 + 8, 10⟩
def portTest (n : Nat) : Reg := ⟨(0x2200 + 16 * n) * 256 + 9, 0⟩
def portState (n : Nat) : Reg := ⟨(0x2201 + 16 * n) * 256 + 1, 0⟩
def portRateMeas (n : Nat) : Reg := ⟨(0x2201 + 16 * n) * 256 + 2, 0⟩
def stopCount (n : Nat) : Reg := ⟨(0x2201 + 16 * n) * 256 + 3, 0⟩
def rateChanges (n : Nat) : Reg := ⟨(0x2201 + 16 * n) * 256 + 4, 0⟩
def glitchCount (n : Nat) : Reg := ⟨(0x2201 + 16 * n) * 256 + 5, 0⟩
def glitchFades (n : Nat) : Reg := ⟨(0x2201 + 16 * n) * 256 + 6, 0⟩
def inOverruns (n : Nat) : Reg := ⟨(0x2201 + 16 * n) * 256 + 7, 0⟩
def outUnderruns (n : Nat) : Reg := ⟨(0x2201 + 16 * n) * 256 + 8, 0⟩
def lateDiscards (n : Nat) : Reg := ⟨(0x2201 + 16 * n) * 256 + 9, 0⟩
def zcTimeouts (n : Nat) : Reg := ⟨(0x2201 + 16 * n) * 256 + 10, 0⟩
def sharedErrors (n : Nat) : Reg := ⟨(0x2201 + 16 * n) * 256 + 11, 0⟩
def portFaults (n : Nat) : Reg := ⟨(0x2201 + 16 * n) * 256 + 12, 0⟩
def portClear (n : Nat) : Reg := ⟨(0x2201 + 16 * n) * 256 + 13, 0⟩
def inRingAddr (n : Nat) : Reg := ⟨(0x2202 + 16 * n) * 256 + 1, 4194304⟩
def inRingDepth (n : Nat) : Reg := ⟨(0x2202 + 16 * n) * 256 + 2, 4⟩
def outRingAddr (n : Nat) : Reg := ⟨(0x2202 + 16 * n) * 256 + 3, 4194304⟩
def outRingDepth (n : Nat) : Reg := ⟨(0x2202 + 16 * n) * 256 + 4, 4⟩
def blockSize (n : Nat) : Reg := ⟨(0x2202 + 16 * n) * 256 + 5, 1⟩
def inEdge (n : Nat) : Reg := ⟨(0x2202 + 16 * n) * 256 + 6, 65535⟩
def outEdge (n : Nat) : Reg := ⟨(0x2202 + 16 * n) * 256 + 7, 65535⟩
def streamEnable (n : Nat) : Reg := ⟨(0x2202 + 16 * n) * 256 + 8, 0⟩
def leader : Reg := ⟨0x2260 * 256 + 1, 255⟩
def steerBw : Reg := ⟨0x2260 * 256 + 2, 2⟩
def steerOffset : Reg := ⟨0x2260 * 256 + 3, 0⟩
def steerManual : Reg := ⟨0x2260 * 256 + 4, 0⟩
def steerState : Reg := ⟨0x2260 * 256 + 5, 0⟩
def steerError : Reg := ⟨0x2260 * 256 + 6, 0⟩
def steerClamps : Reg := ⟨0x2260 * 256 + 7, 0⟩
def trimGain (n j : Nat) : Reg := ⟨(0x2270 + n) * 256 + 1 + j, 13835058052060938240⟩
def routing (n j : Nat) : Reg := ⟨(0x2400 + n) * 256 + 1 + j, guardOf (0x80 + 16 * n + j)⟩
def mute (n j : Nat) : Reg := ⟨(0x2410 + n) * 256 + 1 + j, 18446744069414584320⟩
def ceiling (n j : Nat) : Reg := ⟨(0x2420 + n) * 256 + 1 + j, 9223372039002259455⟩
def outFade (n j : Nat) : Reg := ⟨(0x2430 + n) * 256 + 1 + j, 18446743931975630880⟩
def inFade (n j : Nat) : Reg := ⟨(0x2440 + n) * 256 + 1 + j, 18446743931975630880⟩
def laneState (n : Nat) : Reg := ⟨(0x2600 + n) * 256 + 1, 0⟩
def triggerGroup (n : Nat) : Reg := ⟨(0x2600 + n) * 256 + 2, 255⟩
def laneEnable (n : Nat) : Reg := ⟨(0x2600 + n) * 256 + 3, 1⟩
def programSlots (n : Nat) : Reg := ⟨(0x2600 + n) * 256 + 4, 0⟩
def takeCount (n : Nat) : Reg := ⟨(0x2600 + n) * 256 + 5, 0⟩
def missedTakes (n : Nat) : Reg := ⟨(0x2600 + n) * 256 + 6, 0⟩
def lastMissSlate (n : Nat) : Reg := ⟨(0x2600 + n) * 256 + 7, 0⟩
def laneFaults (n : Nat) : Reg := ⟨(0x2600 + n) * 256 + 8, 0⟩
def firstUdSlot (n : Nat) : Reg := ⟨(0x2600 + n) * 256 + 9, 65535⟩
def laneClear (n : Nat) : Reg := ⟨(0x2600 + n) * 256 + 10, 0⟩
def faultSafeMask (n : Nat) : Reg := ⟨(0x2600 + n) * 256 + 11, 0⟩
def safeRequest (n : Nat) : Reg := ⟨(0x2600 + n) * 256 + 12, 0⟩
def farGrant (n : Nat) : Reg := ⟨(0x2600 + n) * 256 + 13, 0⟩
def farRefused (n : Nat) : Reg := ⟨(0x2600 + n) * 256 + 14, 0⟩
def xchRefused (n : Nat) : Reg := ⟨(0x2600 + n) * 256 + 15, 0⟩
def udCount (n : Nat) : Reg := ⟨(0x2600 + n) * 256 + 16, 0⟩
def drangeCount (n : Nat) : Reg := ⟨(0x2600 + n) * 256 + 17, 0⟩
def guardCount (n : Nat) : Reg := ⟨(0x2600 + n) * 256 + 18, 0⟩
def safeTakes (n : Nat) : Reg := ⟨(0x2600 + n) * 256 + 19, 0⟩
def satTakes (n : Nat) : Reg := ⟨(0x2600 + n) * 256 + 20, 0⟩
def outMask (n : Nat) : Reg := ⟨(0x2600 + n) * 256 + 21, 0⟩
def tgSource (n : Nat) : Reg := ⟨(0x2680 + n) * 256 + 1, 0⟩
def tgLength (n : Nat) : Reg := ⟨(0x2680 + n) * 256 + 2, 1⟩
def tgBudget (n : Nat) : Reg := ⟨(0x2680 + n) * 256 + 3, 0⟩
def tgHouseM (n : Nat) : Reg := ⟨(0x2680 + n) * 256 + 4, 1⟩
def tgHouseN (n : Nat) : Reg := ⟨(0x2680 + n) * 256 + 5, 512⟩
def tgLanes (n : Nat) : Reg := ⟨(0x2680 + n) * 256 + 6, 0⟩
def tgXchBanks (n : Nat) : Reg := ⟨(0x2680 + n) * 256 + 7, 0⟩
def phaseB (n j : Nat) : Reg := ⟨(0x26C0 + n) * 256 + 1 + j, 0⟩
def splMaskLo (p : Nat) : Reg := ⟨0x2800 * 256 + 1 + (p + 1) * 2 ^ 24, 18446744069414584320⟩
def splMaskHi (p : Nat) : Reg := ⟨0x2800 * 256 + 2 + (p + 1) * 2 ^ 24, 18446744069414584320⟩
def splSlate (p : Nat) : Reg := ⟨0x2800 * 256 + 3 + (p + 1) * 2 ^ 24, 0⟩
def splCtrl : Reg := ⟨0x2800 * 256 + 4, 18446744069414584320⟩
def splResult (p : Nat) : Reg := ⟨0x2800 * 256 + 5 + (p + 1) * 2 ^ 24, 0⟩
def splHandle (p : Nat) : Reg := ⟨0x2800 * 256 + 6 + (p + 1) * 2 ^ 24, 0⟩
def splPending : Reg := ⟨0x2801 * 256 + 1, 0⟩
def splCopying : Reg := ⟨0x2801 * 256 + 2, 0⟩
def splGliding : Reg := ⟨0x2801 * 256 + 3, 0⟩
def splRequests : Reg := ⟨0x2801 * 256 + 4, 0⟩
def splRefused : Reg := ⟨0x2801 * 256 + 5, 0⟩
def glide (n j : Nat) : Reg := ⟨(0x2840 + n) * 256 + 1 + j, 0⟩
def guardBitmap (n : Nat) : Reg := ⟨(0x2880 + n) * 256 + 0, 0⟩
def liveSide (n : Nat) : Reg := ⟨(0x28C0 + n) * 256 + 1, 0⟩
def flipSlate (n : Nat) : Reg := ⟨(0x28C0 + n) * 256 + 2, 0⟩
def flipCount (n : Nat) : Reg := ⟨(0x28C0 + n) * 256 + 3, 0⟩
def lateFlips (n : Nat) : Reg := ⟨(0x28C0 + n) * 256 + 4, 0⟩
def spliceSlips (n : Nat) : Reg := ⟨(0x28C0 + n) * 256 + 5, 0⟩
def copyWords (n : Nat) : Reg := ⟨(0x28C0 + n) * 256 + 6, 0⟩
def dtEntry (n j : Nat) : Reg := ⟨(0x2A00 + n) * 256 + 1 + j, 0⟩
def dtValid (n : Nat) : Reg := ⟨(0x2A00 + n) * 256 + 17, 0⟩
def dtClear (n : Nat) : Reg := ⟨(0x2A00 + n) * 256 + 18, 0⟩
def dtEntryCore (n j : Nat) : Reg := ⟨(0x2A10 + n) * 256 + 1 + j, 0⟩
def dtValidCore (n : Nat) : Reg := ⟨(0x2A10 + n) * 256 + 17, 0⟩
def dtClearCore (n : Nat) : Reg := ⟨(0x2A10 + n) * 256 + 18, 0⟩
def schNodesUsed : Reg := ⟨0x3000 * 256 + 1, 0⟩
def schTokenSlots : Reg := ⟨0x3000 * 256 + 2, 0⟩
def schReady : Reg := ⟨0x3000 * 256 + 3, 0⟩
def schInflight : Reg := ⟨0x3000 * 256 + 4, 0⟩
def schWaiting : Reg := ⟨0x3000 * 256 + 5, 0⟩
def schHoldLimit : Reg := ⟨0x3000 * 256 + 6, 1000⟩
def schRefused : Reg := ⟨0x3000 * 256 + 7, 0⟩
def schFaults : Reg := ⟨0x3000 * 256 + 8, 0⟩
def schClear : Reg := ⟨0x3000 * 256 + 9, 0⟩
def schHoldOver : Reg := ⟨0x3000 * 256 + 10, 0⟩
def nodeSel (p : Nat) : Reg := ⟨0x3001 * 256 + 1 + (p + 1) * 2 ^ 24, 0⟩
def nodeHome (i : Nat) : Reg := ⟨0x3001 * 256 + 2 + (i + 1) * 2 ^ 40, 4194304⟩
def nodeEnable (i : Nat) : Reg := ⟨0x3001 * 256 + 3 + (i + 1) * 2 ^ 40, 0⟩
def nodeState (i : Nat) : Reg := ⟨0x3001 * 256 + 4 + (i + 1) * 2 ^ 40, 0⟩
def nodeResult (i : Nat) : Reg := ⟨0x3001 * 256 + 5 + (i + 1) * 2 ^ 40, 0⟩
def nodeFirings (i : Nat) : Reg := ⟨0x3001 * 256 + 6 + (i + 1) * 2 ^ 40, 0⟩
def nodeFails (i : Nat) : Reg := ⟨0x3001 * 256 + 7 + (i + 1) * 2 ^ 40, 0⟩
def nodeLastStatus (i : Nat) : Reg := ⟨0x3001 * 256 + 8 + (i + 1) * 2 ^ 40, 0⟩
def nodeVoids (i : Nat) : Reg := ⟨0x3001 * 256 + 9 + (i + 1) * 2 ^ 40, 0⟩
def nodeReruns (i : Nat) : Reg := ⟨0x3001 * 256 + 10 + (i + 1) * 2 ^ 40, 0⟩
def nodeHeldBy (i : Nat) : Reg := ⟨0x3001 * 256 + 11 + (i + 1) * 2 ^ 40, 255⟩
def nodeClear (i : Nat) : Reg := ⟨0x3001 * 256 + 12 + (i + 1) * 2 ^ 40, 0⟩
def edgeSel (p : Nat) : Reg := ⟨0x3002 * 256 + 1 + (p + 1) * 2 ^ 24, 0⟩
def edgeBase (i : Nat) : Reg := ⟨0x3002 * 256 + 2 + (i + 1) * 2 ^ 40, 0⟩
def edgeDepth (i : Nat) : Reg := ⟨0x3002 * 256 + 3 + (i + 1) * 2 ^ 40, 4⟩
def edgePosBytes (i : Nat) : Reg := ⟨0x3002 * 256 + 4 + (i + 1) * 2 ^ 40, 64⟩
def edgeEnable (i : Nat) : Reg := ⟨0x3002 * 256 + 5 + (i + 1) * 2 ^ 40, 0⟩
def edgeTokens (i : Nat) : Reg := ⟨0x3002 * 256 + 6 + (i + 1) * 2 ^ 40, 0⟩
def edgeCredit (i : Nat) : Reg := ⟨0x3002 * 256 + 7 + (i + 1) * 2 ^ 40, 0⟩
def edgeBound (i : Nat) : Reg := ⟨0x3002 * 256 + 8 + (i + 1) * 2 ^ 40, 0⟩
def edgePosted (i : Nat) : Reg := ⟨0x3002 * 256 + 9 + (i + 1) * 2 ^ 40, 0⟩
def edgeResult (i : Nat) : Reg := ⟨0x3002 * 256 + 10 + (i + 1) * 2 ^ 40, 0⟩
def edgeClear (i : Nat) : Reg := ⟨0x3002 * 256 + 11 + (i + 1) * 2 ^ 40, 0⟩
def rpEnable (q : Nat) : Reg := ⟨(0x3080 + q / 2) * 256 + 1 + 32 * (q % 2), 0⟩
def rpSendAddr (q : Nat) : Reg := ⟨(0x3080 + q / 2) * 256 + 2 + 32 * (q % 2), 4194304⟩
def rpReturnAddr (q : Nat) : Reg := ⟨(0x3080 + q / 2) * 256 + 3 + 32 * (q % 2), 4194304⟩
def rpBlock (q : Nat) : Reg := ⟨(0x3080 + q / 2) * 256 + 4 + 32 * (q % 2), 1⟩
def rpDepth (q : Nat) : Reg := ⟨(0x3080 + q / 2) * 256 + 5 + 32 * (q % 2), 2⟩
def rpChannels (q : Nat) : Reg := ⟨(0x3080 + q / 2) * 256 + 6 + 32 * (q % 2), 1⟩
def rpRate (q : Nat) : Reg := ⟨(0x3080 + q / 2) * 256 + 7 + 32 * (q % 2), 48000⟩
def rpSendEdge (q : Nat) : Reg := ⟨(0x3080 + q / 2) * 256 + 8 + 32 * (q % 2), 65535⟩
def rpReturnEdge (q : Nat) : Reg := ⟨(0x3080 + q / 2) * 256 + 9 + 32 * (q % 2), 65535⟩
def rpFadeOut (q : Nat) : Reg := ⟨(0x3080 + q / 2) * 256 + 10 + 32 * (q % 2), 32⟩
def rpFadeIn (q : Nat) : Reg := ⟨(0x3080 + q / 2) * 256 + 11 + 32 * (q % 2), 32⟩
def rpSendLate (q : Nat) : Reg := ⟨(0x3080 + q / 2) * 256 + 12 + 32 * (q % 2), 0⟩
def rpReturnLate (q : Nat) : Reg := ⟨(0x3080 + q / 2) * 256 + 13 + 32 * (q % 2), 0⟩
def rpResult (q : Nat) : Reg := ⟨(0x3080 + q / 2) * 256 + 14 + 32 * (q % 2), 0⟩
def dmaActive : Reg := ⟨0x3200 * 256 + 1, 0⟩
def dmaHalted : Reg := ⟨0x3200 * 256 + 2, 0⟩
def dmaBufUsed : Reg := ⟨0x3200 * 256 + 3, 0⟩
def dmaRingBase (n : Nat) : Reg := ⟨(0x3210 + n) * 256 + 1, 16777216⟩
def dmaRingSize (n : Nat) : Reg := ⟨(0x3210 + n) * 256 + 2, 16⟩
def dmaPrio (n : Nat) : Reg := ⟨(0x3210 + n) * 256 + 3, 1⟩
def dmaRetries (n : Nat) : Reg := ⟨(0x3210 + n) * 256 + 4, 3⟩
def dmaAgent (n : Nat) : Reg := ⟨(0x3210 + n) * 256 + 5, 0⟩
def dmaEnable (n : Nat) : Reg := ⟨(0x3210 + n) * 256 + 6, 0⟩
def dmaCmd (n : Nat) : Reg := ⟨(0x3210 + n) * 256 + 7, 0⟩
def dmaState (n : Nat) : Reg := ⟨(0x3210 + n) * 256 + 8, 0⟩
def dmaHead (n : Nat) : Reg := ⟨(0x3210 + n) * 256 + 9, 0⟩
def dmaDone (n : Nat) : Reg := ⟨(0x3210 + n) * 256 + 10, 0⟩
def dmaBytes (n : Nat) : Reg := ⟨(0x3210 + n) * 256 + 11, 0⟩
def dmaRetried (n : Nat) : Reg := ⟨(0x3210 + n) * 256 + 12, 0⟩
def dmaLastStatus (n : Nat) : Reg := ⟨(0x3210 + n) * 256 + 13, 0⟩
def dmaFaults (n : Nat) : Reg := ⟨(0x3210 + n) * 256 + 14, 0⟩
def dmaClear (n : Nat) : Reg := ⟨(0x3210 + n) * 256 + 15, 0⟩
def pgOwner (n : Nat) : Reg := ⟨(0x3410 + n) * 256 + 1, 0⟩
def pgState (n : Nat) : Reg := ⟨(0x3410 + n) * 256 + 2, 0⟩
def pgPower (n : Nat) : Reg := ⟨(0x3410 + n) * 256 + 3, 1⟩
def pgCompat (n : Nat) : Reg := ⟨(0x3410 + n) * 256 + 4, 0⟩
def pgClashes (n : Nat) : Reg := ⟨(0x3410 + n) * 256 + 5, 0⟩
def pgRefused (n : Nat) : Reg := ⟨(0x3410 + n) * 256 + 6, 0⟩
def pgHandovers (n : Nat) : Reg := ⟨(0x3410 + n) * 256 + 7, 0⟩
def pgClear (n : Nat) : Reg := ⟨(0x3410 + n) * 256 + 8, 0⟩
def dramSize : Reg := ⟨0x3420 * 256 + 1, 0⟩
def dramReadRate : Reg := ⟨0x3420 * 256 + 2, 0⟩
def dramWriteRate : Reg := ⟨0x3420 * 256 + 3, 0⟩
def dramCorrected : Reg := ⟨0x3420 * 256 + 4, 0⟩
def dramUncorrected : Reg := ⟨0x3420 * 256 + 5, 0⟩
def dramRange : Reg := ⟨0x3420 * 256 + 6, 0⟩
def cpEnable (q : Nat) : Reg := ⟨(0x3600 + q / 2) * 256 + 1 + 32 * (q % 2), 0⟩
def cpMode (q : Nat) : Reg := ⟨(0x3600 + q / 2) * 256 + 2 + 32 * (q % 2), 0⟩
def cpRing (q : Nat) : Reg := ⟨(0x3600 + q / 2) * 256 + 3 + 32 * (q % 2), 0⟩
def cpHead (q : Nat) : Reg := ⟨(0x3600 + q / 2) * 256 + 4 + 32 * (q % 2), 128⟩
def cpLength (q : Nat) : Reg := ⟨(0x3600 + q / 2) * 256 + 5 + 32 * (q % 2), 131072⟩
def cpBase (q : Nat) : Reg := ⟨(0x3600 + q / 2) * 256 + 6 + 32 * (q % 2), 0⟩
def cpPrio (q : Nat) : Reg := ⟨(0x3600 + q / 2) * 256 + 7 + 32 * (q % 2), 6⟩
def cpGain (q : Nat) : Reg := ⟨(0x3600 + q / 2) * 256 + 8 + 32 * (q % 2), 1065353216⟩
def cpState (q : Nat) : Reg := ⟨(0x3600 + q / 2) * 256 + 9 + 32 * (q % 2), 0⟩
def cpResult (q : Nat) : Reg := ⟨(0x3600 + q / 2) * 256 + 10 + 32 * (q % 2), 0⟩
def cpParts (q : Nat) : Reg := ⟨(0x3600 + q / 2) * 256 + 11 + 32 * (q % 2), 0⟩
def cpRungs (q : Nat) : Reg := ⟨(0x3600 + q / 2) * 256 + 12 + 32 * (q % 2), 0⟩
def cpFootprint (q : Nat) : Reg := ⟨(0x3600 + q / 2) * 256 + 13 + 32 * (q % 2), 0⟩
def cpReads (q : Nat) : Reg := ⟨(0x3600 + q / 2) * 256 + 14 + 32 * (q % 2), 0⟩
def cpLate (q : Nat) : Reg := ⟨(0x3600 + q / 2) * 256 + 15 + 32 * (q % 2), 0⟩
def cpSat (q : Nat) : Reg := ⟨(0x3600 + q / 2) * 256 + 16 + 32 * (q % 2), 0⟩
def cpLoaded (q : Nat) : Reg := ⟨(0x3600 + q / 2) * 256 + 17 + 32 * (q % 2), 0⟩
def irPath : Reg := ⟨0x3680 * 256 + 1, 0⟩
def irSource : Reg := ⟨0x3680 * 256 + 2, 0⟩
def irFormat : Reg := ⟨0x3680 * 256 + 3, 0⟩
def irCtrl : Reg := ⟨0x3680 * 256 + 4, 0⟩
def irHandle : Reg := ⟨0x3680 * 256 + 5, 0⟩
def cxState (n : Nat) : Reg := ⟨(0x3690 + n) * 256 + 1, 0⟩
def cxNodes (n : Nat) : Reg := ⟨(0x3690 + n) * 256 + 2, 0⟩
def cxBusy (n : Nat) : Reg := ⟨(0x3690 + n) * 256 + 3, 0⟩
def cxResets (n : Nat) : Reg := ⟨(0x3690 + n) * 256 + 4, 0⟩
def tailReadLimit : Reg := ⟨0x36A0 * 256 + 1, 6400000⟩
def tailReadUsed : Reg := ⟨0x36A0 * 256 + 2, 0⟩
def asEnable (n : Nat) : Reg := ⟨(0x3800 + n) * 256 + 1, 0⟩
def asMode (n : Nat) : Reg := ⟨(0x3800 + n) * 256 + 2, 0⟩
def asGroup (n : Nat) : Reg := ⟨(0x3800 + n) * 256 + 3, 0⟩
def asRate (n : Nat) : Reg := ⟨(0x3800 + n) * 256 + 4, 48000⟩
def asSrcRate (n : Nat) : Reg := ⟨(0x3800 + n) * 256 + 5, 48000⟩
def asHouseAddr (n : Nat) : Reg := ⟨(0x3800 + n) * 256 + 6, 4194304⟩
def asHouseDepth (n : Nat) : Reg := ⟨(0x3800 + n) * 256 + 7, 4⟩
def asHouseBlock (n : Nat) : Reg := ⟨(0x3800 + n) * 256 + 8, 1⟩
def asSrcAddr (n : Nat) : Reg := ⟨(0x3800 + n) * 256 + 9, 4194304⟩
def asSrcDepth (n : Nat) : Reg := ⟨(0x3800 + n) * 256 + 10, 4⟩
def asChannels (n : Nat) : Reg := ⟨(0x3800 + n) * 256 + 11, 2⟩
def asEdge (n : Nat) : Reg := ⟨(0x3800 + n) * 256 + 12, 65535⟩
def asDelay (n : Nat) : Reg := ⟨(0x3800 + n) * 256 + 13, 300000⟩
def asBw (n : Nat) : Reg := ⟨(0x3800 + n) * 256 + 14, 2⟩
def asFade (n : Nat) : Reg := ⟨(0x3800 + n) * 256 + 15, 32⟩
def asState (n : Nat) : Reg := ⟨(0x3800 + n) * 256 + 16, 0⟩
def asRatio (n : Nat) : Reg := ⟨(0x3800 + n) * 256 + 17, 0⟩
def asUnderflows (n : Nat) : Reg := ⟨(0x3800 + n) * 256 + 18, 0⟩
def asOverflows (n : Nat) : Reg := ⟨(0x3800 + n) * 256 + 19, 0⟩
def asLoad : Reg := ⟨0x3880 * 256 + 1, 0⟩
def asLoadLimit : Reg := ⟨0x3880 * 256 + 2, 18432000⟩
def asResult : Reg := ⟨0x3880 * 256 + 3, 0⟩
def asResets : Reg := ⟨0x3880 * 256 + 4, 0⟩
def fltActiveClasses : Reg := ⟨0x3A00 * 256 + 1, 0⟩
def fltLogHead : Reg := ⟨0x3A00 * 256 + 2, 0⟩
def fltLogCount : Reg := ⟨0x3A00 * 256 + 3, 0⟩
def fltLost : Reg := ⟨0x3A00 * 256 + 4, 0⟩
def brownEvents : Reg := ⟨0x3A00 * 256 + 5, 0⟩
def fltClear : Reg := ⟨0x3A00 * 256 + 6, 0⟩
def fltMeterClass : Reg := ⟨0x3A00 * 256 + 7, 0⟩
def fltTotal : Reg := ⟨0x3A00 * 256 + 8, 0⟩
def fltLast : Reg := ⟨0x3A00 * 256 + 9, 0⟩
def fltLog (j : Nat) : Reg := ⟨0x3A00 * 256 + 17 + j, 0⟩
def supPolicy : Reg := ⟨0x3A01 * 256 + 1, 5⟩
def supGrace : Reg := ⟨0x3A01 * 256 + 2, 100⟩
def supEngineLimit : Reg := ⟨0x3A01 * 256 + 3, 2000⟩
def supRevoke : Reg := ⟨0x3A01 * 256 + 4, 0⟩
def supCmd : Reg := ⟨0x3A01 * 256 + 5, 0⟩
def supResult : Reg := ⟨0x3A01 * 256 + 6, 0⟩
def supActions : Reg := ⟨0x3A01 * 256 + 7, 0⟩
def wdtPeriod : Reg := ⟨0x3A02 * 256 + 1, 1000⟩
def wdtRemain : Reg := ⟨0x3A02 * 256 + 2, 0⟩
def coreState (n : Nat) : Reg := ⟨(0x3A40 + n) * 256 + 1, 0⟩
def coreCmd (n : Nat) : Reg := ⟨(0x3A40 + n) * 256 + 2, 0⟩
def coreResets (n : Nat) : Reg := ⟨(0x3A40 + n) * 256 + 3, 0⟩
def coreBusy (n : Nat) : Reg := ⟨(0x3A40 + n) * 256 + 4, 0⟩
def coreFaults (n : Nat) : Reg := ⟨(0x3A40 + n) * 256 + 5, 0⟩
def coreClear (n : Nat) : Reg := ⟨(0x3A40 + n) * 256 + 6, 0⟩
def meterMode : Reg := ⟨0x3C00 * 256 + 1, 0⟩
def meterChannel : Reg := ⟨0x3C00 * 256 + 2, 0⟩
def meterMv : Reg := ⟨0x3C00 * 256 + 3, 0⟩
def conEcho : Reg := ⟨0x3C10 * 256 + 1, 1⟩
def conLines : Reg := ⟨0x3C10 * 256 + 2, 0⟩
def conOverruns : Reg := ⟨0x3C10 * 256 + 3, 0⟩
def bistSelect : Reg := ⟨0x3C20 * 256 + 1, 9⟩
def bistArg : Reg := ⟨0x3C20 * 256 + 2, 0⟩
def bistCtrl : Reg := ⟨0x3C20 * 256 + 3, 0⟩
def bistState : Reg := ⟨0x3C20 * 256 + 4, 0⟩
def bistHandle : Reg := ⟨0x3C20 * 256 + 5, 0⟩
def bistResult : Reg := ⟨0x3C20 * 256 + 6, 0⟩
def toneChannel : Reg := ⟨0x3C40 * 256 + 1, 255⟩
def toneFreq : Reg := ⟨0x3C40 * 256 + 2, 1000⟩
def toneLevel : Reg := ⟨0x3C40 * 256 + 3, 63536⟩
def levelChannel : Reg := ⟨0x3C40 * 256 + 4, 0⟩
def levelPeak : Reg := ⟨0x3C40 * 256 + 5, 53536⟩
def levelRms : Reg := ⟨0x3C40 * 256 + 6, 53536⟩
def cdcDiv : Reg := ⟨0x3C60 * 256 + 1, 20⟩
def cdcEntry : Reg := ⟨0x3C60 * 256 + 2, 0⟩
def cdcQueued : Reg := ⟨0x3C60 * 256 + 3, 0⟩
def cdcDone : Reg := ⟨0x3C60 * 256 + 4, 0⟩
def cdcDoneTag : Reg := ⟨0x3C60 * 256 + 5, 0⟩
def cdcRxCount : Reg := ⟨0x3C60 * 256 + 6, 0⟩
def cdcRxWord : Reg := ⟨0x3C60 * 256 + 7, 0⟩
def cdcRxBlock : Reg := ⟨0x3C60 * 256 + 8, 0⟩
def cdcRxLost : Reg := ⟨0x3C60 * 256 + 9, 0⟩
def cdcRefused : Reg := ⟨0x3C60 * 256 + 10, 0⟩
def cdcFlush : Reg := ⟨0x3C60 * 256 + 11, 0⟩
def cdcTx (j : Nat) : Reg := ⟨0x3C61 * 256 + 1 + j, 0⟩
def unitPubkey : Reg := ⟨0x3E00 * 256 + 1, 0⟩
def unitCert : Reg := ⟨0x3E00 * 256 + 2, 0⟩
def interCert : Reg := ⟨0x3E00 * 256 + 3, 0⟩
def custKey (j : Nat) : Reg := ⟨0x3E01 * 256 + 1 + j, 0⟩
def showQuorum : Reg := ⟨0x3E01 * 256 + 5, 0⟩
def attNonce : Reg := ⟨0x3E02 * 256 + 1, 0⟩
def attState : Reg := ⟨0x3E02 * 256 + 2, 0⟩
def attReport : Reg := ⟨0x3E02 * 256 + 3, 0⟩
def dbgChallenge : Reg := ⟨0x3E03 * 256 + 1, 0⟩
def dbgToken : Reg := ⟨0x3E03 * 256 + 2, 0⟩
def dbgScope : Reg := ⟨0x3E03 * 256 + 3, 0⟩
def dbgLock : Reg := ⟨0x3E03 * 256 + 4, 0⟩
def dbgResult : Reg := ⟨0x3E03 * 256 + 5, 0⟩
def vfyTarget : Reg := ⟨0x3E04 * 256 + 1, 0⟩
def vfyCtrl : Reg := ⟨0x3E04 * 256 + 2, 0⟩
def vfyHandle : Reg := ⟨0x3E04 * 256 + 3, 0⟩
def vfyResult : Reg := ⟨0x3E04 * 256 + 4, 0⟩
def fullErase : Reg := ⟨0x3E05 * 256 + 1, 0⟩
def handlesOut : Reg := ⟨0x5F00 * 256 + 1, 0⟩
def lastHandle (p : Nat) : Reg := ⟨0x5F00 * 256 + 2 + (p + 1) * 2 ^ 24, 0⟩
def handleQuery (p : Nat) : Reg := ⟨0x5F00 * 256 + 3 + (p + 1) * 2 ^ 24, 0⟩
def handleState : Reg := ⟨0x5F00 * 256 + 4, 0⟩
def handleCancel : Reg := ⟨0x5F00 * 256 + 5, 0⟩
def handlesRefused : Reg := ⟨0x5F00 * 256 + 6, 0⟩
def hvHead : Reg := ⟨0x5F01 * 256 + 1, 0⟩
def hvTail : Reg := ⟨0x5F01 * 256 + 2, 0⟩
def hvUsed : Reg := ⟨0x5F01 * 256 + 3, 0⟩
def hvRecord : Reg := ⟨0x5F01 * 256 + 4, 0⟩
def hvSel (p : Nat) : Reg := ⟨0x5F01 * 256 + 5 + (p + 1) * 2 ^ 24, 0⟩
def hvEntry : Reg := ⟨0x5F01 * 256 + 6, 0⟩
def hvNoticesLost : Reg := ⟨0x5F01 * 256 + 7, 0⟩
def hvTpdoLost : Reg := ⟨0x5F01 * 256 + 8, 0⟩

end Obj

/-- Objects 0x1000 to 0x2003. -/
def objRows0 : List ObjRow := [
  ⟨0x1000, 1, 1, 0, 1, .uint 4, .const, 0, .any⟩,
  ⟨0x1001, 1, 1, 0, 1, .uint 1, .ro, 0, .any⟩,
  ⟨0x1003, 1, 1, 0, 1, .uint 4, .rw, 0, .range 0 0⟩,
  ⟨0x1003, 1, 1, 1, 16, .uint 4, .ro, 0, .any⟩,
  ⟨0x1005, 1, 1, 0, 1, .uint 4, .rws, 128, .any⟩,
  ⟨0x1006, 1, 1, 0, 1, .uint 4, .rws, 0, .any⟩,
  ⟨0x1008, 1, 1, 0, 1, .vstring, .const, 0, .any⟩,
  ⟨0x1009, 1, 1, 0, 1, .vstring, .const, 0, .any⟩,
  ⟨0x100A, 1, 1, 0, 1, .vstring, .const, 0, .any⟩,
  ⟨0x1010, 1, 1, 0, 1, .uint 1, .const, 3, .any⟩,
  ⟨0x1010, 1, 1, 1, 3, .uint 4, .rw, 1, .any⟩,
  ⟨0x1011, 1, 1, 0, 1, .uint 1, .const, 3, .any⟩,
  ⟨0x1011, 1, 1, 1, 3, .uint 4, .rw, 1, .any⟩,
  ⟨0x1014, 1, 1, 0, 1, .uint 4, .rws, byNode + 0x80, .any⟩,
  ⟨0x1015, 1, 1, 0, 1, .uint 2, .rws, 0, .any⟩,
  ⟨0x1016, 1, 1, 0, 1, .uint 1, .const, 4, .any⟩,
  ⟨0x1016, 1, 1, 1, 4, .uint 4, .rws, 0, .any⟩,
  ⟨0x1017, 1, 1, 0, 1, .uint 2, .rws, 0, .any⟩,
  ⟨0x1018, 1, 1, 0, 1, .uint 1, .const, 4, .any⟩,
  ⟨0x1018, 1, 1, 1, 4, .uint 4, .const, 0, .any⟩,
  ⟨0x1019, 1, 1, 0, 1, .uint 1, .rws, 0, .custom⟩,
  ⟨0x1029, 1, 1, 0, 1, .uint 1, .const, 1, .any⟩,
  ⟨0x1029, 1, 1, 1, 1, .uint 1, .rws, 0, .range 0 2⟩,
  ⟨0x1400, 16, 1, 0, 1, .uint 1, .const, 2, .any⟩,
  ⟨0x1400, 16, 1, 1, 1, .uint 4, .rws, 2147483648, .any⟩,
  ⟨0x1400, 16, 1, 2, 1, .uint 1, .rws, 255, .custom⟩,
  ⟨0x1600, 16, 1, 0, 1, .uint 1, .rws, 0, .range 0 64⟩,
  ⟨0x1600, 16, 1, 1, 64, .uint 4, .rws, 0, .any⟩,
  ⟨0x1800, 16, 1, 0, 1, .uint 1, .const, 5, .any⟩,
  ⟨0x1800, 15, 1, 1, 1, .uint 4, .rws, 0x80000000, .any⟩,
  ⟨0x180F, 1, 1, 1, 1, .uint 4, .rws, byNode + 0x80000480, .any⟩,
  ⟨0x1800, 15, 1, 2, 1, .uint 1, .rws, 255, .custom⟩,
  ⟨0x180F, 1, 1, 2, 1, .uint 1, .const, 255, .any⟩,
  ⟨0x1800, 16, 1, 3, 1, .uint 2, .rws, 0, .any⟩,
  ⟨0x1800, 16, 1, 5, 1, .uint 2, .rws, 0, .any⟩,
  ⟨0x1A00, 15, 1, 0, 1, .uint 1, .rws, 0, .range 0 64⟩,
  ⟨0x1A00, 15, 1, 1, 64, .uint 4, .rws, 0, .any⟩,
  ⟨0x1A0F, 1, 1, 0, 1, .uint 1, .const, 1, .any⟩,
  ⟨0x1A0F, 1, 1, 1, 1, .uint 4, .const, 0x5F010480, .any⟩,
  ⟨0x2002, 1, 1, 0, 1, .uint 1, .const, 3, .any⟩,
  ⟨0x2002, 1, 1, 1, 1, .guard32, .rws, 18446742974197924095, .custom⟩,
  ⟨0x2002, 1, 1, 2, 1, .guard32, .rws, 18446743992105173010, .custom⟩,
  ⟨0x2002, 1, 1, 3, 1, .uint 1, .ro, 255, .any⟩,
  ⟨0x2003, 1, 1, 0, 1, .uint 1, .const, 1, .any⟩]

/-- Objects 0x2003 to 0x2102. -/
def objRows1 : List ObjRow := [
  ⟨0x2003, 1, 1, 1, 1, .bool, .rws, 0, .range 0 1⟩,
  ⟨0x2010, 1, 1, 0, 1, .uint 1, .const, 1, .any⟩,
  ⟨0x2010, 1, 1, 1, 1, .uint 4, .wo, 0, .range 1952805746 1952805746⟩,
  ⟨0x2011, 1, 1, 0, 1, .uint 1, .const, 8, .any⟩,
  ⟨0x2011, 1, 1, 1, 1, .uint 1, .ro, 1, .any⟩,
  ⟨0x2011, 1, 1, 2, 1, .uint 1, .ro, 0, .any⟩,
  ⟨0x2011, 1, 1, 3, 1, .uint 1, .ro, 0, .any⟩,
  ⟨0x2011, 1, 1, 4, 1, .uint 1, .ro, 0, .any⟩,
  ⟨0x2011, 1, 1, 5, 1, .bool, .ro, 0, .range 0 1⟩,
  ⟨0x2011, 1, 1, 6, 1, .uint 4, .ro, 0, .any⟩,
  ⟨0x2011, 1, 1, 7, 1, .uint 4, .ro, 0, .any⟩,
  ⟨0x2011, 1, 1, 8, 1, .uint 4, .ro, 0, .any⟩,
  ⟨0x2020, 1, 1, 0, 1, .uint 1, .const, 6, .any⟩,
  ⟨0x2020, 1, 1, 1, 1, .uint 1, .rws, 0, .rangeOr 0 3 255⟩,
  ⟨0x2020, 1, 1, 2, 1, .uint 1, .wo, 0, .custom⟩,
  ⟨0x2020, 1, 1, 3, 1, .uint 8, .rw, 67108864, .mult 64⟩,
  ⟨0x2020, 1, 1, 4, 1, .uint 1, .ro, 255, .any⟩,
  ⟨0x2020, 1, 1, 5, 1, .handle16, .ro, 0, .any⟩,
  ⟨0x2020, 1, 1, 6, 1, .uint 2, .ro, 0, .any⟩,
  ⟨0x2030, 1, 1, 0, 1, .uint 1, .const, 20, .any⟩,
  ⟨0x2030, 1, 1, 1, 16, .uint 1, .rws, 0, .custom⟩,
  ⟨0x2030, 1, 1, 17, 1, .uint 2, .ro, 0, .any⟩,
  ⟨0x2030, 1, 1, 18, 1, .uint 2, .rws, 0, .any⟩,
  ⟨0x2030, 1, 1, 19, 1, .uint 2, .ro, 0, .any⟩,
  ⟨0x2030, 1, 1, 20, 1, .uint 2, .wo, 0, .any⟩,
  ⟨0x2100, 1, 1, 0, 1, .uint 1, .const, 8, .any⟩,
  ⟨0x2100, 1, 1, 1, 1, .uint 1, .ro, 0, .any⟩,
  ⟨0x2100, 1, 1, 2, 1, .uint 1, .wo, 0, .range 1 2⟩,
  ⟨0x2100, 1, 1, 3, 1, .uint 1, .rws, 15, .bits 63⟩,
  ⟨0x2100, 1, 1, 4, 1, .uint 4, .rws, 0, .any⟩,
  ⟨0x2100, 1, 1, 5, 1, .uint 1, .ro, 0, .any⟩,
  ⟨0x2100, 1, 1, 6, 1, .uint 2, .ro, 0, .any⟩,
  ⟨0x2100, 1, 1, 7, 1, .uint 4, .ro, 0, .any⟩,
  ⟨0x2100, 1, 1, 8, 1, .uint 4, .ro, 0, .any⟩,
  ⟨0x2101, 1, 1, 0, 1, .uint 1, .const, 3, .any⟩,
  ⟨0x2101, 1, 1, 1, 1, .uint 1, .ro, 15, .any⟩,
  ⟨0x2101, 1, 1, 2, 1, .uint 4, .const, 24576000, .any⟩,
  ⟨0x2101, 1, 1, 3, 1, .uint 4, .ro, 0, .any⟩,
  ⟨0x2102, 1, 1, 0, 1, .uint 1, .const, 3, .any⟩,
  ⟨0x2102, 1, 1, 1, 1, .uint 8, .ro, 0, .any⟩]

/-- Objects 0x2102 to 0x2202. -/
def objRows2 : List ObjRow := [
  ⟨0x2102, 1, 1, 2, 1, .uint 1, .ro, 0, .any⟩,
  ⟨0x2102, 1, 1, 3, 1, .uint 8, .ro, 0, .any⟩,
  ⟨0x2103, 1, 1, 0, 1, .uint 1, .const, 6, .any⟩,
  ⟨0x2103, 1, 1, 1, 1, .uint 2, .ro, 0, .any⟩,
  ⟨0x2103, 1, 1, 2, 1, .uint 2, .ro, 0, .any⟩,
  ⟨0x2103, 1, 1, 3, 1, .bool, .ro, 0, .range 0 1⟩,
  ⟨0x2103, 1, 1, 4, 1, .uint 2, .ro, 65535, .any⟩,
  ⟨0x2103, 1, 1, 5, 1, .uint 4, .ro, 0, .any⟩,
  ⟨0x2103, 1, 1, 6, 1, .uint 1, .wo, 0, .bits 3⟩,
  ⟨0x2200, 6, 16, 0, 1, .uint 1, .const, 9, .any⟩,
  ⟨0x2200, 6, 16, 1, 1, .bool, .rws, 0, .range 0 1⟩,
  ⟨0x2200, 6, 16, 2, 1, .uint 1, .rws, 41, .custom⟩,
  ⟨0x2200, 6, 16, 3, 1, .uint 4, .rws, 48000, .range 8000 192000⟩,
  ⟨0x2200, 6, 16, 4, 1, .uint 2, .rws, 65535, .any⟩,
  ⟨0x2200, 6, 16, 5, 1, .uint 2, .rws, 65535, .any⟩,
  ⟨0x2200, 6, 16, 6, 1, .uint 1, .rws, 0, .range 0 1⟩,
  ⟨0x2200, 6, 16, 7, 1, .uint 2, .rws, 64, .range 8 4096⟩,
  ⟨0x2200, 6, 16, 8, 1, .uint 1, .rws, 10, .range 1 250⟩,
  ⟨0x2200, 6, 16, 9, 1, .uint 1, .rws, 0, .range 0 1⟩,
  ⟨0x2201, 6, 16, 0, 1, .uint 1, .const, 13, .any⟩,
  ⟨0x2201, 6, 16, 1, 1, .uint 1, .ro, 0, .any⟩,
  ⟨0x2201, 6, 16, 2, 1, .uint 4, .ro, 0, .any⟩,
  ⟨0x2201, 6, 16, 3, 1, .uint 4, .ro, 0, .any⟩,
  ⟨0x2201, 6, 16, 4, 1, .uint 4, .ro, 0, .any⟩,
  ⟨0x2201, 6, 16, 5, 1, .uint 4, .ro, 0, .any⟩,
  ⟨0x2201, 6, 16, 6, 1, .uint 4, .ro, 0, .any⟩,
  ⟨0x2201, 6, 16, 7, 1, .uint 4, .ro, 0, .any⟩,
  ⟨0x2201, 6, 16, 8, 1, .uint 4, .ro, 0, .any⟩,
  ⟨0x2201, 6, 16, 9, 1, .uint 4, .ro, 0, .any⟩,
  ⟨0x2201, 6, 16, 10, 1, .uint 4, .ro, 0, .any⟩,
  ⟨0x2201, 6, 16, 11, 1, .uint 4, .ro, 0, .any⟩,
  ⟨0x2201, 6, 16, 12, 1, .uint 2, .ro, 0, .any⟩,
  ⟨0x2201, 6, 16, 13, 1, .uint 1, .wo, 0, .bits 3⟩,
  ⟨0x2202, 6, 16, 0, 1, .uint 1, .const, 8, .any⟩,
  ⟨0x2202, 6, 16, 1, 1, .uint 4, .rws, 4194304, .any⟩,
  ⟨0x2202, 6, 16, 2, 1, .uint 1, .rws, 4, .range 2 16⟩,
  ⟨0x2202, 6, 16, 3, 1, .uint 4, .rws, 4194304, .any⟩,
  ⟨0x2202, 6, 16, 4, 1, .uint 1, .rws, 4, .range 2 16⟩,
  ⟨0x2202, 6, 16, 5, 1, .uint 1, .rws, 1, .range 0 3⟩,
  ⟨0x2202, 6, 16, 6, 1, .uint 2, .rws, 65535, .rangeOr 0 1023 65535⟩]

/-- Objects 0x2202 to 0x2600. -/
def objRows3 : List ObjRow := [
  ⟨0x2202, 6, 16, 7, 1, .uint 2, .rws, 65535, .rangeOr 0 1023 65535⟩,
  ⟨0x2202, 6, 16, 8, 1, .uint 1, .rws, 0, .bits 3⟩,
  ⟨0x2260, 1, 1, 0, 1, .uint 1, .const, 7, .any⟩,
  ⟨0x2260, 1, 1, 1, 1, .uint 1, .rws, 255, .rangeOr 0 5 255⟩,
  ⟨0x2260, 1, 1, 2, 1, .uint 1, .rws, 2, .range 0 4⟩,
  ⟨0x2260, 1, 1, 3, 1, .int 4, .ro, 0, .any⟩,
  ⟨0x2260, 1, 1, 4, 1, .int 4, .rws, 0, .srange (-10000) (10000)⟩,
  ⟨0x2260, 1, 1, 5, 1, .uint 1, .ro, 0, .any⟩,
  ⟨0x2260, 1, 1, 6, 1, .int 2, .ro, 0, .any⟩,
  ⟨0x2260, 1, 1, 7, 1, .uint 4, .ro, 0, .any⟩,
  ⟨0x2270, 6, 1, 0, 1, .uint 1, .const, 16, .any⟩,
  ⟨0x2270, 6, 1, 1, 16, .guard32, .rws, 13835058052060938240, .guard 0 4294967295⟩,
  ⟨0x2400, 6, 1, 0, 1, .uint 1, .const, 16, .any⟩,
  ⟨0x2400, 6, 1, 1, 16, .guard32, .rws, 18446744069414584320, .custom⟩,
  ⟨0x2410, 6, 1, 0, 1, .uint 1, .const, 16, .any⟩,
  ⟨0x2410, 6, 1, 1, 16, .guard32, .rws, 18446744069414584320, .guard 0 1⟩,
  ⟨0x2420, 6, 1, 0, 1, .uint 1, .const, 16, .any⟩,
  ⟨0x2420, 6, 1, 1, 16, .guard32, .rws, 9223372039002259455, .guard 0 2147483647⟩,
  ⟨0x2430, 6, 1, 0, 1, .uint 1, .const, 16, .any⟩,
  ⟨0x2430, 6, 1, 1, 16, .guard32, .rws, 18446743931975630880, .guard 4 4096⟩,
  ⟨0x2440, 6, 1, 0, 1, .uint 1, .const, 16, .any⟩,
  ⟨0x2440, 6, 1, 1, 16, .guard32, .rws, 18446743931975630880, .guard 4 4096⟩,
  ⟨0x2600, 64, 1, 0, 1, .uint 1, .const, 21, .any⟩,
  ⟨0x2600, 64, 1, 1, 1, .uint 1, .ro, 0, .any⟩,
  ⟨0x2600, 64, 1, 2, 1, .uint 1, .rws, 255, .rangeOr 0 63 255⟩,
  ⟨0x2600, 64, 1, 3, 1, .bool, .rws, 1, .range 0 1⟩,
  ⟨0x2600, 64, 1, 4, 1, .uint 2, .ro, 0, .any⟩,
  ⟨0x2600, 64, 1, 5, 1, .uint 8, .ro, 0, .any⟩,
  ⟨0x2600, 64, 1, 6, 1, .uint 4, .ro, 0, .any⟩,
  ⟨0x2600, 64, 1, 7, 1, .uint 8, .ro, 0, .any⟩,
  ⟨0x2600, 64, 1, 8, 1, .uint 2, .ro, 0, .any⟩,
  ⟨0x2600, 64, 1, 9, 1, .uint 2, .ro, 65535, .any⟩,
  ⟨0x2600, 64, 1, 10, 1, .uint 1, .wo, 0, .bits 3⟩,
  ⟨0x2600, 64, 1, 11, 1, .uint 2, .rws, 0, .bits 511⟩,
  ⟨0x2600, 64, 1, 12, 1, .uint 1, .wo, 0, .range 1 2⟩,
  ⟨0x2600, 64, 1, 13, 1, .uint 1, .rws, 0, .any⟩,
  ⟨0x2600, 64, 1, 14, 1, .uint 4, .ro, 0, .any⟩,
  ⟨0x2600, 64, 1, 15, 1, .uint 4, .ro, 0, .any⟩,
  ⟨0x2600, 64, 1, 16, 1, .uint 4, .ro, 0, .any⟩,
  ⟨0x2600, 64, 1, 17, 1, .uint 4, .ro, 0, .any⟩]

/-- Objects 0x2600 to 0x2A00. -/
def objRows4 : List ObjRow := [
  ⟨0x2600, 64, 1, 18, 1, .uint 4, .ro, 0, .any⟩,
  ⟨0x2600, 64, 1, 19, 1, .uint 4, .ro, 0, .any⟩,
  ⟨0x2600, 64, 1, 20, 1, .uint 4, .ro, 0, .any⟩,
  ⟨0x2600, 64, 1, 21, 1, .octets 12, .ro, 0, .any⟩,
  ⟨0x2680, 64, 1, 0, 1, .uint 1, .const, 7, .any⟩,
  ⟨0x2680, 64, 1, 1, 1, .uint 2, .rws, 0, .custom⟩,
  ⟨0x2680, 64, 1, 2, 1, .uint 2, .rws, 1, .range 1 8192⟩,
  ⟨0x2680, 64, 1, 3, 1, .uint 2, .ro, 0, .any⟩,
  ⟨0x2680, 64, 1, 4, 1, .uint 2, .rws, 1, .range 1 65535⟩,
  ⟨0x2680, 64, 1, 5, 1, .uint 4, .rws, 512, .range 1 16777215⟩,
  ⟨0x2680, 64, 1, 6, 1, .uint 8, .ro, 0, .any⟩,
  ⟨0x2680, 64, 1, 7, 1, .uint 8, .rws, 0, .any⟩,
  ⟨0x26C0, 64, 1, 0, 1, .uint 1, .const, 7, .any⟩,
  ⟨0x26C0, 64, 1, 1, 7, .uint 2, .rws, 0, .any⟩,
  ⟨0x2800, 1, 1, 0, 1, .uint 1, .const, 6, .any⟩,
  ⟨0x2800, 1, 1, 1, 1, .guard32, .rw, 18446744069414584320, .any⟩,
  ⟨0x2800, 1, 1, 2, 1, .guard32, .rw, 18446744069414584320, .any⟩,
  ⟨0x2800, 1, 1, 3, 1, .uint 8, .rw, 0, .any⟩,
  ⟨0x2800, 1, 1, 4, 1, .guard32, .wo, 18446744069414584320, .custom⟩,
  ⟨0x2800, 1, 1, 5, 1, .uint 2, .ro, 0, .any⟩,
  ⟨0x2800, 1, 1, 6, 1, .handle16, .ro, 0, .any⟩,
  ⟨0x2801, 1, 1, 0, 1, .uint 1, .const, 5, .any⟩,
  ⟨0x2801, 1, 1, 1, 1, .uint 8, .ro, 0, .any⟩,
  ⟨0x2801, 1, 1, 2, 1, .uint 8, .ro, 0, .any⟩,
  ⟨0x2801, 1, 1, 3, 1, .uint 8, .ro, 0, .any⟩,
  ⟨0x2801, 1, 1, 4, 1, .uint 1, .ro, 0, .any⟩,
  ⟨0x2801, 1, 1, 5, 1, .uint 4, .ro, 0, .any⟩,
  ⟨0x2840, 64, 1, 0, 1, .uint 1, .const, 64, .any⟩,
  ⟨0x2840, 64, 1, 1, 64, .uint 4, .rws, 0, .custom⟩,
  ⟨0x2880, 64, 1, 0, 1, .octets 1024, .rws, 0, .custom⟩,
  ⟨0x28C0, 64, 1, 0, 1, .uint 1, .const, 6, .any⟩,
  ⟨0x28C0, 64, 1, 1, 1, .uint 1, .ro, 0, .any⟩,
  ⟨0x28C0, 64, 1, 2, 1, .uint 8, .ro, 0, .any⟩,
  ⟨0x28C0, 64, 1, 3, 1, .uint 4, .ro, 0, .any⟩,
  ⟨0x28C0, 64, 1, 4, 1, .uint 4, .ro, 0, .any⟩,
  ⟨0x28C0, 64, 1, 5, 1, .uint 4, .ro, 0, .any⟩,
  ⟨0x28C0, 64, 1, 6, 1, .uint 2, .ro, 0, .any⟩,
  ⟨0x2A00, 8, 1, 0, 1, .uint 1, .const, 18, .any⟩,
  ⟨0x2A00, 8, 1, 1, 16, .octets 20, .rws, 0, .custom⟩,
  ⟨0x2A00, 8, 1, 17, 1, .uint 2, .ro, 0, .any⟩]

/-- Objects 0x2A00 to 0x3002. -/
def objRows5 : List ObjRow := [
  ⟨0x2A00, 8, 1, 18, 1, .uint 1, .wo, 0, .range 1 1⟩,
  ⟨0x2A10, 8, 1, 0, 1, .uint 1, .const, 18, .any⟩,
  ⟨0x2A10, 8, 1, 1, 16, .octets 20, .rws, 0, .custom⟩,
  ⟨0x2A10, 8, 1, 17, 1, .uint 2, .ro, 0, .any⟩,
  ⟨0x2A10, 8, 1, 18, 1, .uint 1, .wo, 0, .range 1 1⟩,
  ⟨0x3000, 1, 1, 0, 1, .uint 1, .const, 10, .any⟩,
  ⟨0x3000, 1, 1, 1, 1, .uint 2, .ro, 0, .any⟩,
  ⟨0x3000, 1, 1, 2, 1, .uint 2, .ro, 0, .any⟩,
  ⟨0x3000, 1, 1, 3, 1, .uint 2, .ro, 0, .any⟩,
  ⟨0x3000, 1, 1, 4, 1, .uint 2, .ro, 0, .any⟩,
  ⟨0x3000, 1, 1, 5, 1, .uint 1, .ro, 0, .any⟩,
  ⟨0x3000, 1, 1, 6, 1, .uint 2, .rws, 1000, .range 1 65535⟩,
  ⟨0x3000, 1, 1, 7, 1, .uint 4, .ro, 0, .any⟩,
  ⟨0x3000, 1, 1, 8, 1, .uint 2, .ro, 0, .any⟩,
  ⟨0x3000, 1, 1, 9, 1, .uint 1, .wo, 0, .bits 3⟩,
  ⟨0x3000, 1, 1, 10, 1, .uint 4, .ro, 0, .any⟩,
  ⟨0x3001, 1, 1, 0, 1, .uint 1, .const, 12, .any⟩,
  ⟨0x3001, 1, 1, 1, 1, .uint 2, .rw, 0, .range 0 511⟩,
  ⟨0x3001, 1, 1, 2, 1, .uint 4, .rws, 4194304, .custom⟩,
  ⟨0x3001, 1, 1, 3, 1, .uint 1, .rws, 0, .range 0 1⟩,
  ⟨0x3001, 1, 1, 4, 1, .uint 1, .ro, 0, .any⟩,
  ⟨0x3001, 1, 1, 5, 1, .uint 2, .ro, 0, .any⟩,
  ⟨0x3001, 1, 1, 6, 1, .uint 8, .ro, 0, .any⟩,
  ⟨0x3001, 1, 1, 7, 1, .uint 4, .ro, 0, .any⟩,
  ⟨0x3001, 1, 1, 8, 1, .uint 2, .ro, 0, .any⟩,
  ⟨0x3001, 1, 1, 9, 1, .uint 4, .ro, 0, .any⟩,
  ⟨0x3001, 1, 1, 10, 1, .uint 4, .ro, 0, .any⟩,
  ⟨0x3001, 1, 1, 11, 1, .uint 1, .ro, 255, .any⟩,
  ⟨0x3001, 1, 1, 12, 1, .uint 1, .wo, 0, .bits 1⟩,
  ⟨0x3002, 1, 1, 0, 1, .uint 1, .const, 11, .any⟩,
  ⟨0x3002, 1, 1, 1, 1, .uint 2, .rw, 0, .range 0 1023⟩,
  ⟨0x3002, 1, 1, 2, 1, .uint 8, .rws, 0, .mult 64⟩,
  ⟨0x3002, 1, 1, 3, 1, .uint 1, .rws, 4, .range 2 16⟩,
  ⟨0x3002, 1, 1, 4, 1, .uint 4, .rws, 64, .custom⟩,
  ⟨0x3002, 1, 1, 5, 1, .uint 1, .rws, 0, .range 0 1⟩,
  ⟨0x3002, 1, 1, 6, 1, .uint 1, .ro, 0, .any⟩,
  ⟨0x3002, 1, 1, 7, 1, .uint 1, .ro, 0, .any⟩,
  ⟨0x3002, 1, 1, 8, 1, .uint 1, .ro, 0, .any⟩,
  ⟨0x3002, 1, 1, 9, 1, .uint 8, .ro, 0, .any⟩,
  ⟨0x3002, 1, 1, 10, 1, .uint 2, .ro, 0, .any⟩]

/-- Objects 0x3002 to 0x3210. -/
def objRows6 : List ObjRow := [
  ⟨0x3002, 1, 1, 11, 1, .uint 1, .wo, 0, .bits 1⟩,
  ⟨0x3080, 128, 1, 0, 1, .uint 1, .const, 46, .any⟩,
  ⟨0x3080, 128, 1, 1, 1, .uint 1, .rws, 0, .range 0 1⟩,
  ⟨0x3080, 128, 1, 2, 1, .uint 4, .rws, 4194304, .any⟩,
  ⟨0x3080, 128, 1, 3, 1, .uint 4, .rws, 4194304, .any⟩,
  ⟨0x3080, 128, 1, 4, 1, .uint 1, .rws, 1, .range 0 9⟩,
  ⟨0x3080, 128, 1, 5, 1, .uint 1, .rws, 2, .range 2 16⟩,
  ⟨0x3080, 128, 1, 6, 1, .uint 1, .rws, 1, .range 1 16⟩,
  ⟨0x3080, 128, 1, 7, 1, .uint 4, .rws, 48000, .range 8000 192000⟩,
  ⟨0x3080, 128, 1, 8, 1, .uint 2, .rws, 65535, .rangeOr 0 1023 65535⟩,
  ⟨0x3080, 128, 1, 9, 1, .uint 2, .rws, 65535, .rangeOr 0 1023 65535⟩,
  ⟨0x3080, 128, 1, 10, 1, .uint 2, .rws, 32, .range 4 4096⟩,
  ⟨0x3080, 128, 1, 11, 1, .uint 2, .rws, 32, .range 4 4096⟩,
  ⟨0x3080, 128, 1, 12, 1, .uint 4, .ro, 0, .any⟩,
  ⟨0x3080, 128, 1, 13, 1, .uint 4, .ro, 0, .any⟩,
  ⟨0x3080, 128, 1, 14, 1, .uint 2, .ro, 0, .any⟩,
  ⟨0x3080, 128, 1, 33, 1, .uint 1, .rws, 0, .range 0 1⟩,
  ⟨0x3080, 128, 1, 34, 1, .uint 4, .rws, 4194304, .any⟩,
  ⟨0x3080, 128, 1, 35, 1, .uint 4, .rws, 4194304, .any⟩,
  ⟨0x3080, 128, 1, 36, 1, .uint 1, .rws, 1, .range 0 9⟩,
  ⟨0x3080, 128, 1, 37, 1, .uint 1, .rws, 2, .range 2 16⟩,
  ⟨0x3080, 128, 1, 38, 1, .uint 1, .rws, 1, .range 1 16⟩,
  ⟨0x3080, 128, 1, 39, 1, .uint 4, .rws, 48000, .range 8000 192000⟩,
  ⟨0x3080, 128, 1, 40, 1, .uint 2, .rws, 65535, .rangeOr 0 1023 65535⟩,
  ⟨0x3080, 128, 1, 41, 1, .uint 2, .rws, 65535, .rangeOr 0 1023 65535⟩,
  ⟨0x3080, 128, 1, 42, 1, .uint 2, .rws, 32, .range 4 4096⟩,
  ⟨0x3080, 128, 1, 43, 1, .uint 2, .rws, 32, .range 4 4096⟩,
  ⟨0x3080, 128, 1, 44, 1, .uint 4, .ro, 0, .any⟩,
  ⟨0x3080, 128, 1, 45, 1, .uint 4, .ro, 0, .any⟩,
  ⟨0x3080, 128, 1, 46, 1, .uint 2, .ro, 0, .any⟩,
  ⟨0x3200, 1, 1, 0, 1, .uint 1, .const, 3, .any⟩,
  ⟨0x3200, 1, 1, 1, 1, .uint 4, .ro, 0, .any⟩,
  ⟨0x3200, 1, 1, 2, 1, .uint 4, .ro, 0, .any⟩,
  ⟨0x3200, 1, 1, 3, 1, .uint 2, .ro, 0, .any⟩,
  ⟨0x3210, 32, 1, 0, 1, .uint 1, .const, 15, .any⟩,
  ⟨0x3210, 32, 1, 1, 1, .uint 8, .rws, 16777216, .any⟩,
  ⟨0x3210, 32, 1, 2, 1, .uint 2, .rws, 16, .range 1 256⟩,
  ⟨0x3210, 32, 1, 3, 1, .uint 1, .rws, 1, .range 0 3⟩,
  ⟨0x3210, 32, 1, 4, 1, .uint 1, .rws, 3, .range 0 7⟩,
  ⟨0x3210, 32, 1, 5, 1, .uint 1, .rws, 0, .range 0 1⟩]

/-- Objects 0x3210 to 0x3600. -/
def objRows7 : List ObjRow := [
  ⟨0x3210, 32, 1, 6, 1, .uint 1, .rws, 0, .range 0 1⟩,
  ⟨0x3210, 32, 1, 7, 1, .uint 1, .wo, 0, .range 1 4⟩,
  ⟨0x3210, 32, 1, 8, 1, .uint 1, .ro, 0, .any⟩,
  ⟨0x3210, 32, 1, 9, 1, .uint 2, .ro, 0, .any⟩,
  ⟨0x3210, 32, 1, 10, 1, .uint 4, .ro, 0, .any⟩,
  ⟨0x3210, 32, 1, 11, 1, .uint 8, .ro, 0, .any⟩,
  ⟨0x3210, 32, 1, 12, 1, .uint 4, .ro, 0, .any⟩,
  ⟨0x3210, 32, 1, 13, 1, .uint 2, .ro, 0, .any⟩,
  ⟨0x3210, 32, 1, 14, 1, .uint 1, .ro, 0, .any⟩,
  ⟨0x3210, 32, 1, 15, 1, .uint 1, .wo, 0, .bits 3⟩,
  ⟨0x3410, 8, 1, 0, 1, .uint 1, .const, 8, .any⟩,
  ⟨0x3410, 8, 1, 1, 1, .uint 1, .rws, 0, .custom⟩,
  ⟨0x3410, 8, 1, 2, 1, .uint 1, .ro, 0, .any⟩,
  ⟨0x3410, 8, 1, 3, 1, .uint 1, .rws, 1, .range 0 2⟩,
  ⟨0x3410, 8, 1, 4, 1, .bool, .rws, 0, .range 0 1⟩,
  ⟨0x3410, 8, 1, 5, 1, .uint 4, .ro, 0, .any⟩,
  ⟨0x3410, 8, 1, 6, 1, .uint 4, .ro, 0, .any⟩,
  ⟨0x3410, 8, 1, 7, 1, .uint 4, .ro, 0, .any⟩,
  ⟨0x3410, 8, 1, 8, 1, .uint 1, .wo, 0, .bits 1⟩,
  ⟨0x3420, 1, 1, 0, 1, .uint 1, .const, 6, .any⟩,
  ⟨0x3420, 1, 1, 1, 1, .uint 8, .const, 0, .any⟩,
  ⟨0x3420, 1, 1, 2, 1, .uint 4, .ro, 0, .any⟩,
  ⟨0x3420, 1, 1, 3, 1, .uint 4, .ro, 0, .any⟩,
  ⟨0x3420, 1, 1, 4, 1, .uint 4, .ro, 0, .any⟩,
  ⟨0x3420, 1, 1, 5, 1, .uint 4, .ro, 0, .any⟩,
  ⟨0x3420, 1, 1, 6, 1, .uint 4, .ro, 0, .any⟩,
  ⟨0x3600, 128, 1, 0, 1, .uint 1, .const, 49, .any⟩,
  ⟨0x3600, 128, 1, 1, 1, .uint 1, .rws, 0, .range 0 1⟩,
  ⟨0x3600, 128, 1, 2, 1, .uint 1, .rws, 0, .range 0 1⟩,
  ⟨0x3600, 128, 1, 3, 1, .uint 1, .rws, 0, .any⟩,
  ⟨0x3600, 128, 1, 4, 1, .uint 2, .rws, 128, .any⟩,
  ⟨0x3600, 128, 1, 5, 1, .uint 4, .rws, 131072, .any⟩,
  ⟨0x3600, 128, 1, 6, 1, .uint 8, .rws, 0, .mult 64⟩,
  ⟨0x3600, 128, 1, 7, 1, .uint 1, .rws, 6, .range 0 7⟩,
  ⟨0x3600, 128, 1, 8, 1, .real32, .rws, 1065353216, .custom⟩,
  ⟨0x3600, 128, 1, 9, 1, .uint 1, .ro, 0, .any⟩,
  ⟨0x3600, 128, 1, 10, 1, .uint 2, .ro, 0, .any⟩,
  ⟨0x3600, 128, 1, 11, 1, .uint 2, .ro, 0, .any⟩,
  ⟨0x3600, 128, 1, 12, 1, .uint 1, .ro, 0, .any⟩,
  ⟨0x3600, 128, 1, 13, 1, .uint 4, .ro, 0, .any⟩]

/-- Objects 0x3600 to 0x3800. -/
def objRows8 : List ObjRow := [
  ⟨0x3600, 128, 1, 14, 1, .uint 4, .ro, 0, .any⟩,
  ⟨0x3600, 128, 1, 15, 1, .uint 4, .ro, 0, .any⟩,
  ⟨0x3600, 128, 1, 16, 1, .uint 4, .ro, 0, .any⟩,
  ⟨0x3600, 128, 1, 17, 1, .bool, .ro, 0, .range 0 1⟩,
  ⟨0x3600, 128, 1, 33, 1, .uint 1, .rws, 0, .range 0 1⟩,
  ⟨0x3600, 128, 1, 34, 1, .uint 1, .rws, 0, .range 0 1⟩,
  ⟨0x3600, 128, 1, 35, 1, .uint 1, .rws, 0, .any⟩,
  ⟨0x3600, 128, 1, 36, 1, .uint 2, .rws, 128, .any⟩,
  ⟨0x3600, 128, 1, 37, 1, .uint 4, .rws, 131072, .any⟩,
  ⟨0x3600, 128, 1, 38, 1, .uint 8, .rws, 0, .mult 64⟩,
  ⟨0x3600, 128, 1, 39, 1, .uint 1, .rws, 6, .range 0 7⟩,
  ⟨0x3600, 128, 1, 40, 1, .real32, .rws, 1065353216, .custom⟩,
  ⟨0x3600, 128, 1, 41, 1, .uint 1, .ro, 0, .any⟩,
  ⟨0x3600, 128, 1, 42, 1, .uint 2, .ro, 0, .any⟩,
  ⟨0x3600, 128, 1, 43, 1, .uint 2, .ro, 0, .any⟩,
  ⟨0x3600, 128, 1, 44, 1, .uint 1, .ro, 0, .any⟩,
  ⟨0x3600, 128, 1, 45, 1, .uint 4, .ro, 0, .any⟩,
  ⟨0x3600, 128, 1, 46, 1, .uint 4, .ro, 0, .any⟩,
  ⟨0x3600, 128, 1, 47, 1, .uint 4, .ro, 0, .any⟩,
  ⟨0x3600, 128, 1, 48, 1, .uint 4, .ro, 0, .any⟩,
  ⟨0x3600, 128, 1, 49, 1, .bool, .ro, 0, .range 0 1⟩,
  ⟨0x3680, 1, 1, 0, 1, .uint 1, .const, 5, .any⟩,
  ⟨0x3680, 1, 1, 1, 1, .uint 1, .rw, 0, .any⟩,
  ⟨0x3680, 1, 1, 2, 1, .uint 8, .rw, 0, .mult 64⟩,
  ⟨0x3680, 1, 1, 3, 1, .uint 1, .rw, 0, .range 0 1⟩,
  ⟨0x3680, 1, 1, 4, 1, .uint 1, .wo, 0, .range 1 1⟩,
  ⟨0x3680, 1, 1, 5, 1, .handle16, .ro, 0, .any⟩,
  ⟨0x3690, 16, 1, 0, 1, .uint 1, .const, 4, .any⟩,
  ⟨0x3690, 16, 1, 1, 1, .uint 1, .ro, 0, .any⟩,
  ⟨0x3690, 16, 1, 2, 1, .uint 8, .ro, 0, .any⟩,
  ⟨0x3690, 16, 1, 3, 1, .uint 2, .ro, 0, .any⟩,
  ⟨0x3690, 16, 1, 4, 1, .uint 4, .ro, 0, .any⟩,
  ⟨0x36A0, 1, 1, 0, 1, .uint 1, .const, 2, .any⟩,
  ⟨0x36A0, 1, 1, 1, 1, .uint 4, .const, 6400000, .any⟩,
  ⟨0x36A0, 1, 1, 2, 1, .uint 4, .ro, 0, .any⟩,
  ⟨0x3800, 16, 1, 0, 1, .uint 1, .const, 19, .any⟩,
  ⟨0x3800, 16, 1, 1, 1, .uint 1, .rws, 0, .range 0 1⟩,
  ⟨0x3800, 16, 1, 2, 1, .uint 1, .rws, 0, .range 0 2⟩,
  ⟨0x3800, 16, 1, 3, 1, .uint 1, .rws, 0, .rangeOr 0 5 255⟩,
  ⟨0x3800, 16, 1, 4, 1, .uint 4, .rws, 48000, .range 8000 192000⟩]

/-- Objects 0x3800 to 0x3A02. -/
def objRows9 : List ObjRow := [
  ⟨0x3800, 16, 1, 5, 1, .uint 4, .rws, 48000, .range 8000 192000⟩,
  ⟨0x3800, 16, 1, 6, 1, .uint 4, .rws, 4194304, .any⟩,
  ⟨0x3800, 16, 1, 7, 1, .uint 1, .rws, 4, .range 2 16⟩,
  ⟨0x3800, 16, 1, 8, 1, .uint 1, .rws, 1, .range 0 3⟩,
  ⟨0x3800, 16, 1, 9, 1, .uint 4, .rws, 4194304, .any⟩,
  ⟨0x3800, 16, 1, 10, 1, .uint 1, .rws, 4, .range 2 16⟩,
  ⟨0x3800, 16, 1, 11, 1, .uint 1, .rws, 2, .range 1 16⟩,
  ⟨0x3800, 16, 1, 12, 1, .uint 2, .rws, 65535, .rangeOr 0 1023 65535⟩,
  ⟨0x3800, 16, 1, 13, 1, .uint 4, .rws, 300000, .any⟩,
  ⟨0x3800, 16, 1, 14, 1, .uint 1, .rws, 2, .range 0 3⟩,
  ⟨0x3800, 16, 1, 15, 1, .uint 2, .rws, 32, .range 4 4096⟩,
  ⟨0x3800, 16, 1, 16, 1, .uint 1, .ro, 0, .any⟩,
  ⟨0x3800, 16, 1, 17, 1, .uint 4, .ro, 0, .any⟩,
  ⟨0x3800, 16, 1, 18, 1, .uint 4, .ro, 0, .any⟩,
  ⟨0x3800, 16, 1, 19, 1, .uint 4, .ro, 0, .any⟩,
  ⟨0x3880, 1, 1, 0, 1, .uint 1, .const, 4, .any⟩,
  ⟨0x3880, 1, 1, 1, 1, .uint 4, .ro, 0, .any⟩,
  ⟨0x3880, 1, 1, 2, 1, .uint 4, .const, 18432000, .any⟩,
  ⟨0x3880, 1, 1, 3, 1, .uint 2, .ro, 0, .any⟩,
  ⟨0x3880, 1, 1, 4, 1, .uint 4, .ro, 0, .any⟩,
  ⟨0x3A00, 1, 1, 0, 1, .uint 1, .const, 80, .any⟩,
  ⟨0x3A00, 1, 1, 1, 1, .uint 2, .ro, 0, .any⟩,
  ⟨0x3A00, 1, 1, 2, 1, .uint 1, .ro, 0, .any⟩,
  ⟨0x3A00, 1, 1, 3, 1, .uint 1, .ro, 0, .any⟩,
  ⟨0x3A00, 1, 1, 4, 1, .uint 4, .ro, 0, .any⟩,
  ⟨0x3A00, 1, 1, 5, 1, .uint 4, .ro, 0, .any⟩,
  ⟨0x3A00, 1, 1, 6, 1, .uint 2, .wo, 0, .custom⟩,
  ⟨0x3A00, 1, 1, 7, 1, .uint 1, .ro, 0, .any⟩,
  ⟨0x3A00, 1, 1, 8, 1, .uint 4, .ro, 0, .any⟩,
  ⟨0x3A00, 1, 1, 9, 1, .uint 2, .ro, 0, .any⟩,
  ⟨0x3A00, 1, 1, 17, 64, .octets 24, .ro, 0, .any⟩,
  ⟨0x3A01, 1, 1, 0, 1, .uint 1, .const, 7, .any⟩,
  ⟨0x3A01, 1, 1, 1, 1, .uint 1, .rws, 5, .bits 7⟩,
  ⟨0x3A01, 1, 1, 2, 1, .uint 2, .rws, 100, .range 1 65535⟩,
  ⟨0x3A01, 1, 1, 3, 1, .uint 2, .rws, 2000, .range 10 65535⟩,
  ⟨0x3A01, 1, 1, 4, 1, .uint 1, .rws, 0, .range 0 1⟩,
  ⟨0x3A01, 1, 1, 5, 1, .uint 4, .wo, 0, .custom⟩,
  ⟨0x3A01, 1, 1, 6, 1, .uint 2, .ro, 0, .any⟩,
  ⟨0x3A01, 1, 1, 7, 1, .uint 4, .ro, 0, .any⟩,
  ⟨0x3A02, 1, 1, 0, 1, .uint 1, .const, 2, .any⟩]

/-- Objects 0x3A02 to 0x3C60. -/
def objRows10 : List ObjRow := [
  ⟨0x3A02, 1, 1, 1, 1, .uint 2, .rws, 1000, .range 100 60000⟩,
  ⟨0x3A02, 1, 1, 2, 1, .uint 2, .ro, 0, .any⟩,
  ⟨0x3A40, 8, 1, 0, 1, .uint 1, .const, 6, .any⟩,
  ⟨0x3A40, 8, 1, 1, 1, .uint 1, .ro, 0, .any⟩,
  ⟨0x3A40, 8, 1, 2, 1, .uint 1, .wo, 0, .range 1 2⟩,
  ⟨0x3A40, 8, 1, 3, 1, .uint 4, .ro, 0, .any⟩,
  ⟨0x3A40, 8, 1, 4, 1, .uint 2, .ro, 0, .any⟩,
  ⟨0x3A40, 8, 1, 5, 1, .uint 1, .ro, 0, .any⟩,
  ⟨0x3A40, 8, 1, 6, 1, .uint 1, .wo, 0, .bits 3⟩,
  ⟨0x3C00, 1, 1, 0, 1, .uint 1, .const, 3, .any⟩,
  ⟨0x3C00, 1, 1, 1, 1, .uint 1, .rw, 0, .range 0 4⟩,
  ⟨0x3C00, 1, 1, 2, 1, .uint 1, .rw, 0, .custom⟩,
  ⟨0x3C00, 1, 1, 3, 1, .uint 2, .ro, 0, .any⟩,
  ⟨0x3C10, 1, 1, 0, 1, .uint 1, .const, 3, .any⟩,
  ⟨0x3C10, 1, 1, 1, 1, .bool, .rws, 1, .range 0 1⟩,
  ⟨0x3C10, 1, 1, 2, 1, .uint 4, .ro, 0, .any⟩,
  ⟨0x3C10, 1, 1, 3, 1, .uint 4, .ro, 0, .any⟩,
  ⟨0x3C20, 1, 1, 0, 1, .uint 1, .const, 6, .any⟩,
  ⟨0x3C20, 1, 1, 1, 1, .uint 1, .rw, 9, .range 1 9⟩,
  ⟨0x3C20, 1, 1, 2, 1, .uint 8, .rw, 0, .custom⟩,
  ⟨0x3C20, 1, 1, 3, 1, .uint 1, .wo, 0, .range 1 1⟩,
  ⟨0x3C20, 1, 1, 4, 1, .uint 1, .ro, 0, .any⟩,
  ⟨0x3C20, 1, 1, 5, 1, .handle16, .ro, 0, .any⟩,
  ⟨0x3C20, 1, 1, 6, 1, .uint 2, .ro, 0, .any⟩,
  ⟨0x3C40, 1, 1, 0, 1, .uint 1, .const, 6, .any⟩,
  ⟨0x3C40, 1, 1, 1, 1, .uint 1, .rw, 255, .rangeOr 0 95 255⟩,
  ⟨0x3C40, 1, 1, 2, 1, .uint 2, .rw, 1000, .range 20 20000⟩,
  ⟨0x3C40, 1, 1, 3, 1, .int 2, .rw, 63536, .srange (-12000) (0)⟩,
  ⟨0x3C40, 1, 1, 4, 1, .uint 1, .rw, 0, .custom⟩,
  ⟨0x3C40, 1, 1, 5, 1, .int 2, .ro, 53536, .any⟩,
  ⟨0x3C40, 1, 1, 6, 1, .int 2, .ro, 53536, .any⟩,
  ⟨0x3C60, 1, 1, 0, 1, .uint 1, .const, 11, .any⟩,
  ⟨0x3C60, 1, 1, 1, 1, .uint 1, .rws, 20, .range 4 255⟩,
  ⟨0x3C60, 1, 1, 2, 1, .octets 8, .wo, 0, .custom⟩,
  ⟨0x3C60, 1, 1, 3, 1, .uint 1, .ro, 0, .any⟩,
  ⟨0x3C60, 1, 1, 4, 1, .uint 4, .ro, 0, .any⟩,
  ⟨0x3C60, 1, 1, 5, 1, .uint 2, .ro, 0, .any⟩,
  ⟨0x3C60, 1, 1, 6, 1, .uint 2, .ro, 0, .any⟩,
  ⟨0x3C60, 1, 1, 7, 1, .uint 4, .ro, 0, .any⟩,
  ⟨0x3C60, 1, 1, 8, 1, .domain, .ro, 0, .any⟩]

/-- Objects 0x3C60 to 0x5F01. -/
def objRows11 : List ObjRow := [
  ⟨0x3C60, 1, 1, 9, 1, .uint 4, .ro, 0, .any⟩,
  ⟨0x3C60, 1, 1, 10, 1, .uint 4, .ro, 0, .any⟩,
  ⟨0x3C60, 1, 1, 11, 1, .uint 1, .wo, 0, .range 1 3⟩,
  ⟨0x3C61, 1, 1, 0, 1, .uint 1, .const, 4, .any⟩,
  ⟨0x3C61, 1, 1, 1, 4, .octets 1024, .rw, 0, .any⟩,
  ⟨0x3E00, 1, 1, 0, 1, .uint 1, .const, 3, .any⟩,
  ⟨0x3E00, 1, 1, 1, 1, .octets 32, .const, 0, .any⟩,
  ⟨0x3E00, 1, 1, 2, 1, .domain, .const, 0, .any⟩,
  ⟨0x3E00, 1, 1, 3, 1, .domain, .const, 0, .any⟩,
  ⟨0x3E01, 1, 1, 0, 1, .uint 1, .const, 5, .any⟩,
  ⟨0x3E01, 1, 1, 1, 4, .octets 32, .rw, 0, .custom⟩,
  ⟨0x3E01, 1, 1, 5, 1, .uint 1, .rw, 0, .custom⟩,
  ⟨0x3E02, 1, 1, 0, 1, .uint 1, .const, 3, .any⟩,
  ⟨0x3E02, 1, 1, 1, 1, .octets 32, .wo, 0, .any⟩,
  ⟨0x3E02, 1, 1, 2, 1, .uint 1, .ro, 0, .any⟩,
  ⟨0x3E02, 1, 1, 3, 1, .octets 192, .ro, 0, .any⟩,
  ⟨0x3E03, 1, 1, 0, 1, .uint 1, .const, 5, .any⟩,
  ⟨0x3E03, 1, 1, 1, 1, .octets 32, .ro, 0, .any⟩,
  ⟨0x3E03, 1, 1, 2, 1, .octets 136, .wo, 0, .any⟩,
  ⟨0x3E03, 1, 1, 3, 1, .uint 1, .ro, 0, .any⟩,
  ⟨0x3E03, 1, 1, 4, 1, .uint 1, .wo, 0, .range 0 0⟩,
  ⟨0x3E03, 1, 1, 5, 1, .uint 2, .ro, 0, .any⟩,
  ⟨0x3E04, 1, 1, 0, 1, .uint 1, .const, 4, .any⟩,
  ⟨0x3E04, 1, 1, 1, 1, .uint 1, .rw, 0, .custom⟩,
  ⟨0x3E04, 1, 1, 2, 1, .uint 1, .wo, 0, .range 1 1⟩,
  ⟨0x3E04, 1, 1, 3, 1, .handle16, .ro, 0, .any⟩,
  ⟨0x3E04, 1, 1, 4, 1, .uint 2, .ro, 0, .any⟩,
  ⟨0x3E05, 1, 1, 0, 1, .uint 1, .const, 1, .any⟩,
  ⟨0x3E05, 1, 1, 1, 1, .uint 4, .wo, 0, .any⟩,
  ⟨0x5F00, 1, 1, 0, 1, .uint 1, .const, 6, .any⟩,
  ⟨0x5F00, 1, 1, 1, 1, .uint 1, .ro, 0, .any⟩,
  ⟨0x5F00, 1, 1, 2, 1, .handle16, .ro, 0, .any⟩,
  ⟨0x5F00, 1, 1, 3, 1, .handle16, .rw, 0, .any⟩,
  ⟨0x5F00, 1, 1, 4, 1, .uint 1, .ro, 0, .any⟩,
  ⟨0x5F00, 1, 1, 5, 1, .handle16, .wo, 0, .custom⟩,
  ⟨0x5F00, 1, 1, 6, 1, .uint 4, .ro, 0, .any⟩,
  ⟨0x5F01, 1, 1, 0, 1, .uint 1, .const, 8, .any⟩,
  ⟨0x5F01, 1, 1, 1, 1, .uint 1, .ro, 0, .any⟩,
  ⟨0x5F01, 1, 1, 2, 1, .uint 1, .rw, 0, .any⟩,
  ⟨0x5F01, 1, 1, 3, 1, .uint 2, .ro, 0, .any⟩]

/-- Objects 0x5F01 to 0x5F01. -/
def objRows12 : List ObjRow := [
  ⟨0x5F01, 1, 1, 4, 1, .octets 16, .ro, 0, .any⟩,
  ⟨0x5F01, 1, 1, 5, 1, .uint 1, .rw, 0, .any⟩,
  ⟨0x5F01, 1, 1, 6, 1, .octets 16, .ro, 0, .any⟩,
  ⟨0x5F01, 1, 1, 7, 1, .uint 4, .ro, 0, .any⟩,
  ⟨0x5F01, 1, 1, 8, 1, .uint 4, .ro, 0, .any⟩]

/-- Every object of the dictionary. -/
def objRows : List ObjRow :=
  objRows0 ++ objRows1 ++ objRows2 ++ objRows3 ++ objRows4 ++ objRows5 ++ objRows6 ++ objRows7 ++ objRows8 ++ objRows9 ++ objRows10 ++ objRows11 ++ objRows12

end Sys2Proof.Machine
end

