-- ==== Sys2Proof/Map.lean ====
section
/-! DEFINITION. Sparse maps from natural numbers, kept as lists in one canonical form: keys strictly
rising, and no entry equal to the value an absent key reads as. Equal maps are then equal lists. -/

namespace Sys2Proof

/-- A sparse map as plain data. -/
abbrev Map (α : Type) := List (Nat × α)

/-- The value at key `k`; an absent key reads as `d`. -/
def Map.get {α : Type} (d : α) : Map α → Nat → α
  | [], _ => d
  | (j, v) :: m, k => if j = k then v else Map.get d m k

/-- Insert in key order, replacing an entry of the same key. -/
def Map.insert {α : Type} : Map α → Nat → α → Map α
  | [], k, v => [(k, v)]
  | (j, w) :: m, k, v =>
    if k < j then (k, v) :: (j, w) :: m
    else if k = j then (k, v) :: m
    else (j, w) :: Map.insert m k v

/-- Remove the entry of key `k`. -/
def Map.erase {α : Type} : Map α → Nat → Map α
  | [], _ => []
  | (j, w) :: m, k => if j = k then m else (j, w) :: Map.erase m k

/-- Set key `k` to `v`; writing the value an absent key reads as removes the entry. -/
def Map.set {α : Type} [DecidableEq α] (d : α) (m : Map α) (k : Nat) (v : α) : Map α :=
  if v = d then m.erase k else m.insert k v

/-- Every key lies above `lo`, keys rise strictly, and no value is `d`. -/
def Map.wfFrom {α : Type} [DecidableEq α] (d : α) : Option Nat → Map α → Bool
  | _, [] => true
  | lo, (j, v) :: m =>
    (match lo with | none => true | some l => decide (l < j)) && decide (v ≠ d) && Map.wfFrom d (some j) m

/-- The canonical form. -/
def Map.wf {α : Type} [DecidableEq α] (d : α) (m : Map α) : Bool := Map.wfFrom d none m

end Sys2Proof
end

