-- ==== Sys2Proof/Machine/State.lean ====
section
/-! DEFINITION. The state of the LX-6400. Every register the dictionary shows (R13, R289) has its one home
in `od`, the sparse object store; every addressed memory has its one home in `mem`; the structures below
hold the state behind them: registers of the processors, queues, fades, transfers in progress. -/

namespace Sys2Proof.Machine

/-- Why the machine stops with a fault. -/
inductive Fault where
  /-- Raised by no command: the manual decides every behaviour of the part (the paragraph after R12), so no
  meaning of this model ends here. Safe. -/
  | undecided
  deriving DecidableEq, Repr

/-- Why a command has no meaning. -/
inductive Refusal where
  /-- Raised by exec's arm of a command that has no meaning yet, under its mnemonic. Safe. -/
  | notModelled (mnemonic : String)
  deriving DecidableEq, Repr

/-- The registers of a lane or control core (R63, R66, R67); a lane uses PC bits 12:0 as a slot. -/
structure Regs where
  a   : Acc := 0
  x   : DAddr := 0
  y   : DAddr := 0
  ox  : DAddr := 0
  oy  : DAddr := 0
  bx  : DAddr := 0
  lx  : BitVec 17 := 0
  by' : DAddr := 0
  ly  : BitVec 17 := 0
  f   : BitVec 16 := 0
  pc  : BitVec 20 := 0
  sp  : DAddr := 0
  ie  : Word := 0
  epc : BitVec 20 := 0
  esr : Word := 0
  ls  : Vector (BitVec 20) 4 := Vector.replicate 4 0
  le  : Vector (BitVec 20) 4 := Vector.replicate 4 0
  lc  : Vector Word 4 := Vector.replicate 4 0
  deriving DecidableEq, Repr

/-- A delayed load that has not landed yet (R85). -/
structure Load where
  reg   : Fin 32
  value : Word
  deriving DecidableEq, Repr

/-- The move of a TAPM, due in the slot (on a core: at the instruction count) `due` (R99). -/
structure Move where
  due   : Nat
  addr  : DAddr
  value : Word
  deriving DecidableEq, Repr

/-- A far-window access of a lane (R44, R73). `dest` is the register a read loads; `second` is the address of the
complement word of a guarded access; `value` is the word to write, then the word read. -/
structure FarAcc where
  slot     : Nat
  write    : Bool
  refused  : Bool
  addr     : DAddr
  second   : Option DAddr
  dest     : Fin 32
  value    : Word
  done     : Bool
  deriving DecidableEq, Repr

/-- An exchange-pan access served in cycle `cycle` to a lane of trigger group `group` (R40, R41). A write keeps the word it
writes and the word before the group's first write since its lanes were last idle. -/
structure XchAcc where
  group : Nat
  cycle : Nat
  addr  : DAddr
  lane  : Nat
  write : Bool
  old   : Word
  new   : Word
  deriving DecidableEq, Repr

/-- A running glide of one coefficient word (R123): `count` is j in the lane's last take, `behind` the triggers missed since, which
count too. -/
structure GlideRun where
  offset : Nat
  origin : Word
  target : Word
  len    : Nat
  count  : Nat
  behind : Nat := 0
  deriving DecidableEq, Repr

/-- A running copy of flip-and-copy (R117, R118): the next offset and the shadow words written since the flip. -/
structure Copy where
  next    : Nat
  written : List Nat
  deriving DecidableEq, Repr

/-- What the lane's own hardware holds beside its dictionary objects. -/
structure Lane where
  regs        : Regs := {}
  delayed     : Option Load := none
  moves       : List Move := []
  far         : List FarAcc := []
  program     : List Byte := []
  slotMap     : List (Nat × Nat) := []
  ocOwned     : List Nat := []
  busy        : Bool := false
  ran         : Bool := false
  safePending : Bool := false
  safeBy      : Nat := 0
  faded       : Bool := false
  clearFlags  : Bool := false
  grant       : Byte := 0
  trigSlate   : Slate := 0
  takeNumber  : Word := 0
  satTaken    : Bool := false
  slipped     : Bool := false
  glides      : List GlideRun := []
  copy        : Option Copy := none
  deriving DecidableEq, Repr

/-- What a control core holds beside its dictionary objects: registers, interrupt controller (R239), scheduler interface
(R218), DWIN and the captured SLATE_HI (R72). -/
structure Core where
  regs      : Regs := {}
  delayed   : Option Load := none
  moves     : List Move := []
  count     : Nat := 0
  vbase     : Word := 0
  ictl      : BitVec 5 := 4
  ef        : BitVec 16 := 0
  ipend     : Word := 0
  notice    : Bool := false
  tcmp      : Slate := 0
  tArmed    : Bool := false
  slateHi   : Word := 0
  dwin      : BitVec 9 := 0
  accept    : Byte := 0xFF
  schResult : Word := 0
  noIrq     : Bool := false
  getwReg   : Fin 32 := 0
  getwLen   : Nat := 2
  waitSince : Nat := 0
  node      : Option Nat := none
  grace     : Bool := false
  revoked   : Byte := 0
  lastTrap  : Slate := 0
  everTrap  : Bool := false
  deriving DecidableEq, Repr

/-- An input channel: fade position, fade length in use, last latched word (R154, R160), the two views of R27. -/
structure InChan where
  p      : Nat := 0
  len    : Nat := 32
  good   : Nat := 32
  last   : Word := 0
  word   : Word := 0
  frame  : Word := 0
  deriving DecidableEq, Repr

/-- The fade causes of an output pin channel (R155, R351, R418). -/
structure OutCauses where
  underrun : Bool := false
  timeout  : Bool := false
  tone     : Bool := false
  deriving DecidableEq, Repr

/-- An output pin channel: fade, operands in use, operands pending for a zero crossing (R170), its shifter. -/
structure OutChan where
  p        : Nat := 0
  len      : Nat := 32
  route    : Pair := 0
  trim     : Pair := 0xBFFFFFFF40000000
  mute     : Pair := 0xFFFFFFFF00000000
  ceiling  : Pair := 0x800000007FFFFFFF
  pRoute   : Option Pair := none
  pTrim    : Option Pair := none
  pMute    : Option Pair := none
  cut      : Bool := false
  prev     : Word := 0
  cutPrev  : Word := 0
  guardBad : Bool := false
  causes   : OutCauses := {}
  stream   : Word := 0
  shifter  : Word := 0
  deriving DecidableEq, Repr

/-- One direction of a port group's stream (R163 to R167): ring position, the frame within the block in progress, its
flags and stamp, the sequence count and the blocks dropped, and the stream's own fade-in position (R165). On the output side
`fresh` says that no block has been due yet, `late` that the missing block has been counted. -/
structure Stream where
  on       : Bool := false
  pos      : Nat := 0
  frame    : Nat := 0
  active   : Bool := false
  dropped  : Bool := false
  reserve  : Bool := false
  preroll  : Bool := false
  fadeNext : Bool := false
  fadeIn   : Bool := false
  fadeP    : Nat := 4096
  seq      : BitVec 16 := 0
  gap      : Nat := 0
  stamp    : Slate := 0
  fresh    : Bool := true
  late     : Bool := false
  deriving DecidableEq, Repr

/-- A port group behind its objects: the clock monitor (R158 to R161), the counts of its states (R157, R159, R162), glitches
as frames ago (R160), a glitch run that waits for its frame's rate test (R161), fades toward OFF and a test mode, whether the
pre-roll count has met its first frame start (R162), and the shared-clock count of this group and of the leader (R175). -/
structure Port where
  lastEdge   : Slate := 0
  lastFall   : Slate := 0
  prevFall   : Slate := 0
  seen       : Bool := false
  seenFall   : Bool := false
  frames     : Nat := 0
  good       : Nat := 0
  bad        : Nat := 0
  sum        : Nat := 0
  periods    : Nat := 0
  relock     : Nat := 0
  relockStep : Nat := 0
  glitches   : List Nat := []
  clean      : Nat := 0
  glitchRun  : Bool := false
  owedRun    : Bool := false
  counting   : Bool := false
  fadeOff    : Bool := false
  fadeTest   : Bool := false
  fadeFrames : Nat := 0
  testMode   : Nat := 0
  shared     : Nat := 0
  sharedLead : Nat := 0
  inS        : Stream := {}
  outS       : Stream := {}
  deriving DecidableEq, Repr

/-- A token on an edge (R208). `pos` is none for a late token without a position (R224). -/
structure Token where
  index    : Nat
  pos      : Option Nat
  late     : Bool
  reserved : Bool
  deriving DecidableEq, Repr

/-- An enabled edge (R207 to R209): the endpoints bound to its ends (0 for a software end, 1 + slot a node, 1000 + g a
port stream, 2000 + r a ring pair), the tokens it holds, the positions being filled, the next position to fill. -/
structure Edge where
  on      : Bool := false
  prod    : Nat := 0
  cons    : Nat := 0
  tokens  : List Token := []
  taken   : List Nat := []
  next    : Nat := 0
  posted  : Nat := 0
  owned   : Bool := false
  deriving DecidableEq, Repr

/-- A firing of a node from READY to completion (R214 to R220). `rung` is 0 but for linked firings (R227). -/
structure Firing where
  slot    : Nat
  rung    : Nat
  index   : Nat
  prio    : Nat
  inPos   : List (Option Nat)
  outPos  : List Nat
  late    : Nat
  void    : Nat
  order   : Nat
  state   : Nat
  holder  : Nat
  status  : BitVec 16
  done    : Bool
  overdue : Bool
  ops     : List Word
  deriving DecidableEq, Repr

/-- An enabled node: words 0 to 4 as read at enable (R211), the count of its firings, and the carry of a TAIL of a graph's own: its
latest S samples (R189). -/
structure Node where
  on      : Bool := false
  hdr     : List Word := []
  fired   : Nat := 0
  closing : Bool := false
  faulted : Bool := false
  carry   : List Word := []
  deriving DecidableEq, Repr

/-- A return position: the block it expects, whether it is filled or reserved, whether it was latched (R225). -/
structure RetPos where
  block    : Nat
  valid    : Bool
  reserved : Bool
  latched  : Bool
  good     : Bool
  deriving DecidableEq, Repr

/-- A ring pair behind its objects (R223 to R226); `counted` says that the block being dropped has been counted as late. -/
structure RingPair where
  on       : Bool := false
  sendBlk  : Nat := 0
  filling  : Bool := false
  dropping : Bool := false
  counted  : Bool := false
  started  : Bool := false
  ret      : List RetPos := []
  fadeP    : List (Nat × Nat) := []
  lastRet  : List (Nat × Word) := []
  deriving DecidableEq, Repr

/-- A rung of a convolution path (R187). -/
structure Rung where
  size  : Nat
  start : Nat
  stop  : Nat
  parts : Nat
  hpos  : Nat
  block : Nat
  deriving DecidableEq, Repr

/-- A convolution path behind its objects: the rungs built at enable, the index of the ring's block that is its block 0 (R186), the
blocks staged since, the rungs with a token not fired yet (R227), the load it has (R195) with the block size and depth of its pair, the codes raised since enable (R205). -/
structure ConvPath where
  on     : Bool := false
  rungs  : List Rung := []
  ready  : List Nat := []
  start  : Nat := 0
  count  : Nat := 0
  loaded : Bool := false
  loadB  : Nat := 0
  loadK  : Nat := 0
  raised : List (BitVec 16) := []
  deriving DecidableEq, Repr

/-- A source block in a converter's history (R199): the number of its first frame, the time of that frame and the frame period
that the tracking loop gives, in 2^-32 tick, and its words. -/
structure SrcBlock where
  first : Nat
  time  : Int
  step  : Nat
  words : List Word
  deriving DecidableEq, Repr

/-- An ASRC converter behind its objects (R197 to R202): the consecutive source blocks below 100 ns, the slate of its first frame
after lock, the blocks written, the source frames received, the fade; its history buffer; the slate and interval of its last
source block; and the time of its next destination frame in OUT mode, in 2^-32 tick. -/
structure Converter where
  on       : Bool := false
  good     : Nat := 0
  t0       : Slate := 0
  blocks   : Nat := 0
  frames   : Nat := 0
  fadeP    : Nat := 0
  hist     : List SrcBlock := []
  last     : Option Slate := none
  interval : Nat := 0
  next     : Int := 0
  raised   : List (BitVec 16) := []
  deriving DecidableEq, Repr

/-- A DMA buffer entry: the stream position of its first byte and its bytes (R279). -/
structure DmaBeat where
  off   : Nat
  bytes : List Byte
  deriving DecidableEq, Repr

/-- A DMA channel behind its objects: the descriptor as read, the read and write positions in the byte stream, its buffer
entries, and on each side the retries of its beat, whether a failed one waits for its retry and whether an issued data beat has not
ended (R276 to R283). `phase` is 0 before the head is read, 1 while data moves, 2 once word 1 is written, 3 once OWN is cleared; 4
while a halt with code 0x700k and side `halt` writes word 1, 5 while a skip clears OWN. `issSt` says that the write of word 1 with
status 0 has been issued. -/
structure DmaChan where
  desc      : List Word := []
  rd        : Nat := 0
  wr        : Nat := 0
  buf       : List DmaBeat := []
  rdTries   : Nat := 0
  wrTries   : Nat := 0
  retryMax  : Nat := 0
  waitRd    : Bool := false
  waitWr    : Bool := false
  issRd     : Bool := false
  issWr     : Bool := false
  issSt     : Bool := false
  phase     : Nat := 0
  halt      : Nat × Nat := (0, 0)
  aborting  : Bool := false
  abortSup  : Bool := false
  deriving DecidableEq, Repr

/-- The arbiter of the DMA read engine or write engine (R280): the channel of the current burst and the beats it has had, and the
priority 3 channel that had the last beat. -/
structure DmaArb where
  cur   : Nat := 31
  beats : Nat := 16
  last3 : Nat := 31
  deriving DecidableEq, Repr

/-- A shared pan group behind its objects: the code its banks carry and the one they are handed, whether a clear follows or runs,
whether a revocation is in progress, the mode in effect, whether a power transition runs, the rows a clear has reached (R257 to
R262). -/
structure PanGroup where
  code      : Byte := 0
  newOwner  : Byte := 0
  clearing  : Bool := false
  thenClear : Bool := false
  revoked   : Bool := false
  compatNow : Bool := false
  powering  : Bool := false
  clearRow  : Nat := 0
  deriving DecidableEq, Repr

/-- A write of the present tick through the lane port of a shared pan (R255, R256): the fabric byte address, the lane (none: the
port-stream engine) with its trigger group and slot, the word before the write, and whether its cycle has counted a clash. -/
structure PanAcc where
  addr    : Nat
  lane    : Option Nat
  group   : Nat
  slot    : Nat
  old     : Word
  clashed : Bool
  deriving DecidableEq, Repr

/-- A run of ticks in which a unit was busy (R196, R238): unit 0 to 7 a core, 0x10 + e a crystallizer; its first tick and the one
after its last. -/
structure BusyRun where
  unit : Nat
  lo   : Nat
  hi   : Nat
  deriving DecidableEq, Repr

/-- What a long operation does (R303), with what its completion needs. -/
inductive Op where
  | show (source : Nat) (lanes locks : List Nat) (boot : Bool)
  | slotWrite (slot : Nat)
  | irLoad (path source fmt : Nat)
  | splice (id : Nat)
  | bist (test : Nat)
  | store (sub : Nat)
  | restore (sub : Nat)
  | verify (target : Nat)
  | erase
  deriving DecidableEq, Repr

/-- An outstanding handle (R304): slot, generation and operation, with the outcome of checks made at its start. -/
structure Handle where
  slot   : Nat
  gen    : Nat
  op     : Op
  status : Nat := 0
  detail : Nat := 0
  deriving DecidableEq, Repr

/-- A completion record or notice (R307). -/
structure Record where
  status : BitVec 16
  handle : BitVec 16
  detail : Word
  slate  : Slate
  deriving DecidableEq, Repr

/-- A fault record (R377). -/
structure FaultRec where
  code  : BitVec 16
  rep   : BitVec 16
  unit  : Byte
  info  : BitVec 16
  extra : BitVec 64
  slate : Slate
  deriving DecidableEq, Repr

/-- A pending splice request (R110 to R119). -/
structure Splice where
  id       : Nat
  seq      : BitVec 16
  slate    : Option Slate
  late     : Bool
  copy     : Bool
  waiting  : List Nat
  copying  : List Nat
  removed  : Bool
  first    : Option Slate
  accepted : Slate
  deriving DecidableEq, Repr

/-- The answer of the last access on a path: the object, the abort code of R293 (0 for success), the value read. -/
structure Answer where
  key   : Nat := 0
  abort : Word := 0
  value : List Byte := []
  deriving DecidableEq, Repr

/-- A background write of the link (R324): fabric addresses and words, pairs written in one access, and whether an address
wrapped (R327). -/
structure LinkWrite where
  guarded : Bool
  wrap    : Bool
  writes  : List (Nat × Word)
  deriving DecidableEq, Repr

/-- The Uamin link (R317 to R333) behind the dictionary. `s0` is what S0 says of the previous frame, `reply` the last reply, `flags`
FAULT, RANGE, WRAP and SLOW gathered since the last capture, `irqHeld` the level of HIRQ_N through a NAP; `odServed` holds once the
server has served the request that OD_REQUEST_COMPLETE is yet to report. -/
structure Link where
  cfg      : Word := 0xA0
  memBase  : Word := 0
  irqPend  : BitVec 6 := 0
  irqEn    : BitVec 6 := 2
  alive    : Option Byte := none
  frames   : Word := 0
  rejected : Word := 0
  crcErrs  : Word := 0
  s0       : Word := 0
  reply    : List Word := []
  flags    : BitVec 4 := 0
  bg       : Option LinkWrite := none
  irqHeld  : Bool := false
  odServed : Bool := false
  reqState : BitVec 2 := 0
  reqKey   : BitVec 24 := 0
  reqWrite : Option (List Byte) := none
  reqAbort : Word := 0
  reqValue : List Byte := []
  deriving DecidableEq, Repr

/-- The codec port: its queue of entries (R335) as two words each, the run state of the entry at the front, whether a word is in
progress and the word sent, and the levels of CSEL7_N to CSEL0_N (R334, R336). -/
structure Codec where
  queue   : List (BitVec 64) := []
  running : Bool := false
  index   : Nat := 0
  word    : Bool := false
  tx      : Word := 0
  sel     : Byte := 0xFF
  flush   : Bool := false
  rx      : List Word := []
  deriving DecidableEq, Repr

/-- A message the module has sent on the CAN bus. -/
inductive CanMsg where
  | bootUp (node : Byte)
  | heartbeat (node : Byte) (state : Byte)
  | sync (counter : Option Byte)
  | emcy (data : List Byte)
  | tpdo (k : Nat) (data : List Byte)
  | usdo (client : Byte) (abort : Word) (data : List Byte)
  | lss (cs : Byte) (data : List Byte)
  deriving DecidableEq, Repr

/-- The field network (R294 to R302, R314) behind the dictionary. `nmt` is 0 INITIALISATION, 127 PRE-OPERATIONAL,
5 OPERATIONAL, 4 STOPPED; `errors` is the pre-defined error field, newest first; `sessions` holds the USDO downloads in progress:
client, object and bytes. `tpdoLast` holds the values a TPDO last sampled, `tpdoSync` its count of SYNCs, `tpdoBlock` those whose
inhibit time runs, `tpdoHeld` those it holds back, `tpdoDirty` those of type 0 with a value changed since they were sent, `monitored` the consumer heartbeat entries in use. -/
structure Can where
  nmt        : Byte := 0
  rate       : Byte := 0x12
  silent     : Bool := false
  busOff     : Bool := false
  sent       : List CanMsg := []
  emcy       : List (List Byte) := []
  emcyDrop   : Bool := false
  emcyOwed   : Bool := false
  errors     : List (BitVec 16) := []
  heldRpdo   : List (Nat × List Byte) := []
  sessions   : List (Byte × Nat × List Byte) := []
  syncCount  : Nat := 0
  tpdoLast   : List (Nat × List Byte) := []
  tpdoSync   : List (Nat × Nat) := []
  tpdoHeld   : List Nat := []
  tpdoBlock  : List Nat := []
  tpdoDirty  : List Nat := []
  monitored  : List Nat := []
  tpdo16     : List Record := []
  lssConfig  : Bool := false
  deriving DecidableEq, Repr

/-- Hold-safe and the power-state machine (R341, R344 to R352): `refAcc` is the accumulator on REF that counts in NAP, `phase` the
ticks past an alignment point at which the present epoch began, `wakeAt` the slate at which the last wake registered. -/
structure Power where
  vinLow   : Bool := false
  coreLow  : Bool := false
  unlocked : BitVec 3 := 0
  waiting  : Bool := false
  vinMv    : BitVec 16 := 12000
  coreMv   : BitVec 16 := 750
  wakeHeld : Byte := 0
  wakeAt   : Slate := 0
  refAcc   : Nat := 0
  phase    : Nat := 0
  supplied : Bool := true
  deriving DecidableEq, Repr

/-- Reset and boot in progress (R357 to R366). `mode` is 0 normal, 1 safe, 2 recovery; `meterE` holds while the booting part
runs; `inReset` until the reset proper has ended; `pending` is a reset that waits for its fade. -/
structure Boot where
  booted   : Bool := false
  meterE   : Bool := true
  inReset  : Bool := false
  pending  : Option Nat := none
  pinLow   : Bool := false
  mode     : Nat := 0
  loading  : Bool := false
  deferred : List Nat := []
  rcvBusy  : Option Nat := none
  rcvCmd   : Word := 0
  deriving DecidableEq, Repr

/-- The flash (R311, R363, R370, R393, R398): firmware and show slots as their bytes, the two stored sets. -/
structure Flash where
  fw      : Map (List Byte) := []
  shows   : Map (List Byte) := []
  setA    : Map Nat := []
  setB    : Map Nat := []
  useB    : Bool := false
  deriving DecidableEq, Repr

/-- A line the console has printed (R411, R412). -/
inductive ConOut where
  | ok (values : List Nat)
  | err (abort : Word)
  | errLine
  | errSyntax
  | records (rs : List FaultRec)
  | result (r : Record)
  | bytes (bs : List Byte) (length : Nat)
  | echo (c : Byte)
  | prompt
  deriving DecidableEq, Repr

/-- The service interfaces (R401 to R431): console, tone, level, BIST, METER, TAP. `conBuf` is the line being
received, and behind its line end the characters that wait; `lvlDue` holds while `lvl` waits for its values, `conBist` while a
test that the console started runs; `levels` holds the watched channel's words of the last 100 ms; `challenge` is the number of the free value that DBG_CHALLENGE shows; `showDigest` is the digest of the last accepted show. -/
structure Service where
  conOut    : List ConOut := []
  conBuf    : List Byte := []
  lvlDue    : Bool := false
  conBist   : Bool := false
  serviceN  : Bool := true
  toneNow   : Nat := 0xFF
  tonePhase : Nat := 0
  toneNext  : Option Nat := none
  toneHz    : Nat := 1000
  toneDb    : Nat := 63536
  meterMv   : Nat := 2250
  levels    : List (Slate × Word) := []
  temp0     : BitVec 16 := 250
  temp1     : BitVec 16 := 250
  hot       : Bool := false
  tapIr     : Byte := 2
  bist      : Option (Nat × BitVec 64) := none
  bistTest  : List (Nat × Nat) := []
  attMsg    : List Byte := []
  attReport : List Byte := []
  challenge : Nat := 0
  badTokens : Nat := 0
  showDigest : List Byte := []
  deriving DecidableEq, Repr

/-- The steering loop behind 0x2260 (R172 to R174): the leader frames written and the house frame at centring, the centring
offset, frames since the last update, the integral in 10^-10 of 0.01 ppm, the run of steady updates, whether y is clamped. -/
structure Steer where
  written  : Nat := 0
  origin   : Nat := 0
  offset   : Int := 0
  since    : Nat := 0
  sum      : Int := 0
  steady   : Nat := 0
  clamped  : Bool := false
  deriving DecidableEq, Repr

/-- The state of the LX-6400, and the queue of the commands that wait. `dramErr` says which 64-byte beats of DRAM hold an error:
1 one that the error correction corrects, another number one that it cannot (R267). `snapshot` holds the values of a running store,
`slotImages` the image of each running slot write by its handle slot. `fresh` counts the free values used; the watchdog ran
from `wdtFrom` ms at slate `wdtSlate` (R388). -/
structure State where
  pending   : List Instr := []
  od        : Map Nat := []
  answers   : Map Answer := []
  mem       : List Host.Cell := []
  slate     : Slate := 0
  lanes     : Map Lane := []
  cores     : Map Core := []
  xch       : List XchAcc := []
  oc        : Map Word := []
  inCh      : Map InChan := []
  outCh     : Map OutChan := []
  ports     : Map Port := []
  steer     : Steer := {}
  houseEdge : Nat := 0
  splices   : List Splice := []
  spliceIds : Nat := 0
  nodes     : Map Node := []
  edges     : Map Edge := []
  firings   : List Firing := []
  fireSeq   : Nat := 0
  waitSeq   : Nat := 0
  rings     : Map RingPair := []
  paths     : Map ConvPath := []
  convs     : Map Converter := []
  pans      : Map PanGroup := []
  panLog    : List PanAcc := []
  busy      : List BusyRun := []
  dma       : Map DmaChan := []
  dmaArb    : Map DmaArb := []
  dramClean : Bool := false
  dramErr   : Map Nat := []
  handles   : List Handle := []
  gens      : Map Nat := []
  records   : Map Record := []
  faultLog  : Map FaultRec := []
  active    : List (BitVec 16 × Slate) := []
  onceKeys  : List (BitVec 16 × Nat) := []
  link      : Link := {}
  codec     : Codec := {}
  can       : Can := {}
  power     : Power := {}
  boot      : Boot := {}
  flash     : Flash := {}
  snapshot  : Map Nat := []
  slotImages : Map (List Byte) := []
  service   : Service := {}
  wdtSlate  : Slate := 0
  wdtFrom   : Nat := 2000
  fresh     : Nat := 1
  deriving DecidableEq, Repr

/-- The machine right after reset. A power-on reset has been released (R357, cause 0x1) and boot has run through step
1 of R362 up to the start of the firmware image check: every object holds its default, every memory word is cleared,
every lane is UNLOADED (R53, R367). The flash holds the firmware of a unit as delivered, no show and no stored set. -/
def State.reset : State := { flash := { fw := [(0, Config.firmwareImage 0), (1, Config.firmwareImage 1)] } }

end Sys2Proof.Machine
end

