-- ==== Sys2Proof/Machine/Ops.lean ====
section
/-! DEFINITION. The named operations over registers, memory, the fault log, interrupts, handles and the harvest ring
that the meanings share. -/

namespace Sys2Proof.Machine

/-! Registers of the object store. -/

/-- The value of a register. -/
def State.rd (s : State) (r : Reg) : Nat := s.od.get r.dflt r.key

/-- Write a register. -/
def State.wr (s : State) (r : Reg) (v : Nat) : State := { s with od := s.od.set r.dflt r.key v }

/-- Count in a 32-bit counter that stops at 0xFFFF_FFFF (R58, R177, R381). -/
def State.inc (s : State) (r : Reg) : State := s.wr r (min (s.rd r + 1) 0xFFFFFFFF)

/-- Add `n` to a counter that stops at 0xFFFF_FFFF. -/
def State.incBy (s : State) (r : Reg) (n : Nat) : State := s.wr r (min (s.rd r + n) 0xFFFFFFFF)

/-- Count in a 64-bit counter. -/
def State.inc64 (s : State) (r : Reg) : State := s.wr r ((s.rd r + 1) % 2 ^ 64)

/-- Count in a 64-bit counter that stops at its maximum (R230). -/
def State.incMax (s : State) (r : Reg) : State := s.wr r (min (s.rd r + 1) 0xFFFFFFFFFFFFFFFF)

/-- Set and clear one bit of a register. -/
def State.setBit (s : State) (r : Reg) (k : Nat) : State := s.wr r (s.rd r ||| 2 ^ k)
def State.clrBit (s : State) (r : Reg) (k : Nat) : State :=
  s.wr r (if (s.rd r).testBit k then s.rd r - 2 ^ k else s.rd r)

/-- Write one bit of a register. -/
def State.putBit (s : State) (r : Reg) (k : Nat) (b : Bool) : State := if b then s.setBit r k else s.clrBit r k

/-- The value half of a GUARD32, and whether its halves are complements (R292). -/
def guardVal (p : Nat) : Nat := p % 2 ^ 32
def guardGood (p : Nat) : Bool := p / 2 ^ 32 + p % 2 ^ 32 == 0xFFFFFFFF

/-- The pair of a word, and the same of a pair held as bits. -/
def pairOf (w : Word) : Pair := (~~~w) ++ w
def pairGood (p : Pair) : Bool := p.extractLsb' 32 32 == ~~~(p.extractLsb' 0 32)
def pairVal (p : Pair) : Word := p.extractLsb' 0 32

/-- A signed value of `n` bits from its two's complement, and back. -/
def toSigned (n v : Nat) : Int := if v < 2 ^ (n - 1) then v else (v : Int) - 2 ^ n
def ofSigned (n : Nat) (v : Int) : Nat := (v % (2 ^ n : Int)).toNat

/-- The path codes of class 0x9 records (R378), which also index the copies kept per path (R290). -/
def pathCode : Path → Nat
  | .field => 0
  | .link => 1
  | .console => 2
  | .core c => 0x10 + c.val

/-! The units behind the objects. -/

def State.lane (s : State) (n : Nat) : Lane := s.lanes.get {} n
def State.setLane (s : State) (n : Nat) (l : Lane) : State := { s with lanes := s.lanes.set {} n l }
def State.core (s : State) (c : Nat) : Core := s.cores.get {} c
def State.setCore (s : State) (c : Nat) (x : Core) : State := { s with cores := s.cores.set {} c x }
def State.inchan (s : State) (c : Nat) : InChan := s.inCh.get {} c
def State.setInchan (s : State) (c : Nat) (x : InChan) : State := { s with inCh := s.inCh.set {} c x }

/-- An output pin channel; pin channel `c` is routed from `OCc` until its routing is written (R168). -/
def outDefault (c : Nat) : OutChan :=
  { route := (BitVec.ofNat 32 (0xFFFFFFFF - (0x80 + c))) ++ (BitVec.ofNat 32 (0x80 + c)) }
def State.outchan (s : State) (c : Nat) : OutChan := s.outCh.get (outDefault c) c
def State.setOutchan (s : State) (c : Nat) (x : OutChan) : State := { s with outCh := s.outCh.set (outDefault c) c x }
def State.port (s : State) (g : Nat) : Port := s.ports.get {} g
def State.setPort (s : State) (g : Nat) (x : Port) : State := { s with ports := s.ports.set {} g x }
def State.node (s : State) (i : Nat) : Node := s.nodes.get {} i
def State.setNode (s : State) (i : Nat) (x : Node) : State := { s with nodes := s.nodes.set {} i x }
def State.edge (s : State) (e : Nat) : Edge := s.edges.get {} e
def State.setEdge (s : State) (e : Nat) (x : Edge) : State := { s with edges := s.edges.set {} e x }
def State.ring (s : State) (r : Nat) : RingPair := s.rings.get {} r
def State.setRing (s : State) (r : Nat) (x : RingPair) : State := { s with rings := s.rings.set {} r x }
def State.path (s : State) (q : Nat) : ConvPath := s.paths.get {} q
def State.setPath (s : State) (q : Nat) (x : ConvPath) : State := { s with paths := s.paths.set {} q x }
def State.conv (s : State) (v : Nat) : Converter := s.convs.get {} v
def State.setConv (s : State) (v : Nat) (x : Converter) : State := { s with convs := s.convs.set {} v x }
def State.pan (s : State) (g : Nat) : PanGroup := s.pans.get {} g
def State.setPan (s : State) (g : Nat) (x : PanGroup) : State := { s with pans := s.pans.set {} g x }
def State.dmaCh (s : State) (ch : Nat) : DmaChan := s.dma.get {} ch
def State.setDma (s : State) (ch : Nat) (x : DmaChan) : State := { s with dma := s.dma.set {} ch x }

/-- Apply a change to the state for each number below `n`, in rising order. -/
def forUpto (n : Nat) (f : Nat → State → State) (s : State) : State := (List.range n).foldl (fun s k => f k s) s

/-- Apply a change to the state for each item of a list, in order. -/
def forList {α : Type} (l : List α) (f : α → State → State) (s : State) : State := l.foldl (fun s k => f k s) s

/-- Consume a free value: its number, and the state that will consume the next. -/
def State.takeFresh (s : State) : Nat × State := (s.fresh, { s with fresh := s.fresh + 1 })

/-! Memory. A byte nothing has written reads as zero (R367). -/

/-- The canonical form of memory: addresses strictly rising, no byte equal to what an unlisted address reads as. -/
def Memory.wf (m : List Host.Cell) : Bool := Map.wf (0 : Byte) m

def readByte (m : List Host.Cell) (a : Nat) : Byte := Map.get (0 : Byte) m a
def writeByte (m : List Host.Cell) (a : Nat) (b : Byte) : List Host.Cell := Map.set (0 : Byte) m a b

/-- The little-endian word at byte address `a` (R8). -/
def readWord (m : List Host.Cell) (a : Nat) : Word :=
  readByte m (a + 3) ++ readByte m (a + 2) ++ readByte m (a + 1) ++ readByte m a

def writeWord (m : List Host.Cell) (a : Nat) (w : Word) : List Host.Cell :=
  writeByte (writeByte (writeByte (writeByte m a (w.extractLsb' 0 8)) (a + 1) (w.extractLsb' 8 8))
    (a + 2) (w.extractLsb' 16 8)) (a + 3) (w.extractLsb' 24 8)

def readBytes (m : List Host.Cell) (a n : Nat) : List Byte := (List.range n).map fun k => readByte m (a + k)

def writeBytes (m : List Host.Cell) : Nat → List Byte → List Host.Cell
  | _, [] => m
  | a, b :: bs => writeBytes (writeByte m a b) (a + 1) bs

/-- Clear every byte from `lo` up to but not including `hi`. -/
def clearMem (m : List Host.Cell) (lo hi : Nat) : List Host.Cell := m.filter fun c => c.1 < lo || hi ≤ c.1

def State.memWord (s : State) (a : Nat) : Word := readWord s.mem a
def State.setMemWord (s : State) (a : Nat) (w : Word) : State := { s with mem := writeWord s.mem a w }

/-- The bytes of a number, least significant first, and the number they spell (R8). -/
def leBytes : Nat → Nat → List Byte
  | 0, _ => []
  | n + 1, v => BitVec.ofNat 8 v :: leBytes n (v / 256)
def ofLe : List Byte → Nat
  | [] => 0
  | b :: bs => b.toNat + 256 * ofLe bs

/-- The private regions of memory that the fabric map does not show: side `k` of lane `n` (R106). -/
def sideBase (n k : Nat) : Nat := 2 ^ 40 + n * 0x10000 + k * 0x8000

/-! Interrupts. -/

/-- Set a bit of UL_IRQ_PEND (R333). -/
def ulIrq (k : Nat) (s : State) : State :=
  { s with link := { s.link with irqPend := s.link.irqPend ||| BitVec.ofNat 6 (2 ^ k) } }

/-- Pend interrupt source `k` on core `c` (R241). -/
def pendCore (c k : Nat) (s : State) : State :=
  s.setCore c { s.core c with ipend := (s.core c).ipend ||| BitVec.ofNat 32 (2 ^ k) }

/-- Pend interrupt source `k` on every core (R240). -/
def pendAll (k : Nat) : State → State := forUpto 8 fun c => pendCore c k

/-! Faults (R377 to R381). -/

/-- The class of a fault code. -/
def faultClass (code : Nat) : Nat := code / 0x1000

/-- The control-core source that pends at a raise of a class (R240). -/
def classSource : Nat → Option Nat
  | 0x4 => some 8
  | 0x3 => some 9
  | 0x5 => some 10
  | 0x6 => some 11
  | 0x7 => some 12
  | 0x8 => some 13
  | 0x9 => some 14
  | 0x1 => some 15
  | _ => none

/-- The emergency error code of a fault (R301). -/
def emcyCode (code : Nat) : Nat :=
  match faultClass code with
  | 0x1 => 0x3000
  | 0x3 => 0x9000
  | 0x4 | 0x6 | 0x9 | 0xC => 0x6000
  | 0xA => 0x8100
  | 0xB => match code with
    | 0xB001 => 0x8140
    | 0xB002 => 0x8120
    | 0xB003 => 0x8130
    | 0xB004 => 0x8210
    | 0xB005 => 0x8110
    | _ => 0x8100
  | 0xD => 0x4200
  | _ => 0x5000

/-- The error register bit of a class (R301). -/
def errBit : Nat → Nat
  | 0x1 => 2
  | 0xA | 0xB => 4
  | 0xD => 3
  | _ => 7

/-- The error register 0x1001: bit 0 is set while any bit is (R301). -/
def errRegister (s : State) : Nat :=
  let v := s.active.foldl (fun v a => v ||| 2 ^ errBit (faultClass a.1.toNat)) 0
  if v = 0 then 0 else v ||| 1

/-- FLT_ACTIVE_CLASSES (R381). -/
def activeClasses (s : State) : Nat := s.active.foldl (fun v a => v ||| 2 ^ faultClass a.1.toNat) 0

/-- Count one more occurrence in the newest record that `hit` accepts (R379). -/
def bumpRepeat (hit : FaultRec → Bool) (s : State) : State :=
  let head := s.rd Obj.fltLogHead
  let cand := (List.range (s.rd Obj.fltLogCount)).map fun k => (head + 63 - k) % 64
  match cand.find? fun k => hit (s.faultLog.get {code := 0, rep := 0, unit := 0, info := 0, extra := 0, slate := 0} k) with
  | none => s
  | some k =>
    let r := s.faultLog.get {code := 0, rep := 0, unit := 0, info := 0, extra := 0, slate := 0} k
    { s with faultLog := s.faultLog.insert k { r with rep := if r.rep = 0xFFFF then r.rep else r.rep + 1 } }

/-- A further occurrence of a fault that stays raised (R379). -/
def repeatFault (code unit info : Nat) : State → State :=
  bumpRepeat fun r => r.code == BitVec.ofNat 16 code && r.unit == BitVec.ofNat 8 unit &&
    (code != 0x9010 || r.info == BitVec.ofNat 16 info)

/-- Write a record at the head of the fault log (R379) and set the code's active flag (R380). -/
def logFault (code unit info extra : Nat) (s : State) : State :=
  let head := s.rd Obj.fltLogHead
  let c := BitVec.ofNat 16 code
  let r : FaultRec := ⟨c, 0, BitVec.ofNat 8 unit, BitVec.ofNat 16 info, BitVec.ofNat 64 extra, s.slate⟩
  let s := { s with faultLog := s.faultLog.insert head r }
  let s := if s.rd Obj.fltLogCount = 64 then s.inc Obj.fltLost else s.wr Obj.fltLogCount (s.rd Obj.fltLogCount + 1)
  let s := ((s.wr Obj.fltLogHead ((head + 1) % 64)).inc Obj.fltTotal).wr Obj.fltLast code
  let s := if s.active.any fun a => a.1 == c then s else { s with active := s.active ++ [(c, s.slate)] }
  let s := ulIrq 2 s
  match classSource (faultClass code) with
  | some k => pendAll k s
  | none => s

/-- The eight bytes of an EMCY message (R301). -/
def emcyBytes (err reg code detail : Nat) : List Byte :=
  leBytes 2 err ++ leBytes 1 reg ++ leBytes 2 code ++ leBytes 3 detail

/-- Queue an EMCY message, whose error code enters the pre-defined error field: 32 entries, none while 0x1014 disables EMCY (R294, R301). The first drop since the queue
last emptied raises 0xB005, whose own message follows once space exists. -/
def queueEmcy (err code detail : Nat) (s : State) : State :=
  if (s.rd Obj.cobEmcy).testBit 31 then s
  else if s.can.emcy.length < 32 then
    { s with can := { s.can with
        emcy := s.can.emcy ++ [emcyBytes err (errRegister s) code detail]
        errors := if err = 0 then s.can.errors else (BitVec.ofNat 16 err :: s.can.errors).take 16 } }
  else if s.can.emcyDrop then repeatFault 0xB005 0 0 s
  else
    let s := { s with can := { s.can with emcyDrop := true } }
    if s.onceKeys.contains (0xB005, 0) then repeatFault 0xB005 0 0 s
    else logFault 0xB005 0 0 0 { s with onceKeys := s.onceKeys ++ [(0xB005, 0)], can := { s.can with emcyOwed := true } }

/-- Raise a fault (R377 to R381): its record, active flag, interrupt sources and EMCY message. -/
def raise (code unit info extra : Nat) (s : State) : State :=
  queueEmcy (emcyCode code) code (info % 2 ^ 16 + unit % 2 ^ 8 * 2 ^ 16) (logFault code unit info extra s)

/-- Raise a fault once for a key (a master, a channel, a code) and count it until it is cleared (R271, R314, R376). -/
def raiseOnce (key code unit info extra : Nat) (s : State) : State :=
  if s.onceKeys.contains (BitVec.ofNat 16 code, key) then repeatFault code unit info s
  else raise code unit info extra { s with onceKeys := s.onceKeys ++ [(BitVec.ofNat 16 code, key)] }

/-- Raise a fault whose unit has a sticky bit (R56, R180, R230, R287): raised while the bit is clear, else counted. -/
def raiseSticky (r : Reg) (bit code unit info extra : Nat) (s : State) : State :=
  if (s.rd r).testBit bit then repeatFault code unit info s
  else raise code unit info extra (s.setBit r bit)

/-- The EMCY 0x0000 that follows when the error register returns to 0 (R301). -/
def errCleared (before : State) (s : State) : State :=
  if errRegister before ≠ 0 ∧ errRegister s = 0 then queueEmcy 0 0 0 s else s

/-- Clear the active flags of the codes that `p` accepts (R380). -/
def clearActive (p : Nat → Bool) (s : State) : State :=
  errCleared s { s with
    active := s.active.filter fun a => !p a.1.toNat
    onceKeys := s.onceKeys.filter fun k => !p k.1.toNat }

/-- Clear sticky registers of units `regs`, whose bit k stands for code `base + k`: the active flag of a code clears with the
last unit bit of that code (R380). -/
def clearSticky (base bits : Nat) (regs clear : List Reg) (s : State) : State :=
  let s' := forList clear (fun r s => s.wr r 0) s
  forUpto bits (fun k s'' =>
    if regs.any (fun r => (s.rd r).testBit k) && !regs.any (fun r => (s'.rd r).testBit k) then
      clearActive (fun c => c == base + k) s''
    else s'') s'

/-- Set counters to 0. -/
def zeroRegs (rs : List Reg) (s : State) : State := forList rs (fun r s => s.wr r 0) s

/-- Whether the fast clocks run: not in NAP, WAKING or DORMANT (R344). -/
def awake (s : State) : Bool := s.rd Obj.pwrState != 2 && s.rd Obj.pwrState != 3 && s.rd Obj.pwrState != 5

/-- An event in the logic of the fast clocks: in NAP, WAKING and DORMANT that logic stands still and keeps its state (R344). -/
def clocked (f : State → State) (s : State) : Host.Outcome State Fault Refusal := .next (if awake s then f s else s)

/-- An entry into NAP or DORMANT has passed its first two steps: every group is OFF, and the sluice, the cores and the sluice's DMA
engine stop (R346). -/
def quiet (s : State) : Bool :=
  (s.rd Obj.pwrState == 1 || s.rd Obj.pwrState == 4) && (List.range 6).all fun g => s.rd (Obj.portState g) == 0

/-- Whether a control core executes instructions (R238): on an entry into NAP it stops where an interrupt could be taken (R346). -/
def coreRuns (s : State) (c : Nat) : Bool :=
  s.rd (Obj.coreState c) == 1 && awake s && (!quiet s || (s.core c).noIrq)

/-! Handles and the harvest ring (R303 to R310). -/

/-- Record a record in the completion TPDO's queue of 16 (R310). -/
def queueTpdo16 (r : Record) (s : State) : State :=
  if s.can.nmt = 5 ∧ !(s.rd (Obj.tpdoCob 15)).testBit 31 then
    if s.can.tpdo16.length < 16 then { s with can := { s.can with tpdo16 := s.can.tpdo16 ++ [r] } }
    else ({ s with can := { s.can with tpdo16 := s.can.tpdo16.tail ++ [r] } }).inc Obj.hvTpdoLost
  else s

/-- Post a record at HV_HEAD (R307). -/
def postRecord (status handle detail : Nat) (slate : Slate) (s : State) : State :=
  let head := s.rd Obj.hvHead
  let r : Record := ⟨BitVec.ofNat 16 status, BitVec.ofNat 16 handle, BitVec.ofNat 32 detail, slate⟩
  let s := { s with records := s.records.insert head r }
  let s := (s.wr Obj.hvHead ((head + 1) % 256)).wr Obj.hvUsed (s.rd Obj.hvUsed + 1)
  queueTpdo16 r (pendAll 7 (ulIrq 1 s))

/-- Post a notice, or count it as lost (R308). -/
def postNotice (detail : Nat) (s : State) : State :=
  if s.rd Obj.hvUsed + s.handles.length < 256 then postRecord 0 0 detail s.slate s else s.inc Obj.hvNoticesLost

/-- Whether a long operation is admitted (R304). -/
def admits (s : State) : Bool := decide (s.handles.length < 64) && decide (s.rd Obj.hvUsed + s.handles.length < 252)

/-- The HANDLE16 of a handle (R291). -/
def Handle.word (h : Handle) : Nat := h.gen * 0x1000 + h.slot

/-- Issue the lowest free slot for an operation started by path `p` (R303, R304). -/
def issueHandle (op : Op) (p : Nat) (s : State) (status : Nat := 0) (detail : Nat := 0) : Handle × State :=
  let slot := ((List.range 64).map (· + 1)).find? (fun k => !s.handles.any fun h => h.slot == k) |>.getD 0
  let gen := (s.gens.get 0 slot + 1) % 16
  let h : Handle := ⟨slot, gen, op, status, detail⟩
  (h, { s with handles := s.handles ++ [h], gens := s.gens.set 0 slot gen }.wr (Obj.lastHandle p) h.word)

/-- The console prints the record of a test that it started (R412). -/
def printTest (h : Handle) (status detail : Nat) (slate : Slate) (s : State) : State :=
  match h.op with
  | .bist _ =>
    if s.service.conBist then
      let r : Record := ⟨BitVec.ofNat 16 status, BitVec.ofNat 16 h.word, BitVec.ofNat 32 detail, slate⟩
      { s with service := { s.service with conBist := false, conOut := s.service.conOut ++ [.result r] } }
    else s
  | _ => s

/-- Complete a handle: free its slot and post its record. -/
def completeHandle (h : Handle) (status detail : Nat) (slate : Slate) (s : State) : State :=
  printTest h status detail slate
    (postRecord status h.word detail slate { s with handles := s.handles.filter fun k => k.slot != h.slot })

/-- The DETAIL of an operation that ends early: of a store or restore the sub-index (R311, R312). -/
def opDetail : Op → Nat
  | .store sub | .restore sub => sub
  | _ => 0

/-- The outstanding handle of an operation. -/
def handleOf (p : Op → Bool) (s : State) : Option Handle := s.handles.find? fun h => p h.op

/-! The field network's output. -/

/-- Send a message on the CAN bus; none while the controller is silent, bus-off, or its clocks are stopped. -/
def canSend (m : CanMsg) (s : State) : State :=
  if s.can.silent || s.can.busOff then s else { s with can := { s.can with sent := s.can.sent ++ [m] } }

end Sys2Proof.Machine
end

