-- ==== Sys2Proof/Machine/Dataflow.lean ====
section
/-! DEFINITION. The sluice: edges, tokens, readiness, completion, and the ring pairs between lanes and the block domain
(R206 to R229). -/

namespace Sys2Proof.Machine

/-! Endpoint codes of an edge end (R209). -/

def endNode (slot : Nat) : Nat := 1 + slot
def endPort (g : Nat) : Nat := 1000 + g
def endRing (r : Nat) : Nat := 2000 + r
def ringOfEnd (c : Nat) : Option Nat := if 2000 ≤ c then some (c - 2000) else none

/-! The node header (R210). -/

def Node.cls (n : Node) : Bool := (n.hdr.headD 0).getLsbD 15
def Node.prio (n : Node) : Nat := ((n.hdr.headD 0).extractLsb' 12 3).toNat
def Node.cores (n : Node) : Byte := (n.hdr.headD 0).extractLsb' 24 8
def hdrNin (h : List Word) : Nat := ((h.headD 0).extractLsb' 16 3).toNat
def hdrNout (h : List Word) : Nat := ((h.headD 0).extractLsb' 19 3).toNat

/-- Halfword `k` of words 1 to 4: input entries 0 to 3, then output entries 0 to 3. -/
def hdrEntry (h : List Word) (k : Nat) : Nat :=
  let w := h.getD (1 + k / 2) 0
  if k % 2 = 0 then (w.extractLsb' 0 16).toNat else (w.extractLsb' 16 16).toNat

def hdrIns (h : List Word) : List Nat := (List.range (hdrNin h)).map (hdrEntry h)
def hdrOuts (h : List Word) : List Nat := (List.range (hdrNout h)).map fun k => hdrEntry h (4 + k)

/-- The header a path or converter node gets (R194, R198): class E, its priority and edges. -/
def builtHeader (prio : Nat) (ins outs : List Nat) : List Word :=
  let half (l : List Nat) (k : Nat) : Nat := l.getD k 0xFFFF
  let w (l : List Nat) (k : Nat) : Word := BitVec.ofNat 32 (half l k + 0x10000 * half l (k + 1))
  [BitVec.ofNat 32 (ins.length * 0x10000 + outs.length * 0x80000 + 0x8000 + prio * 0x1000), w ins 0, w ins 2, w outs 0, w outs 2]

/-- Whether a header holds no reserved encoding (R210); `own` forbids the firmware's cores (R235). -/
def headerGood (own : Bool) (h : List Word) : Bool :=
  let cores := ((h.headD 0).extractLsb' 24 8).toNat
  let cls := (h.headD 0).getLsbD 15
  let used := hdrIns h ++ hdrOuts h
  decide (hdrNin h ≤ 4) && decide (hdrNout h ≤ 4) &&
  (if cls then cores == 0 else cores != 0 && !(own && cores % 4 != 0)) &&
  used.all (fun e => decide (e < 1024)) &&
  (List.range 4).all (fun k => decide (k < hdrNin h) || hdrEntry h k == 0xFFFF) &&
  (List.range 4).all (fun k => decide (k < hdrNout h) || hdrEntry h (4 + k) == 0xFFFF) &&
  (hdrIns h).all (fun e => !(hdrOuts h).contains e)

/-! Edges (R207, R208). -/

/-- The positions of an edge that are not free: tokens held and positions being filled. -/
def Edge.held (e : Edge) : List Nat := e.tokens.filterMap (·.pos) ++ e.taken

/-- The return positions of an edge that a ring pair consumes (R225); none for another edge. -/
def retPositions (s : State) (e : Nat) : Option (List RetPos) := (ringOfEnd (s.edge e).cons).map fun r => (s.ring r).ret

/-- EDGE_TOKENS and EDGE_CREDIT (R232): tokens held and free positions. A return position holds a token while it is filled, and
grants credit while it expects a block that no firing fills and no read has latched (R225). -/
def edgeTokens (s : State) (e : Nat) : Nat := match retPositions s e with
  | some ret => (ret.filter fun t => t.valid).length
  | none => (s.edge e).tokens.length
def edgeCredit (s : State) (e : Nat) : Nat :=
  if !(s.edge e).on then 0
  else match retPositions s e with
    | some ret => (ret.filter fun t => !t.valid && !t.reserved && !t.latched).length
    | none => s.rd (Obj.edgeDepth e) - (s.edge e).held.length

/-- The sum of Q over enabled edges (R207). -/
def tokenSlots (s : State) : Nat := s.edges.foldl (fun n p => if p.2.on then n + s.rd (Obj.edgeDepth p.1) else n) 0

/-- Count a scheduler fault (R229): `k` is the last digit of its code, `what` 0 node, 1 edge, 2 ring pair. -/
def schFault (k what number extra : Nat) : State → State := raiseSticky Obj.schFaults (k - 1) (0x6000 + k) what number extra

/-- Set or release a taken position. -/
def takePos (e p : Nat) (s : State) : State := s.setEdge e { s.edge e with taken := (s.edge e).taken ++ [p] }
def dropPos (e p : Nat) (s : State) : State := s.setEdge e { s.edge e with taken := (s.edge e).taken.filter (· != p) }

/-- Append a token to an edge (R208), counting EDGE_POSTED. At most 16 late tokens without positions are held (R224). -/
def addToken (e : Nat) (t : Token) (s : State) : State :=
  let ed := s.edge e
  if t.pos.isNone && 16 ≤ (ed.tokens.filter (·.pos.isNone)).length then s
  else (s.setEdge e { ed with tokens := ed.tokens ++ [t], taken := ed.taken.filter fun p => t.pos != some p }).incMax
    (Obj.edgePosted e)

/-- Remove from an edge the token at position `p` (of index `m`, for a token without one), freeing its position. -/
def removeToken (e m : Nat) (p : Option Nat) (s : State) : State :=
  s.setEdge e { s.edge e with tokens := (s.edge e).tokens.filter fun t => !(t.index == m && t.pos == p) }

/-- The fabric byte address of position `p` of edge `e` (R210). -/
def posBase (s : State) (e p : Nat) : Nat := s.rd (Obj.edgeBase e) + p * s.rd (Obj.edgePosBytes e)

/-! Readiness (R215). -/

/-- The input positions of a firing with their LATE bits, and its output positions, as byte ranges. -/
def firingIns (s : State) (f : Firing) : List (Nat × Nat × Bool) :=
  (((hdrIns (s.node f.slot).hdr).zip f.inPos).zipIdx).filterMap fun x =>
    x.1.2.map fun p => (posBase s x.1.1 p, s.rd (Obj.edgePosBytes x.1.1), f.late.testBit x.2)
def firingOuts (s : State) (f : Firing) : List (Nat × Nat) :=
  ((hdrOuts (s.node f.slot).hdr).zip f.outPos).map fun x => (posBase s x.1 x.2, s.rd (Obj.edgePosBytes x.1))

/-- The bytes of a late input block of a firing: its position, or every position of the edge for one that has none (R224). -/
def lateIns (s : State) (f : Firing) : List (Nat × Nat) :=
  (((hdrIns (s.node f.slot).hdr).zip f.inPos).zipIdx).filterMap fun x =>
    let e := x.1.1
    let n := s.rd (Obj.edgePosBytes e)
    if !f.late.testBit x.2 then none
    else some (match x.1.2 with
      | some p => (posBase s e p, n)
      | none => (s.rd (Obj.edgeBase e), s.rd (Obj.edgeDepth e) * n))

def inRange (a : Nat) (r : Nat × Nat) : Bool := decide (r.1 ≤ a) && decide (a < r.1 + r.2)

/-- Whether a fabric byte address lies in a position that a firing names: owners do not matter there (R212, R258). -/
def inFiring (s : State) (f : Firing) (a : Nat) : Bool :=
  ((firingIns s f).map fun r => (r.1, r.2.1)).any (inRange a) || (firingOuts s f).any (inRange a)

/-- The firing that a core holds. -/
def heldFiring (s : State) (c : Nat) : Option Firing := s.firings.find? fun f => f.holder == c && f.state == 4

/-- Whether the fabric drops a write of a firing at fabric byte address `a` (R215, R225): every write to the return ring of a void
output, and a write to a return position that does not expect the firing's block. -/
def retDrops (s : State) (f : Firing) (a : Nat) : Bool :=
  (((hdrOuts (s.node f.slot).hdr).zip f.outPos).zipIdx).any fun x =>
    let e := x.1.1
    match ringOfEnd (s.edge e).cons with
    | none => false
    | some r =>
      let k := s.rd (Obj.rpDepth r)
      let n := s.rd (Obj.edgePosBytes e)
      let base := s.rd (Obj.edgeBase e)
      if !(decide (base ≤ a) && decide (a < base + k * n)) then false
      else if f.void.testBit x.2 then true
      else match (s.ring r).ret[(a - base) / n]? with
        | some t => t.block != f.index + k
        | none => false

/-- The credit an output edge grants to a firing of index `m` (R215, R225): its position and whether it is void. -/
def creditFor (s : State) (e m : Nat) : Option (Nat × Bool) :=
  let ed := s.edge e
  match ringOfEnd ed.cons with
  | some r =>
    let k := s.rd (Obj.rpDepth r)
    let p := m % k
    match (s.ring r).ret[p]? with
    | none => none
    | some t =>
      if t.block = m + k ∧ !t.latched ∧ !t.reserved then some (p, false)
      else if m + k < t.block ∨ (t.block = m + k ∧ t.latched) then some (p, true)
      else none
  | none =>
    let p := ed.next % s.rd (Obj.edgeDepth e)
    if ed.held.contains p then none else some (p, false)

/-- Reserve an output position for a firing. -/
def reserveOut (e : Nat) (c : Nat × Bool) (s : State) : State :=
  let ed := s.edge e
  match ringOfEnd ed.cons with
  | some r =>
    if c.2 then s
    else
      let x := s.ring r
      s.setRing r { x with ret := x.ret.mapIdx fun i t => if i = c.1 then { t with reserved := true } else t }
  | none => s.setEdge e { ed with taken := ed.taken ++ [c.1], next := (c.1 + 1) % s.rd (Obj.edgeDepth e) }

/-- The oldest token of an edge that no firing has reserved. -/
def headToken (s : State) (e : Nat) : Option Token := (s.edge e).tokens.find? fun t => !t.reserved

def reserveIn (e : Nat) (t : Token) (s : State) : State :=
  s.setEdge e { s.edge e with tokens := (s.edge e).tokens.map fun x =>
    if x.index = t.index ∧ x.pos = t.pos then { x with reserved := true } else x }

/-- Bits of a list of Booleans, the first one lowest. -/
def bitsOf (l : List Bool) : Nat := l.foldr (fun b n => b.toNat + 2 * n) 0

/-- Put a firing of a node into READY (R214, R215). -/
def makeReady (slot index : Nat) (toks : List Token) (creds : List (Nat × Bool)) (ops : List Word) (s : State) : State :=
  let nd := s.node slot
  let ins := hdrIns nd.hdr
  let outs := hdrOuts nd.hdr
  let f : Firing :=
    { slot := slot, rung := 0, index := index, prio := nd.prio, inPos := toks.map (·.pos), outPos := creds.map (·.1)
      late := bitsOf (toks.map (·.late)), void := bitsOf (creds.map (·.2)), order := s.fireSeq, state := 2, holder := 0xFF
      status := 0, done := false, overdue := false, ops := ops }
  let s := forList (ins.zip toks) (fun x => reserveIn x.1 x.2) s
  let s := forList (outs.zip creds) (fun x => reserveOut x.1 x.2) s
  let s := if creds.any (·.2) then s.inc (Obj.nodeVoids slot) else s
  { s with firings := s.firings ++ [f], fireSeq := s.fireSeq + 1 }.wr (Obj.nodeState slot) 2

/-- The frames of block code `c` of BLOCK_SIZE (R178) and of RP_BLOCK (R234). -/
def blockFrames (c : Nat) : Nat := 2 ^ (3 + c)

/-- The number of set bits among the low 16. -/
def popcount16 (m : Nat) : Nat := ((List.range 16).filter fun k => m.testBit k).length

/-- The rates of a converter: source and destination, in Hz, at the nominal port rate (R198). -/
def convRates (s : State) (v : Nat) : Nat × Nat :=
  let house := s.rd (Obj.asRate v)
  let port := s.rd (Obj.portRate (s.rd (Obj.asGroup v)))
  match s.rd (Obj.asMode v) with
  | 0 => (port, house)
  | 1 => (house, port)
  | _ => (s.rd (Obj.asSrcRate v), house)

/-- The block frames of a converter: source and destination (R198, R204). -/
def convBlocks (s : State) (v : Nat) : Nat × Nat :=
  let house := blockFrames (s.rd (Obj.asHouseBlock v))
  let port := blockFrames (s.rd (Obj.blockSize (s.rd (Obj.asGroup v))))
  match s.rd (Obj.asMode v) with
  | 0 => (port, house)
  | 1 => (house, port)
  | _ => (house, house)

/-- The edge whose tokens bring a converter's source blocks (R198): in FIXED mode the enabled edge whose positions are the source
ring, for which the converter's objects name none (DEDUCED). -/
def convSource (s : State) (v : Nat) : Option Nat :=
  match s.rd (Obj.asMode v) with
  | 0 => some (s.rd (Obj.inEdge (s.rd (Obj.asGroup v))))
  | 1 => some (s.rd (Obj.asEdge v))
  | _ => (s.edges.find? fun x => x.2.on && s.rd (Obj.edgeBase x.1) == 4 * s.rd (Obj.asSrcAddr v) &&
      s.rd (Obj.edgeDepth x.1) == s.rd (Obj.asSrcDepth v)).map (·.1)

/-- The edge that takes a converter's destination blocks (R198). -/
def convDest (s : State) (v : Nat) : Nat :=
  if s.rd (Obj.asMode v) = 1 then s.rd (Obj.outEdge (s.rd (Obj.asGroup v))) else s.rd (Obj.asEdge v)

/-- The source blocks that wait on the source edge of a converter, oldest first: their fabric byte addresses. -/
def convWaiting (s : State) (v : Nat) : List Nat :=
  match convSource s v with
  | some e => (s.edge e).tokens.filterMap fun t => t.pos.map (posBase s e)
  | none => []

/-- The epoch and count in a block's header, as one slate (R163). -/
def blockSlate (s : State) (a : Nat) : Slate := s.memWord (a + 4) ++ s.memWord a

/-- Ticks in units of 2^-32. -/
def fineTicks (t : Nat) : Int := (t : Int) * 2 ^ 32

/-- The time of frame `j` of a converter's next destination block (R198, R199), in 2^-32 tick: whole ticks from the first frame on
in IN and FIXED, in OUT the time that the tracking loop gives the group's frames. -/
def convFrameTime (s : State) (v j : Nat) : Int :=
  let x := s.conv v
  let (_, fout) := convRates s v
  let (_, bout) := convBlocks s v
  if s.rd (Obj.asMode v) = 1 then
    let meas := s.rd (Obj.portRateMeas (s.rd (Obj.asGroup v)))
    x.next + ((j * 10 ^ 10 * 2 ^ 32 / (if meas = 0 then 100 * fout else meas) : Nat) : Int)
  else fineTicks (x.t0.toNat + (x.blocks * bout + j) * 10 ^ 8 / fout)

/-- The time, in 2^-32 tick, that the source must cover for the next destination block (R202): its last frame less D, and h source
periods more, where h source periods are 32 periods of the lower rate. -/
def convNeed (s : State) (v : Nat) : Int :=
  let (fin, fout) := convRates s v
  let (_, bout) := convBlocks s v
  convFrameTime s v (bout - 1) - fineTicks (s.rd (Obj.asDelay v)) + ((32 * 10 ^ 8 * 2 ^ 32 / min fin fout : Nat) : Int)

/-- The time of the last frame of the source block at `a` in OUT and FIXED modes. -/
def blockEnd (s : State) (v a : Nat) : Int :=
  let (fin, _) := convRates s v
  let (bin, _) := convBlocks s v
  fineTicks (blockSlate s a).toNat + (((bin - 1) * 10 ^ 8 * 2 ^ 32 / fin : Nat) : Int)

/-- The waiting source blocks that a destination block takes: all in IN mode, in the others those its span needs (R202). -/
def convTakes (s : State) (v : Nat) : Nat :=
  let wait := convWaiting s v
  if s.rd (Obj.asMode v) = 0 then wait.length
  else
    let short := (wait.takeWhile fun a => decide (blockEnd s v a < convNeed s v)).length
    min wait.length (short + 1)

/-- Whether the source of a converter covers the time of its next destination block (R202). -/
def convReady (s : State) (v : Nat) : Bool :=
  if s.rd (Obj.asMode v) = 0 then decide (convNeed s v ≤ fineTicks s.slate.toNat)
  else (convWaiting s v).any fun a => decide (convNeed s v ≤ blockEnd s v a)

/-- Test one node for readiness (R215, R216). A converter's node takes its source blocks as R202 gives: their number stands in the
first word of its firing's `ops`, so that a rerun takes the same ones (R197). -/
def tryReady (slot : Nat) (s : State) : State :=
  let nd := s.node slot
  let conv := decide (256 ≤ slot) && decide (slot < 272)
  if !nd.on || nd.closing || s.rd (Obj.nodeState slot) != 1 then s
  else if conv && !convReady s (slot - 256) then s
  else
    match (if conv then [] else hdrIns nd.hdr).mapM (headToken s) with
    | none => s
    | some toks =>
      let first := if conv then (hdrIns nd.hdr).head?.bind (headToken s) else toks.head?
      let index := (first.map fun t => t.index).getD nd.fired
      match (hdrOuts nd.hdr).mapM (fun e => creditFor s e index) with
      | none => s
      | some creds =>
        makeReady slot index toks creds (if conv then [BitVec.ofNat 32 (convTakes s (slot - 256))] else []) s

/-- Test every enabled node, lowest slot first (R216). -/
def readyScan (s : State) : State := forList (s.nodes.map (·.1)) tryReady s

/-- Post a token on an edge and let its consumer become ready. -/
def postToken (e : Nat) (t : Token) (s : State) : State := readyScan (addToken e t s)

/-! Ring pairs (R223 to R226). -/

/-- B, K and C of a pair. -/
def ringB (s : State) (r : Nat) : Nat := blockFrames (s.rd (Obj.rpBlock r))
def ringK (s : State) (r : Nat) : Nat := s.rd (Obj.rpDepth r)
def ringC (s : State) (r : Nat) : Nat := s.rd (Obj.rpChannels r)

/-- The enabled pairs whose send ring holds far word `a`, with the word's offset: pairs may be fed from the same send ring
(R195). -/
def sendRingsAt (s : State) (a : Nat) : List (Nat × Nat) :=
  (s.rings.filter fun p => p.2.on && decide (s.rd (Obj.rpSendAddr p.1) ≤ a) &&
    decide (a < s.rd (Obj.rpSendAddr p.1) + (ringK s p.1 + 2) * ringB s p.1 * ringC s p.1)).map
    fun p => (p.1, a - s.rd (Obj.rpSendAddr p.1))

/-- The enabled pair whose return ring holds far word `a`, with the word's offset. -/
def returnRingAt (s : State) (a : Nat) : Option (Nat × Nat) :=
  (s.rings.find? fun p => p.2.on && decide (s.rd (Obj.rpReturnAddr p.1) ≤ a) &&
    decide (a < s.rd (Obj.rpReturnAddr p.1) + ringK s p.1 * ringB s p.1 * ringC s p.1)).map
    fun p => (p.1, a - s.rd (Obj.rpReturnAddr p.1))

/-- A late token counts in RP_SEND_LATE and raises 0x6002 (R224). -/
def countLate (r : Nat) (s : State) : State := schFault 2 2 r 0 (s.inc (Obj.rpSendLate r))

/-- Whether an edge takes another late token without a position: it holds at most 16 (R224). -/
def lateRoom (s : State) (e : Nat) : Bool := decide (((s.edge e).tokens.filter (·.pos.isNone)).length < 16)

/-- Post the late token of a dropped block `m`, counted at the drop unless the edge had no room for it then; beyond 16 late tokens
without positions nothing is posted or counted (R224). -/
def postDropped (r m : Nat) (s : State) : State :=
  let e := s.rd (Obj.rpSendEdge r)
  let x := s.ring r
  let s := s.setRing r { x with dropping := false, counted := false }
  if !lateRoom s e then s else postToken e ⟨m, none, true, false⟩ (if x.counted then s else countLate r s)

/-- Open block `m` at its position: it fills, or it is dropped because the position holds an unconsumed block (R224). -/
def openBlock (r m : Nat) (s : State) : State :=
  let e := s.rd (Obj.rpSendEdge r)
  let p := m % (ringK s r + 2)
  let x := s.ring r
  if (s.edge e).held.contains p then
    let room := lateRoom s e
    let s := s.setRing r { x with started := true, sendBlk := m, filling := false, dropping := true, counted := room }
    if room then countLate r s else s
  else takePos e p (s.setRing r { x with started := true, sendBlk := m, filling := true, dropping := false })

/-- Close the block that a first write of the next one finds open (R224, R52). -/
def closeBlock (r : Nat) (s : State) : State :=
  let x := s.ring r
  if x.filling then
    postToken (s.rd (Obj.rpSendEdge r)) ⟨x.sendBlk, some (x.sendBlk % (ringK s r + 2)), true, false⟩
      (countLate r (s.setRing r { x with filling := false }))
  else if x.dropping then postDropped r x.sendBlk s
  else s

/-- A lane's write to word `off` of a send ring lands (R17, R224): whether the word is written, and whether the block's
tick rises. -/
def sendWrite (r off : Nat) (s : State) : Bool × Bool × State :=
  let c := ringC s r
  let b := ringB s r
  let p := off / c / b
  let x := s.ring r
  let cur := x.sendBlk % (ringK s r + 2)
  let s := if !x.started then openBlock r 0 s
    else if p != cur && p == (x.sendBlk + 1) % (ringK s r + 2) then openBlock r (x.sendBlk + 1) (closeBlock r s)
    else s
  let x := s.ring r
  let last := off % (b * c) + 1 == b * c && p == x.sendBlk % (ringK s r + 2)
  if x.filling then
    if last then
      (true, true, postToken (s.rd (Obj.rpSendEdge r)) ⟨x.sendBlk, some p, false, false⟩ (s.setRing r { x with filling := false }))
    else (true, false, s)
  else if x.dropping then
    (false, false, if last then postDropped r x.sendBlk s else s)
  else (true, false, s)

/-- The first far read of a return block latches its validity at its issue slot (R18, R225). -/
def returnLatch (r off : Nat) (s : State) : State :=
  let p := off / ringC s r / ringB s r
  let x := s.ring r
  match x.ret[p]? with
  | none => s
  | some t =>
    if t.latched then s
    else
      let s := s.setRing r { x with ret := x.ret.set p { t with latched := true, good := t.valid } }
      if t.valid then s else schFault 3 2 r 0 (s.inc (Obj.rpReturnLate r))

/-- A return position moves on to the block K later (R225). -/
def releaseReturn (r p : Nat) (s : State) : State :=
  let x := s.ring r
  match x.ret[p]? with
  | none => s
  | some t => s.setRing r { x with ret := x.ret.set p ⟨t.block + ringK s r, false, false, false, false⟩ }

/-- A lane's read of word `off` of a return ring is performed (R225, R226): the word it delivers. -/
def returnRead (r off : Nat) (w : Word) (s : State) : Word × State :=
  let c := ringC s r
  let p := off / c / ringB s r
  let ch := off % c
  let x := s.ring r
  match x.ret[p]? with
  | none => (w, s)
  | some t =>
    let fadeOut := s.rd (Obj.rpFadeOut r)
    let fadeIn := s.rd (Obj.rpFadeIn r)
    let old := (x.fadeP.find? fun q => q.1 == ch).map (·.2)
    let lastW := Map.get (0 : Word) x.lastRet ch
    let (v, fp, lw) : Word × Option Nat × Word :=
      if t.good then
        match old with
        | none => (w, none, w)
        | some q => (fadeWord w (q + 1) fadeIn, if fadeIn ≤ q + 1 then none else some (q + 1), w)
      else
        let q := old.getD fadeOut - 1
        (fadeWord lastW q fadeOut, some q, lastW)
    let fades := x.fadeP.filter fun q => q.1 != ch
    let s := s.setRing r { x with
      fadeP := match fp with
        | none => fades
        | some q => fades ++ [(ch, q)]
      lastRet := Map.set (0 : Word) x.lastRet ch lw }
    let k := ringK s r
    let prev := (p + k - 1) % k
    let s := match (s.ring r).ret[prev]? with
      | some u => if u.block + 1 = t.block then releaseReturn r prev s else s
      | none => s
    let s := if off % (ringB s r * c) + 1 = ringB s r * c then releaseReturn r p s else s
    (v, readyScan s)

/-! Completion (R220, R221). -/

/-- Return the input positions of a firing as credit. -/
def freeInputs (f : Firing) (s : State) : State :=
  let ins := hdrIns (s.node f.slot).hdr
  forList (ins.zip f.inPos) (fun x s =>
    match (s.edge x.1).tokens.find? fun t => t.reserved && t.pos == x.2 with
    | some t => removeToken x.1 t.index t.pos s
    | none => s) s

/-- Make the output positions of a firing tokens, but for void ones; a `late` return block never becomes valid (R191). -/
def postOutputs (f : Firing) (late : Bool) (s : State) : State :=
  let outs := hdrOuts (s.node f.slot).hdr
  forList ((outs.zip f.outPos).zipIdx) (fun x s =>
    let e := x.1.1
    let p := x.1.2
    if f.void.testBit x.2 then s
    else match ringOfEnd (s.edge e).cons with
      | some r =>
        let y := s.ring r
        let s := s.setRing r { y with ret := y.ret.mapIdx fun i t =>
          if i = p ∧ t.block = f.index + ringK s r ∧ !t.latched then { t with valid := !late, reserved := false }
          else if i = p then { t with reserved := false } else t }
        if y.ret.any fun t => t.block == f.index + ringK s r && !t.latched then s.incMax (Obj.edgePosted e) else s
      | none => addToken e ⟨f.index, some p, false, false⟩ s) s

/-- Release reserved output credit unused (R221). -/
def freeOutputs (f : Firing) (s : State) : State :=
  let outs := hdrOuts (s.node f.slot).hdr
  forList ((outs.zip f.outPos).zipIdx) (fun x s =>
    let e := x.1.1
    let p := x.1.2
    if f.void.testBit x.2 then s
    else match ringOfEnd (s.edge e).cons with
      | some r =>
        let y := s.ring r
        s.setRing r { y with ret := y.ret.mapIdx fun i t => if i = p then { t with reserved := false } else t }
      | none => s.setEdge e { s.edge e with taken := (s.edge e).taken.filter (· != p), next := p }) s

/-- Unbind the ends a node binds. -/
def unbindNode (slot : Nat) (s : State) : State :=
  let h := (s.node slot).hdr
  let s := forList (hdrIns h) (fun e s => if (s.edge e).cons = endNode slot then s.setEdge e { s.edge e with cons := 0 } else s) s
  forList (hdrOuts h) (fun e s => if (s.edge e).prod = endNode slot then s.setEdge e { s.edge e with prod := 0 } else s) s

/-- Disable an edge that the module configured once neither end is bound (R233, R234). -/
def retireEdge (e : Nat) (s : State) : State :=
  let ed := s.edge e
  if ed.owned && ed.prod == 0 && ed.cons == 0 then (s.setEdge e {}).wr (Obj.edgeEnable e) 0 else s

/-- A node enters OFF (R214). -/
def nodeOff (slot : Nat) (s : State) : State :=
  let h := (s.node slot).hdr
  let s := (unbindNode slot s).setNode slot {}
  let s := { s with firings := s.firings.filter fun f => f.slot != slot }.wr (Obj.nodeState slot) 0
  forList (hdrIns h ++ hdrOuts h) retireEdge s

def sameFiring (f g : Firing) : Bool := f.slot == g.slot && f.rung == g.rung

/-- A firing leaves its engine or core; an engine starts its staged firing (R219). -/
def startStaged (holder : Nat) (s : State) : State :=
  let staged := s.firings.filter fun g => g.holder == holder && g.state == 3
  match staged with
  | [] => s
  | g :: _ =>
    let s := { s with firings := s.firings.map fun h => if sameFiring h g then { h with state := 4 } else h }
    if g.rung = 0 && !(s.node g.slot).faulted then s.wr (Obj.nodeState g.slot) 4 else s

/-- Complete a firing with a status (R220, R221); `late` marks a return block written late. -/
def completeFiring (f : Firing) (status : Nat) (late : Bool) (s : State) : State :=
  let s := { s with firings := s.firings.filter fun g => !sameFiring g f }
  let s := startStaged f.holder s
  let nd := s.node f.slot
  let s := if f.rung = 0 then s.setNode f.slot { nd with fired := nd.fired + 1 } else s
  let s := s.wr (Obj.nodeLastStatus f.slot) status
  let s :=
    if status = 0 then
      let s := if f.rung = 0 then postOutputs f late (freeInputs f s) else s
      let s := s.incMax (Obj.nodeFirings f.slot)
      if f.rung = 0 && !nd.faulted then s.wr (Obj.nodeState f.slot) 1 else s
    else
      let s := if f.rung = 0 then freeOutputs f (freeInputs f s) else s
      let s := (s.setNode f.slot { s.node f.slot with faulted := true }).inc (Obj.nodeFails f.slot)
      schFault 1 0 f.slot status (s.wr (Obj.nodeState f.slot) 5)
  let s := if (s.node f.slot).closing && !s.firings.any (fun g => g.slot == f.slot) then nodeOff f.slot s else s
  readyScan s

/-- The void bits of a firing as its dispatch finds them (R215, R225): a return block that has been latched or passed since the
firing became READY turns its output void, and a firing that becomes void so counts in NODE_VOIDS. -/
def refreshVoid (f : Firing) (s : State) : Firing × State :=
  let outs := hdrOuts (s.node f.slot).hdr
  let gone := ((outs.zip f.outPos).zipIdx).filter fun x => !f.void.testBit x.2 && match ringOfEnd (s.edge x.1.1).cons with
    | none => false
    | some r => match (s.ring r).ret[x.1.2]? with
      | some t => t.block != f.index + ringK s r || t.latched
      | none => false
  if gone.isEmpty then (f, s)
  else
    let s := forList gone (fun x s => match ringOfEnd (s.edge x.1.1).cons with
      | none => s
      | some r =>
        let y := s.ring r
        s.setRing r { y with ret := y.ret.mapIdx fun i t => if i = x.1.2 then { t with reserved := false } else t }) s
    let s := if f.void = 0 then s.inc (Obj.nodeVoids f.slot) else s
    ({ f with void := gone.foldl (fun v x => v ||| 2 ^ x.2) f.void }, s)

/-- Put a firing back into READY at the head of its list (R214, R228): its order is below every other. -/
def rerunFiring (f : Firing) (s : State) : State :=
  let s := { s with firings := { f with state := 2, holder := 0xFF, done := false, order := 0, ops := f.ops.take 1 } ::
    s.firings.filter fun g => !sameFiring g f }
  let s := if f.rung = 0 then s.wr (Obj.nodeState f.slot) 2 else s
  s.inc (Obj.nodeReruns f.slot)

/-- The first firing of the highest-priority non-empty list that `p` accepts (R217): lists run in order of readiness. -/
def pickFiring (p : Firing → Bool) (s : State) : Option Firing :=
  (s.firings.filter fun f => f.state == 2 && p f).foldl (fun best f =>
    match best with
    | none => some f
    | some b => if b.prio < f.prio || (b.prio == f.prio && f.order < b.order) then some f else some b) none

end Sys2Proof.Machine
end

