-- ==== Sys2Proof/Machine/Fabric.lean ====
section
/-! DEFINITION. The fabric: its address map, who may reach what, and how a refused access is reported (R249 to R258,
R264, R265, R271), and writes to the shadow coefficient sides (R107, R117, R127). -/

namespace Sys2Proof.Machine

/-- A region of the fabric address map (R249), with the byte offset in it. -/
inductive Region where
  | reel (lane off : Nat)
  | shadow (lane off : Nat)
  | shared (group off : Nat)
  | exchange (off : Nat)
  | coreInstr (core off : Nat)
  | coreData (core off : Nat)
  | dram (off : Nat)
  | hole
  deriving DecidableEq, Repr

/-- The region of a fabric byte address (R249). -/
def regionOf (a : Nat) : Region :=
  if a < 0x1000000 then
    let o := a % 0x40000
    if o < 0x20000 then .reel (a / 0x40000) o
    else if o < 0x28000 then .shadow (a / 0x40000) (o - 0x20000)
    else .hole
  else if a < 0x2000000 then .shared ((a - 0x1000000) / 0x200000) ((a - 0x1000000) % 0x200000)
  else if a < 0x2010000 then .exchange (a - 0x2000000)
  else if 0x3000000 ≤ a ∧ a < 0x3200000 then
    let o := (a - 0x3000000) % 0x40000
    let c := (a - 0x3000000) / 0x40000
    if o < 0x20000 then .coreInstr c o else if o < 0x30000 then .coreData c (o - 0x20000) else .hole
  else if 0x100000000 ≤ a ∧ a < 0x300000000 then .dram (a - 0x100000000)
  else .hole

/-- The side of a lane that is live (R106). -/
def liveSide (s : State) (n : Nat) : Nat := s.rd (Obj.liveSide n)

/-- Where memory holds the byte of a fabric address: the shadow window shows the side that is not live (R106). -/
def physAddr (s : State) (a : Nat) : Nat :=
  match regionOf a with
  | .shadow n off => sideBase n (1 - liveSide s n) + off
  | _ => a

/-- Bytes of DRAM the variant has (R1, R264). -/
def dramSize : Nat := if Config.variantM8 then 0x200000000 else 0x100000000

/-- The outcome of the fabric's check of an access: allowed, held until a transition of the group ends, or refused with
the fault it raises. -/
inductive FabResult where
  | ok
  | wait
  | deny (code : Nat)
  deriving DecidableEq, Repr

/-- Owner codes of the masters (R257, R378). -/
def masterSup : Nat := 0x7F
def masterSluice : Nat := 0x60
def masterHost : Nat := 0x40
def masterDma : Nat := 0x20
def masterAsrc : Nat := 0x50

/-- Whether a bank of the exchange pan may be written by the fabric: it is assigned to no group, or every lane of its
group is UNLOADED or STOPPED (R253). -/
def bankFree (s : State) (bank : Nat) : Bool :=
  (List.range 64).all fun g => !(s.rd (Obj.tgXchBanks g)).testBit bank ||
    (List.range 64).all fun n => s.rd (Obj.triggerGroup n) != g || s.rd (Obj.laneState n) == 0 || s.rd (Obj.laneState n) == 5

/-- Check an access of a master acting under owner code `own` (R250, R253, R254, R257, R258, R261, R264, R265). -/
def fabCheck (own : Nat) (write : Bool) (a : Nat) (s : State) : FabResult :=
  match regionOf a with
  | .reel _ _ => .ok
  | .shadow _ _ => .ok
  | .exchange off => if write && !bankFree s (off / 1024) then .deny 0x8006 else .ok
  | .coreInstr c _ =>
    if own = masterSup then .ok
    else if own != masterDma || c < 2 || (write && s.rd (Obj.coreState c) != 0) then .deny 0x8001
    else .ok
  | .coreData c _ =>
    if own = masterSup then .ok else if own != masterDma || c < 2 then .deny 0x8001 else .ok
  | .dram off =>
    if dramSize ≤ off then .deny 0x8002
    else if off < 0x4000000 && own != masterSup && own != 0x10 && own != 0x11 then .deny 0x8001
    else .ok
  | .shared g _ =>
    let st := s.rd (Obj.pgState g)
    let x := s.pan g
    if st = 0 ∨ st = 4 then .deny 0x8001
    else if own = masterSup ∨ own = masterSluice then if st = 3 then .wait else .ok
    else if st = 1 then if x.code.toNat = own then .ok else .deny 0x8004
    else if x.newOwner.toNat = own then .wait
    else .deny 0x8004
  | .hole => .deny 0x8001

/-- Report a refused access (R250, R269 to R271): `unit` is the master of the record, `info` a DMA channel or 0. -/
def fabReport (code unit info a : Nat) (s : State) : State :=
  let s := match regionOf a with
    | .shared g _ => if code = 0x8004 then s.inc (Obj.pgRefused g) else s
    | .dram _ => if code = 0x8003 then s.inc Obj.dramUncorrected else s.inc Obj.dramRange
    | _ => s
  raiseOnce unit code unit info a s

/-! Errors of the DRAM (R267). -/

/-- The DRAM beats in error that reads of the ranges, each an address and a length in bytes, meet. -/
def dramHits (s : State) (rs : List (Nat × Nat)) : List (Nat × Nat) :=
  s.dramErr.filter fun x => rs.any fun r =>
    let b := 0x100000000 + 64 * x.1
    decide (b < r.1 + r.2) && decide (r.1 < b + 64)

/-- Whether one of them holds an error that is not corrected. -/
def readFails (s : State) (rs : List (Nat × Nat)) : Bool := (dramHits s rs).any fun x => x.2 != 1

/-- Count and report the errors that reads of a master meet. -/
def noteReads (unit : Nat) (rs : List (Nat × Nat)) (s : State) : State :=
  forList (dramHits s rs) (fun x s =>
    if x.2 = 1 then s.inc Obj.dramCorrected else fabReport 0x8003 unit 0 (0x100000000 + 64 * x.1) s) s

/-! Accesses to one word of a shared pan in one cycle (R256). -/

/-- Whether the group of a fabric byte address has power: OFF and RETENTION refuse every access (R261). -/
def powered (s : State) (a : Nat) : Bool := match regionOf a with
  | .shared g _ => s.rd (Obj.pgState g) != 0 && s.rd (Obj.pgState g) != 4
  | _ => true

/-- The lane-port write of the present tick at fabric byte address `a`. -/
def panWrite (s : State) (a : Nat) : Option PanAcc := s.panLog.find? fun x => x.addr == a

/-- Write a word through the lane port, and log it. -/
def panPut (a : Nat) (w : Word) (lane : Option Nat) (group slot : Nat) (s : State) : State :=
  State.setMemWord { s with panLog := ⟨a, lane, group, slot, s.memWord a, false⟩ :: s.panLog.filter fun x => x.addr != a } a w

/-- A write in the cycle of the logged write `e` is overridden, or overrides it: a cycle counts once in PG_CLASHES of its group. -/
def panClash (e : PanAcc) (s : State) : State :=
  let g := (e.addr - 0x1000000) / 0x200000
  let one (x : PanAcc) : Bool := x.lane.isSome == e.lane.isSome && x.group == e.group && x.slot == e.slot &&
    (x.addr - 0x1000000) / 0x200000 == g
  let s := if s.panLog.any (fun x => one x && x.clashed) then s else s.inc (Obj.pgClashes g)
  { s with panLog := s.panLog.map fun x => if x.addr == e.addr then { x with clashed := true } else x }

/-- Whether an access falls into the cycle of a logged write. The model counts ticks of four cycles: where lanes of one group do not
tell, it is a free value. -/
def sameCycle (s : State) : Bool × State := let (k, s) := s.takeFresh; (Config.free k % 2 == 1, s)

/-- A fabric write of one word of memory: a lane-port write of the same cycle stands. -/
def panStore (a : Nat) (w : Word) (s : State) : State :=
  match panWrite s a with
  | none => s.setMemWord a w
  | some e =>
    let (same, s) := sameCycle s
    if same then panClash e s else s.setMemWord a w

/-- A port-stream write: it stands over a lane write of the same cycle. -/
def streamStore (g a : Nat) (w : Word) (s : State) : State :=
  if !powered s a then s
  else match panWrite s a with
    | none => panPut a w none g 0 s
    | some e =>
      let (same, s) := sameCycle s
      panPut a w none g 0 (if same then panClash e s else s)

/-- A port-stream read. -/
def streamLoad (s : State) (a : Nat) : Word := if powered s a then s.memWord a else 0

/-- Write the bytes of a beat, with byte enables; a lane-port write of the same cycle stands over the bytes of its word. -/
def panStoreBytes (a : Nat) (bytes : List Byte) (s : State) : State :=
  let hits := s.panLog.filter fun x => decide (a < x.addr + 4) && decide (x.addr < a + bytes.length)
  if hits.isEmpty then { s with mem := writeBytes s.mem a bytes }
  else
    let (same, s) := sameCycle s
    let s' := { s with mem := writeBytes s.mem a bytes }
    if same then forList hits (fun e t => panClash e (t.setMemWord e.addr (s.memWord e.addr))) s' else s'

/-- Whether offset `off` of lane `n`'s coefficient sides is the value word of a marked pair (R126). -/
def marked (s : State) (n off : Nat) : Bool := (s.rd (Obj.guardBitmap n)).testBit off

/-- Note a fabric write to shadow word `off` for "write wins" (R117, R128). -/
def noteShadowWrite (n off : Nat) (s : State) : State :=
  let l := s.lane n
  match l.copy with
  | none => s
  | some c => if c.next ≤ off then s.setLane n { l with copy := some { c with written := c.written ++ [off] } } else s

/-- Whether a word of an access touches a marked pair that the access does not write whole and matching (R127). -/
def guardDrop (s : State) (ws : List (Nat × Word)) (x : Nat × Word) : Bool :=
  match regionOf x.1 with
  | .shadow n off =>
    let k := off / 4
    let bad (hi lo : Option (Nat × Word)) : Bool :=
      match lo, hi with
      | some v, some c => c.2 != ~~~v.2
      | _, _ => true
    let find (b : Nat) := ws.find? fun y => y.1 == b
    if marked s n k then bad (find (x.1 + 4)) (some x)
    else if 0 < k && marked s n (k - 1) then bad (some x) (find (x.1 - 4))
    else false
  | _ => false

/-- One access that writes whole words, by a master whose record path is `unit` (R127): a word of a marked pair is written
only with its complement in the same access; the others are written. DESIGN CHOICE: 0x9005 is raised for every word that is
dropped, so twice for a pair of one access whose words disagree; the rule does not say once or twice. -/
def fabWrite (unit : Nat) (ws : List (Nat × Word)) (s : State) : State :=
  forList ws (fun x s =>
    if guardDrop s ws x then raise 0x9005 unit 0 x.1 s
    else match regionOf x.1 with
      | .shadow n off => (noteShadowWrite n (off / 4) s).setMemWord (physAddr s x.1) x.2
      | _ => panStore (physAddr s x.1) x.2 s) s

/-- The word a fabric master reads. -/
def fabRead (s : State) (a : Nat) : Word := s.memWord (physAddr s a)

/-- The shared pan group of a far-window word address (R255), and its fabric byte address (R249). -/
def farGroup (a : Nat) : Nat := (a - 0x400000) / 0x80000
def farByte (a : Nat) : Nat := 4 * a

/-! The host port (R250, R324, R327, R329, R366). -/

/-- The boot ROM runs the link in recovery mode (R366). -/
def recovering (s : State) : Bool := s.boot.mode == 2 && !s.boot.meterE && !s.boot.inReset && s.power.supplied

/-- Check an access of the host port. In recovery mode only the DRAM bytes of R366 answer; the rest is out of range without a
fault, as code 0 says. -/
def hostCheck (write : Bool) (a : Nat) (s : State) : FabResult :=
  if recovering s then if 0x104000000 ≤ a ∧ a < 0x108000000 then .ok else .deny 0
  else fabCheck masterHost write a s

/-- Report a refused access of the host port. -/
def hostReport (code a : Nat) (s : State) : State := if code = 0 then s else fabReport code masterHost 0 a s

/-- The link's flags, FAULT, RANGE, WRAP and SLOW as bits 3 to 0, for a refused access (R327). -/
def denyFlags (code : Nat) : BitVec 4 := if code = 0 then 4 else if code = 0x8006 then 8 else 12

/-- One access of a background write: the state and the flags it gives. -/
def hostStore (ws : List (Nat × Word)) (s : State) : State × BitVec 4 :=
  let ok := ws.filter fun x => match hostCheck true x.1 s with
    | .deny _ => false
    | _ => true
  let (s, fl) := ws.foldl (fun (r : State × BitVec 4) x => match hostCheck true x.1 r.1 with
    | .deny c => (hostReport c x.1 r.1, r.2 ||| denyFlags c)
    | _ => r) (s, 0)
  (fabWrite 1 ok s, if ok.any (guardDrop s ok) then fl ||| 8 else fl)

/-- The accesses of a background write, in order: one for each word, or for each pair of WRITE_GUARDED (R329). -/
def LinkWrite.accesses (w : LinkWrite) : List (List (Nat × Word)) :=
  if w.guarded then (List.range (w.writes.length / 2)).map fun j => (w.writes.drop (2 * j)).take 2
  else w.writes.map fun x => [x]

/-- The first `n` accesses of a background write land. -/
def landAccesses (n : Nat) (w : LinkWrite) (s : State) : State × BitVec 4 :=
  (w.accesses.take n).foldl (fun r ws => let (s, fl) := hostStore ws r.1; (s, r.2 ||| fl)) (s, if w.wrap then 2 else 0)

end Sys2Proof.Machine
end

