-- ==== Sys2Proof/Machine/Flags.lean ====
section
/-! DEFINITION. The flags F and the arithmetic of the Hervel instruction set: accumulator results, word results and
shifts, each with the flags it sets (R64, R66, R91 to R103). Pure functions of words and the accumulator. -/

namespace Sys2Proof.Machine

/-- What an instruction does to Z, N, C and V (`none`: unchanged), to SV (set when true) and to DZ (R91). -/
structure FlagSet where
  z  : Option Bool := none
  n  : Option Bool := none
  c  : Option Bool := none
  v  : Option Bool := none
  sv : Bool := false
  dz : Bool := false
  deriving DecidableEq, Repr

/-- Replace bit `k` of F. -/
def putF (f : BitVec 16) (k : Nat) (b : Bool) : BitVec 16 :=
  if b then f ||| BitVec.ofNat 16 (2 ^ k) else f &&& ~~~(BitVec.ofNat 16 (2 ^ k))

/-- Replace bit `k` of F where a value is given. -/
def putOpt (f : BitVec 16) (k : Nat) : Option Bool → BitVec 16
  | none => f
  | some b => putF f k b

/-- Whether an instruction writes F. -/
def FlagSet.writes (x : FlagSet) : Bool := x.z.isSome || x.n.isSome || x.c.isSome || x.v.isSome || x.sv || x.dz

/-- F after an instruction (R66). -/
def FlagSet.apply (x : FlagSet) (f : BitVec 16) : BitVec 16 :=
  let f := putOpt (putOpt (putOpt (putOpt f 0 x.z) 1 x.n) 2 x.c) 3 x.v
  let f := if x.sv then putF f 4 true else f
  if x.dz then putF f 5 true else f

/-- The flags of a read of register code 0 (R64, R95): V and SV when it saturates or wraps, else unchanged. -/
def viewFlags (ov : Bool) : FlagSet := if ov then { v := some true, sv := true } else {}

/-- An instruction's own flags combined with those of its read of register code 0 (R97). -/
def FlagSet.withRead (x : FlagSet) (ov : Bool) : FlagSet :=
  if ov then { x with v := some true, sv := true } else x

/-- The write mask of F: bits 6:0, and on a control core bits 9:8 (R66, R95). -/
def maskF (lane : Bool) (w : Word) : BitVec 16 := w.truncate 16 &&& (if lane then 0x007F else 0x037F)

/-- The word view of the accumulator and whether it saturated or wrapped (R64). -/
def wordView (sat : Bool) (a : Acc) : Word × Bool :=
  let v : Int := (a.toInt + 2 ^ 31) / 2 ^ 32
  if v > 0x7FFFFFFF then (if sat then 0x7FFFFFFF else BitVec.ofInt 32 v, true)
  else if v < -0x80000000 then (if sat then 0x80000000 else BitVec.ofInt 32 v, true)
  else (BitVec.ofInt 32 v, false)

/-- ext(w): w in A.H, its sign in A.G, zero in A.L; the value of a word write (R64). -/
def extAcc (w : Word) : Acc := w.signExtend 40 ++ (0 : BitVec 32)

/-- The fields of the accumulator (R63). -/
def accG (a : Acc) : Byte := a.extractLsb' 64 8
def accH (a : Acc) : Word := a.extractLsb' 32 32
def accL (a : Acc) : Word := a.extractLsb' 0 32
def putG (a : Acc) (g : Byte) : Acc := g ++ a.extractLsb' 0 64
def putH (a : Acc) (h : Word) : Acc := a.extractLsb' 64 8 ++ h ++ a.extractLsb' 0 32
def putL (a : Acc) (l : Word) : Acc := a.extractLsb' 32 40 ++ l

/-- An exact result brought to 72 bits: the value and whether it lay outside the range (R92). -/
def toAcc (sat : Bool) (v : Int) : Acc × Bool :=
  if v > 2 ^ 71 - 1 then (if sat then BitVec.ofInt 72 (2 ^ 71 - 1) else BitVec.ofInt 72 v, true)
  else if v < -2 ^ 71 then (if sat then BitVec.ofInt 72 (-2 ^ 71) else BitVec.ofInt 72 v, true)
  else (BitVec.ofInt 72 v, false)

/-- ZN of an accumulator result (R91). -/
def znAcc (a : Acc) : FlagSet := { z := some (a == 0), n := some a.msb }

/-- ZN of a word result. -/
def znWord (w : Word) : FlagSet := { z := some (w == 0), n := some w.msb }

/-- ADD (R96). -/
def aluAdd (sat : Bool) (a : Acc) (w : Word) : Acc × FlagSet :=
  let (r, ov) := toAcc sat (a.toInt + (extAcc w).toInt)
  (r, { znAcc r with c := some (decide (2 ^ 32 ≤ (accH a).toNat + w.toNat)), v := some ov, sv := ov })

/-- SUB (R96). -/
def aluSub (sat : Bool) (a : Acc) (w : Word) : Acc × FlagSet :=
  let (r, ov) := toAcc sat (a.toInt - (extAcc w).toInt)
  (r, { znAcc r with c := some (decide ((accH a).toNat < w.toNat)), v := some ov, sv := ov })

/-- CMP: the flags of A - ext(w) as if wrapping; it never sets SV (R96). -/
def aluCmp (a : Acc) (w : Word) : FlagSet := { (aluSub false a w).2 with sv := false }

/-- A + k * 2 * x * y for MUL (from zero), MAC, MSU, TAP and TAPM (R92, R96). -/
def aluMac (sat : Bool) (base : Int) (k : Int) (x y : Word) : Acc × FlagSet :=
  let (r, ov) := toAcc sat (base + k * 2 * x.toInt * y.toInt)
  (r, { znAcc r with c := some false, v := some ov, sv := ov })

/-- RND: the word write of the word view (R96). -/
def aluRnd (sat : Bool) (a : Acc) : Acc × FlagSet :=
  let (w, ov) := wordView sat a
  (extAcc w, { znAcc (extAcc w) with c := some false, v := some ov, sv := ov })

/-- SATA: clamp to the range of A.H : A.L (R96). -/
def aluSata (a : Acc) : Acc × FlagSet :=
  let t := a.extractLsb' 63 9
  let ov := t != 0 && t != 0x1FF
  let r : Acc := if ov then (if a.msb then 0xFF8000000000000000 else 0x007FFFFFFFFFFFFFFF) else a
  (r, { znAcc r with c := some false, v := some ov, sv := ov })

/-- A word result that may overflow the word range (R93). -/
def toWord (sat : Bool) (v : Int) : Word × Bool :=
  if v > 0x7FFFFFFF then (if sat then 0x7FFFFFFF else BitVec.ofInt 32 v, true)
  else if v < -0x80000000 then (if sat then 0x80000000 else BitVec.ofInt 32 v, true)
  else (BitVec.ofInt 32 v, false)

/-- Flags of a word result: ZN, C0, V and SV+ (R100). -/
def wordFlags (w : Word) (ov : Bool) : FlagSet := { znWord w with c := some false, v := some ov, sv := ov }

/-- NEG and ABS of a word (R100). -/
def aluNeg (sat : Bool) (h : Word) : Word × FlagSet :=
  let (r, ov) := toWord sat (-h.toInt)
  (r, wordFlags r ov)
def aluAbs (sat : Bool) (h : Word) : Word × FlagSet :=
  let (r, ov) := toWord sat h.toInt.natAbs
  (r, wordFlags r ov)

/-- DIV: the quotient truncated toward zero, its edges as R101 gives. -/
def aluDiv (sat : Bool) (h w : Word) : Word × FlagSet :=
  if w = 0 then
    let r : Word := if h = 0 then 0 else if h.msb then 0x80000000 else 0x7FFFFFFF
    (r, { wordFlags r false with dz := true })
  else
    let (r, ov) := toWord sat (h.toInt.tdiv w.toInt)
    (r, wordFlags r ov)

/-- Number of leading zero bits of a word (R102). -/
def clzWord (w : Word) : Nat :=
  ((List.range 32).find? fun k => w.getLsbD (31 - k)).getD 32

/-- Byte permutation: selector bits 2i + 1 to 2i choose result byte i (R102). -/
def permWord (h : Word) (sel : Byte) : Word :=
  let pick (i : Nat) : Byte := h.extractLsb' (8 * (sel.extractLsb' (2 * i) 2).toNat) 8
  pick 3 ++ pick 2 ++ pick 1 ++ pick 0

/-- Bit field of `h` at position p, width w, zero-extended (R102). -/
def bfxWord (h : Word) (p w : Nat) : Word := BitVec.ofNat 32 (h.toNat / 2 ^ p % 2 ^ w)

/-- `h` with bits p + w - 1 to p replaced by the low bits of `l` (R102). -/
def bfiWord (h l : Word) (p w : Nat) : Word :=
  let m : Word := BitVec.ofNat 32 ((2 ^ w - 1) * 2 ^ p)
  (h &&& ~~~m) ||| (BitVec.ofNat 32 (l.toNat * 2 ^ p) &&& m)

/-- The four shifts (R103). -/
inductive Shift where
  | lsl
  | lsr
  | asr
  | rol
  deriving DecidableEq, Repr

/-- A shift by n of a value of any width: result, C and V (R103). -/
def shiftBits {b : Nat} (k : Shift) (x : BitVec b) (n : Nat) : BitVec b × Bool × Bool :=
  match k with
  | .lsl =>
    let r := x <<< n
    (r, n != 0 && decide (n ≤ b) && x.getLsbD (b - n), decide (r.toInt ≠ x.toInt * 2 ^ n))
  | .lsr => (x >>> n, n != 0 && decide (n ≤ b) && x.getLsbD (n - 1), false)
  | .asr => (x.sshiftRight n, n != 0 && (if n ≤ b then x.getLsbD (n - 1) else x.msb), false)
  | .rol =>
    let r := x.rotateLeft (n % b)
    (r, r.getLsbD 0, false)

/-- The flags of a shift on A or on a word (R103): SV is never set. -/
def shiftFlags {b : Nat} (r : BitVec b) (c v : Bool) : FlagSet :=
  { z := some (r == 0), n := some r.msb, c := some c, v := some v }

/-- The condition codes of 0xC0 to 0xCC on F (R82). -/
def condHolds (f : BitVec 16) : Nat → Bool
  | 0 => true
  | 1 => f.getLsbD 0
  | 2 => !f.getLsbD 0
  | 3 => f.getLsbD 1
  | 4 => !f.getLsbD 1
  | 5 => f.getLsbD 3
  | 6 => !f.getLsbD 3
  | 7 => f.getLsbD 2
  | 8 => !f.getLsbD 2
  | 9 => f.getLsbD 1 == f.getLsbD 3
  | 10 => f.getLsbD 1 != f.getLsbD 3
  | 11 => !f.getLsbD 0 && f.getLsbD 1 == f.getLsbD 3
  | _ => f.getLsbD 0 || f.getLsbD 1 != f.getLsbD 3

end Sys2Proof.Machine
end

