-- ==== Sys2Proof/Machine/Operands.lean ====
section
/-! DEFINITION. Registers, operand forms and the validity of an instruction form (R63 to R67, R75 to R77, R80 to R84,
R88): pure functions of a register set and an instruction's operands. -/

namespace Sys2Proof.Machine

def Agent.isLane : Agent → Bool
  | .lane _ => true
  | .core _ => false

/-- Whether an instruction saturates (R87): on a lane, with SM = 1, or with SAT. -/
def saturates (u : Agent) (p : Prefix) (r : Regs) : Bool := Agent.isLane u || p.sat || r.f.getLsbD 8

/-! Registers as words (R63, R65). -/

/-- The word a register reads as, and whether a read of code 0 saturated or wrapped. -/
def readReg (sat : Bool) (r : Regs) (code : Nat) : Word × Bool :=
  match code with
  | 0 => wordView sat r.a
  | 1 => ((accG r.a).signExtend 32, false)
  | 2 => (accH r.a, false)
  | 3 => (accL r.a, false)
  | 4 => (r.x.zeroExtend 32, false)
  | 5 => (r.y.zeroExtend 32, false)
  | 6 => (r.ox.signExtend 32, false)
  | 7 => (r.oy.signExtend 32, false)
  | 8 => (r.bx.zeroExtend 32, false)
  | 9 => (r.lx.zeroExtend 32, false)
  | 10 => (r.by'.zeroExtend 32, false)
  | 11 => (r.ly.zeroExtend 32, false)
  | 12 => (r.f.zeroExtend 32, false)
  | 13 => (r.pc.zeroExtend 32, false)
  | 14 => (r.sp.zeroExtend 32, false)
  | 15 => (r.ie, false)
  | 16 => (r.epc.zeroExtend 32, false)
  | 17 => (r.esr, false)
  | _ =>
    if h : 18 ≤ code ∧ code ≤ 21 then ((r.ls[code - 18]'(by omega)).zeroExtend 32, false)
    else if h : 22 ≤ code ∧ code ≤ 25 then ((r.le[code - 22]'(by omega)).zeroExtend 32, false)
    else if h : 26 ≤ code ∧ code ≤ 29 then (r.lc[code - 26]'(by omega), false)
    else (0, false)

/-- LX and LY take 65,536 where bit 16 of the word is set (R65). -/
def ringLen (w : Word) : BitVec 17 := if w.getLsbD 16 then 0x10000 else (w.truncate 16).zeroExtend 17

/-- Write a register with a word, converted as R65 gives; code 0 takes a word write. -/
def writeReg (lane : Bool) (code : Nat) (w : Word) (r : Regs) : Regs :=
  match code with
  | 0 => { r with a := extAcc w }
  | 1 => { r with a := putG r.a (w.truncate 8) }
  | 2 => { r with a := putH r.a w }
  | 3 => { r with a := putL r.a w }
  | 4 => { r with x := w.truncate 24 }
  | 5 => { r with y := w.truncate 24 }
  | 6 => { r with ox := w.truncate 24 }
  | 7 => { r with oy := w.truncate 24 }
  | 8 => { r with bx := w.truncate 24 }
  | 9 => { r with lx := ringLen w }
  | 10 => { r with by' := w.truncate 24 }
  | 11 => { r with ly := ringLen w }
  | 12 => { r with f := maskF lane w }
  | 14 => { r with sp := w.truncate 24 }
  | 15 => { r with ie := w }
  | 16 => { r with epc := w.truncate 20 }
  | 17 => { r with esr := w &&& 0xFFFF0FFF }
  | _ =>
    if h : 18 ≤ code ∧ code ≤ 21 then { r with ls := r.ls.set (code - 18) (w.truncate 20) (by omega) }
    else if h : 22 ≤ code ∧ code ≤ 25 then { r with le := r.le.set (code - 22) (w.truncate 20) (by omega) }
    else if h : 26 ≤ code ∧ code ≤ 29 then { r with lc := r.lc.set (code - 26) w (by omega) }
    else r

/-- A delayed load lands (R85). -/
def landLoad (lane : Bool) : Option Load → Regs → Regs
  | none, r => r
  | some l, r => writeReg lane l.reg.val l.value r

/-- A delayed load lands under an instruction that sets the flags `fl`: one of F is dropped where the instruction
writes F, whose value stands (R85). -/
def landUnder (lane : Bool) (fl : FlagSet) (d : Option Load) (r : Regs) : Regs :=
  let t := landLoad lane d r
  if fl.writes then { t with f := r.f } else t

/-! Addressing (R75 to R78). -/

/-- Step an index by a signed amount under the ring rule (R77). -/
def stepIndex (i base : DAddr) (len : BitVec 17) (d : Int) : DAddr :=
  let v : Int := (i.toNat : Int) + d
  if len = 0 then BitVec.ofInt 24 v
  else if (base.toNat : Int) + len.toNat ≤ v then BitVec.ofInt 24 (v - len.toNat)
  else if v < base.toNat then BitVec.ofInt 24 (v + len.toNat)
  else BitVec.ofInt 24 v

def stepX (r : Regs) (d : Int) : DAddr := stepIndex r.x r.bx r.lx d
def stepY (r : Regs) (d : Int) : DAddr := stepIndex r.y r.by' r.ly d

/-- The immediate word (R76). -/
def immWord (wide : Bool) (size : ImmSize) (hi : Bool) (raw : Word) : Word :=
  if wide then raw
  else match size, hi with
  | .b8, false => (raw.truncate 8).signExtend 32
  | .b16, false => (raw.truncate 16).signExtend 32
  | .b24, false => (raw.truncate 24).signExtend 32
  | .b8, true => raw <<< 24
  | .b16, true => raw <<< 16
  | .b24, true => raw <<< 8

/-- The effective address of a D operand and the address of its complement word (R75, R77, R78). -/
def effAddr (r : Regs) : Operand → Option (DAddr × DAddr)
  | .reg _ => none
  | .imm _ _ _ => none
  | .dir long a =>
    let ea : DAddr := if long then a else (a.truncate 16).zeroExtend 24
    some (ea, ea + 1)
  | .idx y _ disp =>
    let base := if y then r.by' else r.bx
    let len := if y then r.ly else r.lx
    let i := if y then r.y else r.x
    let ea := match disp with
      | .none => i
      | .d8 d => stepIndex i base len d.toInt
      | .d16 d => stepIndex i base len d.toInt
    some (ea, stepIndex ea base len 1)
  | .spr off =>
    let ea : DAddr := match off with
      | .none => r.sp
      | .u8 o => r.sp + o.zeroExtend 24
      | .u16 o => r.sp + o.zeroExtend 24
    some (ea, ea + 1)

/-- The index registers after an operand's post-modification, from the registers before the instruction (R77). -/
def postMod (r : Regs) (o : Operand) (t : Regs) : Regs :=
  match o with
  | .idx false .offset _ => { t with x := stepX r r.ox.toInt }
  | .idx false .inc _ => { t with x := stepX r 1 }
  | .idx false .dec _ => { t with x := stepX r (-1) }
  | .idx true .offset _ => { t with y := stepY r r.oy.toInt }
  | .idx true .inc _ => { t with y := stepY r 1 }
  | .idx true .dec _ => { t with y := stepY r (-1) }
  | _ => t

/-! Lengths and undefined forms (R79 to R84, R88). -/

def prefixCount (p : Prefix) : Nat := p.wide.toNat + p.guard.toNat + p.sat.toNat + p.rep.isSome.toNat
def prefixLen (p : Prefix) : Nat := p.wide.toNat + p.guard.toNat + p.sat.toNat + 2 * p.rep.isSome.toNat

/-- Extension bytes of an operand descriptor (R75, R84). -/
def extLen (wide : Bool) : Operand → Nat
  | .reg _ => 0
  | .imm size _ _ => if wide then 4 else match size with
    | .b8 => 1
    | .b16 => 2
    | .b24 => 3
  | .dir long _ => if long then 3 else 2
  | .idx _ _ .none => 0
  | .idx _ _ (.d8 _) => 1
  | .idx _ _ (.d16 _) => 2
  | .spr .none => 0
  | .spr (.u8 _) => 1
  | .spr (.u16 _) => 2

/-- What R80, R82 and R87 allow an instruction. -/
structure Shape where
  len     : Nat
  lane    : Bool := true
  core    : Bool := true
  wide    : Bool := false
  guard   : Bool := false
  rep     : Bool := true
  reasons : List Nat := []
  deriving DecidableEq, Repr

/-- Reasons of R88 that a register code brings: 0x0B reserved, or not on this kind. -/
def regReasons (u : Agent) (code : Nat) : List Nat :=
  if 30 ≤ code ∨ (Agent.isLane u ∧ 14 ≤ code) then [0x0B] else []

/-- Reasons of R88 that an operand brings to an instruction accepting REG, IMM and D operands as given. -/
def operandReasons (u : Agent) (wide reg imm mem : Bool) : Operand → List Nat
  | .reg c => (if reg then [] else [0x06]) ++ regReasons u c.val
  | .imm size hi _ => (if imm then [] else [0x06]) ++ (if wide && (size != .b8 || hi) then [0x07] else [])
  | .dir _ _ => if mem then [] else [0x06]
  | .idx _ _ _ => if mem then [] else [0x06]
  | .spr _ => (if mem then [] else [0x06]) ++ (if Agent.isLane u then [0x0B] else [])

def isMem : Operand → Bool
  | .dir _ _ | .idx _ _ _ | .spr _ => true
  | _ => false
def isImm : Operand → Bool
  | .imm _ _ _ => true
  | _ => false

/-- The shape of a format D instruction with descriptor modes REG, IMM and D accepted as given. -/
def shapeD (u : Agent) (p : Prefix) (reg imm mem : Bool) (o : Operand) : Shape :=
  { len := 2 + extLen (p.wide && isImm o) o, wide := isImm o && imm, guard := isMem o && mem
    reasons := operandReasons u p.wide reg imm mem o }

/-- The lowest reason code that makes the form undefined, if any (R84, R88). -/
def undefReason (u : Agent) (p : Prefix) (sh : Shape) : Option Nat :=
  let n := prefixLen p + sh.len
  let rs := sh.reasons ++
    (if 3 ≤ prefixCount p then [0x03] else []) ++
    (if (p.wide && !sh.wide) || (p.guard && !sh.guard) || (p.rep.isSome && !sh.rep) then [0x08] else []) ++
    (if 8 < n then [0x09] else []) ++
    (if (Agent.isLane u && !sh.lane) || (!Agent.isLane u && !sh.core) then [0x0C] else [])
  rs.foldl (fun m r => match m with
    | none => some r
    | some k => some (min k r)) none

/-- The decoded length in bytes of an instruction, prefixes included (R84); a third prefix ends the decoding, behind the count
byte of a REP among the first two. -/
def decodedLen (p : Prefix) (sh : Shape) : Nat :=
  if 3 ≤ prefixCount p then (if p.rep.isSome && !p.late then 4 else 3) else prefixLen p + sh.len

end Sys2Proof.Machine
end

