-- ==== Sys2Proof/Machine/Rivals.lean ====
section
/-! DEFINITION. What an instruction shows before it runs: who issues it, and the D words it reads. The exchange pan decides by
them which of the reads of one slot it serves (R41). -/

namespace Sys2Proof.Machine

/-- The processor that issues an instruction; none for the other commands. -/
def issuer : Instr → Option Agent
  | .nop u _ | .neg u _ | .abs u _ | .rnd u _ | .sata u _ | .tap u _ | .tapm u _ | .clz u _ | .ret u _ | .rti u _
  | .halt u _ | .phase u _ => some u
  | .lda u _ _ | .sta u _ _ | .ldx u _ _ | .ldy u _ _ | .stx u _ _ | .sty u _ _ | .ldi u _ _ | .add u _ _ | .sub u _ _
  | .cmp u _ _ | .and u _ _ | .or u _ _ | .xor u _ _ | .div u _ _ | .mul u _ _ | .mac u _ _ | .msu u _ _ => some u
  | .inp u _ _ _ | .out u _ _ _ | .mov u _ _ _ | .lslMem u _ _ _ | .lsrMem u _ _ _ | .asrMem u _ _ _ | .rolMem u _ _ _
  | .bfx u _ _ _ | .bfi u _ _ _ | .userOpcode u _ _ _ => some u
  | .push u _ _ | .pop u _ _ | .getw u _ _ | .lsl u _ _ | .lsr u _ _ | .asr u _ _ | .rol u _ _ | .perm u _ _ => some u
  | .bra u _ _ | .beq u _ _ | .bne u _ _ | .bmi u _ _ | .bpl u _ _ | .bvs u _ _ | .bvc u _ _ | .bc u _ _ | .bnc u _ _
  | .bge u _ _ | .blt u _ _ | .bgt u _ _ | .ble u _ _ | .bsr u _ _ => some u
  | .loop u _ _ _ _ => some u
  | .undefinedOpcode u _ _ => some u
  | _ => none

/-- The D words at which an operand is read: its own, and that of its complement, which competes by itself in another bank. -/
def operandAddrs (p : Prefix) (r : Regs) (o : Operand) : List DAddr :=
  match effAddr r o with
  | some (ea, ea') => if p.guard && (ea.extractLsb' 8 16 != ea'.extractLsb' 8 16) then [ea, ea'] else [ea]
  | none => []

/-- The D words that the first repetition of an instruction reads, each an access of its own (R41). -/
def readAddrs (r : Regs) : Instr → List DAddr
  | .lda _ p o | .ldx _ p o | .ldy _ p o | .add _ p o | .sub _ p o | .cmp _ p o | .and _ p o | .or _ p o | .xor _ p o
  | .div _ p o | .lslMem _ p o _ | .lsrMem _ p o _ | .asrMem _ p o _ | .rolMem _ p o _ => operandAddrs p r o
  | .mul _ p o | .mac _ p o | .msu _ p o => operandAddrs p r o ++ [r.x]
  | .tap _ p | .tapm _ p => operandAddrs p r (.idx false .none .none) ++ [r.y]
  | _ => []

end Sys2Proof.Machine
end

