-- ==== Sys2Proof/Machine/Lanes.lean ====
section
/-! DEFINITION. What happens to a lane: its faults, its states, triggers and takes, splice flips and glides, and its
accesses to D space (R25 to R62, R106 to R128). -/

namespace Sys2Proof.Machine

/-! Lane states (R53). -/

def laneUnloaded : Nat := 0
def laneLoading : Nat := 1
def laneArmed : Nat := 2
def laneTake : Nat := 3
def laneSafe : Nat := 4
def laneStopped : Nat := 5

def laneSt (s : State) (n : Nat) : Nat := s.rd (Obj.laneState n)

/-- The counter of a lane fault (R56). -/
def laneCounter (n : Nat) : Nat → Option Reg
  | 0 => some (Obj.missedTakes n)
  | 1 => some (Obj.udCount n)
  | 2 => some (Obj.farRefused n)
  | 3 => some (Obj.farRefused n)
  | 4 => some (Obj.xchRefused n)
  | 5 => some (Obj.xchRefused n)
  | 6 => some (Obj.drangeCount n)
  | 7 => some (Obj.guardCount n)
  | _ => none

/-- A lane fault occurs: it counts, is raised once, and acts where FAULT_SAFE_MASK says so: as a safe request, from the next
trigger of a lane that triggers may run, held pending in the other states but SAFE (R54, R56, R57). -/
def laneFault (n bit slot : Nat) (s : State) : State :=
  let s := match laneCounter n bit with
    | some r => s.inc r
    | none => s
  let s := if bit = 1 ∧ !(s.rd (Obj.laneFaults n)).testBit 1 then s.wr (Obj.firstUdSlot n) slot else s
  let s := raiseSticky (Obj.laneFaults n) bit (0x4001 + bit) n slot 0 s
  if (s.rd (Obj.faultSafeMask n)).testBit bit ∧ laneSt s n ≠ laneSafe ∧ !(s.lane n).safePending then
    (s.setLane n { s.lane n with safePending := true, safeBy := 2 }).inc Obj.supActions
  else s

/-- The slot of a lane's take at the present cycle, the last one in its closing cycles (R30, R56); 0 where none runs. -/
def slotNow (n : Nat) (s : State) : Nat :=
  let l := s.lane n
  if l.busy then min (s.slate.toNat - l.trigSlate.toNat - 4) (s.rd (Obj.tgLength (s.rd (Obj.triggerGroup n))) - 1) else 0

/-- A lane enters SAFE (R54): a take in progress ends at once, its busy window runs on. By the supervisor (1) or a fault
action (2) it raises 0x4009. -/
def enterSafe (n : Nat) (s : State) : State :=
  let l := s.lane n
  let s := (s.setLane n { l with safePending := false, ran := false, faded := true }).wr (Obj.laneState n) laneSafe
  if l.safeBy = 1 ∨ l.safeBy = 2 then laneFault n 8 (slotNow n s) s else s

/-- A safe request by a host (0) or the supervisor (1) (R54). -/
def safeRequest (by' n : Nat) (s : State) : State :=
  let st := laneSt s n
  if st = laneSafe then s
  else
    let s := s.setLane n { s.lane n with safePending := true, safeBy := by' }
    if st = laneArmed ∨ st = laneTake then enterSafe n s else s

/-- A release request (R54). -/
def safeRelease (n : Nat) (s : State) : State :=
  let st := laneSt s n
  if st = laneSafe then s.wr (Obj.laneState n) laneArmed
  else if st = laneArmed ∨ st = laneTake then s
  else s.setLane n { s.lane n with safePending := false }

/-- A write of LANE_ENABLE (R54). -/
def laneEnable (n v : Nat) (s : State) : State :=
  let old := s.rd (Obj.laneEnable n)
  let s := s.wr (Obj.laneEnable n) v
  let st := laneSt s n
  if v = old then s
  else if v = 0 then
    if st = laneArmed ∨ st = laneTake ∨ st = laneSafe then
      let l := s.lane n
      (s.setLane n { l with ran := false, faded := true, safePending := l.safePending || st == laneSafe
                            safeBy := if st = laneSafe then 3 else l.safeBy }).wr (Obj.laneState n) laneStopped
    else s
  else if st = laneStopped then
    if (s.lane n).safePending then enterSafe n s else s.wr (Obj.laneState n) laneArmed
  else s

/-! Glide (R122 to R125). -/

/-- v(j) (R123). -/
def glideValue (g : GlideRun) : Word :=
  if g.len ≤ g.count then g.target
  else
    let d : Int := (g.target.toInt - g.origin.toInt) * g.count
    BitVec.ofInt 32 (g.origin.toInt + (2 * d + g.len) / (2 * g.len))

/-- The word of a coefficient side. -/
def sideWord (s : State) (n side off : Nat) : Word := s.memWord (sideBase n side + 4 * off)

/-- What a lane read of coefficient `off` returns: the glide value where one runs, its complement in the word above a
marked one, else the pan word (R123, R128). -/
def coefWord (s : State) (n off : Nat) : Word :=
  let gs := (s.lane n).glides
  match gs.find? fun g => g.offset == off with
  | some g => glideValue g
  | none =>
    match gs.find? fun g => g.offset + 1 == off && marked s n g.offset with
    | some g => ~~~(glideValue g)
    | none => sideWord s n (liveSide s n) off

/-- The enabled entries of the glide table as (offset, G) (R122). -/
def glideEntries (s : State) (n : Nat) : List (Nat × Nat) :=
  (List.range 64).filterMap fun k =>
    let v := s.rd (Obj.glide n k)
    if v / 0x10000 = 0 then none else some (v % 0x2000, v / 0x10000)

/-! Flips (R107, R111 to R116). -/

/-- The pending splice request of a lane. -/
def pendingSplice (s : State) (n : Nat) : Option Splice := s.splices.find? fun r => r.waiting.contains n

/-- Replace a splice request by its identity. -/
def putSplice (r : Splice) (s : State) : State :=
  { s with splices := s.splices.map fun q => if q.id = r.id then r else q }

/-- Complete a request when no lane waits or copies any more: a flip-and-copy request posts its record (R119, R120). -/
def settleSplice (id : Nat) (s : State) : State :=
  match s.splices.find? fun r => r.id == id with
  | none => s
  | some r =>
    if !r.waiting.isEmpty || !r.copying.isEmpty then s
    else
      let s := { s with splices := s.splices.filter fun q => q.id != id }
      match handleOf (fun o => o == .splice id) s with
      | none => s
      | some h =>
        completeHandle h (if r.removed then 0x4211 else 0)
          (r.seq.toNat * 0x10000 + (if r.removed then 2 else 0) + r.late.toNat) (r.first.getD 0) s

/-- Count `k` more triggers of every running glide; those that reach their length end (R123). -/
def stepGlides (n k : Nat) (s : State) : State :=
  let l := s.lane n
  s.setLane n { l with
    glides := (l.glides.map fun g => { g with count := g.count + g.behind + k, behind := 0 }).filter fun g => g.count < g.len }

/-- Flip a lane (R107, R114, R116, R117, R123). -/
def flipLane (n : Nat) (r : Splice) (s : State) : State :=
  let s := stepGlides n 0 s
  let l := s.lane n
  let table := glideEntries s n
  let origins := table.map fun e => (e.1, coefWord s n e.1)
  let newSide := 1 - liveSide s n
  let runs : List GlideRun := (table.zip origins).filterMap fun x =>
    let t := sideWord s n newSide x.1.1
    if x.2.2 = t then none else some ⟨x.1.1, x.2.2, t, x.1.2, 1, 0⟩
  let s := s.setLane n { l with
    glides := runs.filter fun g => g.count < g.len
    slipped := false
    copy := if r.copy then some (Copy.mk 0 []) else l.copy }
  let s := ((s.wr (Obj.liveSide n) newSide).wr (Obj.flipSlate n) s.slate.toNat).inc (Obj.flipCount n)
  let s := if r.late then s.inc (Obj.lateFlips n) else s
  let s := if l.slipped then s.inc (Obj.spliceSlips n) else s
  let s := if r.copy then s.wr (Obj.copyWords n) 0 else s
  let first := match r.first with
    | none => some s.slate
    | some f => some (if s.slate.toNat < f.toNat then s.slate else f)
  settleSplice r.id (putSplice { r with
    waiting := r.waiting.filter (· != n), copying := if r.copy then r.copying ++ [n] else r.copying, first := first } s)

/-- A trigger of lane `n` as the splice hardware sees it: it flips, or every running glide steps (R112, R114, R123).
`missed` says that the trigger is missed in TAKE: the take that runs keeps the values it is served (R52, R123). -/
def spliceTrigger (n : Nat) (missed : Bool) (s : State) : State :=
  let step (s : State) : State :=
    if missed then
      let l := s.lane n
      s.setLane n { l with glides := l.glides.map fun g => { g with behind := g.behind + 1 } }
    else stepGlides n 1 s
  match pendingSplice s n with
  | none => step s
  | some r =>
    let due := match r.slate with
      | none => true
      | some t => r.late || decide (t.toNat ≤ s.slate.toNat)
    if !due then step s
    else if missed then step (s.setLane n { s.lane n with slipped := true })
    else flipLane n r s

/-- Remove a lane from its request, and stop its copy (R114, R120). -/
def removeFromSplice (n : Nat) (s : State) : State :=
  let s := s.setLane n { s.lane n with copy := none, slipped := false }
  match s.splices.find? fun r => r.waiting.contains n || r.copying.contains n with
  | none => s
  | some r =>
    settleSplice r.id (putSplice { r with
      waiting := r.waiting.filter (· != n), copying := r.copying.filter (· != n), removed := true } s)

/-! D space of a lane (R42 to R46, R39 to R41). -/

/-- The group a lane is bound to; 64 and above for none. -/
def laneGroup (s : State) (n : Nat) : Nat := s.rd (Obj.triggerGroup n)

/-- The bank of an exchange word address, and its fabric byte address (R39, R249). -/
def xchBank (a : DAddr) : Nat := (a.extractLsb' 8 6).toNat
def xchByte (a : DAddr) : Nat := 0x2000000 + 4 * (a.toNat - 0xC000)

/-- Whether a lane's group holds the bank of an address. -/
def xchGranted (s : State) (n : Nat) (a : DAddr) : Bool :=
  laneGroup s n < 64 && (s.rd (Obj.tgXchBanks (laneGroup s n))).testBit (xchBank a)

def isFar (a : DAddr) : Bool := decide (0x400000 ≤ a.toNat) && decide (a.toNat < 0x800000)
def isXch (a : DAddr) : Bool := decide (0xC000 ≤ a.toNat) && decide (a.toNat < 0x10000)

/-- The cycle in which slot `slot` of lane `n`'s take falls, counted from the first trigger (R30). -/
def xchCycle (s : State) (n slot : Nat) : Nat := (s.lane n).trigSlate.toNat + slot

/-- The word of an exchange address before the writes of cycle `cyc` (R40): that of the last write before it, else the word
before the first one. -/
def xchBefore (s : State) (a : DAddr) (cyc : Nat) : Word :=
  let ws := s.xch.filter fun x => x.write && x.addr == a
  match ws.filter fun x => decide (x.cycle < cyc) with
  | x :: xs => (xs.foldl (fun m y => if m.cycle < y.cycle then y else m) x).new
  | [] => match ws with
    | x :: _ => x.old
    | [] => s.memWord (xchByte a)

/-- The word of an exchange address after every write of the list; `base` where none is left. -/
def xchAfter (ws : List XchAcc) (a : DAddr) (base : Word) : Word :=
  match ws.filter fun x => x.write && x.addr == a with
  | x :: xs => (xs.foldl (fun m y => if m.cycle < y.cycle then y else m) x).new
  | [] => base

/-- Whether two accesses meet in one bank of a group in one cycle (R41). -/
def meets (g cyc bank : Nat) (write : Bool) (x : XchAcc) : Bool :=
  x.group == g && x.cycle == cyc && x.write == write && xchBank x.addr == bank

/-- The exchange words that the other lanes of group `g` read in cycle `cyc`, of the instructions that wait in the queue: a lane's
next instruction, where it starts in that cycle (R41). -/
def waitingReads (s : State) (g n cyc : Nat) : List DAddr :=
  (List.range 64).flatMap fun m =>
    let l := s.lane m
    if m = n ∨ laneGroup s m ≠ g ∨ laneSt s m ≠ laneTake ∨ !l.ran ∨ l.trigSlate.toNat + l.regs.pc.toNat ≠ cyc then []
    else match s.pending.find? fun i => issuer i == some (.lane (Fin.ofNat 64 m)) with
      | some i => readAddrs l.regs i
      | none => []

/-- An exchange read (R39 to R41): refused where the bank serves another word in this cycle: one already read, or one at a lower
address that an instruction of the same slot in the queue reads. `free` marks the second word of a guarded pair in one bank, which
comes with the first. -/
def xchRead (n slot : Nat) (a : DAddr) (free : Bool) (s : State) : Word × State :=
  if !xchGranted s n a then (0, laneFault n 5 slot s)
  else
    let g := laneGroup s n
    let cyc := xchCycle s n slot
    let here := s.xch.filter (meets g cyc (xchBank a) false)
    if free then (if here.any fun x => x.lane == n then xchBefore s a cyc else 0, s)
    else if here.any (fun x => x.addr != a) ||
        (waitingReads s g n cyc).any (fun b => isXch b && xchBank b == xchBank a && decide (b.toNat < a.toNat)) then
      (0, laneFault n 4 slot s)
    else (xchBefore s a cyc, { s with xch := s.xch ++ [⟨g, cyc, a, n, false, 0, 0⟩] })

/-- Log a served exchange write and let memory hold the word of the last one (R40). -/
def xchPut (n cyc : Nat) (a : DAddr) (w : Word) (s : State) : State :=
  let base := match s.xch.find? fun x => x.write && x.addr == a with
    | some x => x.old
    | none => s.memWord (xchByte a)
  let xs := s.xch ++ [⟨laneGroup s n, cyc, a, n, true, base, w⟩]
  State.setMemWord { s with xch := xs } (xchByte a) (xchAfter xs a base)

/-- A served exchange write gives way to that of a lower-numbered lane: it is dropped and its lane raises 0x4005 (R41). -/
def xchYield (x : XchAcc) (s : State) : State :=
  if !s.xch.contains x then s
  else
    let xs := s.xch.filter (· != x)
    let s := State.setMemWord { s with xch := xs } (xchByte x.addr) (xchAfter xs x.addr x.old)
    if xs.any fun y => meets x.group x.cycle (xchBank x.addr) true y && y.lane == x.lane then s
    else laneFault x.lane 4 (x.cycle - (s.lane x.lane).trigSlate.toNat) s

/-- An exchange write (R39 to R41): of two in one bank and cycle the one of the lower-numbered lane is made. -/
def xchWrite (n slot : Nat) (a : DAddr) (w : Word) (free : Bool) (s : State) : State :=
  if !xchGranted s n a then laneFault n 5 slot s
  else
    let g := laneGroup s n
    let cyc := xchCycle s n slot
    let here := s.xch.filter (meets g cyc (xchBank a) true)
    if free then (if here.any fun x => x.lane == n then xchPut n cyc a w s else s)
    else if here.any fun x => decide (x.lane ≤ n) then laneFault n 4 slot s
    else xchPut n cyc a w (forList here xchYield s)

/-- A lane's read of a D word other than a far load; a far address is refused (R46). -/
def laneRead (n slot : Nat) (a : DAddr) (free : Bool) (s : State) : Word × State :=
  if a.toNat < 0x8000 then (s.memWord (n * 0x40000 + 4 * a.toNat), s)
  else if a.toNat < 0xA000 then (coefWord s n (a.toNat - 0x8000), s)
  else if isXch a then xchRead n slot a free s
  else if isFar a then (0, laneFault n 3 slot s)
  else (0, laneFault n 6 slot s)

/-- A lane's write of a D word other than a far STA; a far address is refused (R46), and a store to a gliding word ends
its glide (R125). -/
def laneWrite (n slot : Nat) (a : DAddr) (w : Word) (free : Bool) (s : State) : State :=
  if a.toNat < 0x8000 then s.setMemWord (n * 0x40000 + 4 * a.toNat) w
  else if a.toNat < 0xA000 then
    let off := a.toNat - 0x8000
    let l := s.lane n
    let s := s.setLane n { l with glides := l.glides.filter fun g =>
      !(g.offset == off || (g.offset + 1 == off && marked s n g.offset)) }
    s.setMemWord (sideBase n (liveSide s n) + 4 * off) w
  else if isXch a then xchWrite n slot a w free s
  else if isFar a then laneFault n 3 slot s
  else laneFault n 6 slot s

/-! Far accesses (R44, R45, R73). -/

/-- Whether the group of a far address is granted to the lane, under the grant in force. -/
def farGranted (s : State) (n : Nat) (a : DAddr) : Bool := ((s.lane n).grant.toNat).testBit (farGroup a.toNat)

/-- Places taken among the three of R45 at slot `slot`. -/
def farInFlight (l : Lane) (slot : Nat) : Nat :=
  l.far.foldl (fun k x => if !x.refused && slot ≤ x.slot + 11 then k + (if x.second.isSome then 2 else 1) else k) 0

/-- Queue a far access: granted, refused by its grant (0x4004) or for want of a place (0x4003); a refused read delivers
zero all the same (R45, R46, R73). -/
def farIssue (n slot : Nat) (write : Bool) (a : DAddr) (second : Option DAddr) (dest : Fin 32) (w : Word) (s : State) : State :=
  let l := s.lane n
  let need := if second.isSome then 2 else 1
  let add (refused : Bool) (s : State) : State :=
    let l := s.lane n
    s.setLane n { l with far := l.far ++ [⟨slot, write, refused, a, second, dest, w, false⟩] }
  let words := a :: second.toList
  let bad := words.filter fun b => !isFar b || !farGranted s n b
  if !bad.isEmpty then add true (forList bad (fun b => laneFault n (if isFar b then 3 else 6) slot) s)
  else if 3 < farInFlight l slot + need then add true (laneFault n 2 slot s)
  else
    let s := if write then s else match returnRingAt s a.toNat with
      | some (r, off) => returnLatch r off s
      | none => s
    add false s

/-- Whether a logged write is another lane's of the same group and cycle as slot `slot` of lane `n`. -/
def besideLane (s : State) (n slot : Nat) (e : PanAcc) : Bool :=
  e.lane.isSome && e.lane != some n && e.group == laneGroup s n && e.slot == (s.lane n).trigSlate.toNat + slot

/-- The word a lane reads through the lane port: that before the cycle where a lane of its group writes it in the same one (R256). -/
def lanePortWord (s : State) (n slot a : Nat) : Word := match panWrite s a with
  | some e => if besideLane s n slot e then e.old else s.memWord a
  | none => s.memWord a

/-- Lane `n` writes a word through the lane port in slot `slot`: in one cycle the write of the lowest lane stands, and a port-stream
write over any (R256). -/
def lanePortPut (n slot a : Nat) (w : Word) (s : State) : State :=
  let put (s : State) : State := panPut a w (some n) (laneGroup s n) ((s.lane n).trigSlate.toNat + slot) s
  match panWrite s a with
  | none => put s
  | some e =>
    let (same, s) := if besideLane s n slot e then (true, s)
      else if e.lane.isSome && e.group == laneGroup s n then (false, s)
      else sameCycle s
    if !same then put s
    else
      let s := panClash e s
      if e.lane.isNone || e.lane.any (· < n) then s
      else
        let s := put s
        { s with panLog := s.panLog.map fun x => if x.addr == a then { x with old := e.old, clashed := true } else x }

/-- The words of a coefficient pair or a single word, read when a far access is performed. -/
def farReadWord (n slot : Nat) (a : DAddr) (s : State) : Word × State :=
  let w := lanePortWord s n slot (farByte a.toNat)
  match returnRingAt s a.toNat with
  | some (r, off) => returnRead r off w s
  | none => (w, s)

/-- The write of one far word, and the block ticks it raises. -/
def farWriteWord (n slot : Nat) (a : DAddr) (w : Word) (s : State) : List Nat × State :=
  match sendRingsAt s a.toNat with
  | [] => ([], lanePortPut n slot (farByte a.toNat) w s)
  | rs =>
    let (go, ticks, s) := rs.foldl (fun (go, ticks, s) x =>
      let (g, tick, s) := sendWrite x.1 x.2 s
      (go || g, if tick then ticks ++ [x.1] else ticks, s)) (false, [], s)
    (ticks, if go then lanePortPut n slot (farByte a.toNat) w s else s)

/-- Perform the lane's oldest far access that has not been performed; the block ticks it raises (R17, R44). -/
def farPerform (n : Nat) (s : State) : List Nat × State :=
  let l := s.lane n
  match l.far.findIdx? fun x => !x.done with
  | none => ([], s)
  | some i =>
    match l.far[i]? with
    | none => ([], s)
    | some x =>
      let finish (v : Word) (s : State) : State :=
        let l := s.lane n
        if x.write then s.setLane n { l with far := l.far.eraseIdx i }
        else s.setLane n { l with far := l.far.set i { x with done := true, value := v } }
      if x.refused then ([], finish 0 s)
      else if x.write then
        let (t, s) := farWriteWord n x.slot x.addr x.value s
        match x.second with
        | none => (t, finish 0 s)
        | some b =>
          let (t', s) := farWriteWord n x.slot b (~~~x.value) s
          (t ++ t', finish 0 s)
      else
        let (v, s) := farReadWord n x.slot x.addr s
        match x.second with
        | none => ([], finish v s)
        | some b =>
          let (c, s) := farReadWord n x.slot b s
          if c = ~~~v then ([], finish v s) else ([], finish 0 (laneFault n 7 x.slot s))

/-- Deliver the oldest performed far read to its register (R44). -/
def farDeliver (n : Nat) (s : State) : State :=
  let l := s.lane n
  match l.far with
  | x :: rest => if x.done then s.setLane n { l with far := rest, regs := writeReg true x.dest.val x.value l.regs } else s
  | [] => s

/-! Triggers and takes (R26 to R31, R52, R55). -/

/-- A take starts (R30, R47, R58, R66). -/
def startTake (n : Nat) (s : State) : State :=
  let l := s.lane n
  let f := if l.clearFlags then l.regs.f &&& 0xFF8F else l.regs.f
  let s := s.setLane n { l with
    regs := { l.regs with pc := 0, f := f }, clearFlags := false, busy := true, ran := true, satTaken := false
    trigSlate := s.slate, takeNumber := BitVec.ofNat 32 (s.rd (Obj.takeCount n)) }
  (s.wr (Obj.laneState n) laneTake).inc64 (Obj.takeCount n)

/-- A trigger of one lane, in the order of its rules: a fault action first (R57), then a missed trigger (R52), the flip
(R114), a take (R30) or a safe take (R55). -/
def laneTrigger (n : Nat) (s : State) : State :=
  let st := laneSt s n
  if st = laneUnloaded ∨ st = laneLoading then s
  else if st = laneStopped then spliceTrigger n false s
  else
    let s := if (s.lane n).safePending ∧ (s.lane n).safeBy = 2 then enterSafe n s else s
    let st := laneSt s n
    if (s.lane n).busy then
      let s := spliceTrigger n (st != laneSafe) s
      (laneFault n 0 (slotNow n s) s).wr (Obj.lastMissSlate n) s.slate.toNat
    else
      let s := spliceTrigger n false s
      if st = laneSafe then (s.setLane n { s.lane n with busy := true, ran := false }).inc (Obj.safeTakes n)
      else startTake n s

/-- Raise the triggers of the groups that `p` accepts: all their lanes, in one cycle (R25, R30). -/
def triggerGroups (p : Nat → Bool) (s : State) : State :=
  let groups := (List.range 64).filter p
  let lanes := (List.range 64).filter fun n => groups.contains (laneGroup s n)
  let idle := groups.filter fun g => !(List.range 64).any fun n => laneGroup s n == g && (s.lane n).busy
  forList lanes laneTrigger { s with xch := s.xch.filter fun x => !idle.contains x.group }

/-- Raise the trigger of every group whose source is `src` (R26). -/
def triggerSource (src : Nat) (s : State) : State := triggerGroups (fun g => s.rd (Obj.tgSource g) == src) s

/-- Raise the block ticks of a list of ring pairs (R17, R26). -/
def blockTicks (rs : List Nat) (s : State) : State := forList rs (fun r => triggerSource (0x5000 + r)) s

/-- The busy window of a lane ends (R31, R43, R54): clocks stop, a take leaves TAKE, a change of FAR_GRANT takes effect,
and the fade-in that waited for a take may start. -/
def endBusy (n : Nat) (s : State) : State :=
  let l := s.lane n
  let s := s.setLane n { l with
    busy := false, ran := false, grant := BitVec.ofNat 8 (s.rd (Obj.farGrant n)), faded := l.faded && !l.ran }
  if laneSt s n = laneTake then s.wr (Obj.laneState n) laneArmed else s

/-- Perform every far access due at or before slot `slot`, and deliver every read due (R44). -/
def farCatchUp (n slot : Nat) : Nat → State → State
  | 0, s => s
  | k + 1, s =>
    let l := s.lane n
    if l.far.any fun x => !x.done && x.slot + 11 < slot then
      let (t, s) := farPerform n s
      farCatchUp n slot k (blockTicks t s)
    else
      match l.far with
      | x :: _ => if x.done && x.slot + 12 ≤ slot then farCatchUp n slot k (farDeliver n s) else s
      | [] => s

/-- Every far access and delivery due at or before slot `slot`. -/
def farDue (n slot : Nat) (s : State) : State := farCatchUp n slot (2 * (s.lane n).far.length) s

end Sys2Proof.Machine
end

