-- ==== Sys2Proof/Machine/OutStage.lean ====
section
/-! DEFINITION. The output stage of a pin channel: routing, trim, mute, ceiling, fade and rounding, zero-crossing changes,
and its guarded operands (R20, R49, R50, R152 to R155, R168 to R171, R373, R374, R418). -/

namespace Sys2Proof.Machine

/-- The group and bit position of module channel `c` (R153). -/
def chanGroup (c : Nat) : Nat := c / 16
def chanPos (c : Nat) : Nat := c % 16

def portSt (s : State) (g : Nat) : Nat := s.rd (Obj.portState g)
def portOff : Nat := 0
def portWait : Nat := 1
def portPreroll : Nat := 2
def portRun : Nat := 3
def portHold : Nat := 4
def portRelock : Nat := 5

/-- The word length W and half length H of PORT_FORMAT (R151). -/
def fmtWlen (f : Nat) : Nat := match f / 4 % 4 with
  | 0 => 16
  | 1 => 20
  | 2 => 24
  | _ => 32
def fmtHalf (f : Nat) : Nat := match f / 16 % 4 with
  | 0 => 16
  | 1 => 24
  | _ => 32
def fmtDelay (f : Nat) : Nat := f % 4

/-- An output word rounded to W bits, left-justified as sent (R152). -/
def roundOut (w : Word) (wl : Nat) : Word :=
  if 32 ≤ wl then w
  else
    let v := (w.toInt + 2 ^ (31 - wl)) / 2 ^ (32 - wl)
    BitVec.ofInt 32 ((if v > 2 ^ (wl - 1) - 1 then 2 ^ (wl - 1) - 1 else v) * 2 ^ (32 - wl))

/-- SRC and INDEX of a routing pair (R168). -/
def routeSrc (p : Pair) : Nat := (p.extractLsb' 7 2).toNat
def routeIdx (p : Pair) : Nat := (p.extractLsb' 0 7).toNat

/-- A guarded operand of channel `c` in use fails its check: 0x9010, once for the channel (R374, R376). -/
def guardFault (unit op c : Nat) (s : State) : State :=
  raiseOnce (unit * 0x100 + c) 0x9010 unit (op * 256 + c) 0 s

/-- The operands in use that fail their check: 0 routing, 1 trim, 2 mute, 3 ceiling (R373). -/
def badOperands (o : OutChan) : List Nat :=
  (if pairGood o.route then [] else [0]) ++ (if pairGood o.trim then [] else [1]) ++
  (if pairGood o.mute then [] else [2]) ++ (if pairGood o.ceiling then [] else [3])

/-- The stage's check of its operands (R20, R374): a mismatch sets p to 0 at once and raises 0x9010. -/
def checkOperands (c : Nat) (s : State) : State :=
  let o := s.outchan c
  let bad := badOperands o
  if bad.isEmpty then (if o.guardBad then s.setOutchan c { o with guardBad := false } else s)
  else forList bad (fun k => guardFault 0x80 k c) (s.setOutchan c { o with p := 0, guardBad := true })

/-- Apply every pending change of a channel (R170). -/
def applyPending (o : OutChan) : OutChan :=
  { o with
    route := o.pRoute.getD o.route, trim := o.pTrim.getD o.trim, mute := o.pMute.getD o.mute
    pRoute := none, pTrim := none, pMute := none, cut := false }

def hasPending (o : OutChan) : Bool := o.pRoute.isSome || o.pTrim.isSome || o.pMute.isSome

/-- The source word that a routing delivers (R168): while the tone has the channel, the tone (R418). -/
def sourceWord (s : State) (c : Nat) (r : Pair) : Word :=
  if s.service.toneNow = c then
    Config.toneWord s.service.toneHz s.service.toneDb (s.rd (Obj.portRate (chanGroup c))) s.service.tonePhase
  else if !pairGood r then 0
  else match routeSrc r with
    | 1 => s.oc.get 0 (routeIdx r)
    | 2 => if (s.port (chanGroup c)).outS.on then (s.outchan c).stream else 0
    | _ => 0

/-- The lane that owns an output channel register (R21). -/
def ocOwner (s : State) (k : Nat) : Option Nat := (List.range 64).find? fun n => (s.lane n).ocOwned.contains k

/-- Whether a fade cause of a channel is active (R155, R351, R359, R418). -/
def fadeCause (s : State) (c : Nat) : Bool :=
  let o := s.outchan c
  let g := chanGroup c
  let lane := routeSrc o.route == 1 && match ocOwner s (routeIdx o.route) with
    | some n => (s.lane n).faded
    | none => false
  lane || (routeSrc o.route == 2 && o.causes.underrun) || o.causes.timeout || o.causes.tone || (s.port g).fadeOff ||
    (s.port g).fadeTest || s.rd Obj.holdSafe == 1 || s.boot.pending.isSome

/-- The step of a fade-out: k of R351 during hold-safe and before a SOFT or NMT reset (R359), else 1. -/
def fadeStep (s : State) (c len : Nat) : Nat :=
  if s.rd Obj.holdSafe = 1 ∨ s.boot.pending.isSome then
    let rate := s.rd (Obj.portRate (chanGroup c))
    max 1 ((len * 500 + rate - 1) / rate)
  else 1

/-- The fade length in use: a new one is taken at p = 0 or p = F (R155); a pair that fails its check leaves the last good
one (R373, R374). -/
def takeLength (c : Nat) (s : State) : State :=
  let o := s.outchan c
  let r := s.rd (Obj.outFade (chanGroup c) (chanPos c))
  if !guardGood r then guardFault 0x80 4 c s
  else
    let v := guardVal r
    if v = o.len then s
    else if o.p = 0 then s.setOutchan c { o with len := v }
    else if o.p = o.len then s.setOutchan c { o with len := v, p := v }
    else s

/-- A zero crossing at word `w` after `prev` (R170). -/
def zeroCross (w prev : Word) : Bool := w == 0 || w.msb != prev.msb

/-- Whether a group's outputs carry words: in RUN, and while they fade out toward a new test mode (R156, R157). -/
def groupLive (s : State) (g : Nat) : Bool := portSt s g == portRun || (s.port g).fadeTest

/-- Serve the pending changes at the channel's next word, and find its source word (R170). Once the time-out has begun its fade,
no crossing serves them: all of them wait for p = 0 (R171). -/
def serveChanges (c : Nat) (s : State) : Word × State :=
  let o := s.outchan c
  let run := groupLive s (chanGroup c)
  if o.p = 0 ∨ !run then
    let o := applyPending o
    let s := s.setOutchan c { o with causes := { o.causes with timeout := false } }
    let w := sourceWord s c o.route
    (w, s.setOutchan c { s.outchan c with prev := w })
  else if o.causes.timeout then
    let w := if o.cut then 0 else sourceWord s c o.route
    (w, s.setOutchan c { o with prev := w })
  else if o.cut then
    let new := o.pRoute.getD o.route
    let w := sourceWord s c new
    let o := { o with trim := o.pTrim.getD o.trim, mute := o.pMute.getD o.mute, pTrim := none, pMute := none }
    if zeroCross w o.cutPrev then (w, s.setOutchan c { o with route := new, pRoute := none, cut := false, prev := w })
    else (0, s.setOutchan c { o with cutPrev := w })
  else
    let w := sourceWord s c o.route
    if zeroCross w o.prev ∧ hasPending o then
      let o := { o with trim := o.pTrim.getD o.trim, mute := o.pMute.getD o.mute, pTrim := none, pMute := none, prev := w }
      match o.pRoute with
      | some r => (0, s.setOutchan c { o with cut := true, cutPrev := sourceWord s c r })
      | none => (w, s.setOutchan c o)
    else (w, s.setOutchan c { o with prev := w })

/-- Trim, mute and ceiling (R20, R169). -/
def shapeWord (o : OutChan) (w : Word) : Word :=
  let t := scaleWord w (pairVal o.trim).toNat 30
  let t := if pairVal o.mute = 0 then t else 0
  let k : Int := (pairVal o.ceiling).toNat
  if t.toInt > k then BitVec.ofInt 32 k else if t.toInt < -k then BitVec.ofInt 32 (-k) else t

/-- Move the fade position one word on (R154, R155). -/
def stepFade (s : State) (c : Nat) : Nat :=
  let o := s.outchan c
  if fadeCause s c then o.p - fadeStep s c o.len else min (o.p + 1) o.len

/-- A channel's tone switch completes when its fade-out has reached p = 0 (R418). -/
def switchTone (s : State) : State :=
  match s.service.toneNext with
  | none => s
  | some k =>
    let old := s.service.toneNow
    let ready (c : Nat) : Bool := decide (96 ≤ c) || (s.outchan c).p == 0 || portSt s (chanGroup c) != portRun
    if ready old && ready k then
      let s := { s with service := { s.service with
        toneNow := k, toneNext := none, tonePhase := 0, toneHz := s.rd Obj.toneFreq, toneDb := s.rd Obj.toneLevel } }
      let clear (c : Nat) (s : State) : State :=
        if c < 96 then s.setOutchan c { s.outchan c with causes := { (s.outchan c).causes with tone := false } } else s
      clear old (clear k s)
    else s

/-- The level meter's channel keeps its words of the last 100 ms, 10^7 ticks (R419). -/
def watchLevel (ch : Nat) (w : Word) (s : State) : State :=
  if s.rd Obj.levelChannel ≠ ch then s
  else
    let recent := s.service.levels.filter fun x => decide (s.slate.toNat ≤ x.1.toNat + 10000000)
    { s with service := { s.service with levels := recent ++ [(s.slate, w)] } }

/-- The tone moves one sample on; a change of frequency or level applies at its zero crossing (R418). -/
def toneStep (zero : Bool) (s : State) : State :=
  let s := { s with service := { s.service with tonePhase := s.service.tonePhase + 1 } }
  if zero then { s with service := { s.service with toneHz := s.rd Obj.toneFreq, toneDb := s.rd Obj.toneLevel } } else s

/-- The output shifter of channel `c` captures a word (R50): the output stage's whole work on it (R20). -/
def captureChannel (c : Nat) (s : State) : State :=
  let g := chanGroup c
  if portSt s g = portOff then s
  else
    let before := (s.outchan c).prev
    let (w, s) := serveChanges c s
    let s := checkOperands c (takeLength c s)
    let run := groupLive s g
    let o := s.outchan c
    let p := if !run || o.guardBad then 0 else stepFade s c
    let wl := fmtWlen (s.rd (Obj.portFormat g))
    let masked := !(s.rd (Obj.portOutMask g)).testBit (chanPos c)
    let out := if masked || p = 0 then 0 else roundOut (fadeWord (shapeWord o w) p o.len) wl
    let s := watchLevel (0x80 + c) out (s.setOutchan c { o with p := p, shifter := out })
    if s.service.toneNow = c ∧ run then toneStep (zeroCross w before) s else s

/-- The word on a pin channel's data-out line (R150, R153, R156, R176): the shifter's, or a line driven low in OFF, under internal
loopback, and where both channels of the line are disabled. -/
def dataOut (s : State) (c : Nat) : Word :=
  let g := chanGroup c
  let mask := s.rd (Obj.portOutMask g)
  let line := chanPos c / 2 * 2
  if portSt s g = portOff ∨ (s.port g).testMode = 1 ∨ !(mask.testBit line || mask.testBit (line + 1)) then 0
  else (s.outchan c).shifter

/-- A lane's OUT writes register `k` (R49): the stage of every pin channel that routes from it checks its operands. -/
def writeOC (k : Nat) (w : Word) (s : State) : State :=
  let s := { s with oc := s.oc.set 0 k w }
  forUpto 96 (fun c s =>
    let o := s.outchan c
    if routeSrc o.route = 1 ∧ routeIdx o.route = k ∧ portSt s (chanGroup c) = portRun then checkOperands c s else s) s

/-- A write of a routing, trim or mute pair by the dictionary (R170): held pending in RUN unless the output is at p = 0. A routing
written during the cut replaces the pending one, and the crossings looked for from then on are those of its own source. -/
def operandWritten (op : OutOperand) (c : Nat) (v : Nat) (s : State) : State :=
  let o := s.outchan c
  let p : Pair := BitVec.ofNat 64 v
  let o := match op with
    | .routing => { o with pRoute := some p, cutPrev := if o.cut then sourceWord s c p else o.cutPrev }
    | .trim => { o with pTrim := some p }
    | .mute => { o with pMute := some p }
  let o := if o.p = 0 ∨ portSt s (chanGroup c) ≠ portRun then applyPending o else o
  s.setOutchan c o

end Sys2Proof.Machine
end

