-- ==== Sys2Proof/Machine/PortIn.lean ====
section
/-! DEFINITION. Port groups: their states, the clock monitor, the input stage and the streams of both directions (R150 to R167),
and what a group's clock does to the converters that follow it (R200). -/

namespace Sys2Proof.Machine

/-! Converters that follow a group (R200). -/

def convOff : Nat := 0
def convAcquire : Nat := 1
def convLocked : Nat := 2
def convHold : Nat := 3

/-- A converter raises a code once per enable and counts it afterwards (R205). -/
def convFault (code v : Nat) (s : State) : State :=
  let x := s.conv v
  if x.raised.contains (BitVec.ofNat 16 code) then repeatFault code v 0 s
  else raise code v 0 0 (s.setConv v { x with raised := x.raised ++ [BitVec.ofNat 16 code] })

/-- A converter enters HOLD. -/
def enterConvHold (v : Nat) (s : State) : State := convFault 0x5014 v (s.wr (Obj.asState v) convHold)

/-- The enabled converters that follow group `g` in IN or OUT mode. -/
def convsOf (s : State) (g : Nat) : List Nat :=
  (List.range 16).filter fun v => s.rd (Obj.asEnable v) == 1 && s.rd (Obj.asMode v) != 2 && s.rd (Obj.asGroup v) == g

/-- Group `g` leaves RUN: its converters enter HOLD. -/
def convGroupStop (g : Nat) (s : State) : State :=
  forList (convsOf s g) (fun v s =>
    if s.rd (Obj.asState v) = convAcquire ∨ s.rd (Obj.asState v) = convLocked then enterConvHold v s else s) s

/-- The rate of a group as measured, in 0.01 Hz; the nominal rate where none is measured. -/
def groupRate (s : State) (g : Nat) : Nat :=
  if s.rd (Obj.portRateMeas g) = 0 then 100 * s.rd (Obj.portRate g) else s.rd (Obj.portRateMeas g)

/-- Whether two rates lie within 1:8 to 8:1. -/
def ratioGood (a b : Nat) : Bool := decide (a ≤ 8 * b) && decide (b ≤ 8 * a)

/-- Whether the measured ratio of a converter that follows a group is in range (R200). -/
def convRatioGood (s : State) (v : Nat) : Bool := ratioGood (groupRate s (s.rd (Obj.asGroup v))) (100 * s.rd (Obj.asRate v))

/-- A converter whose group is in RUN leaves HOLD for ACQUIRE where the measured ratio is in range; out of range it raises 0x5011
and enters HOLD. -/
def convRatioTest (v : Nat) (s : State) : State :=
  if convRatioGood s v then
    if s.rd (Obj.asState v) = convHold then (s.setConv v { s.conv v with good := 0 }).wr (Obj.asState v) convAcquire else s
  else
    let s := convFault 0x5011 v s
    if s.rd (Obj.asState v) = convHold then s else enterConvHold v s

/-- Group `g` is in RUN: its converters test their ratio. -/
def convGroupRun (g : Nat) (s : State) : State := forList (convsOf s g) convRatioTest s

/-! Steering states (R173, R174, R179). -/

def steerFree : Nat := 0
def steerAcquiring : Nat := 1
def steerLocked : Nat := 2
def steerHoldover : Nat := 3

/-- The loop enters HOLDOVER; 0x2001 is raised once per entry. -/
def enterHoldover (s : State) : State :=
  if s.rd Obj.steerState = steerHoldover then s
  else raise 0x2001 (s.rd Obj.leader) (s.rd Obj.steerError) 0 (s.wr Obj.steerState steerHoldover)

/-- The leader leaves RUN. -/
def leaderStop (g : Nat) (s : State) : State := if s.rd Obj.leader = g then enterHoldover s else s

/-! Faults and channels of a group. -/

/-- Raise a port fault 0x300k, once while its bit is set (R180); the whole group is affected. -/
def portFault (k g : Nat) : State → State := raiseSticky (Obj.portFaults g) (k - 1) (0x3000 + k) g 0xFFFF 0

def groupChannels (g : Nat) : List Nat := (List.range 16).map (16 * g + ·)

/-- The enabled bit positions of a mask, in order (R164). -/
def maskBits (m : Nat) : List Nat := (List.range 16).filter fun i => m.testBit i

/-- Apply the pending zero-crossing changes of a group's channels at once (R157). -/
def applyAll (g : Nat) (s : State) : State :=
  forList (groupChannels g) (fun c s => s.setOutchan c (applyPending (s.outchan c))) s

/-! Input fades (R154, R155). -/

/-- Whether a fade-out of the inputs of a group is in force. -/
def inputFadeOut (s : State) (g : Nat) : Bool :=
  let x := s.port g
  portSt s g == portHold || portSt s g == portRelock || x.glitchRun || x.fadeTest

/-- The input fade length in use (R155, R373, R374). -/
def takeInLength (c : Nat) (s : State) : State :=
  let x := s.inchan c
  let r := s.rd (Obj.inFade (chanGroup c) (chanPos c))
  if !guardGood r then guardFault 0x81 5 c s
  else
    let v := guardVal r
    if v = x.len then s
    else if x.p = 0 then s.setInchan c { x with len := v }
    else if x.p = x.len then s.setInchan c { x with len := v, p := v }
    else s

/-- Move an input channel's fade by one word and put the faded word into its register; silent while PREROLL (R154, R162). -/
def putInput (c : Nat) (raw : Word) (s : State) : State :=
  let g := chanGroup c
  let s := takeInLength c s
  let x := s.inchan c
  if portSt s g = portPreroll ∧ !(s.port g).fadeTest then watchLevel c 0 (s.setInchan c { x with p := 0, last := raw, word := 0 })
  else
    let p := if inputFadeOut s g then x.p - 1 else min (x.p + 1) x.len
    let w := if p = 0 then 0 else fadeWord raw p x.len
    watchLevel c w (s.setInchan c { x with p := p, last := raw, word := w })

/-! Streams (R163 to R167). -/

/-- B, N and the words of a position of a direction (R163). -/
def streamB (s : State) (g : Nat) : Nat := blockFrames (s.rd (Obj.blockSize g))
def inCount (s : State) (g : Nat) : Nat := popcount16 (s.rd (Obj.portInMask g))
def outCount (s : State) (g : Nat) : Nat := popcount16 (s.rd (Obj.portOutMask g))

/-- The fabric byte address of word `k` of position `p` of a ring of `n` channels at far word `base`. -/
def ringWord (s : State) (g base p n k : Nat) : Nat := farByte (base + p * (4 + streamB s g * n) + k)

/-- The reserve factor 0.5 (1 + cos(pi (j + 1) / B)) (R165). -/
def reserveWord (w : Word) (j b : Nat) : Word := scaleWord w (2 ^ 31 - raisedCosine (j + 1) b) 31

/-- Take the next position at the first frame of an input block, by the free positions (R165). -/
def startInBlock (g : Nat) (s : State) : State :=
  let e := s.rd (Obj.inEdge g)
  let x := s.port g
  let st := x.inS
  let free := s.rd (Obj.inRingDepth g) - (s.edge e).held.length
  let stamp := if fmtHalf (s.rd (Obj.portFormat g)) < fmtDelay (s.rd (Obj.portFormat g)) + fmtWlen (s.rd (Obj.portFormat g))
    then x.prevFall else x.lastFall
  if free = 0 then
    let s := s.setPort g { x with inS := { st with active := true, dropped := true, fadeNext := true, gap := min (st.gap + 1) 255 } }
    portFault 5 g (s.inc (Obj.inOverruns g))
  else
    let s := s.setPort g { x with inS := { st with
      active := true, dropped := false, reserve := free == 1, preroll := portSt s g == portPreroll, stamp := stamp
      fadeIn := st.fadeIn || st.fadeNext, fadeP := if st.fadeNext then 0 else st.fadeP, fadeNext := free == 1 } }
    takePos e st.pos s

/-- Word 2 of an input block header (R163). -/
def inFlags (st : Stream) (hold : Bool) : Nat :=
  st.seq.toNat * 0x10000 + st.gap * 0x100 + hold.toNat * 8 + st.preroll.toNat * 4 + st.reserve.toNat * 2 + st.fadeIn.toNat

/-- End an input block: write its header and post its token (R163, R165). -/
def endInBlock (g : Nat) (hold : Bool) (s : State) : State :=
  let x := s.port g
  let st := x.inS
  let n := inCount s g
  let b := streamB s g
  let next : Stream := { st with active := false, frame := 0, seq := st.seq + 1, fadeIn := false }
  if st.dropped then s.setPort g { x with inS := { next with fadeIn := st.fadeIn } }
  else
    let a := ringWord s g (s.rd (Obj.inRingAddr g)) st.pos n
    let s := streamStore g (a 0) (st.stamp.extractLsb' 0 32) s
    let s := streamStore g (a 1) (st.stamp.extractLsb' 32 32) s
    let s := streamStore g (a 2) (BitVec.ofNat 32 (inFlags st hold)) s
    let s := streamStore g (a 3) (BitVec.ofNat 32 (b * 0x10000 + n)) s
    let s := s.setPort g { x with inS := { next with pos := (st.pos + 1) % s.rd (Obj.inRingDepth g), gap := 0 } }
    postToken (s.rd (Obj.inEdge g)) ⟨st.seq.toNat, some st.pos, false, false⟩ s

/-- Write one frame of the input stream; `stamp` says that a new block may begin (R156, R159, R164). -/
def inFrame (g : Nat) (stamp hold : Bool) (s : State) : State :=
  if !(s.port g).inS.on || (!(s.port g).inS.active && !stamp) then s
  else
    let s := if (s.port g).inS.active then s else startInBlock g s
    let x := s.port g
    let st := x.inS
    let bits := maskBits (s.rd (Obj.portInMask g))
    let b := streamB s g
    let n := bits.length
    let q := min (st.fadeP + 1) 4096
    let s := if st.dropped then s
      else forList (bits.zipIdx) (fun bk s =>
        let ch := s.inchan (16 * g + bk.1)
        let w := if q < ch.len then fadeWord ch.word q ch.len else ch.word
        let w := if st.reserve then reserveWord w st.frame b else w
        streamStore g (ringWord s g (s.rd (Obj.inRingAddr g)) st.pos n (4 + n * st.frame + bk.2)) w s) s
    let s := s.setPort g { s.port g with inS := { (s.port g).inS with frame := st.frame + 1, fadeP := q } }
    if st.frame + 1 = b then endInBlock g hold s else s

/-- The slate of the output block at position `p`. -/
def outSlate (s : State) (g p : Nat) : Slate :=
  let a := ringWord s g (s.rd (Obj.outRingAddr g)) p (outCount s g)
  streamLoad s (a 1) ++ streamLoad s (a 0)

/-- The epoch and the count of a slate (R342). -/
def slateEpoch (t : Slate) : Nat := (t.extractLsb' 56 8).toNat
def slateCount (t : Slate) : Nat := (t.extractLsb' 0 56).toNat

/-- The token of the output edge at the next position. -/
def outToken (s : State) (g : Nat) : Option Token :=
  let st := (s.port g).outS
  (s.edge (s.rd (Obj.outEdge g))).tokens.find? fun t => t.pos == some st.pos

/-- Return the credit of the present output position and move on. -/
def outAdvance (g : Nat) (t : Token) (s : State) : State :=
  let e := s.rd (Obj.outEdge g)
  let x := s.port g
  let s := s.setPort g { x with outS := { x.outS with
    pos := (x.outS.pos + 1) % s.rd (Obj.outRingDepth g), active := false, frame := 0, fresh := false, late := false } }
  readyScan (removeToken e t.index t.pos s)

/-- Deliver frame `i` of the present position to the stream words of the enabled channels, and end any underrun fade. -/
def outPlay (g i : Nat) (s : State) : State :=
  let x := s.port g
  let bits := maskBits (s.rd (Obj.portOutMask g))
  let n := bits.length
  let s := forList (bits.zipIdx) (fun bk s =>
    let c := 16 * g + bk.1
    let o := s.outchan c
    let w := streamLoad s (ringWord s g (s.rd (Obj.outRingAddr g)) x.outS.pos n (4 + n * i + bk.2))
    s.setOutchan c { o with stream := w, causes := { o.causes with underrun := false } }) s
  s.setPort g { s.port g with outS := { (s.port g).outS with active := true, frame := i, fresh := false } }

/-- A missing block underruns, once (R166). -/
def outUnderrun (g : Nat) (s : State) : State :=
  let x := s.port g
  if x.outS.fresh || x.outS.late then s
  else
    let s := s.setPort g { x with outS := { x.outS with late := true } }
    let s := portFault 6 g (s.inc (Obj.outUnderruns g))
    forList (groupChannels g) (fun c s =>
      let o := s.outchan c
      s.setOutchan c { o with causes := { o.causes with underrun := true } }) s

/-- Test the next positions of the output stream at the group's latest frame start (R166, R167), at most `k` of them. -/
def outTest (g : Nat) : Nat → State → State
  | 0, s => s
  | k + 1, s =>
    match outToken s g with
    | none => outUnderrun g s
    | some t =>
      let slate := outSlate s g (s.port g).outS.pos
      let rate := s.rd (Obj.portRate g)
      let b := streamB s g
      let start := (s.port g).lastFall
      if slateEpoch slate ≠ slateEpoch start then
        outTest g k (outAdvance g t (s.incBy (Obj.lateDiscards g) b))
      else
        let i : Int := (((slateCount start : Int) - slateCount slate) * (2 * rate) + 10 ^ 8) / (2 * 10 ^ 8)
        if i < 0 then s
        else if b ≤ i then outTest g k (outAdvance g t (s.incBy (Obj.lateDiscards g) b))
        else outPlay g i.toNat (if i = 0 then s else s.incBy (Obj.lateDiscards g) i.toNat)

/-- The output stream at a frame start: the next frame of the block in play, or the next position (R166, R167). -/
def outFrame (g : Nat) (s : State) : State :=
  let x := s.port g
  if !x.outS.on then s
  else
    let q := s.rd (Obj.outRingDepth g) + 1
    if x.outS.active then
      if x.outS.frame + 1 < streamB s g then outPlay g (x.outS.frame + 1) s
      else match outToken s g with
        | some t => outTest g q (outAdvance g t s)
        | none => outTest g q s
    else outTest g q s

/-! Group states (R156, R157). -/

/-- Restart the counts of the monitor. -/
def resetMonitor (x : Port) : Port :=
  { x with frames := 0, good := 0, bad := 0, sum := 0, periods := 0, seenFall := false, glitches := [], clean := 0, owedRun := false }

/-- The output block in play is left for realignment (R167). -/
def parkOut (x : Port) : Port := { x with outS := { x.outS with active := false } }

/-- One nominal frame period in HOLD: every input fades on from its last word, and a block in progress takes the faded words (R158). -/
def holdStep (g : Nat) (s : State) : State :=
  let s := forList (groupChannels g) (fun c s =>
    let s := putInput c (s.inchan c).last s
    s.setInchan c { s.inchan c with frame := (s.inchan c).word }) s
  inFrame g false true s

/-- A group leaves HOLD: a block still in progress is completed with its faded words and its HOLD flag (R158). -/
def holdFinish (g : Nat) (s : State) : State :=
  if portSt s g ≠ portHold then s
  else forUpto 64 (fun _ s => if (s.port g).inS.active then holdStep g s else s) s

/-- A group enters WAIT: its IC registers read zero (R156), and its shared-clock window starts afresh (R175). -/
def enterWait (g : Nat) (s : State) : State :=
  let s := holdFinish g s
  let s := forList (groupChannels g) (fun c s => s.setInchan c { s.inchan c with p := 0, word := 0, frame := 0 }) s
  (s.setPort g (resetMonitor { s.port g with
      seen := false, glitchRun := false, relockStep := 0, shared := 0, sharedLead := 0 })).wr (Obj.portState g) portWait
    |>.wr (Obj.portRateMeas g) 0

/-- A group enters PREROLL: the count starts at its first frame start there, which a WS fall of this very cycle is (R162). -/
def enterPreroll (g : Nat) (s : State) : State :=
  (s.setPort g { s.port g with frames := 0, bad := 0, counting := (s.port g).lastFall == s.slate }).wr (Obj.portState g) portPreroll

/-- A group enters RUN: every channel fades in from p = 0 (R157). -/
def enterRun (g : Nat) (s : State) : State :=
  let s := if s.service.toneNow < 96 ∧ chanGroup s.service.toneNow = g then
      { s with service := { s.service with tonePhase := 0 } } else s
  let x := s.port g
  let s := (s.setPort g { x with bad := 0, relockStep := 0, inS := { x.inS with fadeIn := true } }).wr (Obj.portState g) portRun
  let s := forList (groupChannels g) (fun c s =>
    (s.setInchan c { s.inchan c with p := 0 }).setOutchan c { s.outchan c with p := 0 }) s
  convGroupRun g s

/-- A changed test mode whose fade the group leaves takes effect (R157, R162). -/
def settleTest (g : Nat) (s : State) : State :=
  let x := s.port g
  if x.fadeTest then s.setPort g { x with fadeTest := false, testMode := s.rd (Obj.portTest g) } else s

/-- A group enters HOLD (R158). -/
def enterHold (g : Nat) (s : State) : State :=
  let s := settleTest g s
  let s := (s.setPort g (resetMonitor (parkOut { s.port g with relockStep := 0 }))).wr (Obj.portState g) portHold
  let s := portFault 1 g ((s.wr (Obj.portRateMeas g) 0).inc (Obj.stopCount g))
  convGroupStop g (leaderStop g (applyAll g s))

/-- A group enters RELOCK at step 2; from PREROLL or RUN with its report (R157, R159). -/
def enterRelock (g : Nat) (report : Bool) (s : State) : State :=
  let s := settleTest g s
  let x := parkOut { s.port g with relockStep := 2, good := 0, bad := 0, sum := 0, periods := 0 }
  let s := (s.setPort g x).wr (Obj.portState g) portRelock
  let s := if report then portFault 2 g (s.inc (Obj.rateChanges g)) else s
  convGroupStop g (leaderStop g (applyAll g s))

/-- A group enters OFF (R150, R156). -/
def enterOff (g : Nat) (s : State) : State :=
  let s := holdFinish g s
  let x := s.port g
  let s := if x.inS.active && !x.inS.dropped then dropPos (s.rd (Obj.inEdge g)) x.inS.pos s else s
  let s := s.setPort g { ({} : Port) with
    testMode := s.rd (Obj.portTest g)
    inS := { x.inS with active := false, frame := 0 }, outS := { x.outS with active := false } }
  let s := (s.wr (Obj.portState g) portOff).wr (Obj.portRateMeas g) 0
  let s := applyAll g s
  let s := forList (groupChannels g) (fun c s =>
    let s := s.setInchan c { s.inchan c with p := 0, last := 0, word := 0, frame := 0 }
    s.setOutchan c { s.outchan c with p := 0, shifter := 0 }) s
  convGroupStop g (leaderStop g s)

/-- Whether every output channel of a group stands at p = 0. -/
def outputsSilent (s : State) (g : Nat) : Bool := (groupChannels g).all fun c => (s.outchan c).p == 0
def inputsSilent (s : State) (g : Nat) : Bool := (groupChannels g).all fun c => (s.inchan c).p == 0

/-! The clock monitor. -/

/-- Whether `n` frames of `ticks` in all lie within 0.5 % of `n` periods of a nominal rate. -/
def frameGood (ticks n rate : Nat) : Bool :=
  let a := ticks * rate
  let b := n * 10 ^ 8
  decide ((if a ≤ b then b - a else a - b) * 200 ≤ b)

/-- Whether one period of `d` ticks lies within 0.5 % of a sixteenth of `sum` ticks. -/
def relockGood (d sum : Nat) : Bool :=
  let a := 16 * d
  decide ((if a ≤ sum then sum - a else a - sum) * 200 ≤ sum)

/-- The mean rate in 0.01 Hz of 16 frames of `sum` ticks in all. -/
def meanRate (sum : Nat) : Nat := if sum = 0 then 0 else 16 * 10 ^ 10 / sum

/-- Whether a group can run at a rate in 0.01 Hz (R150). -/
def rateSupported (format rate : Nat) : Bool :=
  decide (800000 ≤ rate) && decide (rate ≤ 19200000) && decide (2 * fmtHalf format * rate ≤ 2500000000)

/-- A glitch run begins (R160). -/
def startGlitchRun (g : Nat) (s : State) : State :=
  portFault 3 g ((s.setPort g { s.port g with glitchRun := true, owedRun := false }).inc (Obj.glitchFades g))

/-- A glitched half (R160). Where the frame's own end may still bring a rate change, the glitch run waits for it (R161). -/
def noteGlitch (g : Nat) (s : State) : State :=
  let s := s.inc (Obj.glitchCount g)
  let x := s.port g
  let x := { x with glitches := 0 :: x.glitches, clean := 0 }
  let st := portSt s g
  let s := s.setPort g x
  if x.glitches.length < 3 ∨ x.glitchRun then s
  else if 3 ≤ x.bad ∧ (st = portPreroll ∨ st = portRun) then s.setPort g { x with owedRun := true }
  else startGlitchRun g s

/-- A frame of `d` ticks ends: the tests of its state (R157, R159). A glitch run that waited for the frame's rate test follows it,
and the rate change that the test finds goes first (R161). -/
def frameEnd (g d : Nat) (s : State) : State :=
  let x := s.port g
  let st := portSt s g
  let ok := frameGood d 1 (s.rd (Obj.portRate g))
  let x := { x with
    glitches := (x.glitches.map (· + 1)).filter (· < 16)
    clean := if x.glitches.contains 0 then 0 else x.clean + 1 }
  if st = portWait then s.setPort g { x with frames := x.frames + 1, good := if ok then x.good + 1 else x.good }
  else if st = portRelock then
    if x.relockStep = 2 then
      s.setPort g (if x.periods < 16 then { x with sum := x.sum + d, periods := x.periods + 1 } else x)
    else s.setPort g { x with good := if relockGood d x.relock then x.good + 1 else 0 }
  else
    let bad := if ok then 0 else x.bad + 1
    let s := s.setPort g { x with frames := if x.counting then x.frames + 1 else x.frames, bad := bad }
    let s := if d = 0 then s else s.wr (Obj.portRateMeas g) (10 ^ 10 / d)
    if x.owedRun then startGlitchRun g (if 4 ≤ bad then enterRelock g true s else s) else s

end Sys2Proof.Machine
end

