-- ==== Sys2Proof/Machine/Ports.lean ====
section
/-! DEFINITION. The events of port groups and of the steering loop (R26, R50, R150 to R180). -/

namespace Sys2Proof.Machine

/-! Steering (R172 to R174). -/

/-- House frames up to a slate: the house frame counter runs at the leader's nominal rate of a count that follows REF (R172). -/
def houseFrames (s : State) (t : Slate) : Nat := slateCount t * s.rd (Obj.portRate (s.rd Obj.leader)) / 10 ^ 8

/-- The fill error e in 1/256 frame at a leader frame start at slate `t` (R172). -/
def fillError (s : State) (t : Slate) : Int :=
  let rate := s.rd (Obj.portRate (s.rd Obj.leader))
  let h := houseFrames s t
  let b : Int := (h * 10 ^ 8 + rate - 1) / rate
  let frac : Int := (b - slateCount t) * rate * 256 / 10 ^ 8
  256 * (s.steer.offset + s.steer.written - (h - s.steer.origin : Int)) + frac

/-- Centre the buffer on the leader at its frame start and reacquire from the held y (R174). -/
def centreLoop (s : State) : State :=
  let s := { s with steer := { s.steer with
    written := 0, origin := houseFrames s s.slate, offset := 0, since := 0, steady := 0
    sum := toSigned 32 (s.rd Obj.steerOffset) * 10 ^ 10 } }
  let e := fillError s s.slate
  let s := { s with steer := { s.steer with offset := -((e + 128) / 256) } }
  s.wr Obj.steerState steerAcquiring

/-- Pi in units of 10^-20. -/
def piE20 : Int := 314159265358979323846

/-- The bandwidth fn in 0.1 Hz (R179). -/
def steerFn : Nat → Int
  | 0 => 1
  | 1 => 5
  | 2 => 10
  | 3 => 40
  | _ => 160

/-- Kp and Ki of R173 in units of 10^-10 of 0.01 ppm per frame of error (1 frame of error per frame is 10^8 of 0.01 ppm). -/
def steerKp (fn fs : Int) : Int := 2 * 707 * 2 * piE20 * fn / (fs * 10 ^ 6)
def steerKi (fn fs : Int) : Int := 4 * piE20 * piE20 * fn * fn * 16 / (fs * fs * 10 ^ 24)

/-- Round a value in 10^-10 units to the nearest unit, ties up. -/
def roundE10 (v : Int) : Int := (v + 5 * 10 ^ 9) / 10 ^ 10

/-- One update of the loop (R173). -/
def steerStep (s : State) : State :=
  let fn := steerFn (s.rd Obj.steerBw)
  let fs : Int := s.rd (Obj.portRate (s.rd Obj.leader))
  let e := fillError s (s.port (s.rd Obj.leader)).lastFall
  let old := toSigned 32 (s.rd Obj.steerOffset)
  let sum := s.steer.sum + steerKi fn fs * e / 256
  let y := roundE10 (steerKp fn fs * e / 256 + sum)
  let clamp := decide (10000 < y) || decide (y < -10000)
  let sum := if clamp && decide ((0 < e) = (0 < y)) then s.steer.sum else sum
  let y := if y > 10000 then 10000 else if y < -10000 then -10000 else y
  let calm := decide (e.natAbs < 64) && decide ((y - old).natAbs < 10)
  let steady := if calm then s.steer.steady + 1 else 0
  let err := ofSigned 16 (if e > 32767 then 32767 else if e < -32768 then -32768 else e)
  let was := s.steer.clamped
  let s := { s with steer := { s.steer with since := 0, sum := sum, steady := steady, clamped := clamp } }
  let s := (s.wr Obj.steerOffset (ofSigned 32 y)).wr Obj.steerError err
  let s := if 16 ≤ steady ∧ s.rd Obj.steerState = steerAcquiring then s.wr Obj.steerState steerLocked else s
  if clamp then
    let s := s.inc Obj.steerClamps
    if was then s else raise 0x2002 (s.rd Obj.leader) err 0 s
  else s

/-- STEER_UPDATE: every 16 leader frames while the loop runs. -/
def execSteerUpdate (s : State) : Host.Outcome State Fault Refusal :=
  let st := s.rd Obj.steerState
  if (st = steerAcquiring ∨ st = steerLocked) ∧ 16 ≤ s.steer.since then .next (steerStep s) else .next s

/-- A write of LEADER (R174): FREE for none, else HOLDOVER at the present y until the new leader is centred on. -/
def writeLeader (v : Nat) (s : State) : State :=
  if v = 0xFF then
    (s.wr Obj.leader v).wr Obj.steerState steerFree |>.wr Obj.steerOffset (s.rd Obj.steerManual)
  else
    let s := forUpto 6 (fun k s => s.setPort k { s.port k with shared := 0, sharedLead := 0 }) s
    enterHoldover ((s.wr Obj.leader v).wr Obj.steerState
      (if s.rd Obj.steerState = steerHoldover then steerHoldover else steerAcquiring))

/-- A frame start of group `g` as the loop and the shared-clock checks count it (R172, R174, R175). -/
def countFrame (g : Nat) (s : State) : State :=
  let s := s.setPort g { s.port g with shared := (s.port g).shared + 1 }
  if s.rd Obj.leader ≠ g then s
  else
    let s := forUpto 6 (fun k s =>
      if portSt s k = portOff then s else s.setPort k { s.port k with sharedLead := (s.port k).sharedLead + 1 }) s
    if portSt s g ≠ portRun then s
    else if s.rd Obj.steerState = steerHoldover then centreLoop s
    else { s with steer := { s.steer with written := s.steer.written + 1, since := s.steer.since + 1 } }

/-- SHARED_CLOCK_CHECK: over 256 leader frames the group's frames must be 256 times the ratio, give or take one (R175). -/
def execSharedClockCheck (g : Fin 6) (s : State) : Host.Outcome State Fault Refusal :=
  let x := s.port g.val
  if s.rd (Obj.portClock g.val) ≠ 1 ∨ x.sharedLead < 256 ∨ 6 ≤ s.rd Obj.leader then .next s
  else
    let rl := s.rd (Obj.portRate (s.rd Obj.leader))
    let rg := s.rd (Obj.portRate g.val)
    let a := x.shared * rl
    let b := 256 * rg
    let bad := decide (rl < (if a ≤ b then b - a else a - b))
    let s := s.setPort g.val { x with shared := 0, sharedLead := 0 }
    .next (if bad then portFault 7 g.val (s.inc (Obj.sharedErrors g.val)) else s)

/-! Word-select edges. -/

/-- A WS fall: a frame ends and the next one starts (R157, R159, R162, R166). -/
def frameStart (g : Nat) (s : State) : State :=
  let x := s.port g
  let s := if x.seenFall then frameEnd g (slateCount s.slate - slateCount x.lastFall) s else s
  let x := s.port g
  let s := s.setPort g { x with prevFall := x.lastFall, lastFall := s.slate, seenFall := true, fadeFrames := x.fadeFrames + 1, counting := true }
  let s := countFrame g s
  if portSt s g = portPreroll ∨ portSt s g = portRun then outFrame g s else s

/-- PORT_WS_EDGE: `edges` BCLK rising edges were counted in the half that ends. -/
def execPortWsEdge (g : Fin 6) (rise : Bool) (edges : Nat) (s : State) : Host.Outcome State Fault Refusal :=
  let st := portSt s g.val
  if st = portOff then .next s
  else if st = portHold then
    let s := enterWait g.val s
    let s := s.setPort g.val { s.port g.val with lastEdge := s.slate, seen := true }
    .next (if rise then s else frameStart g.val s)
  else
    let x := s.port g.val
    let gap := decide (2 * 10 ^ 8 ≤ (slateCount s.slate - slateCount x.lastEdge) * s.rd (Obj.portRate g.val))
    let s := if st = portWait && gap then s.setPort g.val { resetMonitor x with seen := false } else s
    let s := if (s.port g.val).seen && edges != fmtHalf (s.rd (Obj.portFormat g.val)) then noteGlitch g.val s else s
    let s := s.setPort g.val { s.port g.val with lastEdge := s.slate, seen := true }
    .next (if rise then s else frameStart g.val s)

/-! Input words. -/

/-- The word of line `k` as the input stage latches it: the pin, or under internal loopback the data-out line of the same
letter (R152, R176), left-justified; a glitched half keeps the previous word (R160). -/
def latchedWord (s : State) (c k : Nat) (words : List Word) : Word :=
  let g := chanGroup c
  let keep : Word := ~~~(BitVec.ofNat 32 (2 ^ (32 - fmtWlen (s.rd (Obj.portFormat g))) - 1))
  match words[k]? with
  | none => (s.inchan c).last
  | some w => (if (s.port g).testMode = 1 then (s.outchan c).shifter else w) &&& keep

/-- INPUT_WORD_LATCH: the words of the eight lines of one half; none for a glitched half, whose words are discarded. -/
def execInputWordLatch (g : Fin 6) (right : Bool) (words : List Word) (s : State) : Host.Outcome State Fault Refusal :=
  let st := portSt s g.val
  if st ≠ portPreroll ∧ st ≠ portRun ∧ st ≠ portRelock then .next s
  else
    let side := if right then 1 else 0
    let s := forUpto 8 (fun k s =>
      let c := 16 * g.val + 2 * k + side
      putInput c (latchedWord s c k words) s) s
    if right then
      let s := forList (groupChannels g.val) (fun c s => s.setInchan c { s.inchan c with frame := (s.inchan c).word }) s
      let s := inFrame g.val (st != portRelock) false s
      .next (triggerGroups (fun k => s.rd (Obj.tgSource k) == 0x2000 + g.val || s.rd (Obj.tgSource k) == 0x3000 + g.val) s)
    else .next (triggerSource (0x1000 + g.val) s)

/-- OUTPUT_CAPTURE: the output shifters of one half capture their words (R50). -/
def execOutputCapture (g : Fin 6) (right : Bool) (s : State) : Host.Outcome State Fault Refusal :=
  let side := if right then 1 else 0
  .next (switchTone (forUpto 8 (fun k => captureChannel (16 * g.val + 2 * k + side)) s))

/-- ZC_TIMEOUT: the channel fades out, applies its pending changes at p = 0 and fades in (R171). -/
def execZcTimeout (c : Fin 96) (s : State) : Host.Outcome State Fault Refusal :=
  let o := s.outchan c.val
  if (hasPending o || o.cut) && !o.causes.timeout then
    .next ((s.setOutchan c.val { o with causes := { o.causes with timeout := true } }).inc (Obj.zcTimeouts (chanGroup c.val)))
  else .next s

/-- GLITCH_RUN_END: 16 consecutive frames without a glitch (R160). -/
def execGlitchRunEnd (g : Fin 6) (s : State) : Host.Outcome State Fault Refusal :=
  let x := s.port g.val
  if x.glitchRun ∧ 16 ≤ x.clean then
    .next (s.setPort g.val { x with glitchRun := false, inS := { x.inS with fadeIn := true } })
  else .next s

/-- WAIT_GOOD_FRAMES: four frames in WAIT (R157). -/
def execWaitGoodFrames (g : Fin 6) (s : State) : Host.Outcome State Fault Refusal :=
  let x := s.port g.val
  if portSt s g.val = portWait ∧ 4 ≤ x.frames then
    .next (if x.good = x.frames then enterPreroll g.val s else enterRelock g.val false s)
  else .next s

/-- PREROLL_COMPLETE (R162). -/
def execPrerollComplete (g : Fin 6) (s : State) : Host.Outcome State Fault Refusal :=
  let x := s.port g.val
  if portSt s g.val = portPreroll ∧ !x.fadeTest ∧ s.rd (Obj.portPreroll g.val) ≤ x.frames then .next (enterRun g.val s)
  else .next s

/-- CLOCK_STOP_DETECTED: no WS edge within 2 nominal frame periods of the last one (R158). A group that was fading toward OFF goes
on to OFF, since no BCLK runs (R157). -/
def execClockStopDetected (g : Fin 6) (s : State) : Host.Outcome State Fault Refusal :=
  let st := portSt s g.val
  let late := decide (2 * 10 ^ 8 ≤ (slateCount s.slate - slateCount (s.port g.val).lastEdge) * s.rd (Obj.portRate g.val))
  if (st = portPreroll ∨ st = portRun ∨ st = portRelock) ∧ late then
    .next (if (s.port g.val).fadeOff then enterOff g.val (enterHold g.val s) else enterHold g.val s)
  else .next s

/-- HOLD_FADE_STEP: each input fades on from its last word, and a block in progress goes on with the faded words (R158). -/
def execHoldFadeStep (g : Fin 6) (s : State) : Host.Outcome State Fault Refusal :=
  if portSt s g.val ≠ portHold then .next s
  else .next (holdStep g.val s)

/-- RATE_CHANGE_DETECTED: four consecutive frames off the nominal period (R159). -/
def execRateChangeDetected (g : Fin 6) (s : State) : Host.Outcome State Fault Refusal :=
  let st := portSt s g.val
  if (st = portPreroll ∨ st = portRun) ∧ 4 ≤ (s.port g.val).bad then .next (enterRelock g.val true s) else .next s

/-- RELOCK_MEASURE_COMPLETE: the mean of 16 frame periods (R159). -/
def execRelockMeasureComplete (g : Fin 6) (s : State) : Host.Outcome State Fault Refusal :=
  let x := s.port g.val
  if portSt s g.val ≠ portRelock ∨ x.relockStep ≠ 2 ∨ x.periods < 16 then .next s
  else
    let rate := meanRate x.sum
    let s := s.wr (Obj.portRateMeas g.val) rate
    .next (if rateSupported (s.rd (Obj.portFormat g.val)) rate then
        s.setPort g.val { x with relock := x.sum, relockStep := 3, good := 0 }
      else portFault 4 g.val (s.setPort g.val { x with sum := 0, periods := 0 }))

/-- RELOCK_COMPLETE: 64 consecutive frames at the relock period; the frame start that ends the last of them realigns the output
stream (R159). -/
def execRelockComplete (g : Fin 6) (s : State) : Host.Outcome State Fault Refusal :=
  let x := s.port g.val
  if portSt s g.val = portRelock ∧ x.relockStep = 3 ∧ 64 ≤ x.good then .next (outFrame g.val (enterRun g.val s))
  else .next s

/-! Port configuration. -/

/-- Whether a group may be enabled: a group that shares the leader's clock has 1/4 to 4 times its rate (R175). -/
def portEnableGood (s : State) (g : Nat) : Bool :=
  s.rd (Obj.portClock g) == 0 ||
    (decide (s.rd Obj.leader < 6) &&
      let rl := s.rd (Obj.portRate (s.rd Obj.leader))
      let rg := s.rd (Obj.portRate g)
      4 * rg == rl || 2 * rg == rl || rg == rl || rg == 2 * rl || rg == 4 * rl)

/-- A group fades toward OFF, or enters it at once when its outputs are silent (R157). -/
def fadeTowardOff (g : Nat) (s : State) : State :=
  if portSt s g = portOff then s
  else if groupLive s g then s.setPort g { s.port g with fadeOff := true, fadeFrames := 0 }
  else enterOff g s

/-- Groups run from step 7 of R362 on, in normal mode and in RUN (R346, R362, R365). -/
def portsMayRun (s : State) : Bool := s.rd Obj.pwrState == 0 && s.boot.mode == 0 && !s.boot.meterE

/-- A group whose PORT_ENABLE is 1 enters WAIT from OFF. -/
def startGroup (g : Nat) (s : State) : State :=
  if portsMayRun s && s.rd (Obj.portEnable g) == 1 && portSt s g == portOff then
    enterWait g (s.setPort g { s.port g with testMode := s.rd (Obj.portTest g) })
  else s

/-- An accepted write of PORT_ENABLE (R157). -/
def writePortEnable (g v : Nat) (s : State) : State :=
  let s := s.wr (Obj.portEnable g) v
  if v = 0 then fadeTowardOff g s
  else if portSt s g = portOff then
    startGroup g s
  else if s.rd Obj.pwrState = 0 then s.setPort g { s.port g with fadeOff := false }
  else s

/-- PORT_OFF_ENTRY (R157). -/
def execPortOffEntry (g : Fin 6) (s : State) : Host.Outcome State Fault Refusal :=
  let x := s.port g.val
  if x.fadeOff ∧ (outputsSilent s g.val ∨ 4096 ≤ x.fadeFrames) then .next (enterOff g.val s) else .next s

/-- An accepted write of PORT_TEST (R157, R162). -/
def writePortTest (g v : Nat) (s : State) : State :=
  let same := s.rd (Obj.portTest g) == v
  let s := s.wr (Obj.portTest g) v
  let st := portSt s g
  if same || st == portOff then s
  else if st = portPreroll ∨ st = portRun then
    let s := leaderStop g (s.setPort g { parkOut (s.port g) with fadeTest := true, fadeFrames := 0, frames := 0, bad := 0, owedRun := false })
    let s := s.wr (Obj.portState g) portPreroll
    if st = portRun then convGroupStop g s else s
  else s.setPort g { s.port g with testMode := v }

/-- PORT_TEST_APPLY (R157). -/
def execPortTestApply (g : Fin 6) (s : State) : Host.Outcome State Fault Refusal :=
  let x := s.port g.val
  if x.fadeTest ∧ ((outputsSilent s g.val ∧ inputsSilent s g.val) ∨ 4096 ≤ x.fadeFrames) then
    .next (s.setPort g.val { x with
      fadeTest := false, testMode := s.rd (Obj.portTest g.val), frames := 0, counting := x.lastFall == s.slate })
  else .next s

/-- PORT_CLEAR (R177). -/
def portClearBits (g v : Nat) (s : State) : State :=
  let s := if v.testBit 0 then clearSticky 0x3001 7 ((List.range 6).map Obj.portFaults) [Obj.portFaults g] s else s
  if v.testBit 1 then
    zeroRegs [Obj.stopCount g, Obj.rateChanges g, Obj.glitchCount g, Obj.glitchFades g, Obj.inOverruns g, Obj.outUnderruns g,
      Obj.lateDiscards g, Obj.zcTimeouts g, Obj.sharedErrors g] s
  else s

/-! Streams. -/

/-- The far word range of a ring lies wholly within one shared pan group (R178, R234). -/
def inOneGroup (a words : Nat) : Bool :=
  decide (0x400000 ≤ a) && decide (a + words ≤ 0x800000) && decide (1 ≤ words) &&
  (a - 0x400000) / 0x80000 == (a + words - 1 - 0x400000) / 0x80000

/-- The LX status with which an endpoint's edge is refused, or 0 (R233). -/
def edgeRefusal (s : State) (e depth : Nat) : Nat :=
  if e = 0xFFFF then 0x6143
  else if 1024 ≤ e ∨ (s.edge e).on ∨ (s.edge e).prod ≠ 0 ∨ (s.edge e).cons ≠ 0 then 0x6141
  else if 4096 < tokenSlots s + depth then 0x6142
  else 0

/-- Configure and enable the edge of an endpoint: it is the module's own (R233). -/
def ownEdge (e base depth bytes : Nat) (prod : Bool) (end_ : Nat) (s : State) : State :=
  let s := (((s.wr (Obj.edgeBase e) base).wr (Obj.edgeDepth e) depth).wr (Obj.edgePosBytes e) bytes).wr (Obj.edgeEnable e) 1
  let s := s.wr (Obj.edgePosted e) 0
  s.setEdge e { ({} : Edge) with on := true, owned := true, prod := if prod then end_ else 0, cons := if prod then 0 else end_ }

/-- Enable one direction of a stream: `out` says which. Refusal is the abort code and the status in EDGE_RESULT. -/
def enableStream (g : Nat) (out : Bool) (s : State) : State × Nat :=
  let n := if out then outCount s g else inCount s g
  let a := s.rd (if out then Obj.outRingAddr g else Obj.inRingAddr g)
  let q := s.rd (if out then Obj.outRingDepth g else Obj.inRingDepth g)
  let e := s.rd (if out then Obj.outEdge g else Obj.inEdge g)
  let words := 4 + streamB s g * n
  if !inOneGroup a (q * words) then (s, 0x06090030)
  else
    let r := edgeRefusal s e q
    if r ≠ 0 then (if e < 1024 then s.wr (Obj.edgeResult e) r else s, 0x08000022)
    else
      let s := ownEdge e (farByte a) q (4 * words) (!out) (endPort g) s
      let s := s.wr (Obj.edgeResult e) 0
      let x := s.port g
      (s.setPort g (if out then { x with outS := { ({} : Stream) with on := true } }
        else { x with inS := { ({} : Stream) with on := true } }), 0)

/-- Disable one direction: its end is unbound, and its edge goes once the other end is (R233). -/
def disableStream (g : Nat) (out : Bool) (s : State) : State :=
  let e := s.rd (if out then Obj.outEdge g else Obj.inEdge g)
  let x := s.port g
  let s := s.setPort g (if out then { x with outS := {} } else { x with inS := {} })
  let ed := s.edge e
  retireEdge e (s.setEdge e (if out then { ed with cons := 0 } else { ed with prod := 0 }))

/-- A write of STREAM_ENABLE: the new state, and the abort code (R178). All or nothing. -/
def writeStreamEnable (g v : Nat) (s : State) : State × Nat :=
  let old := s.rd (Obj.streamEnable g)
  let want (k : Nat) : Bool := v.testBit k && !old.testBit k
  let drop (k : Nat) : Bool := !v.testBit k && old.testBit k
  let s0 := s
  let (s, a) := if want 0 then enableStream g false s else (s, 0)
  if a ≠ 0 then (s, a)
  else
    let (s, a) := if want 1 then enableStream g true s else (s, 0)
    if a ≠ 0 then
      let e := s0.rd (Obj.outEdge g)
      (if e < 1024 ∧ a = 0x08000022 then s0.wr (Obj.edgeResult e) (s.rd (Obj.edgeResult e)) else s0, a)
    else
      let s := if drop 0 then disableStream g false s else s
      let s := if drop 1 then disableStream g true s else s
      (s.wr (Obj.streamEnable g) v, 0)

end Sys2Proof.Machine
end

