-- ==== Sys2Proof/Machine/Reset.lean ====
section
/-! DEFINITION. The resets: what each kind leaves of the state (R357 to R361, R367, R380). -/

namespace Sys2Proof.Machine

/-! Keys of the object store. -/

def keyIndex (k : Nat) : Nat := k % 2 ^ 24 / 256
def keySub (k : Nat) : Nat := k % 256
/-- The access path's copy that a key names, plus 1; 0 for an object that is not kept per path. -/
def keyPath (k : Nat) : Nat := k / 2 ^ 24 % 2 ^ 16

/-- The key store of R405, which every reset keeps, and the levels of the GP pins, which no reset changes. -/
def keyAlways (k : Nat) : Bool := keyIndex k == 0x3E01 || k == Obj.gpIn.key

/-- The objects of the AON domain, which only POR and BOR return to their defaults (R367). -/
def keyAon (k : Nat) : Bool :=
  let i := keyIndex k
  let b := keySub k
  i == 0x2011 || (i == 0x5F01 && [1, 2, 3, 7, 8].contains b) || (i == 0x3A00 && [2, 3, 4, 5, 8, 9].contains b) ||
    (i == 0x2100 && [5, 7, 8].contains b) || (i == 0x2103 && [4, 5].contains b) || (i == 0x2101 && b == 3)

/-- The reset kinds by cause code (R357). -/
def causePor : Nat := 1
def causeBor : Nat := 2
def causePin : Nat := 3
def causeWdt : Nat := 4
def causeSoft : Nat := 5
def causeNode : Nat := 6
def causeComm : Nat := 7
def causeDormant : Nat := 8
def isWarm (cause : Nat) : Bool := decide (3 ≤ cause) && decide (cause ≤ 6)

/-- Shared pan groups in compatibility mode that are ON or in RETENTION keep their contents at a warm reset (R367). -/
def keepsGroup (s : State) (g : Nat) : Bool := (s.pan g).compatNow && s.rd (Obj.pgState g) != 0

/-- What a warm reset keeps of memory: DRAM outside the firmware area, and the groups above. -/
def warmMem (s : State) : List Host.Cell :=
  s.mem.filter fun c => match regionOf c.1 with
    | .dram off => decide (c.1 < 2 ^ 40) && decide (0x4000000 ≤ off)
    | .shared g _ => keepsGroup s g
    | _ => false

/-- A kept group stands in RETENTION until the stored PG_POWER is applied. -/
def keepGroups (old s : State) : State :=
  forUpto 8 (fun g s => if keepsGroup old g then
    (s.setPan g { ({} : PanGroup) with compatNow := true }).wr (Obj.pgState g) 4 else s) s

/-- The outstanding handles, in handle-slot order. -/
def handlesInOrder (s : State) : List Handle :=
  (List.range 65).filterMap fun k => s.handles.find? fun h => h.slot == k

/-- A warm reset completes every outstanding handle with 0xB104 (R360). -/
def endHandles (s : State) : State :=
  forList (handlesInOrder s) (fun h s => completeHandle h 0xB104 (opDetail h.op) s.slate s) s

/-- The TAP instruction under a debug scope: a debug instruction outside the scope acts as BYPASS (R401). -/
def tapUnder (scope : Nat) (ir : Byte) : Byte :=
  if 0x20 ≤ ir.toNat ∧ ir.toNat ≤ 0x22 ∧ !scope.testBit (ir.toNat - 0x20) then 0xFF else ir

/-- The state that a reset kind leaves, before the causes and counters of 0x2011 are written (R367). -/
def clearedState (cause : Nat) (s : State) : State :=
  let warm := isWarm cause
  let aon := warm || cause == causeDormant
  let od := s.od.filter fun x => keyAlways x.1 || (aon && keyAon x.1) || (warm && x.1 == Obj.steerOffset.key)
  let n : State := {
    pending := s.pending
    od := od
    mem := if warm then warmMem s else []
    slate := if warm then s.slate
      else if aon then (s.slate.extractLsb' 56 8 + 1) ++ (0 : BitVec 56)
      else 0
    wdtSlate := if warm then s.slate else if aon then (s.slate.extractLsb' 56 8 + 1) ++ (0 : BitVec 56) else 0
    houseEdge := if warm then s.houseEdge else 0
    dramClean := warm && s.dramClean
    dramErr := if warm then s.dramErr else []
    gens := if aon then s.gens else []
    records := if aon then s.records else []
    faultLog := if aon then s.faultLog else []
    can := { ({} : Can) with sent := s.can.sent }
    power := { ({} : Power) with
      phase := if warm then s.power.phase else 0, vinMv := s.power.vinMv, coreMv := s.power.coreMv, supplied := cause == causePor || s.power.supplied }
    boot := { ({} : Boot) with inReset := true, pinLow := s.boot.pinLow }
    flash := s.flash
    service := { ({} : Service) with
      conOut := s.service.conOut, serviceN := s.service.serviceN, temp0 := s.service.temp0, temp1 := s.service.temp1
      tapIr := if cause == causePor then 2 else tapUnder 0 s.service.tapIr, challenge := s.fresh }
    fresh := s.fresh + 1 }
  if warm then keepGroups s (n.wr Obj.steerState 3) else n

/-- Full erase clears its first `n` items: show slots 0 to 3, the two stored sets, customer keys 1 to 4, SHOW_QUORUM (R399). -/
def eraseItems (n : Nat) (s : State) : State :=
  let s := forUpto 4 (fun k s => if k < n then { s with flash := { s.flash with shows := s.flash.shows.erase k } } else s) s
  let s := if 4 < n then { s with flash := { s.flash with setA := [] } } else s
  let s := if 5 < n then { s with flash := { s.flash with setB := [] } } else s
  let s := forUpto 4 (fun k s => if 6 + k < n then s.wr (Obj.custKey k) 0 else s) s
  if 10 < n then s.wr Obj.showQuorum 0 else s

/-- A full erase that a reset ends has reached some of its items, in order (R399). -/
def endErase (s : State) : State :=
  if s.handles.any fun h => h.op == .erase then
    let (k, s) := s.takeFresh
    eraseItems (Config.free k % 12) s
  else s

/-- A background write of the link that a reset ends stands as far as it got (R325). -/
def endLinkWrite (s : State) : State :=
  match s.link.bg with
  | none => s
  | some w =>
    let (k, s) := s.takeFresh
    (landAccesses (Config.free k % (w.accesses.length + 1)) w s).1

/-- A reset kind other than NMT reset-communication takes effect (R358, R359, R367). A cause that arrives during a reset or
during boot leaves the cause of higher precedence in RESET_CAUSE. -/
def enterReset (cause : Nat) (s : State) : State :=
  let booting := s.boot.inReset || s.boot.meterE
  let old := s.rd Obj.resetCause
  let s := endLinkWrite (endErase s)
  let s := clearedState cause (if isWarm cause then endHandles s else s)
  let s := s.wr Obj.resetCause (if booting && cause != causeDormant then min cause old else cause)
  let s := if isWarm cause then s.inc Obj.warmResets else s
  if cause = causeWdt then s.inc Obj.wdtResets else s

/-- The reset proper ends and the BOOT pins are sampled (R361). -/
def samplePins (pins : BitVec 2) (s : State) : State :=
  let m := match pins.toNat with
    | 0 => 0
    | 2 => 2
    | _ => 1
  ((s.wr Obj.bootPins pins.toNat).wr Obj.bootMode m : State) |> fun s =>
    { s with boot := { s.boot with inReset := false, mode := m } }

/-- SOFT and NMT reset-node are registered and act when the outputs have faded (R359). The higher precedence stands (R358). -/
def requestReset (cause : Nat) (s : State) : State :=
  let c := match s.boot.pending with
    | none => cause
    | some k => min k cause
  { s with boot := { s.boot with pending := some c } }

/-- POR: VIN has been above the start level for 10 ms (R350, R357). -/
def execPor (boot : BitVec 2) (s : State) : Host.Outcome State Fault Refusal :=
  let s := enterReset causePor s
  .next (if s.boot.pinLow then s else samplePins boot s)

/-- BOR: VIN or the core rail has reached its reset level (R350, R357). -/
def execBor (s : State) : Host.Outcome State Fault Refusal := .next (enterReset causeBor s)

/-- PIN_RESET: RST_N has read low on two AON samples (R357, R449). The reset is held while it stays low. -/
def execPinReset (s : State) : Host.Outcome State Fault Refusal :=
  .next (enterReset causePin { s with boot := { s.boot with pinLow := true } })

/-- PIN_RESET_RELEASE: RST_N reads high, and the reset proper ends (R357, R361, R449). -/
def execPinResetRelease (boot : BitVec 2) (s : State) : Host.Outcome State Fault Refusal :=
  .next (if s.boot.pinLow then
      let s := { s with boot := { s.boot with pinLow := false } }
      if s.power.supplied then samplePins boot s else s
    else s)

/-- RESET_PROPER: a registered SOFT or NMT reset-node takes effect after its fade or its timeout (R359); a reset that is in
progress ends (R361). -/
def execResetProper (boot : BitVec 2) (s : State) : Host.Outcome State Fault Refusal :=
  .next (match s.boot.pending with
    | some c => samplePins boot (enterReset c s)
    | none => if s.boot.inReset ∧ !s.boot.pinLow ∧ s.power.supplied then samplePins boot s else s)

/-- WATCHDOG_EXPIRY: 0x5023, then the WDT reset (R388). The watchdog runs but in recovery mode, NAP and DORMANT, and in the
reset of a held pin. -/
def execWatchdogExpiry (s : State) : Host.Outcome State Fault Refusal :=
  let p := s.rd Obj.pwrState
  if s.boot.inReset ∨ (s.boot.mode = 2 ∧ !s.boot.meterE) ∨ p = 2 ∨ p = 3 ∨ p = 5 then .next s
  else .next (enterReset causeWdt (raise 0x5023 0 0 0 s))

/-- CURRENT_LIMIT: the power stage switches off and every internal rail falls, AON included (R436). -/
def execCurrentLimit (s : State) : Host.Outcome State Fault Refusal :=
  let s := enterReset causePor s
  .next { s with power := { s.power with supplied := false } }

/-- POWER_STAGE_RESTART: the stage restarts, and the module starts with a POR (R436). -/
def execPowerStageRestart (boot : BitVec 2) (s : State) : Host.Outcome State Fault Refusal :=
  if s.power.supplied then .next s
  else
    let s := enterReset causePor s
    .next (if s.boot.pinLow then s else samplePins boot s)

/-- SOFT_RESET_COMMAND's effect once the write is answered (R300, R359). -/
def softReset (s : State) : State := requestReset causeSoft s

end Sys2Proof.Machine
end

