-- ==== Sys2Proof/Machine/Bist.lean ====
section
/-! DEFINITION. The end of a built-in test: it clears the memory it tested, restores what it changed and completes its handle
(R414 to R416). -/

namespace Sys2Proof.Machine

/-- Clear the memory that a test with argument `arg` tested (R415). -/
def bistClear (test arg : Nat) (s : State) : State :=
  let cut (lo hi : Nat) (s : State) : State := { s with mem := clearMem s.mem lo hi }
  match test with
  | 1 =>
    let s := forUpto 8 (fun g s => if arg.testBit g then cut (0x1000000 + g * 0x200000) (0x1000000 + (g + 1) * 0x200000) s else s) s
    let s := if arg.testBit 8 then cut (2 ^ 40) (2 ^ 40 + 64 * 0x10000) (cut 0 0x1000000 s) else s
    if arg.testBit 9 then cut 0x2000000 0x2010000 s else s
  | 2 => cut 0x104000000 (0x100000000 + dramSize) s
  | _ => s

/-- Give back PORT_TEST of the groups that test 0x05 changed. -/
def bistPorts (s : State) : State := forList s.service.bistTest (fun x s => writePortTest x.1 x.2 s) s

/-- A test stops: the memory and the groups are as R415 and R416 say, and no test runs. -/
def bistStop (s : State) : State :=
  match s.service.bist with
  | none => s
  | some (test, arg) =>
    let s := bistPorts (bistClear test arg.toNat s)
    { s with service := { s.service with bist := none, bistTest := [] } }.wr Obj.bistState 0

/-- The not-ready status of a test; test 0x09 has none (R415). -/
def bistNotReady : Nat → Nat
  | 1 => 0x8020
  | 2 => 0x8024
  | 3 => 0x4120
  | 4 => 0x5030
  | 5 => 0x3020
  | 6 => 0x3022
  | 7 => 0xB020
  | 8 => 0x2020
  | _ => 0

/-- The fail status of a test (R415). -/
def bistFail (test : Nat) : Nat := if test = 9 then 0xD021 else bistNotReady test + 1

/-- Whether SERVICE_N gates a test. -/
def bistGated (test : Nat) : Bool := test == 6

/-- The running test ends with a status and detail: its record posts. -/
def bistEnd (status detail : Nat) (s : State) : State :=
  let s := (bistStop s).wr Obj.bistResult status
  match handleOf (fun o => match o with
      | .bist _ => true
      | _ => false) s with
  | none => s
  | some h => completeHandle h status detail s.slate s

/-- Hold-safe entered during test 0x05, 0x06 or 0x08 ends it (R416). -/
def bistHold (s : State) : State := match s.service.bist with
  | some (test, _) => if test = 5 ∨ test = 6 ∨ test = 8 then bistEnd (bistNotReady test) 0 s else s
  | none => s

end Sys2Proof.Machine
end

