-- ==== Sys2Proof/Machine/Cores.lean ====
section
/-! DEFINITION. Control cores and the supervisor: reset, release, traps and interrupt entry, and the supervisor's actions
on cores, pan groups, engines and handles (R67, R70, R237 to R244, R383 to R390). -/

namespace Sys2Proof.Machine

/-! I space of a control core (R70). -/

def iImplemented (a : Nat) : Bool := decide (a < 0x8000) || (decide (0x20000 ≤ a) && decide (a < 0x40000))

def iByte (s : State) (c a : Nat) : Byte :=
  if a < 0x8000 then Config.bootRom a else readByte s.mem (0x3000000 + 0x40000 * c + (a - 0x20000))

def iWord (s : State) (c a : Nat) : Word := iByte s c (a + 3) ++ iByte s c (a + 2) ++ iByte s c (a + 1) ++ iByte s c a

/-! Handles that a reset or the supervisor ends. -/

/-- A lane whose load ends early holds no program. -/
def unloadLane (n : Nat) (s : State) : State :=
  if laneSt s n ≠ laneLoading then s
  else
    let l := s.lane n
    let s := s.setLane n { ({} : Lane) with grant := l.grant, safePending := l.safePending, safeBy := l.safeBy }
    (s.wr (Obj.laneState n) laneUnloaded).wr (Obj.programSlots n) 0

/-- What ending an operation early leaves: its result object, its state object (R305, R387). -/
def stopOp (op : Op) (status : Nat) (s : State) : State :=
  match op with
  | .show _ targets _ _ => (forList targets (fun n s => if n < 64 then unloadLane n s else s) s).wr Obj.showResult status
  | .slotWrite _ => s.wr Obj.showResult status
  | .irLoad q _ _ => if (s.path q).on then s else s.wr (Obj.cpState q) 0
  | .splice _ => s
  | .bist _ => (bistStop s).wr Obj.bistResult status
  | .store _ => s
  | .restore _ => s
  | .verify _ => s.wr Obj.vfyResult status
  | .erase => s

/-- Complete a handle early with a status (R305, R360, R387). A splice is cancelled: its lanes are removed, its copies stop,
and it completes with its own status (R119, R120). -/
def cancelHandle (h : Handle) (status : Nat) (s : State) : State :=
  match h.op with
  | .splice id =>
    match s.splices.find? fun r => r.id == id with
    | none => completeHandle h status 0 s.slate s
    | some r => forList (r.waiting ++ r.copying) removeFromSplice s
  | op => completeHandle h status (opDetail op) s.slate (stopOp op status s)

/-! Core reset and start (R237). -/

/-- The node a core holds returns to READY (R228). -/
def rerunHeld (holder : Nat) (s : State) : State :=
  forList (s.firings.filter fun f => f.holder == holder && f.state != 2) rerunFiring s

/-- A core reset: every register to zero, the interrupt controller and SCH_ACCEPT to their reset values (R237). -/
def resetCoreRegs (c : Nat) (s : State) : State :=
  let x := s.core c
  readyScan (rerunHeld c (s.setCore c { ({} : Core) with
    revoked := x.revoked, lastTrap := x.lastTrap, everTrap := x.everTrap }))

/-- A core is released from reset: VBASE is set and vector 0 is taken (R237). -/
def releaseCore (c : Nat) (s : State) : State :=
  let vb : Word := if c < 2 then 0 else 0x20000
  let x := s.core c
  (s.setCore c { x with vbase := vb, regs := { x.regs with pc := (iWord s c vb.toNat).truncate 20 } }).wr (Obj.coreState c) 1

/-! Revocation and handover of shared pan groups (R259, R260). -/

/-- Bank code `owner` takes effect on group `g` (R259 to R262). -/
def ownerTaken (g owner : Nat) (s : State) : State :=
  let s := s.setPan g { s.pan g with code := BitVec.ofNat 8 owner, newOwner := BitVec.ofNat 8 owner, revoked := false }
  if 0x10 ≤ owner ∧ owner < 0x18 then
    let y := s.core (owner - 0x10)
    s.setCore (owner - 0x10) { y with revoked := y.revoked &&& ~~~(BitVec.ofNat 8 (2 ^ g)) }
  else s

/-- Start a revocation of group `g` to owner `owner` (R260); `clear` asks for the clear of native mode. A core that owned the
group meets REASON 0x24 from now on. A group without power takes the code at once. -/
def revokeGroup (g owner : Nat) (clear : Bool) (s : State) : State :=
  let x := s.pan g
  let old := x.code.toNat
  let st := s.rd (Obj.pgState g)
  let s := s.wr (Obj.pgOwner g) owner
  let s := if 0x10 ≤ old ∧ old < 0x18 then
      let y := s.core (old - 0x10)
      s.setCore (old - 0x10) { y with revoked := y.revoked ||| BitVec.ofNat 8 (2 ^ g) }
    else s
  if st = 0 ∨ st = 4 then (ownerTaken g owner s).inc (Obj.pgHandovers g)
  else
    let s := s.setPan g { x with
      newOwner := BitVec.ofNat 8 owner, revoked := true, thenClear := x.thenClear || (clear && !x.compatNow) }
    s.wr (Obj.pgState g) (if st = 3 then 3 else 2)

/-- A supervisor reset of core 2 to 7 revokes every group the core owns (R386). -/
def revokeOwned (c : Nat) (s : State) : State :=
  let keep := s.rd Obj.supRevoke = 1
  forUpto 8 (fun g s => if s.rd (Obj.pgOwner g) = 0x10 + c then revokeGroup g (if keep then 0x7F else 0) (!keep) s else s) s

/-- A supervisor action is counted (R389). -/
def supAct (s : State) : State := s.inc Obj.supActions

/-- Outstanding handles of the firmware's operations complete with 0xB103, and queued dictionary requests are answered,
when core 0 or core 1 is reset (R387). -/
def firmwareReset (s : State) : State :=
  let s := forList (s.handles.filter fun h => match h.op with
    | .splice _ => false
    | _ => true) (fun h => cancelHandle h 0xB103) s
  if s.link.reqState = 1 then
    ulIrq 0 { s with link := { s.link with reqState := 2, reqAbort := 0x08000000, reqValue := [], reqWrite := none, odServed := false } }
  else s

/-- The supervisor resets a core, which restarts from vector 0; groups of cores 2 to 7 are revoked (R386, R387, R390). -/
def supResetCore (c : Nat) (s : State) : State :=
  let pc := (s.core c).regs.pc.toNat
  let s := resetCoreRegs c (supAct s)
  let s := if c < 2 then firmwareReset s else revokeOwned c s
  let s := raise 0x5022 c 0 pc ((s.setBit (Obj.coreFaults c) 1).inc (Obj.coreResets c))
  releaseCore c s

/-- A double trap (R244), and the supervisor's answer to it (R384, R387). -/
def doubleTrap (c : Nat) (s : State) : State :=
  let x := s.core c
  let s := raise 0x5021 c 0 x.regs.pc.toNat ((s.wr (Obj.coreState c) 4).setBit (Obj.coreFaults c) 0)
  if c < 2 then
    let again := x.everTrap && decide (s.slate.toNat < x.lastTrap.toNat + 100000000)
    let s := s.setCore c { s.core c with everTrap := true, lastTrap := s.slate }
    if again then enterReset 4 (raise 0x5023 c 1 0 s) else supResetCore c s
  else if (s.rd Obj.supPolicy).testBit 0 then supResetCore c s
  else s

/-- The bits of ICTL (R239). -/
def ictlExc (x : Core) : Bool := x.ictl.getLsbD 4
def ictlGie (x : Core) : Bool := x.ictl.getLsbD 0
def ictlLpe (x : Core) : Bool := x.ictl.getLsbD 2

/-- Entry to a vector other than 0 (R243), the one operation that every trap and interrupt takes: EPC and ESR are saved,
F goes to EF, GIE and LPE are kept in PGIE and PLPE and cleared, EXC is set, and PC comes from the vector entry. A trap
while EXC is 1, or a vector entry that cannot be fetched, is a double trap (R244). -/
def enterVector (c vector reason len done : Nat) (epc : BitVec 20) (s : State) : State :=
  let x := s.core c
  if ictlExc x then doubleTrap c s
  else
    let va := x.vbase.toNat + 4 * vector
    let gie := ictlGie x
    let lpe := ictlLpe x
    let y := { x with
      regs := { x.regs with
        epc := epc
        esr := BitVec.ofNat 32 (done * 0x1000000 + reason * 0x10000 + len * 0x100 + vector) }
      ef := x.regs.f
      ictl := BitVec.ofNat 5 (0x10 + (if lpe then 8 else 0) + (if gie then 2 else 0))
      noIrq := false }
    if !iImplemented va || !iImplemented (va + 3) then doubleTrap c (s.setCore c y)
    else s.setCore c { y with regs := { y.regs with pc := (iWord s c va).truncate 20 } }

/-- RTI (R244). -/
def returnFrom (c : Nat) (s : State) : State :=
  let x := s.core c
  let plpe := x.ictl.getLsbD 3
  let pgie := x.ictl.getLsbD 1
  s.setCore c { x with
    regs := { x.regs with pc := x.regs.epc, f := x.ef }
    ictl := BitVec.ofNat 5 ((if plpe then 12 else 0) + (if pgie then 3 else 0)) }

/-- The vector an interrupt entry takes now, if one may be taken (R240 to R242, R246): vector 1 first, then the lowest
pending source that IE enables, if GIE is 1. -/
def nextVector (c : Nat) (s : State) : Option Nat :=
  let x := s.core c
  let st := s.rd (Obj.coreState c)
  if (st != 1 && st != 2) || !awake s || ictlExc x || x.noIrq then none
  else if x.notice then some 1
  else if ictlGie x then
    ((List.range 32).find? fun k => x.ipend.getLsbD k && x.regs.ie.getLsbD k).map (· + 8)
  else none

/-- Take an interrupt (R241, R243, R246): taking 8 + s clears the pending bit; a core blocked in GETW leaves the waiting set. -/
def takeInterrupt (c v : Nat) (s : State) : State :=
  let x := s.core c
  let x := if v = 1 then { x with notice := false }
    else { x with ipend := x.ipend &&& ~~~(BitVec.ofNat 32 (2 ^ (v - 8))) }
  enterVector c v 0 0 0 x.regs.pc ((s.setCore c x).wr (Obj.coreState c) 1)

/-! Engines (R196, R197). -/

/-- Holder codes of NODE_HELD_BY (R231). -/
def holderOf : Engine → Nat
  | .cx e => 0x10 + e.val
  | .asrc => 0x20

/-- The supervisor resets an engine: its firings run again from their start; 0x5004 or 0x5015 with `INFO` `by'` (R196, R197). -/
def resetEngine (e : Engine) (by' : Nat) (s : State) : State :=
  let s := supAct s
  let s := forList ((s.firings.filter fun f => f.holder == holderOf e && f.state != 2).reverse) rerunFiring s
  let s := match e with
    | .cx k => raise 0x5004 k.val by' 0 ((s.inc (Obj.cxResets k.val)).wr (Obj.cxState k.val) 0)
    | .asrc => raise 0x5015 0x20 by' 0 (s.inc Obj.asResets)
  readyScan s

end Sys2Proof.Machine
end

