-- ==== Sys2Proof/Machine/Hervel.lean ====
section
/-! DEFINITION. How an instruction runs: operand access, the order of R91, load delay (R85), repetition (R81, R89), the
moves of TAPM (R99), traps (R67), loop ends (R245) and undefined forms (R88). Each instruction's own file gives only what
it computes. -/

namespace Sys2Proof.Machine

/-- What an instruction runs under: who runs it, its prefixes, the slot of the repetition on a lane (on a core the count
of instructions), and whether it saturates. -/
structure Cx where
  u    : Agent
  p    : Prefix
  slot : Nat
  sat  : Bool
  deriving DecidableEq, Repr

/-- An access that can end in an address fault: the REASON of R74, or 0 for an access the fabric holds back, with the state in which
what the accesses before it reported stands. -/
abbrev Hv := StateT State (Except (Nat × State))

/-- What an instruction writes, in the order of R91: words in D space, registers (index registers, then the destination),
F; and beside these a delayed load, the moves of TAPM, and a transfer of control. -/
structure Eff where
  writes : List (DAddr × Word) := []
  upd    : Regs → Regs := id
  fl     : FlagSet := {}
  load   : Option Load := none
  move   : Option (DAddr × Word) := none
  dest   : Option (BitVec 20) := none
  xfer   : Bool := false
  dz     : Bool := false

/-- The register set of an agent. -/
def regsOf (s : State) : Agent → Regs
  | .lane n => (s.lane n.val).regs
  | .core c => (s.core c.val).regs

def putRegs (u : Agent) (r : Regs) (s : State) : State :=
  match u with
  | .lane n => s.setLane n.val { s.lane n.val with regs := r }
  | .core c => s.setCore c.val { s.core c.val with regs := r }

def delayedOf (s : State) : Agent → Option Load
  | .lane n => (s.lane n.val).delayed
  | .core c => (s.core c.val).delayed

def putDelayed (u : Agent) (d : Option Load) (s : State) : State :=
  match u with
  | .lane n => s.setLane n.val { s.lane n.val with delayed := d }
  | .core c => s.setCore c.val { s.core c.val with delayed := d }

def movesOf (s : State) : Agent → List Move
  | .lane n => (s.lane n.val).moves
  | .core c => (s.core c.val).moves

def putMoves (u : Agent) (m : List Move) (s : State) : State :=
  match u with
  | .lane n => s.setLane n.val { s.lane n.val with moves := m }
  | .core c => s.setCore c.val { s.core c.val with moves := m }

/-! D space of a control core (R71, R74). -/

/-- The fabric address of a core's D word, or the REASON of its address fault. The positions of the firing that the core holds ignore
owners (R212). A group that is OFF or in RETENTION answers as an
unimplemented address, a revoked one 0x24 first (DESIGN CHOICE: R74 names no cause for it). -/
def coreAddr (s : State) (c : Nat) (write : Bool) (a : DAddr) : Except Nat Nat :=
  let n := a.toNat
  let own := if (heldFiring s c).any fun f => inFiring s f (4 * n) then masterSluice else 0x10 + c
  if n < 0x400000 then if n % 0x10000 < 0xA000 then .ok (4 * n) else .error 0x21
  else if n < 0x800000 then
    let g := farGroup n
    match fabCheck own write (4 * n) s with
    | .ok => .ok (4 * n)
    | .wait => .error 0
    | .deny _ =>
      if ((s.core c).revoked.toNat).testBit g then .error 0x24
      else if s.rd (Obj.pgState g) = 0 ∨ s.rd (Obj.pgState g) = 4 then .error 0x21
      else .error 0x23
  else if n < 0x804000 then .ok (0x3000000 + 0x40000 * c + 0x20000 + 4 * (n - 0x800000))
  else if 0xC00000 ≤ n then
    let off := (s.core c).dwin.toNat * 0x1000000 + 4 * (n - 0xC00000)
    if dramSize ≤ off then .error 0x21
    else if off < 0x4000000 ∧ 2 ≤ c then .error 0x25
    else .ok (0x100000000 + off)
  else .error 0x21

/-- Write words of a core: those that its firing may no longer write to a return ring are dropped (R215, R225). -/
def coreWrite (c : Nat) (ws : List (Nat × Word)) (s : State) : State :=
  fabWrite (0x10 + c) (ws.filter fun x => !(heldFiring s c).any fun f => retDrops s f x.1) s

/-- Count a refused access of a core in the objects of R269 and R270; the trap is its report (R250). -/
def noteCoreRefusal (reason : Nat) (a : DAddr) (s : State) : State :=
  if reason = 0x23 ∨ reason = 0x24 then s.inc (Obj.pgRefused (farGroup a.toNat))
  else if 0xC00000 ≤ a.toNat ∧ (reason = 0x21 ∨ reason = 0x25) then s.inc Obj.dramRange
  else s

/-- Read a D word (R42, R71). `free` is the second word of a guarded pair that does not compete for its bank (R41). -/
def dRead (c : Cx) (a : DAddr) (free : Bool := false) : Hv Word := fun s =>
  match c.u with
  | .lane n => .ok (laneRead n.val c.slot a free s)
  | .core k => match coreAddr s k.val false a with
    | .ok f => .ok (fabRead s f, noteReads (0x10 + k.val) [(f, 4)] s)
    | .error r => .error (r, noteCoreRefusal r a s)

/-- A guarded operand fails its check: fault 0x4008 or 0x9003 (R78). -/
def guardMiss (c : Cx) (s : State) : State :=
  match c.u with
  | .lane n => laneFault n.val 7 c.slot s
  | .core k => raise 0x9003 (0x10 + k.val) 0 (s.core k.val).regs.pc.toNat s

/-- Whether two exchange words lie in one bank, where a guarded pair is one access (R41). -/
def oneBank (c : Cx) (a b : DAddr) : Bool := Agent.isLane c.u && isXch a && isXch b && xchBank a == xchBank b

/-- Read a D operand at `ea`, checking the pair at `ea` and `ea'` where it is guarded (R78). A word that is refused, each counted by
itself, reads zero and is compared as it reads, so a refused pair fails the check too (DESIGN CHOICE: R46 and R73 do not say). -/
def dOperand (c : Cx) (guarded : Bool) (ea ea' : DAddr) : Hv Word := do
  let v ← dRead c ea
  if guarded then
    let k ← dRead c ea' (oneBank c ea ea')
    if k = ~~~v then pure v else modifyGet fun s => (0, guardMiss c s)
  else pure v

/-- The operand word w, and whether a read of register code 0 overflowed (R75 to R78, R97). -/
def operand (c : Cx) (r : Regs) (o : Operand) : Hv (Word × Bool) :=
  match o with
  | .reg k => pure (readReg c.sat r k.val)
  | .imm size hi raw => pure (immWord c.p.wide size hi raw, false)
  | o => match effAddr r o with
    | some (ea, ea') => do
      let v ← dOperand c c.p.guard ea ea'
      pure (v, false)
    | none => pure (0, false)

/-- The writes of a D operand: the word, and its complement where it is guarded (R78). -/
def storeTo (c : Cx) (r : Regs) (o : Operand) (w : Word) : List (DAddr × Word) :=
  match effAddr r o with
  | some (ea, ea') => if c.p.guard then [(ea, w), (ea', ~~~w)] else [(ea, w)]
  | none => []

/-- Make the writes of an instruction (R91); a guarded core store is one access (R127). -/
def dWrites (c : Cx) (ws : List (DAddr × Word)) : Hv Unit := fun s =>
  match c.u with
  | .lane n =>
    match ws with
    | [(a, v), (b, k)] =>
      if c.p.guard then .ok ((), laneWrite n.val c.slot b k (oneBank c a b) (laneWrite n.val c.slot a v false s))
      else .ok ((), laneWrite n.val c.slot b k false (laneWrite n.val c.slot a v false s))
    | ws => .ok ((), forList ws (fun x => laneWrite n.val c.slot x.1 x.2 false) s)
  | .core k =>
    match ws.mapM fun x => ((coreAddr s k.val true x.1).map fun f => (f, x.2)).mapError fun r => (r, noteCoreRefusal r x.1 s) with
    | .error r => .error r
    | .ok fs =>
      if c.p.guard then .ok ((), coreWrite k.val fs s)
      else .ok ((), forList fs (fun x => coreWrite k.val [x]) s)

/-- Write the moves of TAPM due by this slot, after the reads of an instruction that writes `ws` (R99): a move to a word
that it writes itself is discarded; one that would meet its own exchange write in a bank is refused (R41). -/
def flushMoves (u : Agent) (slot : Nat) (ws : List (DAddr × Word)) (s : State) : State :=
  let due := (movesOf s u).filter fun m => m.due ≤ slot
  let s := putMoves u ((movesOf s u).filter fun m => !(m.due ≤ slot)) s
  forList due (fun m s =>
    if ws.any fun x => x.1 == m.addr then s
    else match u with
      | .lane n =>
        if isXch m.addr && ws.any (fun x => isXch x.1 && xchBank x.1 == xchBank m.addr) then laneFault n.val 4 slot s
        else laneWrite n.val m.due m.addr m.value false s
      | .core k => match coreAddr s k.val true m.addr with
        | .ok f => coreWrite k.val [(f, m.value)] s
        | .error _ => s) s

/-- A take in which an operation saturated is counted once (R56). -/
def noteSat (u : Agent) (sv : Bool) (s : State) : State :=
  match u with
  | .lane n =>
    if sv ∧ !(s.lane n.val).satTaken then (s.setLane n.val { s.lane n.val with satTaken := true }).inc (Obj.satTakes n.val) else s
  | .core _ => s

/-- Commit what one repetition writes, in the order of R91: memory, index registers and destination, F. The delayed load
of the instruction before lands first, so an instruction's own write stands (R85). -/
def commit (c : Cx) (e : Eff) : Hv Unit := do
  modify fun s => flushMoves c.u c.slot e.writes s
  dWrites c e.writes
  modify fun s =>
    let r := e.upd (landUnder (Agent.isLane c.u) e.fl (delayedOf s c.u) (regsOf s c.u))
    let r := { r with f := e.fl.apply r.f }
    let s := putDelayed c.u e.load (putRegs c.u r s)
    let s := match e.move with
      | some (a, w) => putMoves c.u (movesOf s c.u ++ [⟨c.slot + 1, a, w⟩]) s
      | none => s
    noteSat c.u e.fl.sv s

/-- One repetition of `cost` slots: its body reads the registers as they stand, then its results are committed; on a lane
the far reads due while it runs are delivered before that (R44, R91). -/
def runOnce (c : Cx) (cost : Nat) (body : Cx → Regs → Hv Eff) : Hv Eff := do
  let s ← get
  let e ← body c (regsOf s c.u)
  modify fun s => match c.u with
    | .lane n => farDue n.val (c.slot + cost - 1) s
    | .core _ => s
  commit c e
  pure e

/-- Between two repetitions the load of the first one lands (R85). -/
def landNow (u : Agent) (s : State) : State :=
  putDelayed u none (putRegs u (landLoad (Agent.isLane u) (delayedOf s u) (regsOf s u)) s)

/-- Whether a lane runs the instruction of a command: a take is in progress and its slots are not over (R30, R31, R54). -/
def laneRuns (s : State) (n : Nat) : Bool :=
  laneSt s n == laneTake && (s.lane n).ran && decide ((s.lane n).regs.pc.toNat < s.rd (Obj.tgLength (laneGroup s n)))

/-- The repetitions of a lane instruction of cost `cost` from slot `slot` on: `k` more. -/
def laneReps (u : Agent) (p : Prefix) (cost : Nat) (body : Cx → Regs → Hv Eff) : Nat → Nat → State → State
  | 0, _, s => s
  | k + 1, slot, s =>
    let s := match u with
      | .lane n => farDue n.val slot s
      | .core _ => s
    let s := flushMoves u (slot - 1) [] s
    match (runOnce ⟨u, p, slot, true⟩ cost body).run s with
    | .ok (_, s) => laneReps u p cost body k (slot + cost) (if k = 0 then s else landNow u s)
    | .error _ => s

/-- A lane passes an undefined opcode: one slot, the sticky UD flag, fault 0x4002 (R12, R88). -/
def laneUndefined (n : Nat) (s : State) : State :=
  let u : Agent := .lane (Fin.ofNat 64 n)
  let slot := (s.lane n).regs.pc.toNat
  let s := flushMoves u slot [] (farDue n slot s)
  let l := s.lane n
  let r := landLoad true l.delayed l.regs
  let s := s.setLane n { l with regs := { r with f := putF r.f 6 true, pc := r.pc + 1 }, delayed := none }
  laneFault n 1 slot s

/-- Set a lane's PC to the next start slot. -/
def lanePc (n pc : Nat) (s : State) : State :=
  let l := s.lane n
  s.setLane n { l with regs := { l.regs with pc := BitVec.ofNat 20 pc } }

/-- The byte address at which the instruction of start slot `pc` begins, and the slot at which the instruction of a byte
address starts (R33, R69). -/
def byteOfSlot (l : Lane) (pc : Nat) : Nat := ((l.slotMap.find? fun x => x.2 == pc).map (·.1)).getD 0
def slotOfByte (l : Lane) (b : Nat) : Option Nat := (l.slotMap.find? fun x => x.1 == b).map (·.2)

/-- The loop-end action at the completion of the instruction at `pc`: levels 3 down to 0 (R245). -/
def loopEnd (pc : BitVec 20) : Nat → Regs → Regs
  | 0, r => r
  | k + 1, r =>
    if h : k < 4 then
      if r.le[k] = pc ∧ r.lc[k] ≠ 0 then
        let lc := r.lc[k] - 1
        let r' := { r with lc := r.lc.set k lc }
        if lc = 0 then loopEnd pc k r' else { r' with pc := r.ls[k] }
      else loopEnd pc k r
    else loopEnd pc k r

/-- The repetitions of a core instruction: `k` more, `done` completed. The result is the state after the last one, whether
any divided by zero and where, or the REASON and number of the repetition that faulted. -/
def coreReps (c : Fin 8) (p : Prefix) (body : Cx → Regs → Hv Eff) : Nat → Nat → Option Nat → State →
    State × Except (Nat × Nat) (Option Nat × Eff)
  | 0, _, dz, s => (s, .ok (dz, {}))
  | k + 1, done, dz, s =>
    let x := s.core c.val
    match (runOnce ⟨.core c, p, x.count + done, saturates (.core c) p x.regs⟩ 1 body).run s with
    | .ok (e, s) =>
      let dz := if e.dz && dz.isNone then some done else dz
      if k = 0 then (s, .ok (dz, e)) else coreReps c p body k (done + 1) dz (landNow (.core c) s)
    | .error (r, s) => (s, .error (r, done))

/-- After a trapping or last instruction of a core: moves still owed are written and a delayed load lands (R85, R99). -/
def coreSettle (c : Fin 8) (s : State) : State :=
  let s := flushMoves (.core c) ((s.core c.val).count + 256) [] s
  let x := s.core c.val
  s.setCore c.val { x with regs := landLoad false x.delayed x.regs, delayed := none }

/-- A core takes a trap at the instruction at its PC (R67). -/
def coreTrap (c : Fin 8) (vector reason len done : Nat) (s : State) : State :=
  let s := coreSettle c s
  enterVector c.val vector reason len done (s.core c.val).regs.pc s

/-- A core meets an undefined opcode (R12, R88). -/
def coreUndefined (c : Fin 8) (reason len : Nat) (s : State) : State := coreTrap c 2 reason len 0 s

/-- Finish a core instruction: count it, advance PC past it or to its destination, take the loop-end action, and note
whether an interrupt may follow (R242, R245). -/
def coreFinish (c : Fin 8) (len : Nat) (e : Eff) (s : State) : State :=
  let x := s.core c.val
  let pc := x.regs.pc
  let next := pc + BitVec.ofNat 20 len
  let regs := match e.dest with
    | some d => { x.regs with pc := d }
    | none =>
      let r := { x.regs with pc := next }
      if e.xfer || !ictlLpe x then r else loopEnd pc 4 r
  s.setCore c.val { x with regs := regs, count := x.count + 256, noIrq := e.load.isSome || e.move.isSome }

/-- Run a defined instruction on a lane. -/
def runLane (n : Fin 64) (p : Prefix) (cost : Nat) (body : Cx → Regs → Hv Eff) (s : State) : State :=
  let pc := (s.lane n.val).regs.pc.toNat
  let m := match p.rep with
    | some b => b.toNat + 1
    | none => 1
  lanePc n.val (pc + m * cost) (laneReps (.lane n) p cost body m pc s)

/-- Run a defined instruction of `len` bytes on a control core. -/
def runCore (c : Fin 8) (p : Prefix) (len : Nat) (body : Cx → Regs → Hv Eff) (s : State) : State :=
  let m := match p.rep with
    | some b => b.toNat + 1
    | none => 1
  match coreReps c p body m 0 none s with
  | (s', .ok (none, e)) => coreFinish c len e s'
  | (s', .ok (some k, e)) =>
    let trap := (s'.core c.val).regs.f.getLsbD 9
    let s' := coreFinish c len { e with xfer := e.xfer || trap } s'
    if trap then enterVector c.val 4 0 len (if p.rep.isSome then k else 0) (s'.core c.val).regs.pc s' else s'
  | (s', .error (reason, k)) => if reason = 0 then s else coreTrap c 3 reason len k s'

/-- Run an instruction: nothing on a unit that does not run (R30, R238); an address fault where a core cannot fetch it
(R70, R74), under ESR.LEN the length of the instruction the command names (DESIGN CHOICE: nothing is decoded there); the
undefined opcode where its form is undefined (R84, R88); else its body, `cost` slots on a lane. -/
def runInstr (u : Agent) (p : Prefix) (sh : Shape) (cost : Nat) (body : Cx → Regs → Hv Eff) (s : State) :
    Host.Outcome State Fault Refusal :=
  let len := decodedLen p sh
  match u with
  | .lane n =>
    if !laneRuns s n.val then .next s
    else if (undefReason u p sh).isSome then .next (laneUndefined n.val s)
    else .next (runLane n p cost body s)
  | .core c =>
    let pc := (s.core c.val).regs.pc.toNat
    if !coreRuns s c.val then .next s
    else if !iImplemented pc || !iImplemented (pc + len - 1) then .next (coreTrap c 3 0x20 len 0 s)
    else match undefReason u p sh with
      | some r => .next (coreUndefined c r len s)
      | none => .next (runCore c p len body s)

end Sys2Proof.Machine
end

