-- ==== Sys2Proof/Machine/PSpace.lean ====
section
/-! DEFINITION. P space of lanes and control cores (R47, R48, R49, R72, R218, R239), with the writes of the scheduler interface
and of the interrupt controller. -/

namespace Sys2Proof.Machine

/-! Lanes (R47 to R49). -/

/-- Whether a lane's IN or OUT names a permitted P register; a program that names another is not loaded (R47, R61). -/
def laneInOk (pa : Nat) : Bool := decide (pa < 0x60) || (decide (0x100 ≤ pa) && decide (pa < 0x104))
def laneOutOk (pa : Nat) : Bool := decide (0x80 ≤ pa) && decide (pa < 0xE0)

/-- An input channel as lane `n` reads it (R27, R48). -/
def inputView (s : State) (n c : Nat) : Word :=
  let g := chanGroup c
  if !(s.rd (Obj.portInMask g)).testBit (chanPos c) then 0
  else if laneGroup s n < 64 ∧ s.rd (Obj.tgSource (laneGroup s n)) = 0x3000 + g then (s.inchan c).frame
  else (s.inchan c).word

/-- The word that IN of lane `n` returns from P address `pa` (R47). -/
def laneIn (s : State) (n pa : Nat) : Word :=
  let l := s.lane n
  if pa < 0x60 then inputView s n pa
  else match pa with
    | 0x100 => l.trigSlate.extractLsb' 0 32
    | 0x101 => l.trigSlate.extractLsb' 32 32
    | 0x102 => l.takeNumber
    | _ => BitVec.ofNat 32 n

/-! The scheduler interface of a core (R218). -/

def setSchResult (c v : Nat) (s : State) : State := s.setCore c { s.core c with schResult := BitVec.ofNat 32 v }

/-- A refused write of the interface: its result, fault 0x6004 (R218, R229). -/
def schRefuse (c status what number : Nat) (s : State) : State :=
  schFault 4 what number 0 ((setSchResult c status s).inc Obj.schRefused)

/-- SCH_DONE: complete the held firing with a status. -/
def opSchDone (c : Nat) (w : Word) (s : State) : State :=
  match heldFiring s c with
  | none => schRefuse c 0x6151 0 c s
  | some f =>
    let s := s.setCore c { s.core c with node := none, schResult := 0 }
    completeFiring f (w.extractLsb' 0 16).toNat false s

/-- A post on a return ring (R225): block `m` + K becomes valid where its position grants credit for it; on void credit nothing is
posted, and the block number moves on. -/
def postReturn (r e m : Nat) (void : Bool) (s : State) : State :=
  let s := s.setEdge e { s.edge e with posted := m + 1 }
  if void then s
  else
    let k := ringK s r
    let y := s.ring r
    let s := s.setRing r { y with ret := y.ret.map fun t => if t.block = k + m && !t.latched then { t with valid := true } else t }
    s.incMax (Obj.edgePosted e)

/-- SCH_POST: post a token at a software producer end. -/
def opSchPost (c : Nat) (w : Word) (s : State) : State :=
  let e := (w.extractLsb' 0 10).toNat
  let ed := s.edge e
  let p := ed.next % s.rd (Obj.edgeDepth e)
  if !ed.on || ed.prod != 0 then schRefuse c 0x6152 1 e s
  else match ringOfEnd ed.cons with
  | some r => match creditFor s e ed.posted with
    | none => schRefuse c 0x6152 1 e s
    | some (p, void) =>
      if (s.ring r).ret.any (fun t => t.block == ed.posted + ringK s r && t.valid) then schRefuse c 0x6152 1 e s
      else setSchResult c (p * 0x10000) (postReturn r e ed.posted void s)
  | none =>
  if ed.held.contains p then schRefuse c 0x6152 1 e s
  else
    let s := s.setEdge e { ed with next := (p + 1) % s.rd (Obj.edgeDepth e), posted := ed.posted + 1 }
    setSchResult c (p * 0x10000) (postToken e ⟨ed.posted, some p, false, false⟩ s)

/-- SCH_TAKE: consume the oldest token at a software consumer end. A late token without a position reads as position 0. -/
def opSchTake (c : Nat) (w : Word) (s : State) : State :=
  let e := (w.extractLsb' 0 10).toNat
  let ed := s.edge e
  if !ed.on || ed.cons != 0 then schRefuse c 0x6153 1 e s
  else match ed.tokens with
    | [] => schRefuse c 0x6153 1 e s
    | t :: _ => setSchResult c (t.pos.getD 0 * 0x10000) (readyScan (removeToken e t.index t.pos s))

/-! The interrupt controller of a core (R239). -/

/-- RING: pend source 16 + c on each core of the mask. -/
def opRing (c : Nat) (w : Word) : State → State :=
  forUpto 8 fun k s => if w.getLsbD k then pendCore k (16 + c) s else s

/-- ICLR: clear pending bits. -/
def opIclr (c : Nat) (w : Word) (s : State) : State := s.setCore c { s.core c with ipend := (s.core c).ipend &&& ~~~w }

/-- TCMP: set the compare value and arm the timer. -/
def opTcmp (c : Nat) (w : Word) (s : State) : State :=
  s.setCore c { s.core c with tcmp := s.slate.extractLsb' 32 32 ++ w, tArmed := true }

/-- The timer of a core pends source 0 once per arm (R239). -/
def timerCheck (c : Nat) (s : State) : State :=
  let x := s.core c
  if x.tArmed ∧ x.tcmp.toNat ≤ s.slate.toNat then pendCore c 0 (s.setCore c { x with tArmed := false }) else s

/-! IN and OUT of a core (R72). -/

/-- IN of a core; an address with no register to read is an address fault, REASON 0x22. -/
def coreIn (c pa : Nat) : Hv Word := fun s =>
  let x := s.core c
  match pa with
  | 0x000 => .ok (BitVec.ofNat 32 c, s)
  | 0x001 => .ok (s.slate.extractLsb' 0 32, s.setCore c { x with slateHi := s.slate.extractLsb' 32 32 })
  | 0x002 => .ok (x.slateHi, s)
  | 0x010 => .ok (x.dwin.zeroExtend 32, s)
  | 0x020 => .ok (x.vbase, s)
  | 0x021 => .ok (x.ictl.zeroExtend 32, s)
  | 0x022 => .ok (x.ef.zeroExtend 32, s)
  | 0x023 => .ok (x.ipend, s)
  | 0x040 => .ok (match x.node with
      | some k => BitVec.ofNat 32 k
      | none => 0x80000000, s)
  | 0x042 => .ok (x.accept.zeroExtend 32, s)
  | 0x045 => .ok (x.schResult, s)
  | _ => .error (0x22, s)

/-- OUT of a core; an address with no register to write is an address fault, REASON 0x22. -/
def coreOut (c pa : Nat) (w : Word) : Hv Unit := fun s =>
  let x := s.core c
  match pa with
  | 0x010 => .ok ((), s.setCore c { x with dwin := w.truncate 9 })
  | 0x020 => .ok ((), s.setCore c { x with vbase := w &&& 0xFFFFC })
  | 0x021 => .ok ((), s.setCore c { x with ictl := w.truncate 5 })
  | 0x022 => .ok ((), s.setCore c { x with ef := maskF false w })
  | 0x024 => .ok ((), opIclr c w s)
  | 0x025 => .ok ((), opRing c w s)
  | 0x026 => .ok ((), opTcmp c w s)
  | 0x041 => .ok ((), opSchDone c w s)
  | 0x042 => .ok ((), s.setCore c { x with accept := w.truncate 8 })
  | 0x043 => .ok ((), opSchPost c w s)
  | 0x044 => .ok ((), opSchTake c w s)
  | _ => .error (0x22, s)

end Sys2Proof.Machine
end

