-- ==== Sys2Proof/Machine/Arith.lean ====
section
/-! DEFINITION. Accumulator arithmetic, the multiplier, and word operations on A.H (R92, R93, R96 to R102). -/

namespace Sys2Proof.Machine

/-- An instruction that computes A from A and its operand word. -/
def accBody (f : Bool → Acc → Word → Acc × FlagSet) (o : Operand) (c : Cx) (r : Regs) : Hv Eff := do
  let (w, ov) ← operand c r o
  let (a, fl) := f c.sat r.a w
  pure { upd := fun t => { postMod r o t with a := a }, fl := fl.withRead ov }

/-- A word operation on A.H and its operand word; the result is a word write. -/
def wordBody (f : Bool → Word → Word → Word × FlagSet) (o : Operand) (c : Cx) (r : Regs) : Hv Eff :=
  accBody (fun sat a w => let (x, fl) := f sat (accH a) w; (extAcc x, fl)) o c r

/-- An instruction that computes A from A alone. -/
def aBody (f : Bool → Acc → Acc × FlagSet) (c : Cx) (r : Regs) : Eff :=
  let (a, fl) := f c.sat r.a
  { upd := fun t => { t with a := a }, fl := fl }

/-- An instruction that writes a part of A, or A at times; `f` gives what it makes of A as it finds it written (R85). -/
def partBody (f : Acc → (Acc → Acc) × FlagSet) (r : Regs) : Eff :=
  let (g, fl) := f r.a
  { upd := fun t => { t with a := g t.a }, fl := fl }

/-- SATA as `aluSata`: A is written where it is clamped (R96). -/
def sataPart (a : Acc) : (Acc → Acc) × FlagSet :=
  let (r, fl) := aluSata a
  (fun t => if fl.sv then r else t, fl)

/-- BFI writes A.H and A.G and leaves A.L (R102). -/
def bfiPart (p w : Nat) (a : Acc) : (Acc → Acc) × FlagSet :=
  let x := bfiWord (accH a) (accL a) p w
  (fun t => putL (extAcc x) (accL t), wordFlags x false)

/-- A word operation on A.H alone. -/
def hBody (f : Bool → Acc → Word × FlagSet) (c : Cx) (r : Regs) : Eff :=
  aBody (fun sat a => let (x, fl) := f sat a; (extAcc x, fl)) c r

/-- Logic operations: ZN, C0, V0 (R100). -/
def logic (f : Word → Word → Word) (_ : Bool) (h w : Word) : Word × FlagSet := (f h w, wordFlags (f h w) false)

def cmpBody (o : Operand) (c : Cx) (r : Regs) : Hv Eff := do
  let (w, ov) ← operand c r o
  pure { upd := postMod r o, fl := (aluCmp r.a w).withRead ov }

def divBody (o : Operand) (c : Cx) (r : Regs) : Hv Eff := do
  let (w, ov) ← operand c r o
  let (q, fl) := aluDiv c.sat (accH r.a) w
  pure { upd := fun t => { postMod r o t with a := extAcc q }, fl := fl.withRead ov, dz := w == 0 }

/-- The two factors of MUL, MAC and MSU: w and D[X] (R97). On a lane the lower-addressed of two D words competes first (R41); on a
core w is read first, so its fault is the one reported (DESIGN CHOICE: R74 orders no two causes). -/
def factors (c : Cx) (r : Regs) (o : Operand) : Hv ((Word × Bool) × Word) := do
  let xFirst := match effAddr r o with
    | some (ea, _) => Agent.isLane c.u && decide (r.x.toNat < ea.toNat)
    | none => false
  if xFirst then
    let d ← dRead c r.x
    let w ← operand c r o
    pure (w, d)
  else
    let w ← operand c r o
    let d ← dRead c r.x
    pure (w, d)

/-- MUL (keep 0), MAC (keep 1, sign 1) and MSU (keep 1, sign -1). -/
def mulBody (keep sign : Int) (o : Operand) (c : Cx) (r : Regs) : Hv Eff := do
  let ((w, ov), d) ← factors c r o
  let (a, fl) := aluMac c.sat (keep * r.a.toInt) sign w d
  pure { upd := fun t => { postMod r o t with a := a }, fl := fl.withRead ov }

/-- D[X] and D[Y] of TAP, D[X] guarded where the instruction is (R98): the lower address first (R41), also for the fault a core
reports where both fault (DESIGN CHOICE: R74 orders no two causes). -/
def tapFactors (c : Cx) (r : Regs) : Hv (Word × Word) := do
  let x' := stepX r 1
  if r.x.toNat ≤ r.y.toNat then
    let x ← dOperand c c.p.guard r.x x'
    let y ← dRead c r.y
    pure (x, y)
  else
    let y ← dRead c r.y
    let x ← dOperand c c.p.guard r.x x'
    pure (x, y)

def tapBody (c : Cx) (r : Regs) : Hv Eff := do
  let (x, y) ← tapFactors c r
  let (a, fl) := aluMac c.sat r.a.toInt 1 x y
  pure { upd := fun t => { t with a := a, x := stepX r r.ox.toInt, y := stepY r r.oy.toInt }, fl := fl }

/-- The move of TAPM to Y': refused on a lane where Y' is far (R46); an address fault on a core where Y' faults (R98). -/
def tapmMove (c : Cx) (y' : DAddr) (w : Word) : Hv (Option (DAddr × Word)) := fun s =>
  match c.u with
  | .lane n => if isFar y' then .ok (none, laneFault n.val 3 c.slot s) else .ok (some (y', w), s)
  | .core k => match coreAddr s k.val true y' with
    | .ok _ => .ok (some (y', w), s)
    | .error e => .error (e, noteCoreRefusal e y' s)

def tapmBody (c : Cx) (r : Regs) : Hv Eff := do
  let (x, y) ← tapFactors c r
  let m ← tapmMove c (stepY r r.oy.toInt) y
  let (a, fl) := aluMac c.sat r.a.toInt 1 x y
  pure { upd := fun t => { t with a := a, x := stepX r r.ox.toInt, y := stepY r r.oy.toInt }, fl := fl, move := m }

/-- The shape of format F: bits 7:5 reserved, and position + width at most 32 (R83). -/
def shapeF (pos width : Byte) : Shape :=
  { len := 3
    reasons := if 32 ≤ pos.toNat ∨ 32 ≤ width.toNat ∨ 32 < pos.toNat + width.toNat + 1 then [0x07] else [] }

def execAdd (u : Agent) (p : Prefix) (o : Operand) (s : State) : Host.Outcome State Fault Refusal :=
  runInstr u p (shapeD u p true true true o) 1 (accBody aluAdd o) s

def execSub (u : Agent) (p : Prefix) (o : Operand) (s : State) : Host.Outcome State Fault Refusal :=
  runInstr u p (shapeD u p true true true o) 1 (accBody aluSub o) s

def execCmp (u : Agent) (p : Prefix) (o : Operand) (s : State) : Host.Outcome State Fault Refusal :=
  runInstr u p (shapeD u p true true true o) 1 (cmpBody o) s

def execAnd (u : Agent) (p : Prefix) (o : Operand) (s : State) : Host.Outcome State Fault Refusal :=
  runInstr u p (shapeD u p true true true o) 1 (wordBody (logic (· &&& ·)) o) s

def execOr (u : Agent) (p : Prefix) (o : Operand) (s : State) : Host.Outcome State Fault Refusal :=
  runInstr u p (shapeD u p true true true o) 1 (wordBody (logic (· ||| ·)) o) s

def execXor (u : Agent) (p : Prefix) (o : Operand) (s : State) : Host.Outcome State Fault Refusal :=
  runInstr u p (shapeD u p true true true o) 1 (wordBody (logic (· ^^^ ·)) o) s

def execNeg (u : Agent) (p : Prefix) (s : State) : Host.Outcome State Fault Refusal :=
  runInstr u p { len := 1 } 1 (fun c r => pure (hBody (fun sat a => aluNeg sat (accH a)) c r)) s

def execAbs (u : Agent) (p : Prefix) (s : State) : Host.Outcome State Fault Refusal :=
  runInstr u p { len := 1 } 1 (fun c r => pure (hBody (fun sat a => aluAbs sat (accH a)) c r)) s

def execDiv (u : Agent) (p : Prefix) (o : Operand) (s : State) : Host.Outcome State Fault Refusal :=
  runInstr u p (shapeD u p true true true o) 17 (divBody o) s

def execRnd (u : Agent) (p : Prefix) (s : State) : Host.Outcome State Fault Refusal :=
  runInstr u p { len := 1 } 1 (fun c r => pure (aBody aluRnd c r)) s

def execSata (u : Agent) (p : Prefix) (s : State) : Host.Outcome State Fault Refusal :=
  runInstr u p { len := 1 } 1 (fun _ r => pure (partBody sataPart r)) s

def execMul (u : Agent) (p : Prefix) (o : Operand) (s : State) : Host.Outcome State Fault Refusal :=
  runInstr u p (shapeD u p true true true o) 1 (mulBody 0 1 o) s

def execMac (u : Agent) (p : Prefix) (o : Operand) (s : State) : Host.Outcome State Fault Refusal :=
  runInstr u p (shapeD u p true true true o) 1 (mulBody 1 1 o) s

def execMsu (u : Agent) (p : Prefix) (o : Operand) (s : State) : Host.Outcome State Fault Refusal :=
  runInstr u p (shapeD u p true true true o) 1 (mulBody 1 (-1) o) s

def execTap (u : Agent) (p : Prefix) (s : State) : Host.Outcome State Fault Refusal :=
  runInstr u p { len := 1, guard := true } 1 tapBody s

def execTapm (u : Agent) (p : Prefix) (s : State) : Host.Outcome State Fault Refusal :=
  runInstr u p { len := 1, guard := true } 1 tapmBody s

def execBfx (u : Agent) (p : Prefix) (pos width : Byte) (s : State) : Host.Outcome State Fault Refusal :=
  runInstr u p (shapeF pos width) 1
    (fun c r => pure (hBody (fun _ a =>
      let w := bfxWord (accH a) pos.toNat (width.toNat + 1)
      (w, wordFlags w false)) c r)) s

def execBfi (u : Agent) (p : Prefix) (pos width : Byte) (s : State) : Host.Outcome State Fault Refusal :=
  runInstr u p (shapeF pos width) 1
    (fun _ r => pure (partBody (bfiPart pos.toNat (width.toNat + 1)) r)) s

def execClz (u : Agent) (p : Prefix) (s : State) : Host.Outcome State Fault Refusal :=
  runInstr u p { len := 1 } 1
    (fun c r => pure (hBody (fun _ a =>
      let w := BitVec.ofNat 32 (clzWord (accH a))
      (w, wordFlags w false)) c r)) s

def execPerm (u : Agent) (p : Prefix) (sel : Byte) (s : State) : Host.Outcome State Fault Refusal :=
  runInstr u p { len := 2 } 1
    (fun c r => pure (hBody (fun _ a =>
      let w := permWord (accH a) sel
      (w, wordFlags w false)) c r)) s

end Sys2Proof.Machine
end

