-- ==== Sys2Proof/Machine/Binary.lean ====
section
/-! DEFINITION. The crystallizers' binary32 arithmetic (R182) and their operations on lists of words (R183, R184). A finite binary32
word is an integer in units of 2^-149. Every operation has its exact result; the rounding inside the transforms and sums, whose order
the rules leave to the engine, is a free error within the bound that one rounding of 2^-24 a multiply-add gives. -/

namespace Sys2Proof.Machine

/-! Words. -/

/-- A finite binary32 word in units of 2^-149; a subnormal is read as zero (R182). -/
def b32Int (w : Word) : Int :=
  let e := (w.extractLsb' 23 8).toNat
  let m : Int := if e = 0 then 0 else (2 ^ 23 + (w.extractLsb' 0 23).toNat : Nat) * 2 ^ (e - 1)
  if w.msb then -m else m

/-- A magnitude rounded to 24 bits, to nearest with ties to even, and the power of two of its lowest bit. -/
def round24 (n : Nat) : Nat × Nat :=
  let s := n.log2 - 23
  let q := n / 2 ^ s
  let r := 2 * (n % 2 ^ s)
  let q := if 2 ^ s < r ∨ (r = 2 ^ s ∧ 0 < s ∧ q % 2 = 1) then q + 1 else q
  if q = 2 ^ 24 then (2 ^ 23, s + 1) else (q, s)

/-- The binary32 word of `v` in units of 2^-(149 + f): rounded once, subnormals written as zero of the same sign (R182). -/
def b32Round (v : Int) (f : Nat) : Word :=
  let n := v.natAbs
  let sign : Nat := if v < 0 then 2 ^ 31 else 0
  if n = 0 then 0
  else
    let (m, s) := round24 (n * 2 ^ 24)
    let e : Int := (s : Int) - 24 - f + 1
    let e := if m < 2 ^ 23 then 0 else e
    if e < 1 then BitVec.ofNat 32 sign
    else if 254 < e then BitVec.ofNat 32 (sign + 255 * 2 ^ 23)
    else BitVec.ofNat 32 (sign + e.toNat * 2 ^ 23 + (m - 2 ^ 23))

/-- A Q1.31 word as binary32 (R182). -/
def q31ToB32 (w : Word) : Word := b32Round (w.toInt * 2 ^ 118) 0

/-- A binary32 word as Q1.31, ties toward plus infinity, and whether it saturated (R182). -/
def b32ToQ31 (w : Word) : Word × Bool :=
  let v := (b32Int w + 2 ^ 117) / 2 ^ 118
  if v > 0x7FFFFFFF then (0x7FFFFFFF, true)
  else if v < -0x80000000 then (0x80000000, true)
  else (BitVec.ofInt 32 v, false)

def b32Add (a b : Word) : Word := b32Round (b32Int a + b32Int b) 0
def b32Mul (a b : Word) : Word := b32Round (b32Int a * b32Int b) 149

/-! Operations. A complex number is a pair of integers. -/

/-- The word at place `i` of a result: `v` in units of 2^-(149 + f), with a free error of at most `bound`. -/
def nearWord (args : List Word) (bound : Nat) (f i : Nat) (v : Int) : Word :=
  b32Round (v + (Config.engineWord args i).toInt * bound / 2 ^ 31) f

/-- The cosine and sine of `j` of `n` parts of a turn, in units of 2^-120. -/
def turn (j n : Nat) : Int × Int :=
  let r := 4 * j % n
  let at' (k : Nat) : Int := sinTerms (4175892906503776358826876457663557747 * k / (2 * n)) 32 0
    (4175892906503776358826876457663557747 * k / (2 * n) : Nat)
  let s := at' r
  let c := at' (n - r)
  match 4 * j / n % 4 with
  | 0 => (c, s)
  | 1 => (-s, c)
  | 2 => (-c, -s)
  | _ => (s, -c)

def sumInt (l : List Int) : Int := l.foldl (· + ·) 0
def sumAbs (l : List Int) : Nat := l.foldl (fun n x => n + x.natAbs) 0

/-- Term `k` of a transform of `n` points, in 2^-120 of the units of its points; `sign` is -1 for a forward transform. -/
def dftTerm (xs : List (Int × Int)) (n : Nat) (sign : Int) (k : Nat) : Int × Int :=
  let ts := xs.zipIdx.map fun x =>
    let (c, s) := turn (x.2 * k % n) n
    (x.1.1 * c - sign * x.1.2 * s, x.1.2 * c + sign * x.1.1 * s)
  (sumInt (ts.map (·.1)), sumInt (ts.map (·.2)))

/-- The error bound of a transform of `n` points whose magnitudes sum to `m`: eight roundings of 2^-24 in each of its stages. -/
def dftBound (n m : Nat) : Nat := m * 2 ^ 120 * (8 * (n.log2 + 2)) / 2 ^ 24

/-- Packed spectra hold DC and Nyquist in bin 0; full ones hold every bin (R183). -/
def packBins (uni : Bool) (bins : List (Int × Int)) : List Int :=
  if uni then bins.flatMap fun x => [x.1, x.2]
  else
    let s := bins.length / 2
    ((bins.getD 0 (0, 0)).1 :: (bins.getD s (0, 0)).1 :: ((bins.take s).drop 1).flatMap fun x => [x.1, x.2])

/-- The complex bins that a spectrum's words stand for, in units of 2^-149. -/
def binsOf : List Word → List (Int × Int)
  | a :: b :: l => (b32Int a, b32Int b) :: binsOf l
  | _ => []

/-- All bins of the transform of a real sequence from its packed ones. -/
def spreadBins (uni : Bool) (bins : List (Int × Int)) : List (Int × Int) :=
  if uni then bins
  else
    let z := bins.getD 0 (0, 0)
    let up := bins.drop 1
    [(z.1, 0)] ++ up ++ [(z.2, 0)] ++ up.reverse.map fun x => (x.1, -x.2)

/-- FWD: the spectrum of a window of samples, not scaled (R182, R184). -/
def cxFwd (uni : Bool) (xs : List Word) : List Word :=
  let n := xs.length
  let ps := xs.map fun w => (b32Int w, (0 : Int))
  let bins := packBins uni ((List.range n).map (dftTerm ps n (-1)))
  let args := 1 :: BitVec.ofNat 32 uni.toNat :: xs
  bins.zipIdx.map fun x => nearWord args (dftBound n (sumAbs (ps.map (·.1)))) 120 x.2 x.1

/-- INV: the samples of a spectrum, scaled by 1 / N (R182, R184). -/
def cxInv (uni : Bool) (ws : List Word) : List Word :=
  let ps := spreadBins uni (binsOf ws)
  let n := ps.length
  let args := 2 :: BitVec.ofNat 32 uni.toNat :: ws
  let m := sumAbs (ps.map (·.1)) + sumAbs (ps.map (·.2))
  (List.range n).map fun i => nearWord args (dftBound n m) (120 + n.log2) i (dftTerm ps n 1 i).1

/-- The product of bin `k` of two spectra: bin 0 of a packed one holds two real numbers (R183). -/
def binMul (uni : Bool) (k : Nat) (a b : Int × Int) : Int × Int :=
  if !uni && k == 0 then (a.1 * b.1, a.2 * b.2) else (a.1 * b.1 - a.2 * b.2, a.1 * b.2 + a.2 * b.1)

/-- SMAC: the sum of products of pairs of spectra, plus an addend (R184). -/
def cxSmac (uni : Bool) (pairs : List (List Word × List Word)) (add : List Word) (len : Nat) : List Word :=
  let bs := pairs.map fun x => ((binsOf x.1).zip (binsOf x.2)).zipIdx.map fun y => binMul uni y.2 y.1.1 y.1.2
  let part (re : Bool) (k : Nat) : List Int :=
    (bs.map fun l => let b := l.getD k (0, 0); if re then b.1 else b.2) ++
      [b32Int (add.getD (2 * k + (if re then 0 else 1)) 0) * 2 ^ 149]
  let args := 3 :: BitVec.ofNat 32 uni.toNat :: ((pairs.flatMap fun x => x.1 ++ x.2) ++ add)
  (List.range len).map fun i =>
    let ts := part (i % 2 == 0) (i / 2)
    let zs := part (i % 2 != 0) (i / 2)
    nearWord args ((sumAbs ts + sumAbs zs) * (2 * pairs.length + 3) / 2 ^ 24) 149 i (sumInt ts)

/-- The heart of TAIL (R189): the history spectrum of its window, and the last S samples of the inverse transform of the sum of
partitions times history. `hist p` is the spectrum that meets partition p, counted back from the new one. -/
def cxTail (uni : Bool) (carry block : List Word) (parts : List (List Word)) (hist : Nat → List Word) : List Word × List Word :=
  let h := cxFwd uni (carry ++ block)
  let pairs := parts.zipIdx.map fun x => (x.1, if x.2 = 0 then h else hist x.2)
  let y := cxSmac uni pairs [] h.length
  (h, (cxInv uni y).drop carry.length)

end Sys2Proof.Machine
end

