-- ==== Sys2Proof/Machine/Splice.lean ====
section
/-! DEFINITION. Splice requests and cancels, the copy of flip-and-copy, and the checks of glide entries and guard bitmaps
(R108 to R128). The flips and glide steps themselves are part of a lane's trigger (Lanes). -/

namespace Sys2Proof.Machine

/-- Abort codes of R293. -/
def abNone : Nat := 0
def abGuard : Nat := 0x08000020
def abValue : Nat := 0x06090030
def abState : Nat := 0x08000022
def abBusy : Nat := 0x08000000

/-- The lanes of a staged mask of path `p`. -/
def maskLanes (s : State) (p : Nat) : List Nat :=
  (List.range 64).filter fun n =>
    if n < 32 then (s.rd (Obj.splMaskLo p)).testBit n else (s.rd (Obj.splMaskHi p)).testBit (n - 32)

/-- A refused SPL_CTRL write: its status and the count (R109, R110). -/
def splRefuse (p status : Nat) (s : State) : State := (s.wr (Obj.splResult p) status).inc Obj.splRefused

/-- A guard refusal raises 0x9004 (R109). -/
def splGuardRefuse (p : Nat) (s : State) : State × Nat :=
  (raise 0x9004 p 0x2800 4 (splRefuse p 0x9004 s), abGuard)

/-- The first refusal of R110 that applies to a splice request, or 0. -/
def spliceRefusal (s : State) (p : Nat) (atSlate copy : Bool) : Nat :=
  let lanes := maskLanes s p
  if lanes.isEmpty then 0x4201
  else if lanes.any fun n => laneSt s n == laneUnloaded || laneSt s n == laneLoading || decide (64 ≤ laneGroup s n) then 0x4202
  else if atSlate && s.rd (Obj.splSlate p) / 2 ^ 56 != s.slate.toNat / 2 ^ 56 then 0x4203
  else if lanes.any fun n => (pendingSplice s n).isSome || (s.lane n).copy.isSome then 0x4204
  else if 8 ≤ (s.splices.filter fun r => !r.waiting.isEmpty).length then 0x4205
  else if copy && !admits s then 0x4206
  else 0

/-- An accepted request (R110, R113). -/
def spliceAccept (p seq : Nat) (atSlate copy : Bool) (s : State) : State :=
  let target : Slate := BitVec.ofNat 64 (s.rd (Obj.splSlate p))
  let r : Splice :=
    { id := s.spliceIds, seq := BitVec.ofNat 16 seq, slate := if atSlate then some target else none
      late := atSlate && decide (target.toNat < s.slate.toNat), copy := copy, waiting := maskLanes s p, copying := []
      removed := false, first := none, accepted := s.slate }
  let s := { s with splices := s.splices ++ [r], spliceIds := s.spliceIds + 1 }
  if copy then
    let (h, s) := issueHandle (.splice r.id) p s
    (s.wr (Obj.splResult p) 0).wr (Obj.splHandle p) h.word
  else (s.wr (Obj.splResult p) 0).wr (Obj.splHandle p) 0

/-- A splice request (R110). -/
def spliceRequest (p seq : Nat) (atSlate copy : Bool) (s : State) : State × Nat :=
  let r := spliceRefusal s p atSlate copy
  if r = 0 then (spliceAccept p seq atSlate copy s, abNone)
  else (splRefuse p r (if r = 0x4206 then s.inc Obj.handlesRefused else s), abState)

/-- A cancel of pending flips (R110, R120). -/
def spliceCancelMask (p : Nat) (s : State) : State × Nat :=
  let lanes := maskLanes s p
  let hit := lanes.filter fun n => (pendingSplice s n).isSome
  if lanes.isEmpty then (splRefuse p 0x4201 s, abState)
  else if hit.isEmpty then (splRefuse p 0x4207 s, abState)
  else (((forList hit removeFromSplice s).wr (Obj.splResult p) 0).wr (Obj.splHandle p) 0, abNone)

/-- A write of SPL_CTRL with a pair, by path `p` (R109): the pair, the reserved encodings, the mask, then the command. -/
def writeSplCtrl (p pair : Nat) (s : State) : State × Nat :=
  let v := guardVal pair
  let cmd := v / 16 % 16
  let mode := v % 4
  if !guardGood pair then splGuardRefuse p s
  else if (cmd ≠ 1 ∧ cmd ≠ 2) ∨ 2 ≤ mode then (s, abValue)
  else if !guardGood (s.rd (Obj.splMaskLo p)) || !guardGood (s.rd (Obj.splMaskHi p)) then splGuardRefuse p s
  else if cmd = 2 then spliceCancelMask p s
  else spliceRequest p (v / 2 ^ 16) (v.testBit 2) (mode == 1) s

/-- The value of SPL_CTRL that a request or cancel writes (R109). -/
def splWord (seq : BitVec 16) (cmd : Nat) (atSlate : Bool) (mode : Nat) : Nat :=
  seq.toNat * 2 ^ 16 + cmd * 16 + (if atSlate then 4 else 0) + mode

/-! The copy (R117 to R119, R128). -/

/-- One offset of a copy: the word, or the marked pair as a unit, unless a fabric write made since the flip is kept. -/
def copyStep (n : Nat) (c : Copy) (s : State) : State :=
  let live := liveSide s n
  let pair := marked s n c.next
  let step := if pair then 2 else 1
  let put (off : Nat) (s : State) : State := s.setMemWord (sideBase n (1 - live) + 4 * off) (sideWord s n live off)
  let s := if c.written.contains c.next then s else if pair then put (c.next + 1) (put c.next s) else put c.next s
  let next := c.next + step
  let s := s.wr (Obj.copyWords n) (min next 8192)
  if next < 8192 then s.setLane n { s.lane n with copy := some { next := next, written := c.written.filter (next ≤ ·) } }
  else
    let s := s.setLane n { s.lane n with copy := none }
    match s.splices.find? fun r => r.copying.contains n with
    | none => s
    | some r => settleSplice r.id (putSplice { r with copying := r.copying.filter (· != n) } s)

/-- SPLICE_COPY_WORD. -/
def execSpliceCopyWord (n : Fin 64) (s : State) : Host.Outcome State Fault Refusal :=
  clocked (fun s => match (s.lane n.val).copy with
    | some c => copyStep n.val c s
    | none => s) s

/-! Glide entries and guard bitmaps (R122, R126). -/

/-- Whether entry `k` of lane `n`'s glide table accepts a value: an enabled entry names no offset of another enabled entry
and no complement word of a marked pair. -/
def glideGood (s : State) (n k v : Nat) : Bool :=
  let off := v % 0x2000
  v / 0x10000 == 0 ||
  (!((List.range 64).any fun j => j != k && s.rd (Obj.glide n j) / 0x10000 != 0 && s.rd (Obj.glide n j) % 0x2000 == off) &&
    !(decide (1 ≤ off) && marked s n (off - 1)))

/-- Whether a bitmap holds no reserved encoding against the glide entries of lane `n`. -/
def bitmapGood (s : State) (n b : Nat) : Bool :=
  !b.testBit 8191 && b &&& (b / 2) == 0 &&
  (glideEntries s n).all fun e => e.1 == 0 || !b.testBit (e.1 - 1)

/-- A write of a guard bitmap of 1,024 bytes. -/
def writeBitmap (n b : Nat) (s : State) : State × Nat :=
  if !bitmapGood s n b then (s, abValue)
  else if laneSt s n ≠ laneUnloaded ∧ laneSt s n ≠ laneStopped then (s, abState)
  else (s.wr (Obj.guardBitmap n) b, abNone)

end Sys2Proof.Machine
end

