-- ==== Sys2Proof/Machine/Sched.lean ====
section
/-! DEFINITION. The sluice's enables and clears (R230 to R234) and its dispatch (R217 to R219, R228). -/

namespace Sys2Proof.Machine

/-! Node descriptors. -/

/-- Word `k` of a node's descriptor at its home (R210, R211); a home that the fabric refuses reads as zero (R250, R261). -/
def homeWord (s : State) (slot k : Nat) : Word :=
  let a := farByte (s.rd (Obj.nodeHome slot) + k)
  match fabCheck masterSluice false a s with
  | .deny _ => 0
  | _ => s.memWord a

/-- A word that the sluice or an engine writes back into a node's home. -/
def putHome (slot k : Nat) (w : Word) (s : State) : State :=
  let a := farByte (s.rd (Obj.nodeHome slot) + k)
  match fabCheck masterSluice true a s with
  | .deny _ => s
  | _ => s.setMemWord a w

/-- A header word 0 with SLOT filled in (R210). -/
def withSlot (w : Word) (slot : Nat) : Word := (w &&& 0xFFFFFE00) ||| BitVec.ofNat 32 slot

/-- Bind the ends that a header names (R209). -/
def bindNode (slot : Nat) (h : List Word) (s : State) : State :=
  let s := forList (hdrIns h) (fun e s => s.setEdge e { s.edge e with cons := endNode slot }) s
  forList (hdrOuts h) (fun e s => s.setEdge e { s.edge e with prod := endNode slot }) s

/-- The edges that a header names have the ends it binds free. -/
def endsFree (s : State) (h : List Word) : Bool :=
  (hdrIns h).all (fun e => (s.edge e).cons == 0) && (hdrOuts h).all (fun e => (s.edge e).prod == 0) &&
  (hdrIns h).eraseDups.length == (hdrIns h).length && (hdrOuts h).eraseDups.length == (hdrOuts h).length

/-- Put a node into WAITING with its header bound, and test it (R214). -/
def startNode (slot : Nat) (h : List Word) (s : State) : State :=
  readyScan ((bindNode slot h (s.setNode slot { ({} : Node) with on := true, hdr := h })).wr (Obj.nodeState slot) 1)

/-- Release the reservations of a firing that has not been dispatched (R214). -/
def releaseFiring (f : Firing) (s : State) : State :=
  let ins := hdrIns (s.node f.slot).hdr
  let s := forList (ins.zip f.inPos) (fun x s => s.setEdge x.1 { s.edge x.1 with
    tokens := (s.edge x.1).tokens.map fun t => if t.pos = x.2 then { t with reserved := false } else t }) s
  freeOutputs f s

/-- Whether a node has a firing STAGED or RUNNING. -/
def inFlight (s : State) (slot : Nat) : Bool := s.firings.any fun f => f.slot == slot && f.state != 2

/-- Disable a node (R214): a firing in READY is released at once, and the node enters OFF with the last of those in flight. -/
def stopNode (slot : Nat) (s : State) : State :=
  if !(s.node slot).on then s
  else if inFlight s slot then
    let gone (f : Firing) : Bool := f.slot == slot && f.state == 2
    let s := forList (s.firings.filter fun f => gone f && f.rung == 0) releaseFiring s
    let s := { s with firings := s.firings.filter fun f => !gone f }
    let s := if s.rd (Obj.nodeState slot) = 2 then s.wr (Obj.nodeState slot) 1 else s
    readyScan (s.setNode slot { s.node slot with closing := true })
  else readyScan (nodeOff slot (forList (s.firings.filter fun f => f.slot == slot && f.rung == 0) releaseFiring s))

/-- The status that refuses a node's enable, or 0 (R231). -/
def nodeRefusal (s : State) (h : List Word) : Nat :=
  if !headerGood true h then 0x6101
  else if (hdrIns h ++ hdrOuts h).any fun e => !(s.edge e).on then 0x6102
  else if !endsFree s h then 0x6103
  else 0

/-- A write of NODE_ENABLE of slot `slot` (R214, R231). -/
def writeNodeEnable (slot v : Nat) (s : State) : State × Nat :=
  if slot < 288 then (s, abState)
  else if v = 0 then (stopNode slot (s.wr (Obj.nodeEnable slot) 0), abNone)
  else if s.rd (Obj.nodeState slot) = 0 then
    let h := (List.range 5).map (homeWord s slot)
    let h := withSlot (h.headD 0) slot :: h.tail
    let r := nodeRefusal s h
    if r ≠ 0 then (s.wr (Obj.nodeResult slot) r, abState)
    else
      let s := putHome slot 0 (h.headD 0) s
      (startNode slot h ((s.wr (Obj.nodeResult slot) 0).wr (Obj.nodeEnable slot) 1), abNone)
  else
    let s := (s.wr (Obj.nodeResult slot) 0).wr (Obj.nodeEnable slot) 1
    let s := s.setNode slot { s.node slot with closing := false }
    if s.rd (Obj.nodeState slot) = 5 then
      (readyScan ((s.setNode slot { s.node slot with faulted := false }).wr (Obj.nodeState slot) 1), abNone)
    else (s, abNone)

/-- NODE_CLEAR. -/
def nodeClearBits (slot v : Nat) (s : State) : State :=
  if v.testBit 0 then
    zeroRegs [Obj.nodeFirings slot, Obj.nodeFails slot, Obj.nodeVoids slot, Obj.nodeReruns slot] s
  else s

/-! Edges (R232). -/

/-- Every position of an edge lies within one shared pan group, or within the DRAM of the variant (R232, R264). -/
def edgePlaced (s : State) (e : Nat) : Bool :=
  let base := s.rd (Obj.edgeBase e)
  let n := s.rd (Obj.edgePosBytes e)
  (List.range (s.rd (Obj.edgeDepth e))).all fun p =>
    let a := base + p * n
    (decide (0x1000000 ≤ a) && decide (a + n ≤ 0x2000000) && a / 0x200000 == (a + n - 1) / 0x200000) ||
    (decide (0x104000000 ≤ a) && decide (a + n ≤ 0x100000000 + dramSize))

/-- A write of EDGE_ENABLE. -/
def writeEdgeEnable (e v : Nat) (s : State) : State × Nat :=
  let ed := s.edge e
  if v = 0 then
    if ed.on && (ed.prod != 0 || ed.cons != 0) then (s.wr (Obj.edgeResult e) 0x6113, abState)
    else (((s.setEdge e {}).wr (Obj.edgeEnable e) 0).wr (Obj.edgeResult e) 0, abNone)
  else if ed.on then (s.wr (Obj.edgeEnable e) 1, abNone)
  else if !edgePlaced s e then (s.wr (Obj.edgeResult e) 0x6111, abState)
  else if 4096 < tokenSlots s + s.rd (Obj.edgeDepth e) then (s.wr (Obj.edgeResult e) 0x6112, abState)
  else
    let s := ((s.wr (Obj.edgeEnable e) 1).wr (Obj.edgeResult e) 0).wr (Obj.edgePosted e) 0
    (readyScan (s.setEdge e { ({} : Edge) with on := true }), abNone)

/-! Ring pairs (R223, R225, R234). -/

def rpSendWords (s : State) (r : Nat) : Nat := (ringK s r + 2) * ringB s r * ringC s r
def rpReturnWords (s : State) (r : Nat) : Nat := ringK s r * ringB s r * ringC s r

/-- The status that refuses a ring pair's enable, or 0. -/
def rpRefusal (s : State) (r : Nat) : Nat :=
  let se := s.rd (Obj.rpSendEdge r)
  let re := s.rd (Obj.rpReturnEdge r)
  let free (e : Nat) : Bool := decide (e < 1024) && !(s.edge e).on && (s.edge e).prod == 0 && (s.edge e).cons == 0
  if !inOneGroup (s.rd (Obj.rpSendAddr r)) (rpSendWords s r) || !inOneGroup (s.rd (Obj.rpReturnAddr r)) (rpReturnWords s r) then
    0x6131
  else if !free se || !free re || se == re then 0x6132
  else if 4096 < tokenSlots s + (2 * ringK s r + 2) then 0x6133
  else 0

/-- Enable a ring pair: its edges, and K return blocks of zero that are valid. -/
def enableRing (r : Nat) (s : State) : State :=
  let k := ringK s r
  let pos := 4 * ringB s r * ringC s r
  let send := s.rd (Obj.rpSendAddr r)
  let ret := s.rd (Obj.rpReturnAddr r)
  let s := ownEdge (s.rd (Obj.rpSendEdge r)) (farByte send) (k + 2) pos true (endRing r) s
  let s := ownEdge (s.rd (Obj.rpReturnEdge r)) (farByte ret) k pos false (endRing r) s
  let s := { s with mem := clearMem s.mem (farByte ret) (farByte ret + 4 * rpReturnWords s r) }
  s.setRing r { ({} : RingPair) with on := true, ret := (List.range k).map fun p => ⟨p, true, false, false, false⟩ }

/-- A write of RP_ENABLE. -/
def writeRpEnable (r v : Nat) (s : State) : State × Nat :=
  let on := (s.ring r).on
  if v = 0 then
    if !on then (s.wr (Obj.rpEnable r) 0, abNone)
    else
      let se := s.rd (Obj.rpSendEdge r)
      let re := s.rd (Obj.rpReturnEdge r)
      let nodeEnd (c : Nat) : Bool := c != 0 && decide (c < 1000)
      if nodeEnd (s.edge se).cons || nodeEnd (s.edge re).prod then (s.wr (Obj.rpResult r) 0x6113, abState)
      else
        let s := s.setEdge se { s.edge se with prod := 0 }
        let s := s.setEdge re { s.edge re with cons := 0 }
        (retireEdge re (retireEdge se ((s.setRing r {}).wr (Obj.rpEnable r) 0)), abNone)
  else if on then (s, abNone)
  else
    let x := rpRefusal s r
    if x ≠ 0 then (s.wr (Obj.rpResult r) x, abState)
    else (readyScan (enableRing r ((s.wr (Obj.rpResult r) 0).wr (Obj.rpEnable r) 1)), abNone)

/-! Clears (R230). -/

/-- SCH_CLEAR; the counters are those of the scheduler as a whole, its nodes, edges and ring pairs. -/
def schClearBits (v : Nat) (s : State) : State :=
  let s := if v.testBit 0 then clearSticky 0x6001 5 [Obj.schFaults] [Obj.schFaults] s else s
  if v.testBit 1 then
    let s := zeroRegs [Obj.schRefused, Obj.schHoldOver] s
    let s := forUpto 512 (fun i => nodeClearBits i 1) s
    let s := forUpto 1024 (fun e s => s.wr (Obj.edgePosted e) 0) s
    forUpto 256 (fun r s => (s.wr (Obj.rpSendLate r) 0).wr (Obj.rpReturnLate r) 0) s
  else s

/-! Dispatch. -/

/-- The operation block of a node's home as it stands (R211). -/
def opBlock (s : State) (slot : Nat) : List Word := (List.range 8).map fun k => homeWord s slot (8 + k)

/-- OP_CTRL fields (R183). -/
def opEngine (ops : List Word) : Nat := ((ops.headD 0).extractLsb' 4 4).toNat
def opCode (ops : List Word) : Nat := ((ops.headD 0).extractLsb' 0 4).toNat

/-- Whether a firing goes to the ASRC engine. A reserved ENGINE code goes to a crystallizer, which refuses it (R185). -/
def firingAsrc (s : State) (f : Firing) : Bool :=
  if f.slot < 256 then false
  else if f.slot < 272 then true
  else opEngine (opBlock s f.slot) == 1

/-- The firings that an engine holds. -/
def engineLoad (s : State) (holder : Nat) : Nat := (s.firings.filter fun f => f.holder == holder && f.state != 2).length

/-- The engine a firing goes to (R219): of its kind, with a free position, the fewest occupied, the lowest number. -/
def engineFor (s : State) (f : Firing) : Option Nat :=
  if firingAsrc s f then (if engineLoad s 0x20 < 2 then some 0x20 else none)
  else (List.range 16).foldl (fun best e =>
    let n := engineLoad s (0x10 + e)
    match best with
    | none => if n < 2 then some (0x10 + e) else none
    | some b => if n < engineLoad s b then some (0x10 + e) else some b) none

/-- Whether the node of a firing is class E. -/
def firingClassE (s : State) (f : Firing) : Bool := f.rung != 0 || (s.node f.slot).cls

def putFiring (f : Firing) (s : State) : State :=
  { s with firings := s.firings.map fun g => if sameFiring g f then f else g }

/-- Whether the sluice dispatches (R217, R346): its clocks run, and no entry into NAP or DORMANT has stopped it. -/
def dispatches (s : State) : Bool := awake s && !quiet s

/-- Whether a firing may be dispatched: the node has not failed (R213, R221). -/
def mayDispatch (s : State) (f : Firing) : Bool := dispatches s && !(s.node f.slot).faulted

/-- CLASS_E_PREFETCH. -/
def execClassEPrefetch (s : State) : Host.Outcome State Fault Refusal :=
  match pickFiring (fun f => mayDispatch s f && firingClassE s f && (engineFor s f).isSome) s with
  | none => .next s
  | some f =>
    match engineFor s f with
    | none => .next s
    | some h =>
      let st := if engineLoad s h = 0 then 4 else 3
      let ops := if 272 ≤ f.slot then opBlock s f.slot else f.ops
      let (f, s) := refreshVoid f s
      let s := putFiring { f with state := st, holder := h, ops := ops, done := false, status := 0 } s
      let s := if f.rung = 0 then s.wr (Obj.nodeState f.slot) st else s
      .next (if 0x10 ≤ h ∧ h < 0x20 then s.wr (Obj.cxState (h - 0x10)) 1 else s)

/-- The cores that may take a firing: blocked in GETW, named in CORES, accepting its priority (R218). -/
def eligibleCores (s : State) (f : Firing) : List Nat :=
  (List.range 8).filter fun c => s.rd (Obj.coreState c) == 2 && (s.node f.slot).cores.getLsbD c &&
    (s.core c).accept.getLsbD f.prio

/-- Of these, the core that has waited longest; ties go to the lower number. -/
def longestWaiting (s : State) (cs : List Nat) : Option Nat :=
  cs.foldl (fun best c => match best with
    | none => some c
    | some b => if (s.core c).waitSince < (s.core b).waitSince then some c else some b) none

/-- Four bits per position, edge 0 lowest. -/
def packPos (l : List Nat) : Nat := l.foldr (fun p n => p % 16 + 16 * n) 0

/-- The copy of a descriptor that the sluice hands over (R210, R211). -/
def handedWords (s : State) (f : Firing) : List Word :=
  let h := (s.node f.slot).hdr
  h ++ [BitVec.ofNat 32 f.index,
    BitVec.ofNat 32 (packPos f.outPos * 0x10000 + packPos (f.inPos.map fun p => p.getD 0)),
    BitVec.ofNat 32 (f.void * 16 + f.late)] ++ opBlock s f.slot

/-- Hand a firing to core `c`: the mailbox, GETW's destination, and GETW retires, without a loop-end action (R218, R245, R246). -/
def handOver (f : Firing) (c : Nat) (s : State) : State :=
  let s := forList ((handedWords s f).zipIdx) (fun x s =>
    s.setMemWord (0x3000000 + 0x40000 * c + 0x20000 + 4 * (0x3FF0 + x.2)) x.1) s
  let s := (putFiring { f with state := 4, holder := c } s).wr (Obj.nodeState f.slot) 4
  let x := s.core c
  let s := s.setCore c { x with node := some f.slot, regs := writeReg false x.getwReg.val 0x803FF0 x.regs }
  coreFinish (Fin.ofNat 8 c) x.getwLen { xfer := true } (s.wr (Obj.coreState c) 1)

/-- CLASS_S_HANDOVER. -/
def execClassSHandover (s : State) : Host.Outcome State Fault Refusal :=
  match pickFiring (fun f => mayDispatch s f && !firingClassE s f && !(eligibleCores s f).isEmpty) s with
  | none => .next s
  | some f =>
    match longestWaiting s (eligibleCores s f) with
    | none => .next s
    | some c =>
      let (f, s) := refreshVoid f s
      .next (handOver f c s)

/-- SCH_DONE, SCH_POST and SCH_TAKE as writes of their registers by a core that runs (R218). -/
def execSchDone (c : Fin 8) (w : Word) (s : State) : Host.Outcome State Fault Refusal :=
  .next (if coreRuns s c.val then opSchDone c.val w s else s)
def execSchPost (c : Fin 8) (w : Word) (s : State) : Host.Outcome State Fault Refusal :=
  .next (if coreRuns s c.val then opSchPost c.val w s else s)
def execSchTake (c : Fin 8) (w : Word) (s : State) : Host.Outcome State Fault Refusal :=
  .next (if coreRuns s c.val then opSchTake c.val w s else s)

end Sys2Proof.Machine
end

