-- ==== Sys2Proof/Machine/Engines.lean ====
section
/-! DEFINITION. The class E engines: what their accesses may reach, and the operation blocks of a graph's own crystallizer nodes
(R181 to R185, R212, R250). The arithmetic is that of `Machine/Binary.lean`. -/

namespace Sys2Proof.Machine

/-! Accesses of an engine (R212, R250). -/

/-- Check one access of a firing's engine under owner code `own`: the positions of the firing ignore owners (R212). -/
def engCheck (s : State) (f : Firing) (own : Nat) (write : Bool) (a : Nat) : FabResult :=
  fabCheck (if inFiring s f a then masterSluice else own) write a s

/-- The first beat of a range of `n` bytes that a check does not allow, with its address. -/
def firstDenied (check : Nat → FabResult) (a n : Nat) : Option (FabResult × Nat) :=
  ((List.range ((n + 63) / 64)).map fun k => (check (a + 64 * k), a + 64 * k)).find? fun r => r.1 != .ok

/-- Check the beats of a range of `n` bytes for a firing's engine. -/
def engCheckRange (s : State) (f : Firing) (own : Nat) (write : Bool) (a n : Nat) : Option (FabResult × Nat) :=
  firstDenied (engCheck s f own write) a n

/-- The words of a source; every word of a late input block reads as zero (R224). -/
def engRead (s : State) (f : Firing) (a n : Nat) : List Word :=
  (List.range n).map fun k => if (lateIns s f).any (inRange (a + 4 * k)) then 0 else fabRead s (a + 4 * k)

/-- Write the words of a destination; those that the firing may no longer write to a return ring are dropped (R215, R225). -/
def engWrite (f : Firing) (unit a : Nat) (ws : List Word) (s : State) : State :=
  forList (ws.zipIdx) (fun x s =>
    let b := a + 4 * x.2
    if retDrops s f b then s else fabWrite unit [(b, x.1)] s) s

/-- The firing that an engine runs and has not finished. -/
def runningOn (s : State) (holder : Nat) : Option Firing :=
  if awake s then s.firings.find? fun f => f.holder == holder && f.state == 4 && !f.done else none

/-- The operation of a firing ends with a status; FIRING_COMPLETE follows. -/
def finishOp (f : Firing) (status : Nat) (s : State) : State :=
  putFiring { f with done := true, status := BitVec.ofNat 16 status } s

/-- The access of a firing's engine that is refused or held back: the state after it, if any. -/
def engDenied (f : Firing) (unit : Nat) (s : State) : List (Option (FabResult × Nat)) → Option State
  | [] => none
  | none :: l => engDenied f unit s l
  | some (.ok, _) :: l => engDenied f unit s l
  | some (.wait, _) :: _ => some s
  | some (.deny code, a) :: _ => some (finishOp f code (fabReport code unit 0 a s))

/-- Run `run` on what the reads of the ranges `rs` leave: a read that is not corrected fails the firing with status 0x8003 (R267). -/
def engReads (f : Firing) (unit : Nat) (rs : List (Nat × Nat)) (run : State → State) (s : State) : State :=
  if readFails s rs then finishOp f 0x8003 (noteReads unit rs s) else run (noteReads unit rs s)

/-- Run `run` where the reads and writes of a firing, as byte ranges, are all allowed (R250, R253, R261) and its reads are good. -/
def engRun (f : Firing) (own : Nat) (reads writes : List (Nat × Nat)) (run : State → State) (s : State) : State :=
  match engDenied f own s (reads.map (fun r => engCheckRange s f own false r.1 r.2) ++
      writes.map (fun r => engCheckRange s f own true r.1 r.2)) with
  | some s => s
  | none => engReads f own reads run s

/-! Operation blocks (R183 to R185). -/

def opLog2S (ops : List Word) : Nat := ((ops.headD 0).extractLsb' 16 4).toNat
def opRung (ops : List Word) : Nat := ((ops.headD 0).extractLsb' 20 4).toNat
def opUni (ops : List Word) : Bool := (ops.headD 0).getLsbD 11
def opKeep (ops : List Word) : Bool := (ops.headD 0).getLsbD 10
def opW (ops : List Word) (k : Nat) : Nat := (ops.getD k 0).toNat

/-- Whether an operation block may run on a crystallizer (R185). A reserved bit is ignored (R10). -/
def opGood (ops : List Word) : Bool :=
  let zero (l : List Nat) : Bool := l.all fun k => opW ops k == 0
  decide (3 ≤ opLog2S ops) && decide (opLog2S ops ≤ 12) && opEngine ops == 0 &&
  match opCode ops with
  | 1 => opRung ops == 0 && zero [3, 4, 5, 6, 7]
  | 2 => opRung ops == 0 && zero [3, 4, 5, 6, 7]
  | 3 => opRung ops == 0 && zero [6, 7] && decide (1 ≤ opW ops 5) && decide (opW ops 5 ≤ 1024)
  | 4 => decide (opRung ops ≤ 7) && decide (1 ≤ opW ops 5 / 0x10000) && decide (opW ops 5 / 0x10000 ≤ 1024) &&
    (opRung ops == 0 || opW ops 6 == 0)
  | _ => false

/-- Words of a spectrum of block size `n` (R183). -/
def specWords (uni : Bool) (n : Nat) : Nat := if uni then 4 * n else 2 * n

/-- Lists of `n` words each, `k` of them. -/
def chunks (n k : Nat) (ws : List Word) : List (List Word) := (List.range k).map fun p => (ws.drop (p * n)).take n

/-- Source samples as binary32 and destination samples from binary32, by SFMT and DFMT (R182, R183). -/
def opIn (ops ws : List Word) : List Word := if (ops.headD 0).getLsbD 9 then ws else ws.map q31ToB32
def opOut (ops ws : List Word) : List Word := if (ops.headD 0).getLsbD 8 then ws else ws.map fun w => (b32ToQ31 w).1

/-- NPART and HPOS of a TAIL. -/
def opParts (ops : List Word) : Nat := opW ops 5 / 0x10000
def opHpos (ops : List Word) : Nat := opW ops 5 % 0x10000

/-- The sources of an operation, as fabric byte addresses and words (R183, R184). -/
def opSources (ops : List Word) : List (Nat × Nat) :=
  let n := 2 ^ opLog2S ops
  let sp := specWords (opUni ops) n
  let a (k : Nat) : Nat := 64 * opW ops k
  match opCode ops with
  | 1 => [(a 1, 2 * n)]
  | 2 => [(a 1, sp)]
  | 3 => [(a 1, opW ops 5 * sp), (a 2, opW ops 5 * sp)] ++ (if opW ops 3 = 0 then [] else [(a 3, sp)])
  | _ => [(a 1, opParts ops * sp), (a 2, opParts ops * sp), (a 3, n)]

/-- The destination of an operation and the words written there. -/
def opDest (ops : List Word) : Nat × Nat :=
  let n := 2 ^ opLog2S ops
  let sp := specWords (opUni ops) n
  match opCode ops with
  | 1 => (64 * opW ops 2, sp)
  | 2 => (64 * opW ops 2, if opKeep ops then n else 2 * n)
  | 3 => (64 * opW ops 4, sp)
  | _ => (64 * opW ops 4, n)

/-- The history slot that a TAIL writes: its address and words (R189). -/
def opSlot (ops : List Word) : Nat × Nat :=
  let sp := specWords (opUni ops) (2 ^ opLog2S ops)
  (64 * opW ops 2 + 4 * sp * (opHpos ops % opParts ops), sp)

/-- A TAIL's spectrum of its window and its samples (R189): GAIN scales them on rung 0. -/
def opTail (ops carry : List Word) (srcs : List (List Word)) : List Word × List Word :=
  let n := 2 ^ opLog2S ops
  let sp := specWords (opUni ops) n
  let np := opParts ops
  let hist := chunks sp np (srcs.getD 1 [])
  let (h, z) := cxTail (opUni ops) (if carry.length = n then carry else List.replicate n 0) (opIn ops (srcs.getD 2 []))
    (chunks sp np (srcs.getD 0 [])) fun p => hist.getD ((opHpos ops + np - p) % np) []
  (h, if opRung ops = 0 then z.map (b32Mul (ops.getD 7 0)) else z)

/-- The words that an operation writes to its destination, from its sources (R184). -/
def opResult (ops carry : List Word) (srcs : List (List Word)) : List Word :=
  let uni := opUni ops
  let n := 2 ^ opLog2S ops
  let sp := specWords uni n
  match opCode ops with
  | 1 => cxFwd uni (opIn ops (srcs.headD []))
  | 2 =>
    let z := cxInv uni (srcs.headD [])
    opOut ops (if opKeep ops then z.drop n else z)
  | 3 =>
    let p := opW ops 5
    cxSmac uni ((chunks sp p (srcs.getD 0 [])).zip (chunks sp p (srcs.getD 1 []))) (srcs.getD 2 []) sp
  | _ => opOut ops (opTail ops carry srcs).2

/-- A block that is not run: 0x5003, and the firing fails (R185). -/
def badOp (f : Firing) (unit : Nat) (s : State) : State := finishOp f 0x5003 (raise 0x5003 unit 0 0 s)

/-- Run an operation of a graph's own node: its sources, then its results (R184). A TAIL keeps its carry in the node: the block
names no place for it. -/
def runUserOp (f : Firing) (e : Nat) (s : State) : State :=
  let ops := f.ops
  let own := 0x30 + e
  let tail := opCode ops == 4
  let bytes (x : Nat × Nat) : Nat × Nat := (x.1, 4 * x.2)
  engRun f own ((opSources ops).map bytes) ([bytes (opDest ops)] ++ (if tail then [bytes (opSlot ops)] else [])) (fun s =>
    let srcs := (opSources ops).map fun x => engRead s f x.1 x.2
    let carry := (s.node f.slot).carry
    let s := if tail then engWrite f own (opSlot ops).1 (opTail ops carry srcs).1 s else s
    finishOp f 0 (engWrite f own (opDest ops).1 (opResult ops carry srcs) s)) s

/-- What a completed TAIL of a graph's own node leaves: its block as the carry, and HPOS written back as its last act (R185, R189). -/
def userTailDone (f : Firing) (s : State) : State :=
  let ops := f.ops
  let block := opIn ops (engRead s f (64 * opW ops 3) (2 ^ opLog2S ops))
  let s := s.setNode f.slot { s.node f.slot with carry := block }
  putHome f.slot 13 (BitVec.ofNat 32 (opParts ops * 0x10000 + (opHpos ops + 1) % opParts ops)) s

end Sys2Proof.Machine
end

