-- ==== Sys2Proof/Machine/Paths.lean ====
section
/-! DEFINITION. Convolution paths, their TAIL firings, the crystallizer rows and impulse-response loads (R186 to R195, R227). -/

namespace Sys2Proof.Machine

/-! Convolution paths (R186 to R194). -/

/-- B, K and C of the pair a path names. -/
def cpB (s : State) (q : Nat) : Nat := ringB s (s.rd (Obj.cpRing q))
def cpK (s : State) (q : Nat) : Nat := ringK s (s.rd (Obj.cpRing q))
def cpUni (s : State) (q : Nat) : Bool := s.rd (Obj.cpMode q) == 1

/-- A rung without the partitions that lie wholly below H; `keep` keeps one of zero taps. -/
def trimRung (s start stop h : Nat) (keep : Bool) : Option Rung :=
  let parts := (stop - start + s - 1) / s
  let drop := min parts ((h - start) / s)
  if parts - drop = 0 then (if keep then some ⟨s, start, stop, 1, 0, 0⟩ else none)
  else some ⟨s, start + drop * s, stop, parts - drop, 0, 0⟩

/-- The rungs of the ladder from block size `s` on (R187). -/
def ladder (t h : Nat) : Nat → Nat → Bool → List Rung
  | 0, _, _ => []
  | k + 1, s, first =>
    let start := 2 * s
    let next := min (4 * s) 4096
    let stop := if s = 4096 then t else min (2 * next) t
    let here := (trimRung s start stop h first).toList
    if s = 4096 ∨ stop = t then here else here ++ ladder t h k next (first && here.isEmpty)

/-- The rungs of a path as configured (R187, R188). -/
def buildRungs (s : State) (q : Nat) : List Rung :=
  let h := s.rd (Obj.cpHead q)
  let t := s.rd (Obj.cpLength q)
  if cpUni s q then (trimRung (cpB s q) (cpK s q * cpB s q) t h true).toList else ladder t h 12 (cpB s q) true

def sumBy {α : Type} (f : α → Nat) (l : List α) : Nat := l.foldl (fun n x => n + f x) 0

/-- Bytes of the spectra of a list of rungs; the history takes the same (R194). -/
def specBytes (uni : Bool) (rs : List Rung) : Nat := sumBy (fun r => r.parts * 4 * specWords uni r.size) rs

def topSize (rs : List Rung) : Nat := rs.foldl (fun n r => max n r.size) 0

/-- Offsets of the parts of the work area: history, carries, staging ring, upper outputs, and its end (R194). -/
def histOff (uni : Bool) (rs : List Rung) : Nat := specBytes uni rs
def carryOff (uni : Bool) (rs : List Rung) : Nat := 2 * specBytes uni rs
def stageOff (uni : Bool) (rs : List Rung) : Nat := carryOff uni rs + sumBy (fun r => 4 * r.size) rs
def outsOff (uni : Bool) (rs : List Rung) : Nat := stageOff uni rs + (if uni then 0 else 8 * topSize rs)
def workBytes (uni : Bool) (rs : List Rung) : Nat :=
  let n := outsOff uni rs + (if uni then 0 else sumBy (fun r => 8 * r.size + 128) (rs.drop 1))
  (n + 63) / 64 * 64

/-- Partition reads in bytes per second (R193). -/
def pathReads (s : State) (q : Nat) (rs : List Rung) : Nat :=
  (if cpUni s q then 16 else 8) * s.rd (Obj.rpRate (s.rd (Obj.cpRing q))) * sumBy (fun r => r.parts) rs

/-- The work area of a path, as a fabric byte address. -/
def workBase (s : State) (q : Nat) : Nat := 0x100000000 + s.rd (Obj.cpBase q)

/-- CP_LOADED (R195). -/
def cpLoadedNow (s : State) (q : Nat) : Bool :=
  let x := s.path q
  x.loaded && x.loadB == cpB s q && x.loadK == cpK s q

/-- The status that refuses a path's enable, or 0 (R194). -/
def cpRefusal (s : State) (q : Nat) : Nat :=
  let r := s.rd (Obj.cpRing q)
  let h := s.rd (Obj.cpHead q)
  let t := s.rd (Obj.cpLength q)
  let b := cpB s q
  let k := cpK s q
  let rs := buildRungs s q
  let bound := (s.edge (s.rd (Obj.rpSendEdge r))).cons != 0 || (s.edge (s.rd (Obj.rpReturnEdge r))).prod != 0
  let used := sumBy (fun p => if p.2.on && p.1 != q then pathReads s p.1 p.2.rungs else 0) s.paths
  if !(s.ring r).on || bound then 0x5101
  else if h % b ≠ 0 ∨ h < 64 ∨ 2048 < h ∨ h < k * b ∨ t < h + b ∨ 524288 < t then 0x5102
  else if !cpUni s q && (k != 2 || decide (1024 < b)) then 0x5103
  else if s.rd (Obj.cpBase q) < 0x4000000 ∨ dramSize < s.rd (Obj.cpBase q) + workBytes (cpUni s q) rs then 0x5104
  else if !cpLoadedNow s q || s.handles.any (fun x => match x.op with
      | .irLoad p _ _ => p == q
      | _ => false) then 0x5105
  else if 6400000000 < used + pathReads s q rs then 0x5106
  else 0

/-- Report the rungs of a path. -/
def showRungs (q : Nat) (rs : List Rung) (s : State) : State :=
  ((s.wr (Obj.cpParts q) (sumBy (fun r => r.parts) rs)).wr (Obj.cpRungs q) rs.length).wr (Obj.cpFootprint q)
    (workBytes (cpUni s q) rs)

/-- The byte address of half `m mod 2` of upper rung number `k`'s output buffer. -/
def upperOut (s : State) (q : Nat) (rs : List Rung) (k m : Nat) : Nat :=
  let before := sumBy (fun r => 8 * r.size + 128) ((rs.take k).drop 1)
  let size := ((rs[k]?).map fun r => r.size).getD 0
  workBase s q + outsOff (cpUni s q) rs + before + (m % 2) * (4 * size + 64)

/-- The index of the ring's block that is block 0 of a path enabled now (R186): the oldest block that waits, else the one that the
lane fills or will fill next. -/
def pathStart (s : State) (q : Nat) : Nat :=
  let r := s.rd (Obj.cpRing q)
  let x := s.ring r
  match headToken s (s.rd (Obj.rpSendEdge r)) with
  | some t => t.index
  | none => if !x.started then 0 else if x.filling || x.dropping then x.sendBlk else x.sendBlk + 1

/-- Enable a path: its work area and return ring are set as R192 gives, and its node starts. The K blocks that the return ring
expects next are valid ones of zero. -/
def enablePath (q : Nat) (s : State) : State :=
  let r := s.rd (Obj.cpRing q)
  let uni := cpUni s q
  let rs := buildRungs s q
  let base := workBase s q
  let ret := farByte (s.rd (Obj.rpReturnAddr r))
  let m := clearMem s.mem (base + histOff uni rs) (base + workBytes uni rs)
  let s := { s with mem := clearMem m ret (ret + 4 * rpReturnWords s r) }
  let s := if uni then s else forUpto (rs.length - 1) (fun i s =>
    (s.setMemWord (upperOut s q rs (i + 1) 0) 0xFFFFFFFE).setMemWord (upperOut s q rs (i + 1) 1) 0xFFFFFFFF) s
  let x := s.ring r
  let s := s.setRing r { x with ret := x.ret.map fun t => if t.latched then t else { t with valid := true } }
  let s := s.setPath q { s.path q with on := true, rungs := rs, ready := [], start := pathStart s q, count := 0, raised := [] }
  let s := (showRungs q rs s).wr (Obj.cpReads q) (pathReads s q rs / 1000)
  let s := ((s.wr (Obj.cpState q) 1).wr (Obj.cpResult q) 0).wr (Obj.cpEnable q) 1
  startNode q (builtHeader (s.rd (Obj.cpPrio q)) [s.rd (Obj.rpSendEdge r)] [s.rd (Obj.rpReturnEdge r)]) s

/-- A write of CP_ENABLE. A TAIL in flight at a disable still writes its block (R214): the rungs stay until the next enable. -/
def writeCpEnable (q v : Nat) (s : State) : State × Nat :=
  let x := s.path q
  if v = 0 then
    if !x.on then (s.wr (Obj.cpEnable q) 0, abNone)
    else
      let s := ((s.setPath q { x with on := false, ready := [] }).wr (Obj.cpEnable q) 0).wr (Obj.cpState q) 0
      (stopNode q (s.wr (Obj.cpReads q) 0), abNone)
  else if x.on then (s, abNone)
  else
    let st := cpRefusal s q
    if st ≠ 0 then (s.wr (Obj.cpResult q) st, abState) else (enablePath q s, abNone)

/-- A path raises a code once per enable and counts it afterwards (R205). -/
def pathFault (code q : Nat) (s : State) : State :=
  let x := s.path q
  if x.raised.contains (BitVec.ofNat 16 code) then repeatFault code q 0 s
  else raise code q 0 0 (s.setPath q { x with raised := x.raised ++ [BitVec.ofNat 16 code] })

/-- The output block of an upper rung of size `n` that holds output sample `x`, modulo 2^32 (R189). -/
def upperBlock (x n : Nat) : Word := BitVec.ofInt 32 ((x / n : Nat) - 2 : Int)

/-! Where a rung keeps its parts in the work area (R194), as fabric byte addresses. -/

def rungSpec (s : State) (q : Nat) (rs : List Rung) (k : Nat) : Nat := workBase s q + specBytes (cpUni s q) (rs.take k)
def rungHist (s : State) (q : Nat) (rs : List Rung) (k : Nat) : Nat := rungSpec s q rs k + histOff (cpUni s q) rs
def rungCarry (s : State) (q : Nat) (rs : List Rung) (k : Nat) : Nat :=
  workBase s q + carryOff (cpUni s q) rs + sumBy (fun r => 4 * r.size) (rs.take k)
/-- The place of path sample `n` in the staging ring. -/
def stageAt (s : State) (q : Nat) (rs : List Rung) (n : Nat) : Nat :=
  workBase s q + stageOff (cpUni s q) rs + 4 * (n % (2 * topSize rs))

def fabWords (s : State) (a n : Nat) : List Word := (List.range n).map fun i => fabRead s (a + 4 * i)
def putWords (a : Nat) (ws : List Word) (s : State) : State := forList ws.zipIdx (fun w s => s.setMemWord (a + 4 * w.2) w.1) s

/-- The block of the path that a firing of its rung 0 processes. -/
def tailBlock (s : State) (q : Nat) (f : Firing) : Nat := f.index - (s.path q).start

/-- A firing's block of samples as binary32 (R189): on rung 0 channel 0 of its send-ring position, on an upper rung the staging
ring. -/
def tailInput (s : State) (q k : Nat) (f : Firing) : List Word :=
  let rs := (s.path q).rungs
  let n := ((rs[k]?).map fun r => r.size).getD 0
  if k = 0 then
    let r := s.rd (Obj.cpRing q)
    let c := ringC s r
    match f.inPos.headD none with
    | some p =>
      let ws := engRead s f (posBase s (s.rd (Obj.rpSendEdge r)) p) (n * c)
      (List.range n).map fun i => q31ToB32 (ws.getD (i * c) 0)
    | none => List.replicate n 0
  else (List.range n).map fun i => fabRead s (stageAt s q rs (f.index * n + i))

/-- A firing's history spectrum and its last S samples (R189), from the carry, the partitions and the history of its rung. -/
def tailCore (s : State) (q k : Nat) (r : Rung) (f : Firing) : List Word × List Word :=
  let rs := (s.path q).rungs
  let uni := cpUni s q
  let sp := specWords uni r.size
  let parts := chunks sp r.parts (fabWords s (rungSpec s q rs k) (r.parts * sp))
  let hist := chunks sp r.parts (fabWords s (rungHist s q rs k) (r.parts * sp))
  cxTail uni (fabWords s (rungCarry s q rs k) r.size) (tailInput s q k f) parts
    fun p => hist.getD ((r.hpos + r.parts - p) % r.parts) []

/-- Where rung 0 finds the samples of upper rung `k` for output sample `x` on: the header, the index it expects there, and the
samples (R191). -/
def upperAt (s : State) (q : Nat) (rs : List Rung) (x k : Nat) : Nat × Word × Nat :=
  let n := ((rs[k]?).map fun r => r.size).getD 1
  let m := upperBlock x n
  let out := upperOut s q rs k m.toNat
  (out, m, out + 64 + 4 * (x % n))

/-- The upper rungs of a path. -/
def upperRungs (rs : List Rung) : List Nat := (List.range rs.length).drop 1

/-- The words of the return block of a firing of rung 0 with their saturation, and whether the block is late (R189, R191): `z` and
the samples of each upper rung whose block is the one expected, scaled by GAIN. -/
def returnWords (s : State) (q : Nat) (z : List Word) (f : Firing) : List (Word × Bool) × Bool :=
  let rs := (s.path q).rungs
  let r := s.rd (Obj.cpRing q)
  let x := (tailBlock s q f + ringK s r) * ringB s r
  let ups := if cpUni s q then [] else (upperRungs rs).map (upperAt s q rs x)
  let good := ups.filter fun u => fabRead s u.1 == u.2.1
  let sum := good.foldl (fun ys u => ys.zipIdx.map fun y => b32Add y.1 (fabRead s (u.2.2 + 4 * y.2))) z
  (sum.map fun y => b32ToQ31 (b32Mul y (BitVec.ofNat 32 (s.rd (Obj.cpGain q)))), good.length != ups.length)

/-- One block of rung 0 (R189, R191): the history, and the return block unless it is void or no longer expected. The words of
`ops` keep for completion whether the block is late and how many words saturated. -/
def tailZero (q : Nat) (f : Firing) (e : Nat) (s : State) : State :=
  let rs := (s.path q).rungs
  match rs with
  | [] => finishOp f 0 s
  | r0 :: _ =>
    let r := s.rd (Obj.cpRing q)
    let (h, z) := tailCore s q 0 r0 f
    let (ws, late) := returnWords s q z f
    let block := ws.flatMap fun w => w.1 :: List.replicate (ringC s r - 1) 0
    let own := 0x30 + e
    let s := engWrite f own (rungHist s q rs 0 + 4 * specWords (cpUni s q) r0.size * r0.hpos) h s
    let s := engWrite f own (posBase s (s.rd (Obj.rpReturnEdge r)) (f.outPos.headD 0)) block s
    finishOp { f with ops := [BitVec.ofNat 32 late.toNat, BitVec.ofNat 32 (ws.filter (·.2)).length] } 0 s

/-- Whether rung 0 has begun to overwrite the staging half that an upper rung's block lies in (R191). -/
def stageGone (s : State) (q : Nat) (r : Rung) (m : Nat) : Bool :=
  let x := s.path q
  let top := topSize x.rungs
  decide (m * r.size / top * top + 2 * top < x.count * cpB s q)

/-- One block of upper rung `k` (R189, R191), its header last. A rung whose staging half is being overwritten writes nothing; the
word of `ops` keeps for completion whether it wrote. -/
def tailUpper (q k : Nat) (f : Firing) (e : Nat) (s : State) : State :=
  let rs := (s.path q).rungs
  match rs[k]? with
  | none => finishOp f 0 s
  | some r =>
    if stageGone s q r f.index then finishOp { f with ops := [0] } 0 s
    else
      let (h, z) := tailCore s q k r f
      let own := 0x30 + e
      let out := upperOut s q rs k f.index
      let s := engWrite f own (rungHist s q rs k + 4 * specWords (cpUni s q) r.size * r.hpos) h s
      finishOp { f with ops := [1] } 0 (engWrite f own out [BitVec.ofNat 32 f.index] (engWrite f own (out + 64) z s))

/-- What a TAIL of rung `k` reads, as ranges of addresses and bytes: its partitions and history, its carry, and the block with, on
rung 0, the upper outputs (R189, R194). -/
def tailReads (q k : Nat) (f : Firing) (s : State) : List (Nat × Nat) :=
  let rs := (s.path q).rungs
  let r := s.rd (Obj.cpRing q)
  match rs[k]? with
  | none => []
  | some x =>
    let n := x.parts * 4 * specWords (cpUni s q) x.size
    let block := if k = 0 then
        (f.inPos.filterMap fun p => p.map fun p => (posBase s (s.rd (Obj.rpSendEdge r)) p, 4 * (ringB s r * ringC s r))) ++
          (if cpUni s q then [] else (upperRungs rs).flatMap fun i =>
            let u := upperAt s q rs ((tailBlock s q f + ringK s r) * ringB s r) i
            [(u.1, 64), (u.2.2, 4 * ringB s r)])
      else [(stageAt s q rs (f.index * x.size), 4 * x.size)]
    [(rungSpec s q rs k, n), (rungHist s q rs k, n), (rungCarry s q rs k, 4 * x.size)] ++ block

/-- What a TAIL of rung `k` writes: its history, its carry, and the return block with the staging ring or its output block. -/
def tailWrites (q k : Nat) (f : Firing) (s : State) : List (Nat × Nat) :=
  let rs := (s.path q).rungs
  let r := s.rd (Obj.cpRing q)
  match rs[k]? with
  | none => []
  | some x =>
    let sp := 4 * specWords (cpUni s q) x.size
    let out := if k = 0 then
        (posBase s (s.rd (Obj.rpReturnEdge r)) (f.outPos.headD 0), 4 * (ringB s r * ringC s r)) ::
          (if cpUni s q then [] else [(stageAt s q rs (tailBlock s q f * ringB s r), 4 * ringB s r)])
      else [(upperOut s q rs k f.index, 64 + 4 * x.size)]
    [(rungHist s q rs k + sp * x.hpos, sp), (rungCarry s q rs k, 4 * x.size)] ++ out

/-- Run a TAIL (R189) where all its accesses are allowed (R250). -/
def runTail (q e : Nat) (f : Firing) (s : State) : State :=
  engRun f (0x30 + e) (tailReads q f.rung f s) (tailWrites q f.rung f s)
    (if f.rung = 0 then tailZero q f e else tailUpper q f.rung f e) s

/-- Fire upper rungs whose token waits and that have no firing in flight (R227). -/
def fireRungs (q : Nat) (s : State) : State :=
  forUpto ((s.path q).rungs.length) (fun k s =>
    let x := s.path q
    if k = 0 || !x.on || (s.node q).closing || (s.node q).faulted || !x.ready.contains k || s.firings.any (fun f => f.slot == q && f.rung == k) then s
    else
      let m := ((x.rungs[k]?).map fun r => r.block).getD 0
      let f : Firing :=
        { slot := q, rung := k, index := m, prio := (s.node q).prio - k, inPos := [], outPos := [], late := 0, void := 0
          order := s.fireSeq, state := 2, holder := 0xFF, status := 0, done := false, overdue := false, ops := [] }
      let s := { s with firings := s.firings ++ [f], fireSeq := s.fireSeq + 1 }
      s.setPath q { x with
        ready := x.ready.erase k
        rungs := x.rungs.mapIdx fun i r => if i = k then { r with block := r.block + 1 } else r }) s

/-- The last act of a rung (R185, R189): its block is the carry, and HPOS advances. -/
def tailLast (q k : Nat) (f : Firing) (s : State) : State :=
  let s := putWords (rungCarry s q (s.path q).rungs k) (tailInput s q k f) s
  let x := s.path q
  s.setPath q { x with rungs := x.rungs.mapIdx fun i r => if i = k then { r with hpos := (r.hpos + 1) % r.parts } else r }

/-- The upper rungs whose block ends with block `m` of rung 0. -/
def rungsEnding (s : State) (q m : Nat) : List Nat :=
  (upperRungs (s.path q).rungs).filter fun k => match (s.path q).rungs[k]? with
    | some r => (m + 1) * cpB s q % r.size == 0
    | none => false

/-- What a completed TAIL firing of a path leaves: counts, the carry, the staging ring and rung tokens (R189, R191, R227). An upper
rung that wrote nothing leaves nothing. -/
def tailDone (q : Nat) (f : Firing) (s : State) : State :=
  if f.rung ≠ 0 then (if f.ops.headD 0 = 0 then s else tailLast q f.rung f s)
  else
    let m := tailBlock s q f
    let src := tailInput s q 0 f
    let s := if (f.ops.headD 0) = 1 then pathFault 0x5001 q (s.inc (Obj.cpLate q)) else s
    let sat := (f.ops.getD 1 0).toNat
    let s := if sat = 0 then s else pathFault 0x5002 q (s.incBy (Obj.cpSat q) sat)
    let s := tailLast q 0 f s
    let s := if cpUni s q then s else putWords (stageAt s q (s.path q).rungs (m * cpB s q)) src s
    let x := s.path q
    fireRungs q (s.setPath q { x with count := m + 1, ready := x.ready ++ rungsEnding s q m })

/-- Run a crystallizer's firing under the row whose operation code is `code`: a bad block fails under any row (R185). -/
def runCrystallizer (code e : Nat) (s : State) : State :=
  match runningOn s (0x10 + e) with
  | none => s
  | some f =>
    if f.slot < 256 then
      if code ≠ 4 then s else runTail f.slot e f s
    else if !opGood f.ops then badOp f e s
    else if opCode f.ops ≠ code then s
    else runUserOp f e s

def execCxFwd (e : Fin 16) (s : State) : Host.Outcome State Fault Refusal := .next (runCrystallizer 1 e.val s)
def execCxInv (e : Fin 16) (s : State) : Host.Outcome State Fault Refusal := .next (runCrystallizer 2 e.val s)
def execCxSmac (e : Fin 16) (s : State) : Host.Outcome State Fault Refusal := .next (runCrystallizer 3 e.val s)
def execCxTail (e : Fin 16) (s : State) : Host.Outcome State Fault Refusal := .next (runCrystallizer 4 e.val s)

/-! Impulse-response loads (R195). -/

/-- Whether a binary32 word is a NaN or an infinity. -/
def notFinite (w : Word) : Bool := w.extractLsb' 23 8 == 0xFF

/-- A write of 1 to IR_CTRL by path `p`. A load of an enabled path runs too: its completion record refuses it. -/
def startIrLoad (p : Nat) (s : State) : State × Nat :=
  let q := s.rd Obj.irPath
  if !admits s then (s.inc Obj.handlesRefused, abBusy)
  else
    let (h, s) := issueHandle (.irLoad q (s.rd Obj.irSource) (s.rd Obj.irFormat)) p s
    let s := s.wr Obj.irHandle h.word
    (if (s.path q).on then s else s.wr (Obj.cpState q) 2, abNone)

/-- The spectra of the partitions of a rung, from the taps by number (R187, R189): taps below H and from the rung's end on are
zero. -/
def rungSpectra (uni : Bool) (h : Nat) (tap : Nat → Word) (r : Rung) : List Word :=
  (List.range r.parts).flatMap fun p =>
    cxFwd uni ((List.range (2 * r.size)).map fun i =>
      let t := r.start + p * r.size + i
      if i < r.size && decide (h ≤ t) && decide (t < r.stop) then tap t else 0)

/-- Write the spectra of path `q` as loaded for its present configuration (R195). -/
def putSpectra (q : Nat) (ws : List Word) (s : State) : State :=
  let s := putWords (workBase s q) ws s
  showRungs q (buildRungs s q) (s.setPath q { s.path q with loaded := true, loadB := cpB s q, loadK := cpK s q })

/-- The first access of a load of path `q` that is refused: its code and address. -/
def loadDenied (s : State) (q : Nat) (reads : List (Nat × Nat)) : Option (Nat × Nat) :=
  let one (w : Bool) (r : Nat × Nat) : Option (Nat × Nat) := match firstDenied (fun a => fabCheck 0x30 w a s) r.1 r.2 with
    | some (.deny code, a) => some (code, a)
    | _ => none
  (reads.findSome? (one false)).or (one true (workBase s q, specBytes (cpUni s q) (buildRungs s q)))

/-- The status of a load, and the state with its spectra written. -/
def loadSpectra (q source fmt : Nat) (s : State) : State × Nat :=
  let h := s.rd (Obj.cpHead q)
  let src := 0x100000000 + source
  let reads := [(src + 4 * h, 4 * (s.rd (Obj.cpLength q) - h))]
  if (s.path q).on then (s, 0x5111)
  else match loadDenied s q reads with
  | some (code, a) => (fabReport code 0x30 0 a s, code)
  | none =>
    let bad := readFails s reads
    let s := noteReads 0x30 reads s
    let tap (t : Nat) : Word := let w := fabRead s (src + 4 * t); if fmt = 0 then w else q31ToB32 w
    if bad then (s, 0x8003)
    else if fmt = 0 ∧ (List.range (s.rd (Obj.cpLength q) - h)).any (fun i => notFinite (fabRead s (src + 4 * (h + i)))) then
      (s, 0x5112)
    else (putSpectra q ((buildRungs s q).flatMap (rungSpectra (cpUni s q) h tap)) s, 0)

/-- Spectra that a show image carries load in place of this operation, with the same refusals (R195). -/
def showSpectraRefused (q : Nat) (ws : List Word) (s : State) : State × Nat :=
  if (s.path q).on then (s, 0x5111)
  else if ws.any notFinite then (s, 0x5112)
  else match loadDenied s q [] with
  | some (code, a) => (fabReport code 0x30 0 a s, code)
  | none => (s, 0)
def showSpectra (q : Nat) (ws : List Word) (s : State) : State :=
  putSpectra q (ws.take (specBytes (cpUni s q) (buildRungs s q) / 4)) s

/-- IR_LOAD_COMPLETE: the oldest load that runs. -/
def execIrLoadComplete (s : State) : Host.Outcome State Fault Refusal :=
  clocked (fun s => match s.handles.find? (fun h => match h.op with
      | .irLoad _ _ _ => true
      | _ => false) with
    | none => s
    | some h => match h.op with
      | .irLoad q source fmt =>
        let (s, st) := loadSpectra q source fmt s
        completeHandle h st 0 s.slate (if (s.path q).on then s else s.wr (Obj.cpState q) 0)
      | _ => s) s

end Sys2Proof.Machine
end

