-- ==== Sys2Proof/Machine/Asrc.lean ====
section
/-! DEFINITION. The sample-rate converters of the ASRC engine (R197 to R204), and the completion of class E firings (R196, R220,
R221). -/

namespace Sys2Proof.Machine

/-! Converters (R198 to R204). -/

/-- Channels of a converter (R198). -/
def convChannels (s : State) (v : Nat) : Nat :=
  match s.rd (Obj.asMode v) with
  | 0 => inCount s (s.rd (Obj.asGroup v))
  | 1 => outCount s (s.rd (Obj.asGroup v))
  | _ => s.rd (Obj.asChannels v)

/-- The channel-sample rate of a converter (R204). -/
def convLoad (s : State) (v : Nat) : Nat := let (a, b) := convRates s v; convChannels s v * max a b

def enabledConvs (s : State) : List Nat := (List.range 16).filter fun v => (s.conv v).on

/-- AS_LOAD. -/
def asLoadNow (s : State) : Nat := sumBy (convLoad s) (enabledConvs s)

/-- Whether D lies in the range of R201. -/
def delayGood (s : State) (v : Nat) : Bool :=
  let (fin, fout) := convRates s v
  let (bin, _) := convBlocks s v
  let m := max fin fout
  let d := s.rd (Obj.asDelay v)
  let lo := 10 ^ 8 * (32 * m + (2 * bin + 1) * fout)
  decide (lo ≤ d * fin * fout) && decide (d * fin * fout + 10 ^ 8 * (64 * m + 2 * bin * fout) ≤ 10 ^ 8 * 1024 * fout)

/-- Words of a house-ring position of a converter (R163). -/
def housePosBytes (s : State) (v : Nat) : Nat := 16 + 4 * blockFrames (s.rd (Obj.asHouseBlock v)) * convChannels s v

/-- The status that refuses a converter's enable, or 0 (R204, R233). -/
def asRefusal (s : State) (v : Nat) : Nat :=
  let mode := s.rd (Obj.asMode v)
  let g := s.rd (Obj.asGroup v)
  let (fin, fout) := convRates s v
  let e := s.rd (Obj.asEdge v)
  if mode ≠ 2 ∧ (6 ≤ g ∨ s.rd Obj.leader = g ∨ !(s.rd (Obj.streamEnable g)).testBit mode) then 0x5121
  else if !ratioGood fin fout then 0x5122
  else if !delayGood s v then 0x5123
  else if 96 < sumBy (convChannels s) (enabledConvs s) + convChannels s v then 0x5124
  else if 18432000 < asLoadNow s + convLoad s v then 0x5125
  else
    let r := edgeRefusal s e (s.rd (Obj.asHouseDepth v))
    if r ≠ 0 then r
    else if (mode = 0 ∧ (s.edge (s.rd (Obj.inEdge g))).cons ≠ 0) ∨ (mode = 1 ∧ (s.edge (s.rd (Obj.outEdge g))).prod ≠ 0) then 0x6141
    else 0

/-- A write of AS_ENABLE. -/
def writeAsEnable (v on : Nat) (s : State) : State × Nat :=
  let x := s.conv v
  if on = 0 then
    if !x.on then (s.wr (Obj.asEnable v) 0, abNone)
    else (stopNode (256 + v) (((s.setConv v { x with on := false }).wr (Obj.asEnable v) 0).wr (Obj.asState v) convOff), abNone)
  else if x.on then (s, abNone)
  else
    let st := asRefusal s v
    let e := s.rd (Obj.asEdge v)
    if st ≠ 0 then
      let s := s.wr Obj.asResult st
      (if 0x6000 ≤ st ∧ e < 1024 then s.wr (Obj.edgeResult e) st else s, abState)
    else
      let mode := s.rd (Obj.asMode v)
      let s := ownEdge e (farByte (s.rd (Obj.asHouseAddr v))) (s.rd (Obj.asHouseDepth v)) (housePosBytes s v) (mode != 1)
        (endNode (256 + v)) s
      let s := (s.wr (Obj.edgeResult e) 0).wr Obj.asResult 0
      let s := s.setConv v { ({} : Converter) with on := true, t0 := s.slate }
      let (fin, fout) := convRates s v
      let s := (s.wr (Obj.asEnable v) 1).wr (Obj.asRatio v) (fout * 2 ^ 24 / fin)
      let s := s.wr (Obj.asState v) (if mode = 2 then convLocked else convAcquire)
      (startNode (256 + v) (builtHeader 7 (convSource s v).toList [convDest s v]) s, abNone)

/-- The measured ratio fs_out / fs_in in Q8.24 (R200); the nominal one in FIXED mode. -/
def convRatioNow (s : State) (v : Nat) : Nat :=
  let house := 100 * s.rd (Obj.asRate v)
  let g := groupRate s (s.rd (Obj.asGroup v))
  match s.rd (Obj.asMode v) with
  | 0 => house * 2 ^ 24 / g
  | 1 => g * 2 ^ 24 / house
  | _ => s.rd (Obj.asRate v) * 2 ^ 24 / s.rd (Obj.asSrcRate v)

/-- ASRC_LOCKED: 16 consecutive source blocks with a phase error below 100 ns (R200). House frame 0 after lock is the next block's
first. -/
def execAsrcLocked (v : Fin 16) (s : State) : Host.Outcome State Fault Refusal :=
  let k := v.val
  let x := s.conv k
  clocked (fun s => if s.rd (Obj.asState k) ≠ convAcquire ∨ x.good < 16 then s
  else
    let s := (s.wr (Obj.asState k) convLocked).wr (Obj.asRatio k) (convRatioNow s k)
    readyScan (s.setConv k { x with t0 := s.slate, next := fineTicks s.slate.toNat, blocks := 0, fadeP := 0 })) s

/-! The tracking loop (R199, R200). -/

/-- The words of a slate, for a free value that depends on it. -/
def slateWords (t : Slate) : List Word := [t.extractLsb' 0 32, t.extractLsb' 32 32]

/-- 100 ns in 2^-16 tick. -/
def calmLimit : Nat := 655360

/-- The phase error of the loop at a source block of slate `t`, in 2^-16 tick. The rules state the loop's damping and bandwidth and
not its arithmetic: the error is a free value, below 100 ns while the loop `holds`. -/
def phaseError (s : State) (v : Nat) (x : Converter) (t : Slate) (holds : Bool) : Int :=
  let e := (Config.engineWord ([4, BitVec.ofNat 32 v, BitVec.ofNat 32 (s.rd (Obj.asBw v)), BitVec.ofNat 32 x.frames,
    BitVec.ofNat 32 x.interval] ++ slateWords t) 0).toInt
  if holds then max (1 - (calmLimit : Int)) (min ((calmLimit : Int) - 1) e) else e

/-- Whether a block interval of the free group follows the one before within 100 ppm per second and the jitter of two ticks
(R200). -/
def steady (a b : Nat) : Bool := b != 0 && decide ((max a b - min a b) * 10 ^ 12 ≤ a * b + 2 * 10 ^ 12)

/-- Source block `a` joins the history buffer of a converter and moves its tracking state (R197, R199). In FIXED mode no loop runs
and `last` keeps s0, the slate of the first block; in OUT mode the loop tracks the group's own frames. -/
def trackBlock (s : State) (v : Nat) (x : Converter) (a : Nat) : Converter :=
  let (fin, fout) := convRates s v
  let (bin, bout) := convBlocks s v
  let t := blockSlate s a
  let ws := fabWords s (a + 16) (bin * convChannels s v)
  let step := 10 ^ 8 * 2 ^ 32 / fin
  let add (x : Converter) (time : Int) (step : Nat) : Converter :=
    { x with hist := x.hist ++ [⟨x.frames, time, step, ws⟩], frames := x.frames + bin }
  if s.rd (Obj.asMode v) = 2 then
    let s0 := x.last.getD t
    add { x with last := some s0 } (fineTicks s0.toNat + ((x.frames * 10 ^ 8 * 2 ^ 32 / fin : Nat) : Int)) step
  else
    let inMode := s.rd (Obj.asMode v) == 0
    let d := if inMode then (match x.last with
        | some l => (t - l).toNat
        | none => bin * 10 ^ 8 / fin)
      else bout * 10 ^ 10 / (let m := s.rd (Obj.portRateMeas (s.rd (Obj.asGroup v))); if m = 0 then 100 * fout else m)
    let e := phaseError s v x t (s.rd (Obj.asState v) == convLocked && steady d x.interval)
    let x := { x with last := some t, interval := d, good := if e.natAbs < calmLimit then x.good + 1 else 0 }
    if inMode then add x (fineTicks t.toNat + e * 2 ^ 16) (if steady d x.interval && d != 0 then d * 2 ^ 32 / bin else step)
    else add { x with next := x.next + e * 2 ^ 16 } (fineTicks t.toNat) step

/-- A converter with the next `k` source blocks taken; the history buffer holds the latest 1,024 frames. -/
def convTrack (s : State) (v k : Nat) : Converter :=
  let x := ((convWaiting s v).take k).foldl (trackBlock s v) (s.conv v)
  { x with hist := x.hist.filter fun b => decide (x.frames < b.first + (convBlocks s v).1 + 1024) }

/-! The filter (R198, R199, R203). -/

/-- h, in source frames (R201). -/
def convHalf (s : State) (v : Nat) : Nat := let (a, b) := convRates s v; 32 * max a b / b

/-- The place among the source frames of the time t_j - D of output frame `j`, in 2^-32 frame (R199). -/
def convPos (s : State) (v : Nat) (x : Converter) (j : Nat) : Int :=
  let t := convFrameTime s v j - fineTicks (s.rd (Obj.asDelay v))
  match (x.hist.reverse.find? fun b => decide (b.time ≤ t)).or x.hist.head? with
  | none => (x.frames : Int) * 2 ^ 32
  | some b => (b.first : Int) * 2 ^ 32 + (t - b.time) * 2 ^ 32 / b.step

/-- The first frame of the filter span of a place; the span has 2h frames. -/
def spanLo (s : State) (v : Nat) (pos : Int) : Int := pos / 2 ^ 32 - convHalf s v + 1

/-- Whether the span of a place reaches frames not received yet, and frames overwritten in the history buffer (R202). -/
def spanUnder (s : State) (v : Nat) (x : Converter) (pos : Int) : Bool := decide ((x.frames : Int) < spanLo s v pos + 2 * convHalf s v)
def spanOver (s : State) (v : Nat) (x : Converter) (pos : Int) : Bool := decide (max 0 (spanLo s v pos) + 1024 < x.frames)

/-- Channel `c` of source frame `i` of `n` channels; a frame that the history does not hold reads as zero. -/
def histWord (x : Converter) (n c : Nat) (i : Int) : Word :=
  match x.hist.find? fun b => decide ((b.first : Int) ≤ i) && decide (i < b.first + (b.words.length / n : Nat)) with
  | some b => b.words.getD ((i - b.first).toNat * n + c) 0
  | none => 0

/-- The coefficients of one phase of the filter in ROM, in 2^-30. The rules give the filter by its figures: the coefficients are
free, with a gain at DC within the passband ripple of 0.005 dB (R203). -/
def filterTaps (frac fin fout n : Nat) : List Int :=
  let args : List Word := [5, BitVec.ofNat 32 frac, BitVec.ofNat 32 fin, BitVec.ofNat 32 fout]
  let cs := (List.range n).map fun i => (Config.engineWord args i).toInt
  let gain := 2 ^ 30 + (Config.engineWord args n).toInt * 618150 / 2 ^ 31
  cs.set (n / 2) (gain - sumInt (cs.eraseIdx (n / 2)))

/-- The source signal of channel `c` at a place: the filter over its span, with a free error 140 dB below full scale (R199, R203). -/
def convWord (s : State) (v : Nat) (x : Converter) (c : Nat) (pos : Int) : Word :=
  let (fin, fout) := convRates s v
  let n := 2 * convHalf s v
  let xs := (List.range n).map fun i => histWord x (convChannels s v) c (spanLo s v pos + (i : Nat))
  if xs.all (· == 0) then 0
  else
    let y := sumInt ((xs.zip (filterTaps (pos % 2 ^ 32).toNat fin fout n)).map fun p => p.1.toInt * p.2)
    let w := (y + (Config.engineWord (6 :: xs) (pos % 2 ^ 32).toNat).toInt * 107 + 2 ^ 29) / 2 ^ 30
    if w > 0x7FFFFFFF then 0x7FFFFFFF else if w < -0x80000000 then 0x80000000 else BitVec.ofInt 32 w

/-! One destination block. -/

/-- The fade positions of the frames of a block (R200, R202), from whether each fades in. -/
def convFades (len : Nat) : Nat → List Bool → List Nat
  | _, [] => []
  | p, up :: l => let q := if up then min (p + 1) len else p - 1; q :: convFades len q l

/-- The stamp of a destination block (R163, R198): the slate of its first frame. -/
def convStamp (s : State) (v : Nat) : Slate := BitVec.ofInt 64 (convFrameTime s v 0 / 2 ^ 32)

/-- The places of the frames of the next destination block. -/
def convPlaces (s : State) (v : Nat) (x : Converter) : List Int :=
  (List.range (convBlocks s v).2).map (convPos s v x)

/-- The fade positions of the frames of the next block: a converter fades in while it is LOCKED and the span is whole, and is silent
in ACQUIRE. -/
def blockFades (s : State) (v : Nat) (x : Converter) : List Nat :=
  let st := s.rd (Obj.asState v)
  if st = convAcquire then (convPlaces s v x).map fun _ => 0
  else convFades (s.rd (Obj.asFade v)) x.fadeP
    ((convPlaces s v x).map fun p => (st == convLocked || !x.on) && !spanUnder s v x p && !spanOver s v x p)

/-- The words of the next destination block: its header, then its frames. -/
def convWords (s : State) (v : Nat) (x : Converter) : List Word :=
  let n := convChannels s v
  let fades := blockFades s v x
  let t := convStamp s v
  slateWords t ++ [BitVec.ofNat 32 (x.blocks % 0x10000 * 0x10000), BitVec.ofNat 32 ((convBlocks s v).2 * 0x10000 + n)] ++
    ((convPlaces s v x).zip fades).flatMap fun y => (List.range n).map fun c =>
      if y.2 = 0 then 0 else fadeWord (convWord s v x c y.1) y.2 (s.rd (Obj.asFade v))

/-- The bytes of one source block of a converter. -/
def convSrcBytes (s : State) (v : Nat) : Nat := 16 + 4 * (convBlocks s v).1 * convChannels s v

/-- ASRC_CONVERT: the firing of converter `v` that the engine runs takes the source blocks it was made ready for and writes its
destination block (R198 to R202). The source blocks are positions of the firing, so owners do not matter there (R212). `ops` keeps for
completion the blocks, the frames that underflowed and overflowed, and the fade. -/
def convertBlock (v : Nat) (f : Firing) (s : State) : State :=
  let k := (f.ops.headD 0).toNat
  let reads := ((convWaiting s v).take k).map fun a => (a, convSrcBytes s v)
  let dst := posBase s (convDest s v) (f.outPos.headD 0)
  match engDenied f 0x50 s (reads.map (fun r => firstDenied (fun a => fabCheck masterSluice false a s) r.1 r.2) ++
      [engCheckRange s f 0x50 true dst (16 + 4 * (convBlocks s v).2 * convChannels s v)]) with
  | some s => s
  | none => engReads f 0x50 reads (fun s =>
      let x := convTrack s v k
      let ps := convPlaces s v x
      let s' := engWrite f 0x50 dst (convWords s v x) s
      finishOp { f with ops := [BitVec.ofNat 32 k, BitVec.ofNat 32 (ps.filter (spanUnder s v x)).length,
        BitVec.ofNat 32 (ps.filter (spanOver s v x)).length,
        BitVec.ofNat 32 ((blockFades s v x).getLastD x.fadeP)] } 0 s') s

def execAsrcConvert (v : Fin 16) (s : State) : Host.Outcome State Fault Refusal :=
  .next (match runningOn s 0x20 with
    | none => s
    | some f => if f.slot = 256 + v.val then convertBlock v.val f s else s)

/-- Consume the `k` oldest source blocks of a converter. -/
def convConsume (v k : Nat) (s : State) : State :=
  match convSource s v with
  | none => s
  | some e => forList (((s.edge e).tokens.filter fun t => t.pos.isSome).take k) (fun t s => removeToken e t.index t.pos s) s

/-- A fault of a converter and its counter, once for each frame (R202). -/
def convSlips (code : Nat) (r : Reg) (n v : Nat) (s : State) : State := forUpto n (fun _ s => convFault code v (s.inc r)) s

/-- What a completed firing of a converter leaves (R197, R200, R202): the history and tracking state with its source blocks, the
fade, the counts, loss of lock, and the test of the measured ratio. -/
def convDone (v : Nat) (f : Firing) (s : State) : State :=
  let x := convTrack s v (f.ops.headD 0).toNat
  let st := s.rd (Obj.asState v)
  let loop := s.rd (Obj.asMode v) != 2
  let lost := loop && st == convLocked && x.good == 0
  let next := if s.rd (Obj.asMode v) = 1 then x.next + (convFrameTime s v (convBlocks s v).2 - (s.conv v).next) else x.next
  let s := convConsume v (f.ops.headD 0).toNat s
  let s := s.setConv v { x with blocks := x.blocks + 1, fadeP := (f.ops.getD 3 0).toNat, next := next }
  if !x.on then s
  else
    let s := convSlips 0x5012 (Obj.asUnderflows v) (f.ops.getD 1 0).toNat v s
    let s := convSlips 0x5013 (Obj.asOverflows v) (f.ops.getD 2 0).toNat v s
    let s := if loop && (st == convLocked) then s.wr (Obj.asRatio v) (convRatioNow s v) else s
    let s := if lost then s.wr (Obj.asState v) convAcquire else s
    if loop && s.rd (Obj.portState (s.rd (Obj.asGroup v))) == portRun && (st != convHold || convRatioGood s v) then
      convRatioTest v s
    else s

/-! Completion of class E firings (R196, R220, R221). -/

/-- A class E firing completes on its engine. -/
def engineDone (f : Firing) (s : State) : State :=
  let ok := f.status == 0
  let late := f.slot < 256 && f.rung == 0 && f.ops.headD 0 == 1
  let s := if ok && f.slot < 256 then tailDone f.slot f s
    else if ok && f.slot < 272 then convDone (f.slot - 256) f s
    else if ok && opCode f.ops = 4 then userTailDone f s
    else s
  let s := completeFiring f f.status.toNat late s
  let s := if f.slot < 256 then fireRungs f.slot s else s
  if 0x10 ≤ f.holder ∧ f.holder < 0x20 then
    let e := f.holder - 0x10
    (s.incMax (Obj.cxNodes e)).wr (Obj.cxState e) (if engineLoad s f.holder = 0 then 0 else 1)
  else s

/-- FIRING_COMPLETE: the operation of the firing has ended. A graph's node on the ASRC engine has no operation there and fails as
R185 gives. -/
def execFiringComplete (slot : Fin 512) (rung : Fin 8) (s : State) : Host.Outcome State Fault Refusal :=
  .next (match s.firings.find? (fun f => f.slot == slot.val && f.rung == rung.val && f.state == 4 && decide (0x10 ≤ f.holder)) with
    | none => s
    | some f =>
      if f.done then engineDone f s
      else if f.holder = 0x20 ∧ 272 ≤ f.slot then
        engineDone { f with done := true, status := 0x5003 } (raise 0x5003 0x20 0 0 s)
      else s)

end Sys2Proof.Machine
end

