-- ==== Sys2Proof/Machine/Takes.lean ====
section
/-! DEFINITION. Triggers from house ticks, the end of a busy window, the end of a program load, and the lane's control writes
as their chapters give them (R28, R29, R31, R43, R54, R58). -/

namespace Sys2Proof.Machine

/-- Whether a house tick of group `g` falls at REF edge `e`: edge ceil(k * N / M) for some k of 1 or more (R29). -/
def tickAt (s : State) (e g : Nat) : Bool :=
  let m := s.rd (Obj.tgHouseM g)
  let n := s.rd (Obj.tgHouseN g)
  let k := e * m / n
  s.rd (Obj.tgSource g) == 0x4000 && decide (1 ≤ k) && (k * n + m - 1) / m == e

/-- House ticks are stopped from the step of R346 at which every group is OFF until RUN (R346, R347). -/
def houseStopped (s : State) : Bool :=
  !awake s || (s.rd Obj.pwrState != 0 && (List.range 6).all fun g => portSt s g == portOff)

/-- HOUSE_TICK: every group that ticks at this REF edge triggers; none while house ticks are stopped (R29, R346). An edge that
is not later than the last one is no edge of the counter. -/
def execHouseTick (edge : Nat) (s : State) : Host.Outcome State Fault Refusal :=
  if edge ≤ s.houseEdge then .next s
  else
    let s := { s with houseEdge := edge }
    .next (if houseStopped s then s else triggerGroups (tickAt s edge) s)

/-- The closing cycles: every far access lands and is delivered, owed moves are written (R31, R44, R99). -/
def closeTake (n : Nat) (s : State) : State :=
  let s := farDue n 0x10000 s
  flushMoves (.lane (Fin.ofNat 64 n)) 0x10000 [] s

/-- BUSY_WINDOW_END. -/
def execBusyWindowEnd (n : Fin 64) (s : State) : Host.Outcome State Fault Refusal :=
  if (s.lane n.val).busy then .next (endBusy n.val (closeTake n.val s)) else .next s

/-- The end of a program load (R54). -/
def endLoad (n : Nat) (s : State) : State :=
  if laneSt s n ≠ laneLoading then s
  else if s.rd (Obj.laneEnable n) = 0 then s.wr (Obj.laneState n) laneStopped
  else if (s.lane n).safePending then enterSafe n s
  else s.wr (Obj.laneState n) laneArmed

/-- LANE_LOAD_COMPLETE. -/
def execLaneLoadComplete (n : Fin 64) (s : State) : Host.Outcome State Fault Refusal := clocked (fun s => endLoad n.val s) s

/-- LANE_CLEAR (R58, R66): bit 0 clears the sticky bits, bit 1 the counters but TAKE_COUNT. -/
def laneClearBits (n v : Nat) (s : State) : State :=
  let s := if v.testBit 0 then
      let s := clearSticky 0x4001 9 ((List.range 64).map Obj.laneFaults) [Obj.laneFaults n] s
      (s.setLane n { s.lane n with clearFlags := true }).wr (Obj.firstUdSlot n) 0xFFFF
    else s
  if v.testBit 1 then
    zeroRegs [Obj.missedTakes n, Obj.lastMissSlate n, Obj.farRefused n, Obj.xchRefused n, Obj.udCount n, Obj.drangeCount n,
      Obj.guardCount n, Obj.safeTakes n, Obj.satTakes n] s
  else s

/-- The number of lanes granted a shared pan group by the values written to FAR_GRANT (R43). -/
def grantCount (s : State) (g : Nat) : Nat := ((List.range 64).filter fun n => (s.rd (Obj.farGrant n)).testBit g).length

/-- Whether a write of FAR_GRANT keeps every group at 8 lanes or fewer (R43). -/
def grantFits (n v : Nat) (s : State) : Bool :=
  let s' := s.wr (Obj.farGrant n) v
  (List.range 8).all fun g => !v.testBit g || decide (grantCount s' g ≤ 8)

/-- An accepted FAR_GRANT: in force at once, or at the end of the busy window that runs (R43). -/
def putGrant (n v : Nat) (s : State) : State :=
  let s := s.wr (Obj.farGrant n) v
  if (s.lane n).busy then s else s.setLane n { s.lane n with grant := BitVec.ofNat 8 v }

end Sys2Proof.Machine
end

