-- ==== Sys2Proof/Machine/Pans.lean ====
section
/-! DEFINITION. Owners and power of the shared pan groups (R257 to R263). -/

namespace Sys2Proof.Machine

/-- The bytes of shared pan group `g` (R255). -/
def groupLo (g : Nat) : Nat := 0x1000000 + g * 0x200000
def clearGroup (g : Nat) (s : State) : State := { s with mem := clearMem s.mem (groupLo g) (groupLo (g + 1)) }

/-- Whether an owner code is one of R257. -/
def ownerGood (v : Nat) : Bool :=
  v == 0 || v == 1 || (decide (0x10 ≤ v) && decide (v ≤ 0x17)) || v == 0x20 || (decide (0x30 ≤ v) && decide (v ≤ 0x3F)) ||
    v == 0x40 || v == 0x7F

/-- A write of PG_OWNER (R259). A group without power takes the code at once. -/
def writePgOwner (g v : Nat) (s : State) : State × Nat :=
  let st := s.rd (Obj.pgState g)
  if !ownerGood v then (s, abValue)
  else if st = 2 ∨ st = 3 then (s, abState)
  else
    let s := s.wr (Obj.pgOwner g) v
    if st = 1 then ((s.setPan g { s.pan g with newOwner := BitVec.ofNat 8 v }).wr (Obj.pgState g) 2, abNone)
    else ((ownerTaken g v s).inc (Obj.pgHandovers g), abNone)

/-- A handover or revocation ends: the banks take the new code (R259, R260). -/
def finishHandover (g : Nat) (s : State) : State :=
  let s := ownerTaken g (s.pan g).newOwner.toNat s
  ((s.setPan g { s.pan g with clearing := false, thenClear := false }).inc (Obj.pgHandovers g)).wr (Obj.pgState g) 1

/-- PG_HANDOVER_COMPLETE: the old owner's accesses have ended; a revocation in native mode clears first. -/
def execPgHandoverComplete (g : Fin 8) (s : State) : Host.Outcome State Fault Refusal :=
  let k := g.val
  clocked (fun s => if s.rd (Obj.pgState k) ≠ 2 then s
    else if (s.pan k).thenClear then (s.setPan k { s.pan k with clearing := true, clearRow := 0 }).wr (Obj.pgState k) 3
    else finishHandover k s) s

/-- A clear reaches row `n` of group `g`: 32 bytes a row (R255, R260). -/
def clearRows (g n : Nat) (s : State) : State :=
  let x := s.pan g
  State.setPan { s with mem := clearMem s.mem (groupLo g + 32 * x.clearRow) (groupLo g + 32 * min n 65536) } g
    { x with clearRow := min n 65536 }

/-- The clears that run go on by `n` rows, one each FCLK cycle (R260). -/
def clearOn (n : Nat) (s : State) : State :=
  forUpto 8 (fun g s => if (s.pan g).clearing then clearRows g ((s.pan g).clearRow + n) s else s) s

/-- PG_GROUP_CLEAR_COMPLETE: the clear has reached the last row (R260). A lane write to a row it had passed stands. -/
def execPgGroupClearComplete (g : Fin 8) (s : State) : Host.Outcome State Fault Refusal :=
  let k := g.val
  .next (if s.rd (Obj.pgState k) = 3 ∧ (s.pan k).clearing ∧ awake s then finishHandover k (clearRows k 65536 s) else s)

/-- Whether anything of R263 lies in group `g`. -/
def groupInUse (s : State) (g : Nat) : Bool :=
  let here (a : Nat) : Bool := decide (0x400000 ≤ a) && farGroup a == g
  (List.range 64).any (fun n => (s.rd (Obj.farGrant n)).testBit g) ||
  (List.range 6).any (fun p =>
    ((s.rd (Obj.streamEnable p)).testBit 0 && here (s.rd (Obj.inRingAddr p))) ||
    ((s.rd (Obj.streamEnable p)).testBit 1 && here (s.rd (Obj.outRingAddr p)))) ||
  s.edges.any (fun x => x.2.on && (List.range (s.rd (Obj.edgeDepth x.1))).any fun p => here (posBase s x.1 p / 4)) ||
  s.nodes.any (fun x => x.2.on && decide (272 ≤ x.1) && here (s.rd (Obj.nodeHome x.1))) ||
  s.rings.any (fun x => x.2.on && (here (s.rd (Obj.rpSendAddr x.1)) || here (s.rd (Obj.rpReturnAddr x.1)))) ||
  s.convs.any (fun x => x.2.on && (here (s.rd (Obj.asHouseAddr x.1)) ||
    (s.rd (Obj.asMode x.1) == 2 && here (s.rd (Obj.asSrcAddr x.1)))))

/-- The bytes that group `g` powers up with in compatibility mode (R262). -/
def powerUpGroup (g : Nat) (s : State) : State :=
  let (k, s) := s.takeFresh
  let s := clearGroup g s
  { s with mem := (List.range 0x200000).foldl (fun m a => writeByte m (groupLo g + a) (Config.powerUpByte k (groupLo g + a))) s.mem }

/-- The power of a group starts to rise (R262). Its contents are set here; no access reaches them before the transition ends. -/
def powerUp (g : Nat) (s : State) : State :=
  let compat := s.rd (Obj.pgCompat g) == 1
  let s := if !compat then clearGroup g s else if s.rd (Obj.pgState g) = 4 then s else powerUpGroup g s
  (s.setPan g { s.pan g with compatNow := compat, powering := true }).wr (Obj.pgState g) 3

/-- A write of PG_POWER (R262, R263). OFF and RETENTION reach each other only through ON. -/
def writePgPower (g v : Nat) (s : State) : State × Nat :=
  let st := s.rd (Obj.pgState g)
  let target := if v = 2 then 4 else v
  if v = 2 ∧ s.rd (Obj.pgCompat g) = 0 then (s, abValue)
  else if st = 2 ∨ st = 3 then (s, abState)
  else if st = target then (s.wr (Obj.pgPower g) v, abNone)
  else if v = 1 then (powerUp g (s.wr (Obj.pgPower g) 1), abNone)
  else if st ≠ 1 ∨ groupInUse s g then (s, abState)
  else
    let s := s.setPan g { s.pan g with compatNow := s.rd (Obj.pgCompat g) == 1, powering := true }
    ((s.wr (Obj.pgPower g) v).wr (Obj.pgState g) target, abNone)

/-- PG_POWER_TRANSITION_COMPLETE. -/
def execPgPowerTransitionComplete (g : Fin 8) (s : State) : Host.Outcome State Fault Refusal :=
  let k := g.val
  let x := s.pan k
  .next (if !x.powering || !awake s then s
    else
      let s := s.setPan k { x with powering := false }
      if s.rd (Obj.pgState k) ≠ 3 then s
      else if x.revoked then finishHandover k s
      else s.wr (Obj.pgState k) 1)

/-- A write of PG_COMPAT (R262). -/
def writePgCompat (g v : Nat) (s : State) : State × Nat :=
  let st := s.rd (Obj.pgState g)
  if st = 0 ∨ st = 1 then (s.wr (Obj.pgCompat g) v, abNone) else (s, abState)

/-- PG_CLEAR. -/
def pgClearBits (g v : Nat) (s : State) : State :=
  if v.testBit 0 then zeroRegs [Obj.pgClashes g, Obj.pgRefused g, Obj.pgHandovers g] s else s

/-- A write of FAR_GRANT (R43, R263). -/
def writeFarGrant (n v : Nat) (s : State) : State × Nat :=
  if !grantFits n v s then (s, abValue)
  else if (List.range 8).any fun g => v.testBit g && s.rd (Obj.pgState g) != 1 && s.rd (Obj.pgState g) != 2 then (s, abState)
  else (putGrant n v s, abNone)

end Sys2Proof.Machine
end

