-- ==== Sys2Proof/Machine/Dma.lean ====
section
/-! DEFINITION. The DMA engine: descriptor rings, beats, arbitration, retries, completion, aborts (R272 to R288). A row names the
channel of the next beat of an engine; it is that beat where the arbiter of R280 chooses the channel, and none where it chooses
another. -/

namespace Sys2Proof.Machine

/-! States (R273). -/

def dmaOff : Nat := 0
def dmaIdle : Nat := 1
def dmaActive : Nat := 2
def dmaHalted : Nat := 3

/-! The reach of a channel (R285). -/

/-- Check a beat of channel `ch`. One that acts for the host has the host's groups too, those being handed over or powered up for the
host included, whose accesses wait (R259, R262). -/
def dmaCheck (s : State) (ch : Nat) (write : Bool) (a : Nat) : FabResult :=
  match fabCheck masterDma write a s, regionOf a with
  | .ok, _ => .ok
  | r, .shared _ _ =>
    if s.rd (Obj.dmaAgent ch) ≠ 1 then r
    else match r, fabCheck masterHost write a s with
      | .deny _, h => h
      | .wait, .ok => .ok
      | _, _ => r
  | r, _ => r

/-! The descriptor (R272, R275, R276). -/

/-- The fabric address of the head descriptor. -/
def headAddr (s : State) (ch : Nat) : Nat := s.rd (Obj.dmaRingBase ch) + 32 * s.rd (Obj.dmaHead ch)

/-- One side of a transfer: address, line length, lines, stride. -/
structure Side where
  addr   : Nat
  len    : Nat
  lines  : Nat
  stride : Int

/-- The source (`k` = 0) or destination (`k` = 1) side of a descriptor. -/
def sideOf (d : List Word) (k : Nat) : Side :=
  let w (i : Nat) : Word := d.getD i 0
  let hi := if k = 0 then ((w 0).extractLsb' 8 8).toNat else ((w 0).extractLsb' 0 8).toNat
  { addr := hi * 2 ^ 32 + (w (2 + k)).toNat, len := ((w (4 + 2 * k)).extractLsb' 0 20).toNat
    lines := ((w (4 + 2 * k)).extractLsb' 20 12).toNat + 1, stride := (w (5 + 2 * k)).toInt }

/-- The address of byte `o` of the stream on a side, modulo 2^40. -/
def Side.at (x : Side) (o : Nat) : Nat := ofSigned 40 ((x.addr + o % x.len : Nat) + (o / x.len : Nat) * x.stride)

/-- The lowest and the highest byte of the lines of a side; a line that passes 2^40 has bytes at both ends. -/
def Side.span (x : Side) : Nat × Nat :=
  (List.range x.lines).foldl (fun r j =>
    let a := x.at (j * x.len)
    if 2 ^ 40 < a + x.len then (0, 2 ^ 40 - 1) else (min r.1 a, max r.2 (a + x.len - 1))) (2 ^ 40, 0)

/-- Whether a descriptor may run (R276). -/
def descGood (d : List Word) : Bool :=
  let a := sideOf d 0
  let b := sideOf d 1
  a.len != 0 && b.len != 0 && a.lines * a.len == b.lines * b.len && (d.getD 0 0).extractLsb' 16 14 == 0 &&
    (decide (a.span.2 < b.span.1) || decide (b.span.2 < a.span.1))

def dmaTotal (d : List Word) : Nat := (sideOf d 0).lines * (sideOf d 0).len

/-! Halts (R281 to R283). -/

/-- A fault of channel `ch` (R288): `k` is the last digit of its code. While its bit is set, nothing more is raised or counted. -/
def dmaFault (k ch status : Nat) (s : State) : State :=
  if (s.rd (Obj.dmaFaults ch)).testBit (k - 1) then s
  else raiseSticky (Obj.dmaFaults ch) (k - 1) (0x7000 + k) ch status (headAddr s ch) s

/-- The channel stops with a status; its buffer entries are freed and its retries dropped. -/
def dmaStop (ch status : Nat) (s : State) : State :=
  ((s.setDma ch {}).wr (Obj.dmaLastStatus ch) status).wr (Obj.dmaState ch) dmaHalted

/-- Halt with fault 0x7003 (R282). -/
def dmaHaltWriteback (ch : Nat) (s : State) : State := pendAll 6 (dmaFault 3 ch 0x7003 (dmaStop ch 0x7003 s))

/-- Write word 1 of the head descriptor. -/
def putStatus (ch status side : Nat) (s : State) : State :=
  s.setMemWord (headAddr s ch + 4) (BitVec.ofNat 32 (status * 0x10000 + side * 8 + (s.dmaCh ch).retryMax))

/-- Whether the ring's group allows the channel a write of its descriptor; one held by a handover lands later. -/
def ringWritable (s : State) (ch : Nat) : Bool := match dmaCheck s ch true (headAddr s ch) with
  | .deny _ => false
  | _ => true

/-- A beat of a write-back meets a bus error (R281, R282): it waits for a retry, or the channel halts with 0x7003. -/
def writebackError (ch code : Nat) (s : State) : State :=
  let s := fabReport code masterDma ch (headAddr s ch) s
  let x := s.dmaCh ch
  if x.wrTries < s.rd (Obj.dmaRetries ch) then s.setDma ch { x with waitWr := true } else dmaHaltWriteback ch s

/-- Write word 1 of the head for a halt with code 0x700k, and halt (R281, R282). -/
def haltNow (ch : Nat) (s : State) : State :=
  let (k, side) := (s.dmaCh ch).halt
  match dmaCheck s ch true (headAddr s ch) with
  | .wait => s
  | .deny code => writebackError ch code s
  | .ok => pendAll 6 (dmaFault k ch (0x7000 + k) (dmaStop ch (0x7000 + k) (putStatus ch (0x7000 + k) side s)))

/-- Halt with a status that is to be written into the descriptor and its fault (R281, R282): the data beats end, and the buffer
entries are freed. -/
def dmaHalt (ch k side : Nat) (s : State) : State :=
  let x := s.dmaCh ch
  haltNow ch (s.setDma ch { desc := x.desc, wr := x.wr, rd := x.rd, retryMax := x.retryMax, phase := 4, halt := (k, side) })

/-- A data beat or a descriptor read meets a bus error (R281): it waits for a retry, or the channel halts. -/
def beatError (ch : Nat) (write : Bool) (code a : Nat) (s : State) : State :=
  let s := fabReport code masterDma ch a s
  let x := s.dmaCh ch
  let tries := if write then x.wrTries else x.rdTries
  if tries < s.rd (Obj.dmaRetries ch) then s.setDma ch (if write then { x with waitWr := true } else { x with waitRd := true })
  else if x.phase = 1 then dmaHalt ch 1 write.toNat s
  else dmaHaltWriteback ch s

/-! The beats. -/

/-- Read the head descriptor (R274). -/
def headRead (ch : Nat) (s : State) : State :=
  let a := headAddr s ch
  match dmaCheck s ch false a with
  | .wait => s
  | .deny code => beatError ch false code a s
  | .ok =>
    let d := (List.range 8).map fun k => fabRead s (a + 4 * k)
    let tries := (s.dmaCh ch).rdTries
    let s := s.setDma ch { s.dmaCh ch with rdTries := 0, waitRd := false }
    if !(d.headD 0).getLsbD 31 then s
    else
      let s := (s.setDma ch { ({} : DmaChan) with desc := d, phase := 1, retryMax := tries }).wr (Obj.dmaState ch) dmaActive
      if descGood d then s else dmaHalt ch 2 0 s

/-- Buffer entries in use (R279). -/
def DmaChan.entries (x : DmaChan) : Nat := x.buf.length + x.issRd.toNat
def dmaBufUsed (s : State) : Nat := s.dma.foldl (fun n x => n + x.2.entries) 0
def dmaLowUsed (s : State) : Nat := s.dma.foldl (fun n x => if s.rd (Obj.dmaPrio x.1) = 3 then n else n + x.2.entries) 0

/-- Whether channel `ch` has or may take the buffer entry of its next read beat. -/
def entryFree (s : State) (ch : Nat) : Bool :=
  (s.dmaCh ch).issRd || (decide ((s.dmaCh ch).entries < 32) && decide (dmaBufUsed s < 256) &&
    (s.rd (Obj.dmaPrio ch) == 3 || decide (dmaLowUsed s < 224)))

/-- Issue the next read beat of a channel (R278): it takes its buffer entry, and keeps it while it is held or waits for a retry. -/
def dmaReadNow (ch : Nat) (s : State) : State :=
  let x := { s.dmaCh ch with issRd := true }
  let s := s.setDma ch x
  let src := sideOf x.desc 0
  let a := src.at x.rd
  let n := min (64 - a % 64) (src.len - x.rd % src.len)
  match dmaCheck s ch false a with
  | .wait => s
  | .deny code => beatError ch false code a s
  | .ok =>
    if readFails s [(a, n)] then beatError ch false 0x8003 (a / 64 * 64) s
    else
    let bytes := (List.range n).map fun k => readByte s.mem (physAddr s (a + k))
    (noteReads masterDma [(a, n)] s).setDma ch
      { x with buf := x.buf ++ [⟨x.rd, bytes⟩], rd := x.rd + n, rdTries := 0, issRd := false }

/-- The byte at stream position `o` of the buffer. -/
def bufByte (x : DmaChan) (o : Nat) : Byte :=
  match x.buf.find? fun b => decide (b.off ≤ o) && decide (o < b.off + b.bytes.length) with
  | some b => b.bytes.getD (o - b.off) 0
  | none => 0

/-- Write the bytes of one destination beat with byte enables; words of a lane's shadow side follow R127, a word of a marked pair
that the beat covers in part is not written. -/
def dmaPut (a : Nat) (bytes : List Byte) (s : State) : State :=
  match regionOf a with
  | .shadow n _ =>
    let lo := a / 4 * 4
    let words := (List.range ((a + bytes.length - lo + 3) / 4)).map (lo + 4 * ·)
    let full (b : Nat) : Bool := decide (a ≤ b) && decide (b + 4 ≤ a + bytes.length)
    let val (b : Nat) : Word := readWord (writeBytes s.mem (physAddr s a) bytes) (physAddr s b)
    let s := fabWrite masterDma ((words.filter full).map fun b => (b, val b)) s
    forList (words.filter fun b => !full b) (fun b s =>
      let k := (b % 0x40000 - 0x20000) / 4
      if marked s n k || (0 < k && marked s n (k - 1)) then raise 0x9005 masterDma 0 b s
      else (noteShadowWrite n k s).setMemWord (physAddr s b) (val b)) s
  | _ => panStoreBytes a bytes s

/-- Whether writes to DRAM are paused by hold-safe (R352). -/
def dramPaused (s : State) (a : Nat) : Bool := s.rd Obj.holdSafe == 1 && decide (0x100000000 ≤ a)

/-- The next write beat of a channel: its address and length. -/
def writeBeatAt (x : DmaChan) : Nat × Nat :=
  let dst := sideOf x.desc 1
  let a := dst.at x.wr
  (a, min (64 - a % 64) (dst.len - x.wr % dst.len))

/-- Whether the data of a channel's next write beat is in the buffer and may be written now. -/
def writeDue (s : State) (x : DmaChan) : Bool :=
  decide (x.wr < dmaTotal x.desc) && decide (x.wr + (writeBeatAt x).2 ≤ x.rd) && !dramPaused s (writeBeatAt x).1

/-- Issue the next write beat of a channel (R278). A beat that the exchange pan refuses is dropped and is no bus error (R253,
R281); a beat held by a handover has been issued. -/
def dmaWriteNow (ch : Nat) (s : State) : State :=
  let x := s.dmaCh ch
  let (a, n) := writeBeatAt x
  let ended (s : State) : State :=
    let wr := x.wr + n
    s.setDma ch { x with
      wr := wr, wrTries := 0, issWr := false, buf := x.buf.filter fun b => decide (wr < b.off + b.bytes.length) }
  if !writeDue s x then s
  else match dmaCheck s ch true a with
    | .wait => s.setDma ch { x with issWr := true }
    | .deny code => if code = 0x8006 then ended (fabReport code masterDma ch a s) else beatError ch true code a s
    | .ok =>
      let s := ended (dmaPut a ((List.range n).map fun k => bufByte x (x.wr + k)) s)
      s.wr (Obj.dmaBytes ch) ((s.rd (Obj.dmaBytes ch) + n) % 2 ^ 64)

/-- Write word 1 with status 0 (R277, step 1). -/
def statusNow (ch : Nat) (s : State) : State :=
  let s := s.setDma ch { s.dmaCh ch with issSt := true }
  match dmaCheck s ch true (headAddr s ch) with
  | .wait => s
  | .deny code => writebackError ch code s
  | .ok => let s := putStatus ch 0 0 s; s.setDma ch { s.dmaCh ch with phase := 2, wrTries := 0 }

/-- Clear OWN through byte 3 alone. -/
def clearOwn (ch : Nat) (s : State) : State :=
  let a := headAddr s ch + 3
  { s with mem := writeByte s.mem a (readByte s.mem a &&& 0x7F) }

/-- Clear OWN (R277, step 2). -/
def ownNow (ch : Nat) (s : State) : State :=
  match dmaCheck s ch true (headAddr s ch) with
  | .wait => s
  | .deny code => writebackError ch code s
  | .ok => let s := clearOwn ch s; s.setDma ch { s.dmaCh ch with phase := 3, wrTries := 0 }

/-- Whether the DMA engine issues beats (R344, R346). -/
def dmaRuns (s : State) : Bool := awake s && !quiet s

/-- Whether channel `ch` is ACTIVE in a phase. -/
def dmaIn (s : State) (ch phase : Nat) : Bool :=
  awake s && s.rd (Obj.dmaState ch) == dmaActive && (s.dmaCh ch).phase == phase

def advanceHead (ch : Nat) (s : State) : State :=
  s.wr (Obj.dmaHead ch) ((s.rd (Obj.dmaHead ch) + 1) % s.rd (Obj.dmaRingSize ch))

/-- The clear of OWN by a skip (R284): refused past its retries, the channel stays HALTED with fault 0x7003. -/
def skipNow (ch : Nat) (s : State) : State :=
  match dmaCheck s ch true (headAddr s ch) with
  | .wait => s
  | .deny code =>
    let s := fabReport code masterDma ch (headAddr s ch) s
    let x := s.dmaCh ch
    if x.wrTries < s.rd (Obj.dmaRetries ch) then s.setDma ch { x with waitWr := true }
    else dmaFault 3 ch 0x7003 ((s.setDma ch {}).wr (Obj.dmaLastStatus ch) 0x7003)
  | .ok => ((advanceHead ch (clearOwn ch s)).setDma ch {}).wr (Obj.dmaState ch) dmaIdle

/-! Arbitration (R280). `e` is 0 for the read engine and 1 for the write engine. -/

/-- Whether a channel has work for an engine; a head poll and a retry have it when their row comes. -/
def hasWork (s : State) (e ch : Nat) : Bool :=
  let x := s.dmaCh ch
  if e = 0 then dmaIn s ch 1 && !x.aborting && !x.waitRd && decide (x.rd < dmaTotal x.desc) && entryFree s ch
  else !x.waitWr && ((dmaIn s ch 1 && ((!x.aborting && writeDue s x) || ((!x.aborting || x.issSt) && x.wr == dmaTotal x.desc))) ||
    dmaIn s ch 2 || dmaIn s ch 4 || (s.rd (Obj.dmaState ch) == dmaHalted && x.phase == 5))

/-- The first channel of a list in round robin after `last`. -/
def nextAfter (last : Nat) (cs : List Nat) : Option Nat := (cs.find? fun c => decide (last < c)).or cs.head?

/-- The channel that an engine serves next, where the channels `cs`, in rising order, have work. -/
def arbPick (s : State) (e : Nat) (cs : List Nat) : Option Nat :=
  let a := s.dmaArb.get {} e
  let prio (c : Nat) : Nat := s.rd (Obj.dmaPrio c)
  let high := cs.filter fun c => prio c == 3
  if !high.isEmpty then nextAfter a.last3 high
  else if cs.contains a.cur && decide (a.beats < 16) then some a.cur
  else
    let top := cs.foldl (fun m c => max m (prio c)) 0
    nextAfter a.cur (cs.filter fun c => prio c == top)

/-- Whether the next beat of an engine is channel `ch`'s, which has work. -/
def dmaTurn (s : State) (e ch : Nat) : Bool :=
  dmaRuns s && arbPick s e ((List.range 32).filter fun c => c == ch || hasWork s e c) == some ch

/-- The engine serves a beat of channel `ch`. -/
def arbTake (e ch : Nat) (s : State) : State :=
  let a := s.dmaArb.get {} e
  let a := if s.rd (Obj.dmaPrio ch) = 3 then { a with last3 := ch }
    else if a.cur = ch ∧ a.beats < 16 then { a with beats := a.beats + 1 } else { a with cur := ch, beats := 1 }
  { s with dmaArb := s.dmaArb.set {} e a }

/-- A channel's descriptor has ended for an engine: so has its burst. -/
def arbEnd (e ch : Nat) (s : State) : State :=
  let a := s.dmaArb.get {} e
  if a.cur = ch then { s with dmaArb := s.dmaArb.set {} e { a with beats := 16 } } else s

/-- One beat of channel `ch` on an engine; nothing where `due` fails or the engine serves another channel. -/
def dmaBeat (e ch : Nat) (due : Bool) (beat : State → State) (s : State) : State :=
  if due && dmaTurn s e ch then beat (arbTake e ch s) else s

/-- A supervisor abort reports itself (R283). -/
def abortReport (ch : Nat) (sup : Bool) (s : State) : State := if sup then pendAll 6 (dmaFault 4 ch 0x7004 s) else s

def abortStatus (sup : Bool) : Nat := if sup then 0x7004 else 0x7005

/-! The rows. -/

def execDmaHeadPoll (ch : Fin 32) (s : State) : Host.Outcome State Fault Refusal :=
  .next (dmaBeat 0 ch.val (s.rd (Obj.dmaState ch.val) == dmaIdle && !(s.dmaCh ch.val).waitRd) (headRead ch.val) s)

/-- The last read beat of a descriptor ends the burst of the read engine. -/
def readStep (ch : Nat) (s : State) : State :=
  let s := dmaReadNow ch s
  if (s.dmaCh ch).rd = dmaTotal (s.dmaCh ch).desc then arbEnd 0 ch s else s

def execDmaReadBeat (ch : Fin 32) (s : State) : Host.Outcome State Fault Refusal :=
  .next (dmaBeat 0 ch.val (hasWork s 0 ch.val) (readStep ch.val) s)

def execDmaWriteBeat (ch : Fin 32) (s : State) : Host.Outcome State Fault Refusal :=
  let x := s.dmaCh ch.val
  .next (dmaBeat 1 ch.val (dmaIn s ch.val 1 && !x.aborting && !x.waitWr && writeDue s x) (dmaWriteNow ch.val) s)

/-- A beat of the write engine that waited for its retry is issued again. -/
def retryWrite (ch : Nat) (s : State) : State :=
  let x := s.dmaCh ch
  match x.phase with
  | 2 => ownNow ch s
  | 4 => haltNow ch s
  | 5 => skipNow ch s
  | _ => if x.wr = dmaTotal x.desc then statusNow ch s else dmaWriteNow ch s

/-- DMA_BEAT_RETRY: the waiting beat is issued again and counts (R281); of two waiting beats, the write. A beat that hold-safe keeps
waiting is no retry (R351). -/
def execDmaBeatRetry (ch : Fin 32) (s : State) : Host.Outcome State Fault Refusal :=
  let k := ch.val
  let x := s.dmaCh k
  let data := x.phase == 1 && x.wr != dmaTotal x.desc
  .next (if x.waitWr then
      dmaBeat 1 k (!(data && dramPaused s (writeBeatAt x).1)) (fun s =>
        let s := s.setDma k { x with waitWr := false, wrTries := x.wrTries + 1, retryMax := max x.retryMax (x.wrTries + 1) }
        retryWrite k (s.inc (Obj.dmaRetried k))) s
    else if x.waitRd then
      dmaBeat 0 k true (fun s =>
        let s := s.setDma k { x with waitRd := false, rdTries := x.rdTries + 1, retryMax := max x.retryMax (x.rdTries + 1) }
        let s := s.inc (Obj.dmaRetried k)
        if x.phase = 1 then readStep k s else headRead k s) s
    else s)

/-- DMA_STATUS_WRITEBACK: word 1 of a descriptor whose data has landed, or of one that halts. -/
def execDmaStatusWriteback (ch : Fin 32) (s : State) : Host.Outcome State Fault Refusal :=
  let k := ch.val
  let x := s.dmaCh k
  .next (if x.phase = 4 then dmaBeat 1 k (dmaIn s k 4 && !x.waitWr) (haltNow k) s
    else dmaBeat 1 k (dmaIn s k 1 && (!x.aborting || x.issSt) && !x.waitWr && x.wr == dmaTotal x.desc) (statusNow k) s)

/-- DMA_OWN_CLEAR: of a descriptor that has completed, or of one that a command skips. -/
def execDmaOwnClear (ch : Fin 32) (s : State) : Host.Outcome State Fault Refusal :=
  let k := ch.val
  let x := s.dmaCh k
  .next (if x.phase = 5 then dmaBeat 1 k (s.rd (Obj.dmaState k) == dmaHalted && !x.waitWr) (skipNow k) s
    else dmaBeat 1 k (dmaIn s k 2 && !x.waitWr) (fun s => arbEnd 1 k (ownNow k s)) s)

/-- DMA_HEAD_ADVANCE (R277, step 3; R283 for an abort that came late). Where the engine has stopped for NAP the next head waits. -/
def execDmaHeadAdvance (ch : Fin 32) (s : State) : Host.Outcome State Fault Refusal :=
  let k := ch.val
  let x := s.dmaCh k
  .next (if !dmaIn s k 3 then s
    else
      let s := (s.inc (Obj.dmaDone k)).wr (Obj.dmaLastStatus k) 0
      let s := if (x.desc.headD 0).getLsbD 30 then pendAll 5 s else s
      let s := advanceHead k s
      if x.aborting then abortReport k x.abortSup (dmaStop k (abortStatus x.abortSup) s)
      else
        let s := (s.setDma k {}).wr (Obj.dmaState k) dmaIdle
        if quiet s then s else headRead k s)

/-- DMA_ABORT_SETTLE (R283, steps 2 to 5): a write beat that was issued and held still lands. -/
def execDmaAbortSettle (ch : Fin 32) (s : State) : Host.Outcome State Fault Refusal :=
  let k := ch.val
  let x := s.dmaCh k
  .next (if !(dmaIn s k 1 || dmaIn s k 4) || !x.aborting || x.issSt then s
    else
      let st := abortStatus x.abortSup
      let s := if x.issWr && dmaCheck s k true (writeBeatAt x).1 == .ok then dmaWriteNow k s else s
      let s := if ringWritable s k then putStatus k st 0 s else s
      abortReport k x.abortSup (dmaStop k st s))

/-- An abort by a command or by the supervisor (R283). Beats not issued, buffer entries and retries go, but for the write of word 1
with status 0 once issued and a write beat that is held. -/
def dmaAbort (ch : Nat) (sup : Bool) (s : State) : State :=
  let x := s.dmaCh ch
  let st := s.rd (Obj.dmaState ch)
  if st = dmaIdle then abortReport ch sup (dmaStop ch (abortStatus sup) s)
  else if st = dmaActive ∧ !x.aborting then
    let y := { x with aborting := true, abortSup := sup }
    s.setDma ch (if (x.phase = 1 ∨ x.phase = 4) ∧ !x.issSt then
      { y with buf := if x.issWr then x.buf else [], issRd := false, waitRd := false, waitWr := false } else y)
  else s

/-- Whether a ring keeps R272. -/
def ringGood (base size : Nat) : Bool :=
  base % 32 == 0 && decide (0x1000000 ≤ base) && decide (base + 32 * size ≤ 0x2000000) &&
    (base - 0x1000000) / 0x200000 == (base + 32 * size - 1 - 0x1000000) / 0x200000

/-- A write of DMA_ENABLE (R273, R287). -/
def writeDmaEnable (ch v : Nat) (s : State) : State × Nat :=
  let st := s.rd (Obj.dmaState ch)
  if v = 0 then
    if st = dmaActive then (s, abState)
    else (((s.setDma ch {}).wr (Obj.dmaState ch) dmaOff).wr (Obj.dmaEnable ch) 0, abNone)
  else if st ≠ dmaOff then (s, abNone)
  else if !ringGood (s.rd (Obj.dmaRingBase ch)) (s.rd (Obj.dmaRingSize ch)) then (s.wr (Obj.dmaLastStatus ch) 0x7101, abState)
  else
    let s := (s.setDma ch {}).wr (Obj.dmaState ch) dmaIdle
    (((s.wr (Obj.dmaHead ch) 0).wr (Obj.dmaBytes ch) 0).wr (Obj.dmaEnable ch) 1, abNone)

/-- A skip (R284). -/
def dmaSkip (ch : Nat) (s : State) : State := skipNow ch (s.setDma ch { phase := 5 })

/-- A write of DMA_CMD (R274, R283, R284). -/
def writeDmaCmd (ch v : Nat) (s : State) : State × Nat :=
  let st := s.rd (Obj.dmaState ch)
  match v with
  | 1 => (if st = dmaIdle ∧ !(s.dmaCh ch).waitRd ∧ dmaRuns s then headRead ch s else s, abNone)
  | 2 => (dmaAbort ch false s, abNone)
  | 3 => if st = dmaHalted then ((s.setDma ch {}).wr (Obj.dmaState ch) dmaIdle, abNone) else (s, abState)
  | _ => if st = dmaHalted then (dmaSkip ch s, abNone) else (s, abState)

/-- DMA_CLEAR. -/
def dmaClearBits (ch v : Nat) (s : State) : State :=
  let s := if v.testBit 0 then clearSticky 0x7001 4 ((List.range 32).map Obj.dmaFaults) [Obj.dmaFaults ch] s else s
  if v.testBit 1 then zeroRegs [Obj.dmaDone ch, Obj.dmaBytes ch, Obj.dmaRetried ch] s else s

end Sys2Proof.Machine
end

