-- ==== Sys2Proof/Machine/Shifts.lean ====
section
/-! DEFINITION. Shifts of A and of a memory word (R103). -/

namespace Sys2Proof.Machine

/-- Reserved bits 7:6 of a count byte (R83, R88). -/
def countReasons (n : Byte) : List Nat := if 64 ≤ n.toNat then [0x07] else []

def shiftA (k : Shift) (n : Nat) (a : Acc) : Acc × FlagSet :=
  let (x, cy, v) := shiftBits k a n
  (x, shiftFlags x cy v)

def shiftABody (k : Shift) (n : Byte) (_ : Cx) (r : Regs) : Eff :=
  let (a, fl) := shiftA k n.toNat r.a
  { upd := fun t => { t with a := a }, fl := fl }

/-- A shift of the word at ea, in place. On a refused far address its operand and its write each count (R46 counts each word operand
and each write; DEDUCED for a shift, which makes both). -/
def shiftMemBody (k : Shift) (o : Operand) (n : Byte) (c : Cx) (r : Regs) : Hv Eff := do
  let (w, _) ← operand c r o
  let (x, cy, v) := shiftBits k w n.toNat
  pure { writes := storeTo c r o x, upd := postMod r o, fl := shiftFlags x cy v }

/-- Run a shift of A. -/
def runShift (k : Shift) (u : Agent) (p : Prefix) (n : Byte) (s : State) : Host.Outcome State Fault Refusal :=
  runInstr u p { len := 2, reasons := countReasons n } 1 (fun c r => pure (shiftABody k n c r)) s

/-- The shape of format M, on which R80 allows no WIDE: an immediate has the bytes of its SIZE (R84). -/
def shapeM (u : Agent) (p : Prefix) (o : Operand) (n : Byte) : Shape :=
  let sh := shapeD u { p with wide := false } false false true o
  { sh with len := sh.len + 1, reasons := sh.reasons ++ countReasons n }

/-- Run a shift of a memory word, format M. -/
def runShiftMem (k : Shift) (u : Agent) (p : Prefix) (o : Operand) (n : Byte) (s : State) :
    Host.Outcome State Fault Refusal :=
  runInstr u p (shapeM u p o n) 1 (shiftMemBody k o n) s

def execLsl (u : Agent) (p : Prefix) (n : Byte) (s : State) : Host.Outcome State Fault Refusal := runShift .lsl u p n s
def execLsr (u : Agent) (p : Prefix) (n : Byte) (s : State) : Host.Outcome State Fault Refusal := runShift .lsr u p n s
def execAsr (u : Agent) (p : Prefix) (n : Byte) (s : State) : Host.Outcome State Fault Refusal := runShift .asr u p n s
def execRol (u : Agent) (p : Prefix) (n : Byte) (s : State) : Host.Outcome State Fault Refusal := runShift .rol u p n s

def execLslMem (u : Agent) (p : Prefix) (o : Operand) (n : Byte) (s : State) : Host.Outcome State Fault Refusal :=
  runShiftMem .lsl u p o n s
def execLsrMem (u : Agent) (p : Prefix) (o : Operand) (n : Byte) (s : State) : Host.Outcome State Fault Refusal :=
  runShiftMem .lsr u p o n s
def execAsrMem (u : Agent) (p : Prefix) (o : Operand) (n : Byte) (s : State) : Host.Outcome State Fault Refusal :=
  runShiftMem .asr u p o n s
def execRolMem (u : Agent) (p : Prefix) (o : Operand) (n : Byte) (s : State) : Host.Outcome State Fault Refusal :=
  runShiftMem .rol u p o n s

end Sys2Proof.Machine
end

