-- ==== Sys2Proof/Machine/UserOps.lean ====
section
/-! DEFINITION. User opcodes: the layout and validity of decode-table entries (R132 to R140) and their execution (R141 to
R143). -/

namespace Sys2Proof.Machine

/-! Entries (R134, R137): a 160-bit number, byte 0 lowest. -/

def dtHeader (e : Nat) : Nat := e % 2 ^ 32
def dtValid (e : Nat) : Bool := e.testBit 31
def dtForm (e : Nat) : Nat := e / 2 ^ 28 % 4
def dtModes (e : Nat) : Nat := e / 2 ^ 24 % 16
def dtFlags (e : Nat) : Bool := e.testBit 19
def dtNuop (e : Nat) : Nat := e / 2 ^ 16 % 8 + 1
def dtCost (e : Nat) : Nat := e % 16 + 1
def dtUop (e k : Nat) : Nat := e / 2 ^ (32 + 16 * k) % 2 ^ 16
def dtUops (e : Nat) : List Nat := (List.range (dtNuop e)).map (dtUop e)

def uCode (u : Nat) : Nat := u / 2048 % 32
def uEnd (u : Nat) : Bool := u.testBit 10
def uT (u : Nat) : Nat := u / 256 % 2
def uS (u : Nat) : Nat := u / 256 % 4
def uK (u : Nat) : Nat := u % 4

/-- The argument bits a micro-operation uses (R137). -/
def uMask (code : Nat) : Nat :=
  if code = 0x05 ∨ code = 0x06 ∨ code = 0x07 then 0x300
  else if code = 0x10 ∨ code = 0x11 then 0x3
  else if code = 0x12 ∨ code = 0x13 then 0x3F
  else if code = 0x08 ∨ code = 0x09 ∨ code = 0x0A ∨ code = 0x14 ∨ code = 0x15 then 0
  else 0x100

/-- Whether a micro-operation holds no reserved code or source or step. A reserved bit is ignored (R10). -/
def uopGood (u : Nat) : Bool :=
  let c := uCode u
  decide (1 ≤ c) && decide (c ≤ 0x17) &&
  (!(c == 5 || c == 6 || c == 7) || uS u != 3) && (!(c == 0x10 || c == 0x11) || uK u != 0)

/-- Cut a list of micro-operations into steps, each ended by END. -/
def stepsOf : List Nat → List Nat → List (List Nat)
  | [], [] => []
  | [], cur => [cur.reverse]
  | u :: us, cur => if uEnd u then (u :: cur).reverse :: stepsOf us [] else stepsOf us (u :: cur)

/-- Whether a step obeys R138. `mem` says that the operand may be a D operand. -/
def stepGood (mem : Bool) (st : List Nat) : Bool :=
  let count (p : Nat → Bool) : Nat := (st.filter p).length
  let wrT (t : Nat) (u : Nat) : Bool := ([1, 2, 3, 4, 0x0E, 0x0F, 0x16, 0x17].contains (uCode u)) && uT u == t
  decide (count (fun u => uCode u == 1 || uCode u == 2 || (mem && uCode u == 3)) ≤ 2) &&
  decide (count (fun u => uCode u == 5 || uCode u == 6 || uCode u == 7) ≤ 1) &&
  decide (count (fun u => [8, 9, 0x0A, 0x0B, 0x0C, 0x0D, 0x12, 0x13, 0x14, 0x15].contains (uCode u)) ≤ 1) &&
  decide (count (wrT 0) ≤ 1) && decide (count (wrT 1) ≤ 1) &&
  decide (count (fun u => uCode u == 0x10) ≤ 1) && decide (count (fun u => uCode u == 0x11) ≤ 1)

/-- An entry as it is kept: its reserved bits are zero (R10). -/
def dtClean (e : Nat) : Nat :=
  let h := e % 2 ^ 32 &&& 0xB70F000F
  (List.range 8).foldl (fun v k =>
    let u := dtUop e k
    let m := if uCode u = 0 then 0 else 0xFC00 + uMask (uCode u)
    v + (if k < dtNuop e then u &&& m else u) * 2 ^ (32 + 16 * k)) h

/-- Whether an entry may be written (R140). An entry with VALID 0 is unprogrammed and only its reserved fields count. -/
def dtEntryGood (e : Nat) : Bool :=
  let us := dtUops e
  let steps := stepsOf us []
  let form := dtForm e
  let modes := dtModes e
  if !dtValid e then form != 3 && decide (modes < 8)
  else
    form != 3 && decide (modes < 8) && (form == 1 || modes == 0) &&
    (match us.getLast? with
      | some u => uEnd u
      | none => false) &&
    (List.range 8).all (fun k => decide (k < dtNuop e) || dtUop e k == 0) &&
    us.all uopGood && steps.all (stepGood (modes.testBit 2)) && decide (steps.length ≤ dtCost e) &&
    (us.all fun u => uCode u != 7 || (form == 1 && modes == 4))

/-- The table register of entry `i` for an agent (R132). -/
def dtOf (u : Agent) (i : Nat) : Reg :=
  match u with
  | .lane n => Obj.dtEntry (n.val / 8) i
  | .core c => Obj.dtEntryCore c.val i

/-! Execution (R139, R141 to R143). -/

/-- What an entry has made so far: registers, T0 and T1, which of A, X and Y it wrote, its flags, and its D writes. -/
structure UserSt where
  r      : Regs
  t0     : Word := 0
  t1     : Word := 0
  wroteA : Bool := false
  fl     : FlagSet := {}
  sv     : Bool := false
  writes : List (DAddr × Word) := []

def UserSt.t (x : UserSt) (k : Nat) : Word := if k = 0 then x.t0 else x.t1
def UserSt.setT (x : UserSt) (k : Nat) (w : Word) : UserSt := if k = 0 then { x with t0 := w } else { x with t1 := w }

/-- The source s of a write: T0, T1, or the word view of A. -/
def UserSt.src (x : UserSt) (sat : Bool) (s : Nat) : Word × FlagSet :=
  match s with
  | 0 => (x.t0, {})
  | 1 => (x.t1, {})
  | _ => let (w, ov) := wordView sat x.r.a
         (w, viewFlags ov)

/-- Note the flags of a flag-setting micro-operation: the last one counts; SV follows any that sets V (R143). A flag that it leaves
alone keeps its value from before the entry (DESIGN CHOICE: the rule does not name those it leaves alone). -/
def UserSt.note (x : UserSt) (f : FlagSet) : UserSt := { x with fl := f, sv := x.sv || f.v == some true }

/-- The reads of a step from D space: which temporary, what address or the operand. -/
def readUop (c : Cx) (o : Operand) (arg : Word) (form : Nat) (b : UserSt) (u : Nat) : Hv Word :=
  match uCode u with
  | 1 => dRead c b.r.x
  | 2 => dRead c b.r.y
  | _ => if form = 1 then do
      let (w, _) ← operand c b.r o
      pure w
    else pure arg

/-- The address a D read competes at, for the order of two reads of a step (R41). -/
def readAddr (o : Operand) (b : UserSt) (u : Nat) : Nat :=
  match uCode u with
  | 1 => b.r.x.toNat
  | 2 => b.r.y.toNat
  | _ => match effAddr b.r o with
    | some (ea, _) => ea.toNat
    | none => 0

/-- One micro-operation other than a read: it reads `b`, the state before the step, and writes `x`. -/
def runUop (c : Cx) (o : Operand) (b : UserSt) (u : Nat) (x : UserSt) : UserSt :=
  let sat := c.sat
  let setA (v : Acc × FlagSet) : UserSt := { x with r := { x.r with a := v.1 }, wroteA := true }.note v.2
  let store (ws : Word → List (DAddr × Word)) : UserSt :=
    let (w, f) := b.src sat (uS u)
    let x := { x with writes := ws w }
    if uS u = 2 then x.note f else x
  let step (o : DAddr) : Int := match uK u with
    | 1 => o.toInt
    | 2 => 1
    | _ => -1
  match uCode u with
  | 0x04 => let (w, ov) := wordView sat b.r.a
            (x.setT (uT u) w).note (viewFlags ov)
  | 0x05 => store fun w => [(b.r.x, w)]
  | 0x06 => store fun w => [(b.r.y, w)]
  | 0x07 => store fun w => storeTo c b.r o w
  | 0x08 => setA (aluMac sat 0 1 b.t0 b.t1)
  | 0x09 => setA (aluMac sat b.r.a.toInt 1 b.t0 b.t1)
  | 0x0A => setA (aluMac sat b.r.a.toInt (-1) b.t0 b.t1)
  | 0x0B => setA (aluAdd sat b.r.a (b.t (uT u)))
  | 0x0C => setA (aluSub sat b.r.a (b.t (uT u)))
  | 0x0D => { x with r := { x.r with a := extAcc (b.t (uT u)) }, wroteA := true }
  | 0x0E => let (w, f) := aluNeg sat (b.t (uT u))
            (x.setT (uT u) w).note f
  | 0x0F => let (w, f) := aluAbs sat (b.t (uT u))
            (x.setT (uT u) w).note f
  | 0x10 => { x with r := { x.r with x := stepX b.r (step b.r.ox) } }
  | 0x11 => { x with r := { x.r with y := stepY b.r (step b.r.oy) } }
  | 0x12 => setA (shiftA .asr (u % 64) b.r.a)
  | 0x13 => setA (shiftA .lsl (u % 64) b.r.a)
  | 0x14 => setA (aluRnd sat b.r.a)
  | 0x15 => setA (aluSata b.r.a)
  | 0x16 => let w := if b.t1.toInt < b.t0.toInt then b.t0 else b.t1
            (x.setT (uT u) w).note (wordFlags w false)
  | 0x17 => let w := if b.t1.toInt < b.t0.toInt then b.t1 else b.t0
            (x.setT (uT u) w).note (wordFlags w false)
  | _ => x

/-- Run one step of an entry: its reads, lower addresses first, then every other micro-operation, then its D writes (R139). -/
def runStep (c : Cx) (o : Operand) (arg : Word) (form : Nat) (st : List Nat) (b : UserSt) : Hv UserSt := do
  let isRead (u : Nat) : Bool := uCode u == 1 || uCode u == 2 || uCode u == 3
  let reads := st.filter isRead
  let reads := match reads with
    | [u, v] => if readAddr o b v < readAddr o b u then [v, u] else [u, v]
    | l => l
  let x ← reads.foldlM (fun x u => do
    let w ← readUop c o arg form b u
    pure (UserSt.setT x (uT u) w)) { b with writes := [] }
  let x := (st.filter fun u => !isRead u).foldl (fun x u => runUop c o b u x) x
  match c.u with
  | .lane _ => modify (flushMoves c.u c.slot x.writes)
  | .core _ => pure ()
  dWrites c x.writes
  pure x

/-- What an entry has made by the start of a step: on a lane, far reads due by its slot have replaced registers (R44, R139). -/
def farStep (c : Cx) (b : UserSt) : Hv UserSt := do
  match c.u with
  | .core _ => pure b
  | .lane n =>
    modify fun s => farDue n.val c.slot (putRegs c.u b.r s)
    let s ← get
    pure { b with r := regsOf s c.u }

/-- Run the steps of an entry, step j in slot s + j on a lane (R141). -/
def runSteps (c : Cx) (o : Operand) (arg : Word) (form : Nat) : List (List Nat) → UserSt → List (DAddr × Word) →
    Hv (UserSt × List (DAddr × Word))
  | [], b, ws => pure (b, ws)
  | st :: rest, b, ws => do
    let x ← runStep c o arg form st (← farStep c b)
    runSteps { c with slot := if Agent.isLane c.u then c.slot + 1 else c.slot } o arg form rest x (ws ++ x.writes)

/-- Whether an entry writes X (or, for `y`, Y). -/
def movesIndex (y : Bool) (e : Nat) (o : Operand) : Bool :=
  (dtUops e).any (fun u => uCode u == (if y then 0x11 else 0x10)) ||
  (dtForm e == 1 && match o with
    | .idx z post _ => z == y && post != .none
    | _ => false)

/-- The body of a user opcode: its steps, then the post-modification of its operand and its flags (R135, R143). The
post-modification steps the index as the steps left it, a STEPX or STEPY of the last step included (DESIGN CHOICE: R135 and R139
order the two nowhere). -/
def userBody (e : Nat) (o : Operand) (arg : Word) (c : Cx) (r : Regs) : Hv Eff := do
  let form := dtForm e
  let (x, ws) ← runSteps c o arg form (stepsOf (dtUops e) []) { r := r } []
  match c.u with
  | .core _ => modify (flushMoves c.u c.slot ws)
  | .lane _ => pure ()
  let idx := if form = 1 then postMod x.r o x.r else x.r
  let fl : FlagSet := if dtFlags e then x.fl else {}
  pure { upd := fun t => { t with
           a := if x.wroteA then x.r.a else t.a
           x := if movesIndex false e o then idx.x else t.x
           y := if movesIndex true e o then idx.y else t.y }
         fl := { fl with sv := x.sv } }

/-- The shape of a user opcode (R133, R135, R136). -/
def userShape (u : Agent) (p : Prefix) (e : Nat) (arg : UserArg) : Shape :=
  if !dtValid e then { len := 1, reasons := [0x0A] }
  else match arg with
    | .none => { len := 1 }
    | .byte _ => { len := 2 }
    | .desc o => shapeD u p ((dtModes e).testBit 0) ((dtModes e).testBit 1) ((dtModes e).testBit 2) o

/-- Whether the operand bytes are those that FORM declares; the decoder reads no others (R135). -/
def argFits (e : Nat) : UserArg → Bool
  | .none => !dtValid e || dtForm e == 0
  | .desc _ => dtValid e && dtForm e == 1
  | .byte _ => dtValid e && dtForm e == 2

def execUserOpcode (u : Agent) (p : Prefix) (i : Fin 16) (arg : UserArg) (s : State) : Host.Outcome State Fault Refusal :=
  let e := s.rd (dtOf u i.val)
  let (o, w) : Operand × Word := match arg with
    | .none => (.reg 0, 0)
    | .desc o => (o, 0)
    | .byte b => (.reg 0, b.zeroExtend 32)
  if argFits e arg then runInstr u p (userShape u p e arg) (dtCost e) (userBody e o w) s else .next s

end Sys2Proof.Machine
end

