-- ==== Sys2Proof/Machine/Loader.lean ====
section
/-! DEFINITION. A lane program as its load sees it: the decoder of R84 over program bytes, slot costs and the slot map (R33 to
R38, R69), the trigger-group budget (R4, R32), and the checks of R61. -/

namespace Sys2Proof.Machine

/-- Formats of R83. A `d` format carries the accepted modes: 1 REG, 2 IMM, 4 D. -/
inductive Fmt where
  | o
  | d (modes : Nat)
  | p
  | b
  | s
  | m
  | f
  | l
  | u
  deriving DecidableEq, Repr

/-- The opcode map as a lane sees it (R82): the format, and whether the instruction is available on a lane. -/
def opFmt (op : Nat) : Option (Fmt × Bool) :=
  if op = 0x00 ∨ op = 0x46 ∨ op = 0x47 ∨ op = 0x49 ∨ op = 0x4A ∨ op = 0x83 ∨ op = 0x84 ∨ op = 0xAA ∨ op = 0xD7 then some (.o, true)
  else if op = 0xCE ∨ op = 0xD5 ∨ op = 0xD6 then some (.o, false)
  else if op = 0x01 ∨ op = 0x03 ∨ op = 0x04 then some (.d 7, true)
  else if op = 0x02 ∨ op = 0x05 ∨ op = 0x06 then some (.d 4, true)
  else if op = 0x07 then some (.d 3, false)
  else if op = 0x08 ∨ op = 0x09 then some (.p, true)
  else if op = 0x0A ∨ op = 0x0B ∨ op = 0xD4 then some (.d 1, false)
  else if 0x20 ≤ op ∧ op ≤ 0x3F then some (.d 3, true)
  else if (0x40 ≤ op ∧ op ≤ 0x45) ∨ op = 0x48 ∨ (0x80 ≤ op ∧ op ≤ 0x82) then some (.d 7, true)
  else if (0xA0 ≤ op ∧ op ≤ 0xA3) ∨ op = 0xAB then some (.s, true)
  else if 0xA4 ≤ op ∧ op ≤ 0xA7 then some (.m, true)
  else if op = 0xA8 ∨ op = 0xA9 then some (.f, true)
  else if 0xC0 ≤ op ∧ op ≤ 0xCC then some (.b, true)
  else if op = 0xCD then some (.b, false)
  else if 0xD0 ≤ op ∧ op ≤ 0xD3 then some (.l, false)
  else if 0xE0 ≤ op ∧ op ≤ 0xEF then some (.u, true)
  else none

/-- What a decoded instruction does that the load checks. -/
inductive LaneOp where
  | plain
  | branch (disp : Int)
  | io (out : Bool) (pa : Nat)
  | phase
  deriving DecidableEq, Repr

/-- A decoded instruction of a lane program: its length in bytes, whether it is undefined, the slots of one execution, the
times it runs. -/
structure LaneIns where
  len   : Nat
  undef : Bool
  cost  : Nat
  reps  : Nat
  op    : LaneOp
  deriving DecidableEq, Repr

/-- An operand descriptor byte (R75): its mode (1 REG, 2 IMM, 4 D), its extension bytes, and whether a lane finds a reserved
bit, a register it does not have or SPR mode in it; none for a reserved mode or size. -/
def descByte (wide : Bool) (d : Nat) : Option (Nat × Nat × Bool) :=
  match d / 32 with
  | 0 => some (1, 0, decide (14 ≤ d))
  | 1 => if d % 4 = 3 then none else some (2, if wide then 4 else d % 4 + 1, if wide then d != 0x20 else d / 8 % 4 != 0)
  | 2 => some (4, 2 + d % 2, d / 2 % 16 != 0)
  | 3 => if d % 4 = 3 then none else some (4, d % 4, false)
  | 5 => if d % 4 = 3 then none else some (4, d % 4, true)
  | _ => none

/-- The prefixes of an instruction (R80, R84): their codes and the REP count, the bytes they take, and the bytes left. -/
def readPrefixes : Nat → List Byte → List Nat × Nat × Nat × List Byte
  | 0, bs => ([], 1, 0, bs)
  | k + 1, bs =>
    match bs with
    | [] => ([], 1, 0, [])
    | b :: rest =>
      if b = 0xF3 then
        let (ps, m, n, r) := readPrefixes k (rest.drop 1)
        (0xF3 :: ps, if ps.contains 0xF3 then m else (rest.headD 0).toNat + 1, n + 2, r)
      else if b = 0xF0 ∨ b = 0xF1 ∨ b = 0xF2 then
        let (ps, m, n, r) := readPrefixes k rest
        (b.toNat :: ps, m, n + 1, r)
      else ([], 1, 0, bs)

/-- Byte `k` of a list as a number. -/
def byteAt (bs : List Byte) (k : Nat) : Nat := (bs.getD k 0).toNat

/-- Decode the instruction at the head of the program bytes `bs` (R84, R88) under the decode table `tab` of the lane's group. -/
def decodeLane (tab : Nat → Nat) (bs : List Byte) : LaneIns :=
  let (ps, m, n, r) := readPrefixes 2 bs
  let bad (len : Nat) : LaneIns := ⟨min len bs.length, true, 1, 1, .plain⟩
  let op := byteAt r 0
  let wide := ps.contains 0xF0
  let guard := ps.contains 0xF1
  let dup := match ps with
    | [a, b] => a == b
    | _ => false
  let repd := ps.contains 0xF3
  -- The instruction has length `len`, keeps its form's own rules if `ok`, and accepts the prefixes WIDE, GUARD and REP as given.
  let fin (len : Nat) (ok wideOk guardOk repOk : Bool) (cost : Nat) (k : LaneOp) : LaneIns :=
    if bs.length < len || 8 < len || dup || !ok || (wide && !wideOk) || (guard && !guardOk) || (repd && !repOk) then bad len
    else ⟨len, false, cost, m, k⟩
  if 0xF0 ≤ op then bad (n + 1)
  else match opFmt op with
  | none => bad (n + 1)
  | some (fmt, avail) =>
    let b1 := byteAt r 1
    match fmt with
    | .o => fin (n + 1) avail false (op == 0x83 || op == 0x84) (op != 0xD7) 1 (if op = 0xD7 then .phase else .plain)
    | .d modes =>
      match descByte wide b1 with
      | none => bad (n + 2)
      | some (mode, ext, res) =>
        let mov := decide (0x20 ≤ op) && decide (op < 0x40)
        let dest := mov && (decide (op - 0x20 = 13) || decide (14 ≤ op - 0x20))
        fin (n + 2 + ext) (avail && !res && modes &&& mode != 0 && !dest) (mode == 2) (mode == 4) true
          (if op = 0x48 then 17 else 1) .plain
    | .p =>
      match descByte false b1 with
      | none => bad (n + 2)
      | some (mode, ext, res) =>
        let pa := byteAt r (2 + ext) + 256 * byteAt r (3 + ext)
        fin (n + 4 + ext) (!res && mode == 1 && decide (pa < 0x400) && !(op == 0x08 && b1 == 13)) false false true 1
          (.io (op == 0x09) pa)
    | .b =>
      let raw := byteAt r 1 + 256 * byteAt r 2 + (if wide then 0x10000 * byteAt r 3 + 0x1000000 * byteAt r 4 else 0)
      let d := toSigned (if wide then 32 else 16) raw
      fin (n + (if wide then 5 else 3)) (avail && decide (0 ≤ d)) true false false 1 (.branch d)
    | .s => fin (n + 2) (op == 0xAB || decide (b1 < 64)) false false true 1 .plain
    | .m =>
      match descByte false b1 with
      | none => bad (n + 2)
      | some (mode, ext, res) =>
        fin (n + 3 + ext) (!res && mode == 4 && decide (byteAt r (2 + ext) < 64)) false (mode == 4) true 1 .plain
    | .f => fin (n + 3) (decide (b1 < 32) && decide (byteAt r 2 < 32) && decide (b1 + byteAt r 2 + 1 ≤ 32)) false false true 1 .plain
    | .l =>
      match descByte false b1 with
      | none => bad (n + 2)
      | some (_, ext, _) => bad (n + 4 + ext)
    | .u =>
      let e := tab (op - 0xE0)
      if !dtValid e then bad (n + 1)
      else match dtForm e with
        | 0 => fin (n + 1) true false false true (dtCost e) .plain
        | 1 =>
          match descByte wide b1 with
          | none => bad (n + 2)
          | some (mode, ext, res) =>
            fin (n + 2 + ext) (!res && dtModes e &&& mode != 0) (mode == 2) (mode == 4) true (dtCost e) .plain
        | _ => fin (n + 2) true false false true (dtCost e) .plain

/-- The end of the phase that holds slot `t` (R36): the first boundary above it, else L. -/
def boundAfter (bounds : List Nat) (len t : Nat) : Nat := (bounds.find? fun b => decide (t < b)).getD len

/-- The slots an instruction takes when it starts in slot `t` (R33, R37). -/
def LaneIns.slots (bounds : List Nat) (len t : Nat) (i : LaneIns) : Nat :=
  if i.undef then 1 else if i.op = .phase then boundAfter bounds len t - t else i.reps * i.cost

/-- Lay out a program (R33, R69): each instruction with its byte address and start slot. -/
def layOut (tab : Nat → Nat) (bounds : List Nat) (len : Nat) : Nat → Nat → Nat → List Byte → List (Nat × Nat × LaneIns)
  | 0, _, _, _ => []
  | k + 1, byte, slot, bs =>
    if bs.isEmpty then []
    else
      let i := decodeLane tab bs
      (byte, slot, i) :: layOut tab bounds len k (byte + i.len) (slot + i.slots bounds len slot) (bs.drop i.len)

/-! Trigger groups (R28, R32, R36). -/

/-- TG_BUDGET (R4, R32). -/
def groupBudget (s : State) (g : Nat) : Nat :=
  let src := s.rd (Obj.tgSource g)
  let arg := src % 0x1000
  match src / 0x1000 with
  | 1 | 2 | 3 => min 8192 (400000000 / s.rd (Obj.portRate arg) - 48)
  | 4 => min 8192 (400000 * (s.rd (Obj.tgHouseN g) / s.rd (Obj.tgHouseM g)) / 24576 - 48)
  | 5 => min 8192 (400000000 * blockFrames (s.rd (Obj.rpBlock arg)) / s.rd (Obj.rpRate arg) - 48)
  | _ => 0

/-- The seven phase boundaries of a group, and those in use. -/
def phaseList (s : State) (g : Nat) : List Nat := (List.range 7).map fun k => s.rd (Obj.phaseB g k)
def usedBounds (s : State) (g : Nat) : List Nat := (phaseList s g).filter (· != 0)

/-- Strictly rising, each below `len`. -/
def risingBelow (len : Nat) : List Nat → Bool
  | [] => true
  | [a] => decide (a < len)
  | a :: b :: l => decide (a < b) && risingBelow len (b :: l)

/-- The boundaries obey R36. -/
def boundsGood (s : State) (g : Nat) : Bool :=
  let l := phaseList s g
  let used := usedBounds s g
  l.take used.length == used && risingBelow (s.rd (Obj.tgLength g)) used

/-! The checks of R61. -/

/-- The decode table of the group of lane `n`. -/
def laneTable (s : State) (n : Nat) (i : Nat) : Nat := s.rd (Obj.dtEntry (n / 8) i)

/-- The layout of a program in lane `n` under the present tables and group. -/
def layProgram (s : State) (n : Nat) (bs : List Byte) : List (Nat × Nat × LaneIns) :=
  let g := laneGroup s n
  layOut (laneTable s n) (usedBounds s g) (s.rd (Obj.tgLength g)) bs.length 0 0 bs

/-- PROGRAM_SLOTS of a layout: the slot after the last instruction. -/
def endSlot (s : State) (n : Nat) (lay : List (Nat × Nat × LaneIns)) : Nat :=
  match lay.getLast? with
  | none => 0
  | some (_, t, i) => t + i.slots (usedBounds s (laneGroup s n)) (s.rd (Obj.tgLength (laneGroup s n))) t

/-- The channels of the OUT instructions that decode as defined (R21, R47). -/
def outChannels (lay : List (Nat × Nat × LaneIns)) : List Nat :=
  lay.filterMap fun x => match x.2.2.undef, x.2.2.op with
    | false, .io true pa => some (pa - 0x80)
    | _, _ => none

/-- The first status of R61 that refuses a program in lane `n`, or 0. `owned` says which output registers other loaded lanes
own. -/
def programRefusal (s : State) (n : Nat) (bs : List Byte) (owned : Nat → Bool) : Nat :=
  let g := laneGroup s n
  let len := s.rd (Obj.tgLength g)
  let src := s.rd (Obj.tgSource g)
  let bounds := usedBounds s g
  let lay := layProgram s n bs
  let stop := endSlot s n lay
  let slotAt (b : Nat) : Option Nat := if b = bs.length then some stop else (lay.find? fun x => x.1 == b).map (·.2.1)
  let isPhase (i : LaneIns) : Bool := !i.undef && i.op == .phase
  if 64 ≤ g ∨ src = 0 then 0x4101
  else if groupBudget s g < len then 0x4102
  else if len < stop then 0x4103
  else if !boundsGood s g then 0x4104
  else if lay.any (fun x => decide (boundAfter bounds len x.2.1 < x.2.1 + x.2.2.slots bounds len x.2.1)) ||
      (lay.filter fun x => isPhase x.2.2 && decide (boundAfter bounds len x.2.1 < len)).length != bounds.length ||
      lay.any (fun x => isPhase x.2.2 && boundAfter bounds len x.2.1 == len) then 0x4105
  else if lay.any fun x => match x.2.2.undef, x.2.2.op with
      | false, .branch d =>
        (match slotAt (x.1 + x.2.2.len + d.toNat) with
        | none => true
        | some t => decide (boundAfter bounds len x.2.1 < t))
      | _, _ => false then 0x4106
  else if lay.any fun x => match x.2.2.undef, x.2.2.op with
      | false, .io out pa => !(if out then laneOutOk pa else laneInOk pa)
      | _, _ => false then 0x4107
  else if (outChannels lay).any owned then 0x4108
  else if src / 0x1000 = 5 ∧ !(s.ring (src % 0x1000)).on then 0x4109
  else 0

/-- Whether another loaded lane than `n` owns an output register (R21). -/
def ownedElsewhere (s : State) (n k : Nat) : Bool :=
  (List.range 64).any fun m => m != n && laneSt s m != laneUnloaded && (s.lane m).ocOwned.contains k

/-- Every loaded lane of group `g` passes the checks of R61 as the state stands (R62). -/
def groupFits (s : State) (g : Nat) : Bool :=
  (List.range 64).all fun n => laneSt s n == laneUnloaded || laneGroup s n != g ||
    programRefusal s n (s.lane n).program (ownedElsewhere s n) == 0

/-- Every group with a loaded lane and a source that `p` accepts keeps L within its budget (R62). -/
def budgetsFit (s : State) (p : Nat → Bool) : Bool :=
  (List.range 64).all fun g => !p (s.rd (Obj.tgSource g)) || decide (s.rd (Obj.tgLength g) ≤ groupBudget s g) ||
    (List.range 64).all fun n => laneSt s n == laneUnloaded || laneGroup s n != g

/-! An accepted load into a lane (R54, R58, R69, R106, R120, R125). -/

/-- Clear bit 1 of LANE_FAULTS, and the active flag of 0x4002 with its last unit bit (R58, R380). -/
def clearUd (n : Nat) (s : State) : State :=
  let had := (s.rd (Obj.laneFaults n)).testBit 1
  let s := (s.clrBit (Obj.laneFaults n) 1).wr (Obj.firstUdSlot n) 0xFFFF
  if had && !(List.range 64).any (fun m => (s.rd (Obj.laneFaults m)).testBit 1) then clearActive (fun c => c == 0x4002) s else s

/-- The bytes and slots of a layout, with the end of the program (R69). -/
def slotMapOf (s : State) (n : Nat) (bs : List Byte) : List (Nat × Nat) :=
  let lay := layProgram s n bs
  lay.map (fun x => (x.1, x.2.1)) ++ [(bs.length, endSlot s n lay)]

/-- A lane accepts a program: LOADING. A take in progress ends at its slot; the far accesses it issued complete, and a move still
owed is written, as R99 has it in a closing cycle (DEDUCED: no rule names a load). -/
def loadLane (n : Nat) (bs : List Byte) (s : State) : State :=
  let s := removeFromSplice n (flushMoves (.lane (Fin.ofNat 64 n)) 0x10000 [] (farDue n 0x10000 s))
  let l := s.lane n
  let carry := l.safePending || laneSt s n == laneSafe
  let lay := layProgram s n bs
  let s := s.setLane n { l with
    regs := {}, delayed := none, moves := [], far := [], program := bs, slotMap := slotMapOf s n bs, ocOwned := outChannels lay
    ran := false, safePending := carry, safeBy := if laneSt s n = laneSafe then 3 else l.safeBy, faded := true
    clearFlags := false, satTaken := false, glides := [], copy := none, slipped := false }
  let s := ((s.wr (Obj.laneState n) laneLoading).wr (Obj.programSlots n) (endSlot s n lay)).wr (Obj.takeCount n) 0
  clearUd n ((s.wr (Obj.liveSide n) 0).wr (Obj.flipCount n) 0)

end Sys2Proof.Machine
end

