-- ==== Sys2Proof/Machine/Tables.lean ====
section
/-! DEFINITION. Writes of the decode tables (R140, R144 to R147). -/

namespace Sys2Proof.Machine

/-- The number of a table among the locks of a load: lane groups 0 to 7, then control cores (R147). -/
def tableCode (core : Bool) (k : Nat) : Nat := if core then 8 + k else k

def tableReg (core : Bool) (k i : Nat) : Reg := if core then Obj.dtEntryCore k i else Obj.dtEntry k i

/-- Whether an outstanding load holds a table (R147). -/
def tableLocked (s : State) (t : Nat) : Bool := s.handles.any fun h => match h.op with
  | .show _ _ locks _ => locks.contains t
  | _ => false

/-- Whether every lane of group `k` is in a state that `p` accepts. -/
def groupLanes (s : State) (k : Nat) (p : Nat → Bool) : Bool := (List.range 8).all fun j => p (laneSt s (8 * k + j))

/-- Whether a table accepts a change now (R145, R146); `header` says that a header changes. -/
def tableOpen (s : State) (core : Bool) (k : Nat) (header : Bool) : Bool :=
  if core then s.rd (Obj.coreState k) == 0 || s.rd (Obj.coreState k) == 3
  else groupLanes s k fun st => st == laneUnloaded || (!header && st == laneStopped)

/-- A write of an entry. Its reserved bits are ignored (R10). -/
def writeDtEntry (core : Bool) (k i e : Nat) (s : State) : State × Nat :=
  let r := tableReg core k i
  let new := dtClean e
  if !dtEntryGood e then (s, abValue)
  else if tableLocked s (tableCode core k) || !tableOpen s core k (dtHeader new != dtHeader (s.rd r)) then (s, abState)
  else (s.wr r new, abNone)

/-- A write of 1 to DT_CLEAR. -/
def writeDtClear (core : Bool) (k : Nat) (s : State) : State × Nat :=
  if tableLocked s (tableCode core k) || !tableOpen s core k true then (s, abState)
  else (zeroRegs ((List.range 16).map (tableReg core k)) s, abNone)

/-- DT_VALID. -/
def dtValidBits (s : State) (core : Bool) (k : Nat) : Nat :=
  bitsOf ((List.range 16).map fun i => dtValid (s.rd (tableReg core k i)))

end Sys2Proof.Machine
end

