-- ==== Sys2Proof/Machine/Supervise.lean ====
section
/-! DEFINITION. The supervisor, control-core commands, the watchdog, fault clearing and thermal reports (R228, R237 to R239,
R305, R380 to R390). -/

namespace Sys2Proof.Machine

/-! Control cores (R237 to R239). -/

/-- A write of CORE_CMD: 1 holds in reset, 2 releases (R238). -/
def writeCoreCmd (c v : Nat) (s : State) : State × Nat :=
  if c < 2 then (s, abState)
  else if v = 1 then
    let pc := (s.core c).regs.pc.toNat
    let s := (resetCoreRegs c s).wr (Obj.coreState c) 0
    (raise 0x5022 c 0 pc ((s.setBit (Obj.coreFaults c) 1).inc (Obj.coreResets c)), abNone)
  else if s.rd (Obj.coreState c) ≠ 0 then (s, abState)
  else (releaseCore c s, abNone)

/-- CORE_CLEAR (R238). -/
def coreClearBits (c v : Nat) (s : State) : State :=
  let s := if v.testBit 0 then clearSticky 0x5021 2 ((List.range 8).map Obj.coreFaults) [Obj.coreFaults c] s else s
  if v.testBit 1 then s.wr (Obj.coreResets c) 0 else s

/-- RING, ICLR and TCMP as writes of their registers by a core that runs (R239). -/
def execRing (c : Fin 8) (w : Word) (s : State) : Host.Outcome State Fault Refusal :=
  .next (if coreRuns s c.val then opRing c.val w s else s)
def execIclr (c : Fin 8) (w : Word) (s : State) : Host.Outcome State Fault Refusal :=
  .next (if coreRuns s c.val then opIclr c.val w s else s)
def execTcmp (c : Fin 8) (w : Word) (s : State) : Host.Outcome State Fault Refusal :=
  .next (if coreRuns s c.val then opTcmp c.val w s else s)

/-- TIMER_COMPARE: the slate has reached an armed compare value (R239). -/
def execTimerCompare (c : Fin 8) (s : State) : Host.Outcome State Fault Refusal := clocked (fun s => timerCheck c.val s) s

/-! The supervisor's own causes (R228, R384 to R386). -/

/-- SCH_HOLD_LIMIT_EXPIRY: 0x6005 once per firing; cause 4 of R384 gives a core of 2 to 7 notice and grace, or resets
it at once in state 4 (R228, R385). -/
def execSchHoldLimitExpiry (slot : Fin 512) (s : State) : Host.Outcome State Fault Refusal :=
  .next (match s.firings.find? (fun f => f.slot == slot.val && awake s && f.rung == 0 && f.state == 4 && decide (f.holder < 8) && !f.overdue) with
    | none => s
    | some f =>
      let c := f.holder
      let s := putFiring { f with overdue := true } s
      let s := raise 0x6005 0 slot.val 0 ((s.inc Obj.schHoldOver).setBit Obj.schFaults 4)
      if c < 2 || !(s.rd Obj.supPolicy).testBit 1 then s
      else if s.rd (Obj.coreState c) = 4 then supResetCore c s
      else s.setCore c { s.core c with notice := true, grace := true })

/-- SUP_GRACE_EXPIRY (R385, R386). -/
def execSupGraceExpiry (c : Fin 8) (s : State) : Host.Outcome State Fault Refusal :=
  let x := s.core c.val
  .next (if !x.grace || !awake s then s
    else
      let s := s.setCore c.val { x with grace := false }
      if x.node.isNone ∧ s.rd (Obj.coreState c.val) = 2 then s else supResetCore c.val s)

/-- SUP_ENGINE_LIMIT_EXPIRY (R384, cause 5). -/
def execSupEngineLimitExpiry (e : Engine) (s : State) : Host.Outcome State Fault Refusal :=
  .next (if (s.rd Obj.supPolicy).testBit 2 && (runningOn s (holderOf e)).isSome then resetEngine e 0 s else s)

/-! Commands to the supervisor (R390). -/

/-- The slot of a HANDLE16 is one that is issued (R291). -/
def handleValid (h : Nat) : Bool := decide (1 ≤ h % 0x1000) && decide (h % 0x1000 ≤ 0x40)

/-- The outstanding handle of a HANDLE16 (R306). -/
def findHandle (s : State) (h : Nat) : Option Handle := s.handles.find? fun k => k.word == h

/-- Whether a SUP_CMD is no reserved encoding. -/
def supCmdGood (action arg : Nat) : Bool := match action with
  | 1 | 2 => decide (arg < 8)
  | 3 => decide (arg < 32)
  | 4 => decide (arg < 8)
  | 5 => decide (arg ≤ 0x0F) || arg == 0x20
  | 6 | 7 => decide (arg < 64)
  | 8 => handleValid arg
  | _ => false

/-- The engine that the argument of action 5 names. -/
def supEngine (arg : Nat) : Engine := if arg = 0x20 then .asrc else .cx (Fin.ofNat 16 arg)

/-- A write of SUP_CMD. Bits 23:16 are reserved and ignored (R10). -/
def writeSupCmd (v : Nat) (s : State) : State × Nat :=
  let action := v / 2 ^ 24
  let arg := v % 2 ^ 16
  let done (s : State) : State × Nat := (s.wr Obj.supResult 0, abNone)
  if !supCmdGood action arg then (s, abValue)
  else match action with
    | 1 => done (revokeGroup arg 0 true (supAct s))
    | 2 => done (revokeGroup arg 0x7F false (supAct s))
    | 3 => done (dmaAbort arg true (supAct s))
    | 4 => if arg < 2 then (s.wr Obj.supResult 0xC021, abState) else done (supResetCore arg s)
    | 5 => done (resetEngine (supEngine arg) 1 s)
    | 6 => done (safeRequest 1 arg (supAct s))
    | 7 => done (safeRelease arg (supAct s))
    | _ => match findHandle s arg with
      | none => (s.wr Obj.supResult 0xC022, abState)
      | some h => done (cancelHandle h 0xB103 (supAct s))

/-- A write of HANDLE_CANCEL (R291, R305). -/
def writeHandleCancel (h : Nat) (s : State) : State × Nat :=
  if !handleValid h then (s, abValue)
  else match findHandle s h with
    | none => (s, abState)
    | some k => match k.op with
      | .irLoad _ _ _ => (cancelHandle k 0xB102 s, abNone)
      | .verify _ => (cancelHandle k 0xB102 s, abNone)
      | .bist _ => (cancelHandle k 0xB102 s, abNone)
      | _ => (s, abState)

/-! The watchdog (R388). -/

/-- The watchdog restarts from WDT_PERIOD. -/
def wdtRestart (s : State) : State := { s with wdtSlate := s.slate, wdtFrom := s.rd Obj.wdtPeriod }

/-- WATCHDOG_RESTART. -/
def execWatchdogRestart (s : State) : Host.Outcome State Fault Refusal :=
  .next (if s.boot.booted && awake s then wdtRestart s else s)

/-- WDT_REMAIN. -/
def wdtRemain (s : State) : Nat := s.wdtFrom - (s.slate.toNat - s.wdtSlate.toNat) / 100000

/-! Clearing faults (R380, R381). -/

/-- The fault codes of the chapters' tables. -/
def faultCodes : List Nat := [0x1001, 0x1002, 0x1003, 0x2001, 0x2002, 0x2003, 0x3001, 0x3002, 0x3003, 0x3004, 0x3005, 0x3006,
  0x3007, 0x4001, 0x4002, 0x4003, 0x4004, 0x4005, 0x4006, 0x4007, 0x4008, 0x4009, 0x5001, 0x5002, 0x5003, 0x5004, 0x5011,
  0x5012, 0x5013, 0x5014, 0x5015, 0x5021, 0x5022, 0x5023, 0x6001, 0x6002, 0x6003, 0x6004, 0x6005, 0x7001, 0x7002, 0x7003,
  0x7004, 0x8001, 0x8002, 0x8003, 0x8004, 0x8006, 0x9001, 0x9002, 0x9003, 0x9004, 0x9005, 0x9006, 0x9010, 0x9011, 0x9012,
  0xA001, 0xA002, 0xA011, 0xB001, 0xB002, 0xB003, 0xB004, 0xB005, 0xC001, 0xC002, 0xC003, 0xC005, 0xC006, 0xD001, 0xD002]

/-- Whether FLT_CLEAR accepts a value. -/
def fltClearGood (v : Nat) : Bool :=
  v == 0xFFFF || (v % 0x1000 == 0 && decide (0x1000 ≤ v) && decide (v ≤ 0xD000)) || faultCodes.contains v

/-- Whether a FLT_CLEAR value names a code. -/
def fltNames (v code : Nat) : Bool := v == 0xFFFF || v == code || (v % 0x1000 == 0 && v / 0x1000 == code / 0x1000)

/-- Clear the bits k of a sticky register for which `p (base + k)` holds. -/
def clearBitsOf (p : Nat → Bool) (base bits : Nat) (r : Reg) (s : State) : State :=
  forUpto bits (fun k s => if p (base + k) then s.clrBit r k else s) s

/-- An accepted write of FLT_CLEAR: the active flags and the matching sticky bits. -/
def fltClear (v : Nat) (s : State) : State :=
  let p := fltNames v
  let s := forUpto 64 (fun n s =>
    let s := clearBitsOf p 0x4001 9 (Obj.laneFaults n) s
    if p 0x4002 then s.wr (Obj.firstUdSlot n) 0xFFFF else s) s
  let s := forUpto 6 (fun g => clearBitsOf p 0x3001 7 (Obj.portFaults g)) s
  let s := clearBitsOf p 0x6001 5 Obj.schFaults s
  let s := forUpto 32 (fun ch => clearBitsOf p 0x7001 4 (Obj.dmaFaults ch)) s
  let s := forUpto 8 (fun c => clearBitsOf p 0x5021 2 (Obj.coreFaults c)) s
  clearActive p s

/-- A write of FLT_CLEAR. -/
def writeFltClear (v : Nat) (s : State) : State × Nat :=
  if fltClearGood v then (fltClear v s, abNone) else (s, abValue)

/-! Temperature (R382). -/

def putTemps (t0 t1 : BitVec 16) (s : State) : State := { s with service := { s.service with temp0 := t0, temp1 := t1 } }

/-- JUNCTION_WARNING: the first sensor at 100 °C or above names the record. -/
def execJunctionWarning (t0 t1 : BitVec 16) (s : State) : Host.Outcome State Fault Refusal :=
  let s := putTemps t0 t1 s
  let hot (t : BitVec 16) : Bool := decide (1000 ≤ t.toInt)
  .next (if s.service.hot || !(hot t0 || hot t1) then s
    else
      let s := { s with service := { s.service with hot := true } }
      pendAll 26 (raise 0xD001 (if hot t0 then 0 else 1) (if hot t0 then t0 else t1).toNat 0 s))

/-- JUNCTION_COOLED: below 95 °C the warning is armed again. -/
def execJunctionCooled (t0 t1 : BitVec 16) (s : State) : Host.Outcome State Fault Refusal :=
  let s := putTemps t0 t1 s
  .next (if t0.toInt < 950 ∧ t1.toInt < 950 then { s with service := { s.service with hot := false } } else s)

/-- SENSOR_IMPLAUSIBLE: the sensors differ by more than 10 °C; the record names sensor 0. -/
def execSensorImplausible (t0 t1 : BitVec 16) (s : State) : Host.Outcome State Fault Refusal :=
  let s := putTemps t0 t1 s
  .next (if 100 < (t0.toInt - t1.toInt).natAbs then raise 0xD002 0 t0.toNat 0 s else s)

end Sys2Proof.Machine
end

