-- ==== Sys2Proof/Machine/Power.lean ====
section
/-! DEFINITION. Clocks, power states, supply events and hold-safe (R341 to R356), and the general-purpose pins (R430, R431). -/

namespace Sys2Proof.Machine

/-! Hold-safe (R351, R352). -/

/-- Whether a cause of hold-safe is active. -/
def holdCause (s : State) : Bool := s.power.vinLow || s.power.coreLow || s.power.unlocked != 0

/-- Hold-safe is entered by a cause: source 25 and HOLD pend (R333, R351). The recovery wait, if one runs, is cancelled. -/
def enterHoldSafe (s : State) : State :=
  let s := { s with power := { s.power with waiting := false } }
  if s.rd Obj.holdSafe = 1 then s else pendAll 25 (ulIrq 3 (bistHold ((s.wr Obj.holdSafe 1).inc Obj.holdCount)))

/-- A supply warning of rail `unit` at `mv` (R351): the brown-event count of an entry, and the fault at every warning. -/
def supplyWarning (code unit : Nat) (mv : BitVec 16) (s : State) : State :=
  let t := raise code unit mv.toNat 0 (enterHoldSafe s)
  if s.rd Obj.holdSafe = 0 then t.inc Obj.brownEvents else t

/-- The recovery wait starts once no cause is active (R352). -/
def holdRecovery (s : State) : State :=
  if s.rd Obj.holdSafe = 1 && !holdCause s then { s with power := { s.power with waiting := true } } else s

/-- A reading of VIN (R355). -/
def putVin (mv : BitVec 16) (s : State) : State :=
  let s := { s with power := { s.power with vinMv := mv } }
  s.wr Obj.vinMinMv (min (s.rd Obj.vinMinMv) mv.toNat)

def putCore (mv : BitVec 16) (s : State) : State := { s with power := { s.power with coreMv := mv } }

/-- Whether the warning comparators run, and whether they act now: in NAP and WAKING they wait for the exit, in DORMANT they are
off (R350). -/
def comparators (s : State) : Bool := s.rd Obj.pwrState != 5 && s.power.supplied && !s.boot.inReset
def actsNow (s : State) : Bool := awake s

/-- VIN_WARNING. -/
def execVinWarning (mv : BitVec 16) (s : State) : Host.Outcome State Fault Refusal :=
  .next (if !comparators s then s
    else
      let s := putVin mv s
      let s := { s with power := { s.power with vinLow := true } }
      if actsNow s then supplyWarning 0x1001 0 mv s else s)

/-- VIN_RECOVERY. -/
def execVinRecovery (mv : BitVec 16) (s : State) : Host.Outcome State Fault Refusal :=
  .next (if !comparators s then s
    else
      let s := putVin mv s
      holdRecovery { s with power := { s.power with vinLow := false } })

/-- VIN_HIGH: fault 0x1003 only. -/
def execVinHigh (mv : BitVec 16) (s : State) : Host.Outcome State Fault Refusal :=
  .next (if !comparators s then s else raise 0x1003 0 mv.toNat 0 (putVin mv s))

/-- CORE_RAIL_WARNING. -/
def execCoreRailWarning (mv : BitVec 16) (s : State) : Host.Outcome State Fault Refusal :=
  .next (if !comparators s then s
    else
      let s := putCore mv s
      let s := { s with power := { s.power with coreLow := true } }
      if actsNow s then supplyWarning 0x1002 1 mv s else s)

/-- CORE_RAIL_RECOVERY. -/
def execCoreRailRecovery (mv : BitVec 16) (s : State) : Host.Outcome State Fault Refusal :=
  .next (if !comparators s then s
    else
      let s := putCore mv s
      holdRecovery { s with power := { s.power with coreLow := false } })

/-- HOLD_SAFE_END: the recovery wait has run its 5 ms (R352). -/
def execHoldSafeEnd (s : State) : Host.Outcome State Fault Refusal :=
  .next (if s.power.waiting && s.rd Obj.holdSafe == 1 && !holdCause s then
      postNotice 0x10 ({ s with power := { s.power with waiting := false } }.wr Obj.holdSafe 0)
    else s)

/-- PLL_UNLOCK: a loss of lock enters hold-safe (R341). Bit 3 of PLL_LOCK is set while all three are locked (R354). -/
def execPllUnlock (i : Fin 3) (s : State) : Host.Outcome State Fault Refusal :=
  .next (if !awake s || s.boot.inReset || !s.power.supplied then s
    else
      let s := (((s.clrBit Obj.pllLock i.val).clrBit Obj.pllLock 3).inc Obj.pllUnlocks)
      let s := { s with power := { s.power with unlocked := s.power.unlocked ||| BitVec.ofNat 3 (2 ^ i.val) } }
      raise 0x2003 i.val 0 0 (enterHoldSafe s))

/-- PLL_LOCK_HELD: a PLL has held lock for 5 ms. -/
def execPllLockHeld (i : Fin 3) (s : State) : Host.Outcome State Fault Refusal :=
  .next (if !s.power.unlocked.getLsbD i.val then s
    else
      let s := { s with power := { s.power with unlocked := s.power.unlocked &&& ~~~(BitVec.ofNat 3 (2 ^ i.val)) } }
      let s := s.setBit Obj.pllLock i.val
      holdRecovery (if s.rd Obj.pllLock % 8 = 7 then s.setBit Obj.pllLock 3 else s))

/-! The system counter (R342, R343). -/

/-- The count passes its maximum: the next epoch starts at 0, and REF edges are counted from there (R29, R343). -/
def wrapCount (s : State) : State :=
  { s with
    slate := (s.slate.extractLsb' 56 8 + 1) ++ (0 : BitVec 56), houseEdge := 0
    power := { s.power with phase := (s.power.phase + 2 ^ 56) % 3125 } }

/-- The count has not started in its epoch: a POR, a BOR or an exit from DORMANT waits for REF (R343). -/
def refAwaited (s : State) : Bool :=
  s.boot.inReset && [causePor, causeBor, causeDormant].contains (s.rd Obj.resetCause) && s.slate.extractLsb' 0 56 == 0

/-- Whether the counter runs. -/
def counterRuns (s : State) : Bool := s.rd Obj.pwrState != 5 && s.power.supplied && !refAwaited s

/-- COUNTER_WRAP. -/
def execCounterWrap (s : State) : Host.Outcome State Fault Refusal := .next (if counterRuns s then wrapCount s else s)

/-- The units of CX_BUSY and CORE_BUSY that are busy: cores neither blocked in GETW nor halted nor in reset, crystallizers that run
(R196, R238). -/
def busyUnits (s : State) : List Nat :=
  ((List.range 8).filter fun c => s.rd (Obj.coreState c) == 1 || s.rd (Obj.coreState c) == 4) ++
    ((List.range 16).filter fun e => s.rd (Obj.cxState e) == 1).map (0x10 + ·)

/-- `n` ticks pass in which the busy units stay as they are: what lies 10 ms back is forgotten. -/
def noteBusy (n : Nat) (s : State) : State :=
  let lo := s.slate.toNat
  let units := busyUnits s
  let old := s.busy.filter fun x => decide (lo + n < x.hi + 1000000)
  let goesOn (x : BusyRun) (u : Nat) : Bool := x.unit == u && x.hi == lo
  { s with busy := (old.map fun x => if units.any (goesOn x) then { x with hi := lo + n } else x) ++
      (units.filter fun u => !old.any fun x => goesOn x u).map fun u => ⟨u, lo, lo + n⟩ }

/-- `n` ticks of the system counter pass. Clears of pan groups go on by two rows each while FCLK runs (R260); a new tick is a new
cycle for the pans (R256). -/
def passTicks (n : Nat) (s : State) : State :=
  if n = 0 then s
  else
    let s := noteBusy n s
    let s := { (if awake s then clearOn (2 * n) s else s) with panLog := [] }
    let count := (s.slate.extractLsb' 0 56).toNat + n
    if 2 ^ 56 ≤ count then
      let s := wrapCount s
      { s with slate := s.slate + BitVec.ofNat 64 (count - 2 ^ 56) }
    else { s with slate := s.slate + BitVec.ofNat 64 n }

/-- The system counter goes on by one tick; in NAP, where the accumulator counts, by one REF edge of 4 or 5 ticks (R342). -/
def tick (s : State) : State :=
  if !counterRuns s then s
  else if awake s then passTicks 1 s
  else
    let acc := s.power.refAcc + 3125
    passTicks (acc / 768) { s with power := { s.power with refAcc := acc % 768 } }

/-- The count reaches the next alignment point, where it passes from one path to the other (R342). -/
def toAlignment (s : State) : State :=
  let past := ((s.slate.extractLsb' 0 56).toNat + s.power.phase) % 3125
  let s := passTicks ((3125 - past) % 3125) s
  { s with power := { s.power with refAcc := 0 } }

/-! Entry to NAP and DORMANT (R345, R346, R348). -/

/-- HIRQ_N is asserted (R333): not during reset and in DORMANT; in NAP and while waking it keeps the level it had. -/
def hirq (s : State) : Bool :=
  match s.rd Obj.pwrState with
  | 2 | 3 => s.link.irqHeld
  | 5 => false
  | _ => s.link.irqPend &&& s.link.irqEn != 0 && !s.boot.inReset && s.power.supplied

/-- Whether a GP pin is armed as a wake source (R430). -/
def gpWake (s : State) (k : Nat) : Bool := (s.rd (Obj.gpCfg k)).testBit 6

/-- The first status that refuses a power request, or 0 (R345). -/
def powerRefusal (s : State) : Nat :=
  let en := s.rd Obj.wakeEn
  if s.rd Obj.pwrState ≠ 0 then 0x1101
  else if s.rd Obj.holdSafe = 1 then 0x1102
  else if !s.handles.isEmpty then 0x1103
  else if en % 16 = 0 && !(en.testBit 4 && (List.range 16).any (gpWake s)) && !(en.testBit 5 && s.rd Obj.wakeTimer != 0) then 0x1104
  else 0

/-- A write of PWR_REQUEST: 1 NAP, 2 DORMANT. Each enabled group fades toward OFF, its stored value kept. -/
def writePwrRequest (v : Nat) (s : State) : State × Nat :=
  let r := powerRefusal s
  if r ≠ 0 then (s.wr Obj.pwrResult r, abState)
  else
    let s := (s.wr Obj.pwrResult 0).wr Obj.pwrState (if v = 1 then 1 else 4)
    (forUpto 6 (fun g s => if s.rd (Obj.portEnable g) = 1 then fadeTowardOff g s else s)
      { s with power := { s.power with wakeHeld := 0 } }, abNone)

/-- The wake sources that are armed: bit 4 asks for a pin with WAKE, bit 5 for a timer that runs (R347). -/
def armedSources (s : State) : Nat :=
  let en := s.rd Obj.wakeEn % 64
  let en := if (List.range 16).any (gpWake s) then en else en &&& 0x2F
  if s.rd Obj.wakeTimer = 0 then en % 32 else en

/-- Exit from DORMANT: the boot of R349 begins; the BOOT pins are sampled as it reaches boot (R361). What was armed stays so for the
AON cycle of the wake. -/
def exitDormant (cause : Nat) (s : State) : State :=
  let armed := armedSources s
  let s := (enterReset causeDormant s).wr Obj.wakeCause cause
  { s with power := { s.power with wakeHeld := BitVec.ofNat 8 armed } }.wr Obj.wakeSlate s.slate.toNat

/-- The exit from DORMANT has begun and REF is not yet stable. -/
def leavingDormant (s : State) : Bool := refAwaited s && s.rd Obj.resetCause == causeDormant

/-- An armed wake (R347): it ends NAP or DORMANT, or is held until the entry in progress has completed. One that comes in the AON cycle
of the wake that ended the state sets its bit too; the cycle is the 3,051 whole ticks after it. -/
def wakeBy (sources : Nat) (s : State) : State :=
  let m := sources &&& armedSources s
  match s.rd Obj.pwrState with
  | 1 | 4 => { s with power := { s.power with wakeHeld := s.power.wakeHeld ||| BitVec.ofNat 8 m } }
  | 2 => if m = 0 then s else (({ s with power := { s.power with wakeAt := s.slate } } : State).wr Obj.wakeCause m).wr Obj.pwrState 3
  | 3 => if s.slate.toNat ≤ s.power.wakeAt.toNat + 3051 then s.wr Obj.wakeCause (s.rd Obj.wakeCause ||| m) else s
  | 5 => if m = 0 then s else exitDormant m s
  | _ => if leavingDormant s then s.wr Obj.wakeCause (s.rd Obj.wakeCause ||| (sources &&& s.power.wakeHeld.toNat)) else s

/-- Every unit has stopped as steps 1 to 6 of R346 ask: groups OFF, busy windows over, no class E firing running, no word of the codec
port in progress (R337). -/
def unitsStopped (s : State) : Bool :=
  (List.range 6).all (fun g => portSt s g == portOff) && (List.range 64).all (fun n => !(s.lane n).busy) &&
    !s.firings.any (fun f => f.state == 4 && decide (0x10 ≤ f.holder)) && !s.codec.word

/-- Hold-safe is tested again at the exit (R347, R367). -/
def dropHold (s : State) : State :=
  { s with power := { s.power with waiting := false, unlocked := 0 } }.wr Obj.holdSafe 0 |>.wr Obj.pllLock 15

/-- NAP_ENTRY_COMPLETE: step 7 of R346, then for DORMANT the steps of R348. A wake that was held acts at once. -/
def execNapEntryComplete (s : State) : Host.Outcome State Fault Refusal :=
  let st := s.rd Obj.pwrState
  .next (if (st ≠ 1 ∧ st ≠ 4) ∨ !unitsStopped s then s
    else
      let held := s.power.wakeHeld.toNat
      let s := toAlignment (dropHold { s with power := { s.power with wakeHeld := 0 } })
      let s := { s with link := { s.link with irqHeld := hirq s } }
      if st = 1 then wakeBy held ((s.inc Obj.napCount).wr Obj.pwrState 2)
      else
        let s := forUpto 64 (fun n s => if (pendingSplice s n).isSome then removeFromSplice n s else s) s
        wakeBy held (({ s with mem := [], pans := [] }.inc Obj.dormantCount).wr Obj.pwrState 5))

/-! Exit from NAP (R347). -/

/-- WAKE_EVENT: HSEL_N, CAN, SVC_RX or a GP pin (bits 0, 1, 2 and 4). -/
def execWakeEvent (sources : Byte) (s : State) : Host.Outcome State Fault Refusal := .next (wakeBy (sources.toNat &&& 0x17) s)

/-- WAKE_TIMER_EXPIRY. -/
def execWakeTimerExpiry (s : State) : Host.Outcome State Fault Refusal :=
  .next (if s.rd Obj.pwrState = 2 ∨ s.rd Obj.pwrState = 3 ∨ s.rd Obj.pwrState = 5 ∨ leavingDormant s then wakeBy 0x20 s else s)

/-- SERVICE_N_HOLD_WAKE: SERVICE_N has been low for 10 ms. -/
def execServiceNHoldWake (s : State) : Host.Outcome State Fault Refusal :=
  .next (wakeBy 8 { s with service := { s.service with serviceN := false } })

/-- WAKE_COMPLETE: at an alignment point the module returns to RUN; a rail below its warning level enters hold-safe in that cycle, and each group whose
PORT_ENABLE is 1 enters WAIT. -/
def execWakeComplete (s : State) : Host.Outcome State Fault Refusal :=
  .next (if s.rd Obj.pwrState ≠ 3 then s
    else
      let s := toAlignment s
      let s := wdtRestart ((s.wr Obj.pwrState 0).wr Obj.wakeSlate s.slate.toNat)
      let s := if s.power.vinLow then supplyWarning 0x1001 0 s.power.vinMv s else s
      let s := if s.power.coreLow then supplyWarning 0x1002 1 s.power.coreMv s else s
      forUpto 6 startGroup s)

/-! General-purpose pins (R430, R431). -/

/-- The level of a pin: an output drives it, an open-drain output that releases it leaves it to the outside. -/
def pinLevel (s : State) (k : Nat) (outside : Bool) : Bool :=
  let drive := (s.rd Obj.gpOut).testBit k
  match s.rd (Obj.gpCfg k) % 4 with
  | 1 => drive
  | 2 => drive && outside
  | _ => outside

/-- GP_EDGE: a level registers on pin k (R431). -/
def execGpEdge (k : Fin 16) (level : Bool) (s : State) : Host.Outcome State Fault Refusal :=
  let new := pinLevel s k.val level
  .next (if (s.rd Obj.gpIn).testBit k.val = new then s
    else
      let s := s.putBit Obj.gpIn k.val new
      let cfg := s.rd (Obj.gpCfg k.val)
      if cfg.testBit (if new then 4 else 5) then
        let s := forUpto 6 (fun c => pendCore (2 + c) 24) (s.setBit Obj.gpEdge k.val)
        if gpWake s k.val then wakeBy 0x10 s else s
      else s)

/-- GP_EDGE_CLR. -/
def clearGpEdge (w : Nat) (s : State) : State := s.wr Obj.gpEdge (s.rd Obj.gpEdge &&& (0xFFFF - w))

/-- SUPPLY_CLEAR (R355). -/
def supplyClearBits (v : Nat) (s : State) : State :=
  let s := if v.testBit 0 then s.wr Obj.vinMinMv 0xFFFF else s
  if v.testBit 1 then zeroRegs [Obj.holdCount, Obj.pllUnlocks] s else s

end Sys2Proof.Machine
end

