-- ==== Sys2Proof/Machine/Identity.lean ====
section
/-! DEFINITION. Images and their checks, customer keys, full erase, attestation, debug, image verify and the TAP (R392 to
R406). -/

namespace Sys2Proof.Machine

/-! Image sources. -/

/-- Where an image is read from: its size in bytes, and its bytes from an offset on. -/
structure Source where
  size : Nat
  read : Nat → Nat → List Byte

/-- An image held as bytes. -/
def bytesSource (bs : List Byte) : Source := ⟨bs.length, fun o n => (bs.drop o).take n⟩

/-- The image at a DRAM byte address (R370). -/
def dramSource (s : State) (a : Nat) : Source :=
  ⟨dramSize - a, fun o n => if dramSize ≤ a then List.replicate n 0 else readBytes s.mem (0x100000000 + a + o) n⟩

/-- The image of a firmware slot, of a show slot, and at SHOW_SOURCE. -/
def fwSource (s : State) (k : Nat) : Source := bytesSource (s.flash.fw.get [] k)
def showSlotSource (s : State) (k : Nat) : Source := bytesSource (s.flash.shows.get [] k)
def sourceImage (s : State) : Source := dramSource s (s.rd Obj.showSource)

/-! The envelope (R395). -/

/-- Header word `k`. -/
def imgWord (x : Source) (k : Nat) : Nat := ofLe (x.read (4 * k) 4)
def imgVersion (x : Source) : Nat := imgWord x 2
def imgLength (x : Source) : Nat := imgWord x 3
def imgSigs (x : Source) : Nat := imgWord x 12 % 256
def imgTotal (x : Source) : Nat := 64 + imgLength x + 80 * imgSigs x
/-- The firmware, or the boot ROM, on core 0 reads the image at DRAM byte address `a`: errors of the DRAM are counted and reported, and
the data is taken as read (R267). -/
def noteImage (a : Nat) (x : Source) (s : State) : State :=
  noteReads 0x10 [(0x100000000 + a, if imgTotal x ≤ 16777216 then imgTotal x else 64)] s
def imgBody (x : Source) : List Byte := x.read 64 (imgLength x)
def imgDigest (x : Source) : List Byte := x.read 16 32
/-- Word `w` of signature entry `k`, and its signature. -/
def sigWord (x : Source) (k w : Nat) : Nat := ofLe (x.read (64 + imgLength x + 80 * k + 4 * w) 4)
def sigKey (x : Source) (k : Nat) : Nat := sigWord x k 0 % 256
def sigValue (x : Source) (k : Nat) : List Byte := x.read (64 + imgLength x + 80 * k + 16) 64

/-- A digest as bytes. -/
def digestBytes (d : BitVec 256) : List Byte := leBytes 32 d.toNat

/-- Customer key `k`, 1 to 4; zero while the slot is not provisioned (R398). -/
def custKey (s : State) (k : Nat) : Nat := s.rd (Obj.custKey (k - 1))
def provisioned (s : State) (k : Nat) : Bool := decide (1 ≤ k) && decide (k ≤ 4) && custKey s k != 0
def anyKey (s : State) : Bool := [1, 2, 3, 4].any (provisioned s)

/-- Whether the entries of an image obey R397 for its kind: 1 firmware, 2 show. -/
def entriesGood (s : State) (kind : Nat) (x : Source) : Bool :=
  let keys := (List.range (imgSigs x)).map (sigKey x)
  if kind = 1 then keys == [0]
  else decide (imgSigs x ≤ 4) && keys.all (provisioned s) && decide keys.Nodup

/-- The public key of an entry. -/
def keyOf (s : State) (k : Nat) : BitVec 256 := if k = 0 then Config.firmwareKey else BitVec.ofNat 256 (custKey s k)

/-- The quorum of a show (R397). -/
def quorum (s : State) : Nat := if !anyKey s then 0 else max 1 (s.rd Obj.showQuorum)

/-- No reserved field of the header or of an entry within the source is set, the magic is right, and the kind is the one the
path expects (R396, 0xC031). `kind` 0 accepts either kind. -/
def headerOk (kind : Nat) (x : Source) : Bool :=
  imgWord x 0 == 0x4D49584C && (imgWord x 1 == kind || (kind == 0 && (imgWord x 1 == 1 || imgWord x 1 == 2))) &&
    decide (imgWord x 12 < 256) && imgWord x 13 == 0 && imgWord x 14 == 0 && imgWord x 15 == 0 &&
    (decide (x.size < imgTotal x) || (List.range (imgSigs x)).all fun k =>
      decide (sigWord x k 0 < 256) && sigWord x k 1 == 0 && sigWord x k 2 == 0 && sigWord x k 3 == 0)

/-- The status of the checks of R396, 0 for an image that passes. -/
def imageStatus (s : State) (kind : Nat) (x : Source) : Nat :=
  let k := imgWord x 1
  if !headerOk kind x then 0xC031
  else if imgLength x = 0 ∨ 16777216 < imgTotal x ∨ x.size < imgTotal x then 0xC032
  else if digestBytes (Config.sha256 (imgBody x)) ≠ imgDigest x then 0xC033
  else if !entriesGood s k x then 0xC034
  else if !(List.range (imgSigs x)).all (fun j => Config.ed25519Valid (keyOf s (sigKey x j)) (x.read 0 64) (sigValue x j)) then 0xC035
  else if k = 2 ∧ imgSigs x < quorum s then 0xC036
  else 0

/-! Customer keys (R398). -/

/-- A write of CUST_KEY_n. -/
def writeCustKey (n key : Nat) (s : State) : State × Nat :=
  if key = 0 then (s, abValue)
  else if custKey s n ≠ 0 ∨ s.service.serviceN then (s, abState)
  else (s.wr (Obj.custKey (n - 1)) key, abNone)

/-- A write of SHOW_QUORUM. -/
def writeShowQuorum (v : Nat) (s : State) : State × Nat :=
  if v < 1 ∨ 4 < v ∨ ([1, 2, 3, 4].filter (provisioned s)).length < v then (s, abValue)
  else if s.rd Obj.showQuorum ≠ 0 ∨ s.service.serviceN then (s, abState)
  else (s.wr Obj.showQuorum v, abNone)

/-! Full erase (R399). -/

/-- An operation that a full erase excludes: store, restore, slot write, verify; and an erase. -/
def eraseBlocks : Op → Bool
  | .store _ | .restore _ | .slotWrite _ | .verify _ | .erase => true
  | _ => false
def eraseRuns (s : State) : Bool := (handleOf (fun o => o == .erase) s).isSome

/-- A write of FULL_ERASE by path `p`. -/
def writeFullErase (p v : Nat) (s : State) : State × Nat :=
  if v ≠ 0x73617265 then (s, abGuard)
  else if s.service.serviceN || s.handles.any (fun h => eraseBlocks h.op) then (s, abState)
  else if !admits s then (s.inc Obj.handlesRefused, abBusy)
  else ((issueHandle .erase p s).2, abNone)

/-- FULL_ERASE_COMPLETE. Flash programming pauses in hold-safe (R351), here as in every operation on the flash. -/
def execFullEraseComplete (s : State) : Host.Outcome State Fault Refusal :=
  clocked (fun s => if s.rd Obj.holdSafe = 1 then s else match handleOf (fun o => o == .erase) s with
    | none => s
    | some h => completeHandle h 0 0 s.slate (eraseItems 11 s)) s

/-! Attestation (R400). -/

/-- A write of ATT_NONCE. -/
def writeAttNonce (nonce : Nat) (s : State) : State × Nat :=
  if s.rd Obj.attState = 1 then (s, abState)
  else ({ s with service := { s.service with attMsg := leBytes 32 nonce } }.wr Obj.attState 1, abNone)

/-- The last 16 bytes of the message: "LX-6400 attest 1". -/
def attestText : List Byte := [0x4C, 0x58, 0x2D, 0x36, 0x34, 0x30, 0x30, 0x20, 0x61, 0x74, 0x74, 0x65, 0x73, 0x74, 0x20, 0x31]

/-- A list of exactly `n` bytes. -/
def fitBytes (n : Nat) (bs : List Byte) : List Byte := (bs ++ List.replicate n 0).take n

/-- The 128-byte message, signed now. -/
def attestMessage (s : State) : List Byte :=
  fitBytes 32 s.service.attMsg ++ fitBytes 32 (imgDigest (fwSource s (s.rd Obj.fwSlot))) ++
    (if s.rd Obj.showActive = 0xFF then List.replicate 32 0 else fitBytes 32 s.service.showDigest) ++
    leBytes 8 s.slate.toNat ++ leBytes 4 Config.serial.toNat ++ leBytes 1 (s.rd Obj.bootMode) ++
    leBytes 1 (s.rd Obj.dbgScope) ++ leBytes 1 (s.rd Obj.fwSlot) ++ [0] ++ attestText

/-- ATTESTATION_COMPLETE. -/
def execAttestationComplete (s : State) : Host.Outcome State Fault Refusal :=
  clocked (fun s => if s.rd Obj.attState ≠ 1 then s
    else
      let m := attestMessage s
      { s with service := { s.service with attReport := m ++ fitBytes 64 (Config.unitSign m) } }.wr Obj.attState 2) s

/-! Debug (R402, R403). -/

/-- DBG_CHALLENGE as bytes: a free value, renewed at every reset and after every token. -/
def challengeBytes (s : State) : List Byte := leBytes 32 (Config.free s.service.challenge)

/-- The status of an unlock token, 0 for one that passes. -/
def tokenStatus (s : State) (t : List Byte) : Nat :=
  if 8 ≤ s.service.badTokens then 0xC046
  else if t.length ≠ 136 then 0xC041
  else if t.take 32 ≠ digestBytes (Config.sha256 (leBytes 32 Config.unitPubkey.toNat)) then 0xC042
  else if (t.drop 32).take 32 ≠ challengeBytes s then 0xC043
  else if 8 ≤ ofLe ((t.drop 64).take 8) then 0xC044
  else if !Config.ed25519Valid Config.debugKey (t.take 72) (t.drop 72) then 0xC045
  else 0

/-- A write of DBG_TOKEN. -/
def writeDbgToken (t : List Byte) (s : State) : State × Nat :=
  if s.service.serviceN then (s, abState)
  else
    let r := tokenStatus s t
    let (k, s) := s.takeFresh
    let s := { s with service := { s.service with challenge := k } }
    if r = 0 then
      let scope := ofLe ((t.drop 64).take 4)
      let s := { s with service := { s.service with tapIr := tapUnder scope s.service.tapIr } }
      (raise 0xC006 0 0 0 ((s.wr Obj.dbgScope scope).wr Obj.dbgResult 0), abNone)
    else
      let s := { s with service := { s.service with badTokens := min (s.service.badTokens + 1) 8 } }
      (raise 0xC005 0 0 0 (s.wr Obj.dbgResult r), abState)

/-! Image verify (R404). -/

/-- A write of 1 to VFY_CTRL by path `p`. -/
def startVerify (p : Nat) (s : State) : State × Nat :=
  let t := s.rd Obj.vfyTarget
  if s.handles.any (fun h => h.op == .slotWrite (t - 0x10)) ∧ 0x10 ≤ t ∧ t < 0x14 then (s.wr Obj.vfyResult 0xC037, abState)
  else if eraseRuns s then (s, abState)
  else if !admits s then ((s.wr Obj.vfyResult 0xB101).inc Obj.handlesRefused, abBusy)
  else
    let (h, s) := issueHandle (.verify t) p s
    (s.wr Obj.vfyHandle h.word, abNone)

/-- The image that a verify target names, and the kind expected of it. -/
def verifySource (s : State) (t : Nat) : Source × Nat :=
  if t < 2 then (fwSource s t, 1)
  else if t < 0x20 then (showSlotSource s (t - 0x10), 2)
  else (sourceImage s, 0)

/-- VFY_COMPLETE: the oldest verify. -/
def execVfyComplete (s : State) : Host.Outcome State Fault Refusal :=
  clocked (fun s => match handleOf (fun o => match o with
      | .verify _ => true
      | _ => false) s with
    | none => s
    | some h => match h.op with
      | .verify t =>
        let (x, kind) := verifySource s t
        let s := if t < 0x20 then s else noteImage (s.rd Obj.showSource) x s
        let r := imageStatus s kind x
        completeHandle h r (if r = 0 then imgVersion x else 0) s.slate (s.wr Obj.vfyResult r)
      | _ => s) s

/-! The TAP (R401, R448). An instruction outside the scope in force acts as BYPASS. -/

def setTap (code : Byte) (s : State) : State := { s with service := { s.service with tapIr := code } }
def tapScoped (code : Byte) (bit : Nat) (s : State) : State := setTap (if (s.rd Obj.dbgScope).testBit bit then code else 0xFF) s

def execExtest (s : State) : Host.Outcome State Fault Refusal := .next (setTap 0x00 s)
def execSamplePreload (s : State) : Host.Outcome State Fault Refusal := .next (setTap 0x01 s)
def execIdcode (s : State) : Host.Outcome State Fault Refusal := .next (setTap 0x02 s)
/-- BYPASS, and every code of no instruction; `code` is what was shifted in. -/
def execBypass (code : Byte) (s : State) : Host.Outcome State Fault Refusal :=
  .next (match code.toNat with
    | 0x00 | 0x01 | 0x02 | 0x20 | 0x21 | 0x22 => s
    | _ => setTap 0xFF s)
def execDbgCore (s : State) : Host.Outcome State Fault Refusal := .next (tapScoped 0x20 0 s)
def execDbgFabric (s : State) : Host.Outcome State Fault Refusal := .next (tapScoped 0x21 1 s)
def execDbgTrace (s : State) : Host.Outcome State Fault Refusal := .next (tapScoped 0x22 2 s)
/-- TAP_RESET selects IDCODE. -/
def execTapReset (s : State) : Host.Outcome State Fault Refusal := .next (setTap 0x02 s)

/-- The IDCODE (R401). -/
def tapIdcode : Word := 0x16400B4F

end Sys2Proof.Machine
end

