-- ==== Sys2Proof/Machine/Show.lean ====
section
/-! DEFINITION. Show loads and slot writes (R69, R147 to R149, R236, R364, R370, R395 to R397). The checks are made, and an
accepted image is applied, when the load starts; its lanes stay LOADING until it completes. -/

namespace Sys2Proof.Machine

/-! The sections of an image (R148). -/

/-- The image kind that the sections name. -/
def showKind (ss : List ShowSection) : Nat :=
  (ss.findSome? fun x => match x with
    | .kind k => some k.toNat
    | _ => none).getD 0

/-- 0x4301: every program target is of the image's kind. -/
def kindGood (ss : List ShowSection) : Bool :=
  let k := showKind ss
  (k == 1 || k == 2) && ss.all fun x => match x with
    | .program _ _ _ _ => k == 1
    | .coreProgram _ _ _ => k == 2
    | _ => true

/-- The 16 values of a table section. -/
def sectionEntries (es : List (BitVec 160)) : List Nat := (List.range 16).map fun i => ((es[i]?).getD 0).toNat

/-- 0x4302: every entry of a table section is valid under R140. -/
def entriesValid (ss : List ShowSection) : Bool := ss.all fun x => match x with
  | .table _ _ es => (sectionEntries es).all dtEntryGood
  | _ => true

/-- 0x4303: a table section meets R145 or R146 now, or equals the resident table. -/
def tablesOpen (s : State) (ss : List ShowSection) : Bool := ss.all fun x => match x with
  | .table core k es =>
    let new := (sectionEntries es).map dtClean
    let old := (List.range 16).map fun i => s.rd (tableReg core k.val i)
    new == old || tableOpen s core k.val (new.map dtHeader != old.map dtHeader)
  | _ => true

/-- The tables that a load holds until it completes (R147). -/
def showLocks (ss : List ShowSection) : List Nat := ss.filterMap fun x => match x with
  | .table core k _ => some (tableCode core k.val)
  | _ => none

/-- Write the table sections. -/
def applyTables (ss : List ShowSection) (s : State) : State :=
  forList ss (fun x s => match x with
    | .table core k es =>
      forList (sectionEntries es).zipIdx (fun e s => s.wr (tableReg core k.val e.2) (dtClean e.1)) s
    | _ => s) s

/-- 0x4304: every program's slot map, costed with the tables in force after the load, is the one the image records. -/
def mapsGood (s : State) (ss : List ShowSection) : Bool :=
  let s' := applyTables ss s
  ss.all fun x => match x with
    | .program n _ bytes map => slotMapOf s' n.val bytes == map
    | _ => true

/-- 0x4311 and 0x4312: control-core programs target cores 2 to 7 that are held in reset (R236). -/
def coreTargets (s : State) (ss : List ShowSection) : Nat :=
  if ss.any fun x => match x with
      | .coreProgram c _ _ => decide (c.val < 2)
      | _ => false then 0x4311
  else if ss.any fun x => match x with
      | .coreProgram c _ _ => s.rd (Obj.coreState c.val) != 0
      | _ => false then 0x4312
  else 0

/-- Whether every program header passes its guard check (R373). -/
def headersGood (ss : List ShowSection) : Bool := ss.all fun x => match x with
  | .program _ h _ _ => pairGood h
  | .coreProgram _ h _ => pairGood h
  | _ => true

/-- Load the lane programs one after the other, or answer the first status of R61 that refuses one. -/
def loadPrograms : List ShowSection → State → State × Nat
  | [], s => (s, 0)
  | .program n _ bytes _ :: ss, s =>
    let r := programRefusal s n.val bytes (ownedElsewhere s n.val)
    if r ≠ 0 then (s, r) else loadPrograms ss (loadLane n.val bytes s)
  | _ :: ss, s => loadPrograms ss s

/-- Control-core programs go to instruction memory from byte 0x2_0000 upward (R236); guard bitmaps are stored with their lanes'
programs (R126); spectra go to their paths (R195). -/
def applyRest (ss : List ShowSection) (s : State) : State :=
  forList ss (fun x s => match x with
    | .coreProgram c _ bytes => { s with mem := writeBytes s.mem (0x3000000 + 0x40000 * c.val) (bytes.take 0x20000) }
    | .bitmap n bits => s.wr (Obj.guardBitmap n.val) bits.toNat
    | .spectra q ws => showSpectra q.val ws s
    | _ => s) s

/-- Whether R126 accepts every guard bitmap of an image: no reserved encoding, for a lane that is UNLOADED or STOPPED or that the
image programs. -/
def bitmapsGood (s : State) (ss : List ShowSection) : Bool := ss.all fun x => match x with
  | .bitmap n bits => bitmapGood s n.val bits.toNat &&
    (laneSt s n.val == laneUnloaded || laneSt s n.val == laneStopped || ss.any fun y => match y with
      | .program m _ _ _ => m == n
      | _ => false)
  | _ => true

/-- The first refusal of a spectra section, with its report. -/
def spectraRefused : List ShowSection → State → State × Nat
  | [], s => (s, 0)
  | .spectra q ws :: ss, s =>
    let (t, r) := showSpectraRefused q.val ws s
    if r ≠ 0 then (t, r) else spectraRefused ss s
  | _ :: ss, s => spectraRefused ss s

/-- The LX status of a rejected bitmap: not success, else open. -/
def bitmapRefused : Nat := Config.bitmapStatus.toNat % 0xFFFF + 1

/-- The lanes a load programs, and 64 + c for each control core. -/
def showTargets (ss : List ShowSection) : List Nat := ss.filterMap fun x => match x with
  | .program n _ _ _ => some n.val
  | .coreProgram c _ _ => some (64 + c.val)
  | _ => none

/-- The checks of R149 and R61 after those of the envelope, and the state with the sections applied. `p` is the path a guard fault
names. -/
def applySections (p : Nat) (ss : List ShowSection) (s : State) : State × Nat :=
  if !kindGood ss then (s, 0x4301)
  else if !entriesValid ss then (s, 0x4302)
  else if !tablesOpen s ss then (s, 0x4303)
  else if !mapsGood s ss then (s, 0x4304)
  else if (showLocks ss).any (tableLocked s) then (s, 0x4305)
  else if coreTargets s ss ≠ 0 then (s, coreTargets s ss)
  else if !headersGood ss then (raise 0x9006 p 0x2020 2 s, 0x9006)
  else if !bitmapsGood s ss then (s, bitmapRefused)
  else if (spectraRefused ss s).2 ≠ 0 then spectraRefused ss s
  else
    let (s', r) := loadPrograms ss (applyTables ss s)
    if r ≠ 0 then (s, r) else (applyRest ss s', 0)

/-! Loads and slot writes (R364, R370). -/

/-- The image a load reads: a flash slot 0 to 3, or 0x10 for SHOW_SOURCE. -/
def loadImage (s : State) (source : Nat) : Source := if source < 4 then showSlotSource s source else sourceImage s

/-- Start a show load by path `p` (R370); admission is checked before. -/
def startLoad (p source : Nat) (boot : Bool) (s : State) : State :=
  let x := loadImage s source
  let s := if source < 4 then s else noteImage (s.rd Obj.showSource) x s
  let r := imageStatus s 2 x
  let ss := Config.showSections (imgBody x)
  let (s', r) := if r = 0 then applySections p ss s else (s, r)
  let ok := r = 0
  let s' := if ok then { s' with service := { s'.service with showDigest := imgDigest x } } else s'
  let (h, s') := issueHandle (.show source (if ok then showTargets ss else []) (if ok then showLocks ss else []) boot) p s' r
  s'.wr Obj.showHandle h.word

/-- The refusal of a load or slot write that no handle slot admits (R304). -/
def showUnadmitted (s : State) : State × Nat := ((s.wr Obj.showResult 0xB101).inc Obj.handlesRefused, abBusy)

/-- A write of SHOW_LOAD. A slot write makes its checks before it erases the slot; while it runs the slot is erased. -/
def writeShowLoad (p v : Nat) (s : State) : State × Nat :=
  if v < 4 ∨ v = 0x10 then
    if !admits s then showUnadmitted s else (startLoad p v false s, abNone)
  else if 0x20 ≤ v ∧ v < 0x24 then
    let slot := v - 0x20
    if s.handles.any fun h => h.op == .verify (0x10 + slot) then (s.wr Obj.showResult 0xC037, abState)
    else if eraseRuns s then (s, abState)
    else if !admits s then showUnadmitted s
    else
      let x := sourceImage s
      let s := noteImage (s.rd Obj.showSource) x s
      let r := imageStatus s 2 x
      let (h, s) := issueHandle (.slotWrite slot) p s r
      let s := if r = 0 then { s with
          slotImages := s.slotImages.set [] h.slot (x.read 0 (imgTotal x))
          flash := { s.flash with shows := s.flash.shows.erase slot } } else s
      (s.wr Obj.showHandle h.word, abNone)
  else (s, abValue)

/-- SHOW_SLOT_WRITE_COMPLETE: the oldest slot write. -/
def execShowSlotWriteComplete (s : State) : Host.Outcome State Fault Refusal :=
  clocked (fun s => match handleOf (fun o => match o with
      | .slotWrite _ => true
      | _ => false) s with
    | none => s
    | some h => match h.op with
      | .slotWrite k =>
        if h.status = 0 ∧ s.rd Obj.holdSafe = 1 then s
        else
        let s := if h.status = 0 then
          { s with
            flash := { s.flash with shows := s.flash.shows.set [] k (s.slotImages.get [] h.slot) }
            slotImages := s.slotImages.erase h.slot }
          else s
        completeHandle h h.status 0 s.slate (s.wr Obj.showResult h.status)
      | _ => s) s

/-- A load ends (R54, R370): its lanes leave LOADING, its result posts. -/
def finishLoad (h : Handle) (s : State) : State :=
  match h.op with
  | .show source targets _ _ =>
    let s := forList targets (fun n s => if n < 64 then endLoad n s else s) s
    let s := if h.status = 0 then s.wr Obj.showActive source else s
    completeHandle h h.status h.detail s.slate (s.wr Obj.showResult h.status)
  | _ => s

end Sys2Proof.Machine
end

