-- ==== Sys2Proof/Machine/Service.lean ====
section
/-! DEFINITION. METER, tone, level and the start of built-in tests (R407 to R420). -/

namespace Sys2Proof.Machine

/-! METER (R407 to R410). -/

/-- FLT_METER_CLASS: the class of the active code raised earliest; codes of one cycle rank in ascending order (R381). -/
def meterClass (s : State) : Nat :=
  let first := s.active.foldl (fun (b : Option (Nat × Nat)) a =>
    let k := (a.2.toNat, a.1.toNat)
    match b with
    | none => some k
    | some m => if k.1 < m.1 ∨ (k.1 = m.1 ∧ k.2 < m.2) then some k else some m) none
  match first with
  | none => 0
  | some k => faultClass k.2

/-- Whether the booting part of R362 runs, from the registration of a reset or an exit from DORMANT (R409). -/
def booting (s : State) : Bool := s.boot.inReset || s.boot.meterE || s.boot.pending.isSome

/-- Code n of the STATUS mode (R409). -/
def statusCode (s : State) : Nat :=
  if s.rd Obj.pwrState = 2 ∨ s.rd Obj.pwrState = 5 then 0
  else if booting s then 0xE
  else if s.boot.mode ≠ 0 then 0xF
  else meterClass s

/-- The mean of the two junction sensors in 0.1 °C (R408). -/
def junction (s : State) : Int := (s.service.temp0.toInt + s.service.temp1.toInt) / 2

/-- The millivolts that METER_MODE asks for; STATUS whatever the mode in NAP, DORMANT, boot, safe and recovery mode. -/
def meterTarget (s : State) : Nat :=
  let status := 150 * (statusCode s + 1)
  let forced := s.rd Obj.pwrState == 2 || s.rd Obj.pwrState == 5 || booting s || s.boot.mode != 0
  let clamp (v : Int) : Nat := min v.toNat 2500
  if !s.power.supplied then 0
  else if forced then status
  else match s.rd Obj.meterMode with
    | 1 => min (s.power.vinMv.toNat / 10) 2500
    | 2 => clamp (500 + junction s)
    | 3 => clamp (2400 + toSigned 16 (s.rd Obj.levelPeak) / 5)
    | 4 => clamp (1250 + (toSigned 32 (s.rd Obj.steerOffset) + 5) / 10)
    | _ => status

/-- METER_UPDATE. -/
def execMeterUpdate (s : State) : Host.Outcome State Fault Refusal :=
  .next { s with service := { s.service with meterMv := meterTarget s } }

/-! Level (R419). -/

/-- The largest number up to 12,000 that a predicate, true up to some point, accepts, found by halving. -/
def searchDown (p : Nat → Bool) : Nat → Nat → Nat → Nat
  | 0, lo, _ => lo
  | k + 1, lo, hi =>
    if hi ≤ lo then lo
    else
      let mid := (lo + hi + 1) / 2
      if p mid then searchDown p k mid hi else searchDown p k lo (mid - 1)

/-- 2000 log10 (a / b) rounded to the nearest, from -12,000 to 0, as the bits of an INTEGER16: the largest v with
10^(2v - 1) b^4000 at most a^4000. -/
def levelOf (a b : Nat) : Nat :=
  let fits (x : Nat) : Bool := x == 0 || decide (b ^ 4000 ≤ a ^ 4000 * 10 ^ (24001 - 2 * x))
  ofSigned 16 ((searchDown fits 15 0 12000 : Int) - 12000)

/-- LEVEL_PEAK and LEVEL_RMS of words: full scale is 0x7FFF_FFFF. The mean square is compared through its square root's powers. -/
def peakLevel (ws : List Word) : Nat := levelOf (ws.foldl (fun m w => max m w.toInt.natAbs) 0) 0x7FFFFFFF
def rmsLevel (ws : List Word) : Nat :=
  let q := ws.foldl (fun m w => m + w.toInt.natAbs ^ 2) 0
  let full := 0x7FFFFFFF ^ 2 * ws.length
  let fits (x : Nat) : Bool := x == 0 || decide (full ^ 2000 ≤ q ^ 2000 * 10 ^ (24001 - 2 * x))
  if ws.isEmpty then ofSigned 16 (-12000) else ofSigned 16 ((searchDown fits 15 0 12000 : Int) - 12000)

/-- Whether the watched channel's mask bit is set. -/
def levelMasked (s : State) : Bool :=
  let c := s.rd Obj.levelChannel
  if c < 0x80 then (s.rd (Obj.portInMask (chanGroup c))).testBit (chanPos c)
  else (s.rd (Obj.portOutMask (chanGroup (c - 0x80)))).testBit (chanPos (c - 0x80))

/-- LEVEL_UPDATE. -/
def execLevelUpdate (s : State) : Host.Outcome State Fault Refusal := clocked (fun s =>
  let ws := (s.service.levels.filter fun x => decide (s.slate.toNat ≤ x.1.toNat + 10000000)).map (·.2)
  let ws := if levelMasked s then ws else []
  (s.wr Obj.levelPeak (peakLevel ws)).wr Obj.levelRms (rmsLevel ws)) s

/-- A write of LEVEL_CHANNEL, alone or through METER_CHANNEL. -/
def channelGood (v : Nat) : Bool := decide (v < 0x60) || (decide (0x80 ≤ v) && decide (v < 0xE0))
def putLevelChannel (v : Nat) (s : State) : State :=
  { s with service := { s.service with levels := [] } }.wr Obj.levelChannel v

/-! Tone (R418). -/

/-- Mark or clear the tone's fade cause on a channel. -/
def toneCause (b : Bool) (c : Nat) (s : State) : State :=
  if c < 96 then s.setOutchan c { s.outchan c with causes := { (s.outchan c).causes with tone := b } } else s

/-- The tone moves toward channel `v`, or to off: the old and the new channel fade out first. -/
def aimTone (v : Nat) (s : State) : State :=
  let s := s.wr Obj.toneChannel v
  let s := match s.service.toneNext with
    | some k => toneCause false k s
    | none => s
  let old := s.service.toneNow
  if old = v then toneCause false v { s with service := { s.service with toneNext := none } }
  else toneCause true v (toneCause true old { s with service := { s.service with toneNext := some v } })

/-- Whether the tone of `hz` stays below fs / 2 on channel `v`. -/
def toneFits (s : State) (v hz : Nat) : Bool := decide (96 ≤ v) || decide (2 * hz < s.rd (Obj.portRate (chanGroup v)))

/-- A write of TONE_CHANNEL. -/
def writeToneChannel (v : Nat) (s : State) : State × Nat :=
  if !toneFits s v (s.rd Obj.toneFreq) then (s, abValue)
  else if s.service.serviceN then (s, abState)
  else (aimTone v s, abNone)

/-- TONE_SWITCH. -/
def execToneSwitch (s : State) : Host.Outcome State Fault Refusal := .next (switchTone s)

/-- SERVICE_N_RISE: the tone fades out, and a gated test ends (R413, R416). -/
def execServiceNRise (s : State) : Host.Outcome State Fault Refusal :=
  let s := { s with service := { s.service with serviceN := true } }
  let s := if s.rd Obj.toneChannel = 0xFF then s else aimTone 0xFF s
  .next (match s.service.bist with
    | some (test, _) => if bistGated test then bistEnd 0xC052 0 s else s
    | none => s)

/-! Starting a built-in test (R414, R415). -/

/-- The bits of BIST_ARG that a test uses. -/
def bistMask : Nat → Nat
  | 1 => 0x3FF
  | 3 => 0xFFFFFFFFFFFFFFFF
  | 5 | 6 => 0x3F
  | _ => 0

/-- The prerequisite "idle". -/
def bistIdle (s : State) : Bool :=
  (List.range 64).all (fun n => laneSt s n == laneUnloaded) &&
    !s.nodes.any (fun x => decide (288 ≤ x.1) && s.rd (Obj.nodeState x.1) != 0) &&
    !s.paths.any (·.2.on) && !s.convs.any (·.2.on) && !s.rings.any (·.2.on) && !s.edges.any (·.2.on) &&
    (List.range 32).all fun ch => s.rd (Obj.dmaState ch) == 0

/-- Whether a lane is bound to a trigger of port group `g` (R28). -/
def boundToPort (s : State) (g n : Nat) : Bool :=
  decide (laneGroup s n < 64) &&
    let src := s.rd (Obj.tgSource (laneGroup s n))
    src % 0x1000 == g && [1, 2, 3].contains (src / 0x1000)

/-- The prerequisites of a test. A group's clocks are taken to run in PREROLL, RUN and RELOCK. -/
def bistReady (s : State) (test arg : Nat) : Bool :=
  let groups (n : Nat) (p : Nat → Bool) : Bool := (List.range n).all fun g => !arg.testBit g || p g
  match test with
  | 1 =>
    groups 8 (fun g => s.rd (Obj.pgOwner g) == 0 && s.rd (Obj.pgState g) == 1 && !groupInUse s g) &&
      (!arg.testBit 8 || (List.range 64).all fun n => laneSt s n == laneUnloaded) &&
      (!arg.testBit 9 || (List.range 64).all fun g => s.rd (Obj.tgXchBanks g) == 0)
  | 2 | 4 => bistIdle s
  | 3 => groups 64 fun n => laneSt s n == laneUnloaded
  | 5 | 6 => groups 6 fun g =>
      (portSt s g == portPreroll || portSt s g == portRun || portSt s g == portRelock) && s.rd (Obj.streamEnable g) == 0 &&
        (List.range 64).all fun n => !boundToPort s g n || laneSt s n == laneUnloaded || laneSt s n == laneStopped
  | 7 => s.can.nmt == 127 || s.can.nmt == 4
  | 8 => s.rd Obj.leader == 0xFF && (List.range 6).all fun g => portSt s g == portOff
  | _ => true

/-- A write of 1 to BIST_CTRL by path `p`. -/
def startBist (p : Nat) (s : State) : State × Nat :=
  let test := s.rd Obj.bistSelect
  let arg := s.rd Obj.bistArg
  let refuse (st : Nat) : State × Nat := (if st = 0 then s else s.wr Obj.bistResult st, abState)
  if arg &&& bistMask test ≠ arg then (s, abValue)
  else if bistGated test && s.service.serviceN then refuse 0xC051
  else if s.service.bist.isSome || !bistReady s test arg then refuse (bistNotReady test)
  else if !admits s then ((s.wr Obj.bistResult 0xB101).inc Obj.handlesRefused, abBusy)
  else
    let (h, s) := issueHandle (.bist test) p s
    let groups := (List.range 6).filter fun g => test == 5 && arg.testBit g
    let old := groups.map fun g => (g, s.rd (Obj.portTest g))
    let s := { s with service := { s.service with bist := some (test, BitVec.ofNat 64 arg), bistTest := old } }
    let s := forList groups (fun g s => writePortTest g 1 s) s
    ((s.wr Obj.bistState 1).wr Obj.bistHandle h.word, abNone)

/-- BIST_COMPLETE: the test has passed, or failed with a DETAIL. -/
def execBistComplete (failDetail : Option Word) (s : State) : Host.Outcome State Fault Refusal :=
  clocked (fun s => match s.service.bist with
    | none => s
    | some (test, _) => match failDetail with
      | none => bistEnd 0 0 s
      | some d => bistEnd (bistFail test) d.toNat s) s

end Sys2Proof.Machine
end

