-- ==== Sys2Proof/Machine/Codec.lean ====
section
/-! DEFINITION. The codec port (R334 to R338). -/

namespace Sys2Proof.Machine

/-- The fields of an entry (R335). -/
def cdcSel (e : BitVec 64) : Byte := e.extractLsb' 24 8
def cdcCont (e : BitVec 64) : Bool := e.getLsbD 8
def cdcCount (e : BitVec 64) : Nat := (e.extractLsb' 16 8).toNat
def cdcSize (e : BitVec 64) : Nat := (e.extractLsb' 11 5).toNat
def cdcRx (e : BitVec 64) : Bool := e.getLsbD 7
def cdcIrq (e : BitVec 64) : Bool := e.getLsbD 6
def cdcTag (e : BitVec 64) : Nat := (e.extractLsb' 32 16).toNat
def cdcTxOff (e : BitVec 64) : Nat := (e.extractLsb' 48 10).toNat

def setCodec (c : Codec) (s : State) : State := { s with codec := c }

/-- A write of CDC_ENTRY (R335). -/
def writeCdcEntry (v : Nat) (s : State) : State × Nat :=
  let e := BitVec.ofNat 64 v
  if cdcSize e < 7 then (s, abValue)
  else if 64 ≤ s.codec.queue.length then (s.inc Obj.cdcRefused, abState)
  else (setCodec { s.codec with queue := s.codec.queue ++ [e] } s, abNone)

/-- The word the port sends now (R336): the low WSIZE + 1 bits of the transmit word as it stands when the word starts. -/
def cdcTxWord (s : State) (e : BitVec 64) (i : Nat) : Nat :=
  let k := (cdcTxOff e + i) % 1024
  (s.rd (Obj.cdcTx (k / 256)) / 2 ^ (32 * (k % 256))) % 2 ^ (cdcSize e + 1)

/-- A word starts: the selects of the entry are asserted, and the transmit word is read as it stands (R335, R336). -/
def startWord (e : BitVec 64) (s : State) : State :=
  setCodec { s.codec with word := true, tx := BitVec.ofNat 32 (cdcTxWord s e s.codec.index), sel := ~~~(cdcSel e) } s

/-- The next word of the running entry starts where none is in progress: after the gap between words, or after a wake (R336, R337). No
word starts but in RUN. -/
def nextWord (s : State) : State :=
  match s.codec.queue with
  | e :: _ => if s.codec.running && !s.codec.word && s.rd Obj.pwrState == 0 then startWord e s else s
  | [] => s

/-- CODEC_ENTRY_START: the entry at the front starts its first word; one that a NAP has held starts its next. -/
def execCodecEntryStart (s : State) : Host.Outcome State Fault Refusal :=
  .next (if s.codec.running then nextWord s
    else if s.codec.queue.isEmpty || s.rd Obj.pwrState != 0 then s
    else nextWord (setCodec { s.codec with running := true, index := 0 } s))

/-- The entry at the front leaves the queue, and the selects are released. -/
def dropEntry (s : State) : State :=
  setCodec { s.codec with queue := s.codec.queue.tail, running := false, index := 0, word := false, sel := 0xFF, flush := false } s

/-- A word that is not the entry's last has ended. With CONT the next follows back to back under the same selects; without it the
selects are released, and the next word starts after the gap. -/
def betweenWords (e : BitVec 64) (s : State) : State :=
  let s := setCodec { s.codec with index := s.codec.index + 1, word := false } s
  if cdcCont e && s.rd Obj.pwrState == 0 then nextWord s else setCodec { s.codec with sel := 0xFF } s

/-- A received word (R336, R337). -/
def pushReply (e : BitVec 64) (rx : Word) (s : State) : State :=
  if !cdcRx e then s
  else if 1024 ≤ s.codec.rx.length then raiseOnce 0 0xA011 1 (cdcTag e) 0 (s.inc Obj.cdcRxLost)
  else setCodec { s.codec with rx := s.codec.rx ++ [BitVec.ofNat 32 (rx.toNat % 2 ^ (cdcSize e + 1))] } s

/-- CODEC_WORD_COMPLETE: the last bit of the word in progress is sampled, or of the next one where its gap is over by now; the last word of an entry completes it (R335 to R337). -/
def execCodecWordComplete (rx : Word) (s : State) : Host.Outcome State Fault Refusal :=
  .next (if !awake s then s
    else
      let s := nextWord s
      match s.codec.word, s.codec.queue with
      | true, e :: _ =>
        let s := pushReply e rx s
        if s.codec.index < cdcCount e then if s.codec.flush then dropEntry s else betweenWords e s
        else
          let s := ((dropEntry s).inc Obj.cdcDone).wr Obj.cdcDoneTag (cdcTag e)
          if cdcIrq e then pendAll 4 (ulIrq 4 s) else s
      | _, _ => s)

/-- A write of CDC_FLUSH (R337): 1 flushes the queue, 2 empties the reply FIFO, 3 does both. The word in progress ends first. -/
def flushCodec (v : Nat) (s : State) : State :=
  let s := if v % 2 = 1 then
      if s.codec.word then setCodec { s.codec with queue := s.codec.queue.take 1, flush := true } s
      else setCodec { s.codec with queue := [], running := false, index := 0, sel := 0xFF } s
    else s
  if 2 ≤ v then setCodec { s.codec with rx := [] } s else s

/-- A read of CDC_RX_WORD, and of CDC_RX_BLOCK, removes what it returns (R338). -/
def readRxWord (s : State) : List Byte × State :=
  match s.codec.rx with
  | [] => (leBytes 4 0, s)
  | w :: ws => (leBytes 4 w.toNat, setCodec { s.codec with rx := ws } s)
def readRxBlock (s : State) : List Byte × State :=
  ((s.codec.rx.take 256).flatMap fun w => leBytes 4 w.toNat, setCodec { s.codec with rx := s.codec.rx.drop 256 } s)

end Sys2Proof.Machine
end

