-- ==== Sys2Proof/Machine/Persist.lean ====
section
/-! DEFINITION. Looking objects up in the table, and the stored sets of the flash (R289, R311, R312). -/

namespace Sys2Proof.Machine

/-! The object table. -/

/-- Whether a row holds an index, and a sub-index of it. -/
def ObjRow.hasIndex (r : ObjRow) (idx : Nat) : Bool :=
  decide (r.idx ≤ idx) && (idx - r.idx) % r.stride == 0 && decide ((idx - r.idx) / r.stride < r.cnt)
def ObjRow.hasSub (r : ObjRow) (sub : Nat) : Bool := decide (r.sub ≤ sub) && decide (sub < r.sub + r.nsub)

def indexExists (idx : Nat) : Bool := objRows.any fun r => r.hasIndex idx
def findRow (idx sub : Nat) : Option ObjRow := objRows.find? fun r => r.hasIndex idx && r.hasSub sub

/-- The objects kept per access path (R290). -/
def perPath (idx sub : Nat) : Bool :=
  (idx == 0x2800 && [1, 2, 3, 5, 6].contains sub) || (idx == 0x3001 && sub == 1) || (idx == 0x3002 && sub == 1) ||
    (idx == 0x5F00 && (sub == 2 || sub == 3)) || (idx == 0x5F01 && sub == 5)

/-- The objects of one item behind NODE_SEL or EDGE_SEL (R231, R232). -/
def perItem (idx sub : Nat) : Bool := (idx == 0x3001 || idx == 0x3002) && decide (2 ≤ sub)

/-- The item that path `p` has selected. -/
def selected (s : State) (p idx : Nat) : Nat := s.rd (if idx = 0x3001 then Obj.nodeSel p else Obj.edgeSel p)

/-- The key of an object of item `item`, as path `p` reaches it. -/
def objKey (p item idx sub : Nat) : Nat :=
  idx * 256 + sub + (if perPath idx sub then (p + 1) * 2 ^ 24 else 0) + (if perItem idx sub then (item + 1) * 2 ^ 40 else 0)

/-- The default of an object: routing of a pin channel is its own output register (R168). -/
def objDefault (r : ObjRow) (idx sub : Nat) : Nat :=
  if 0x2400 ≤ idx ∧ idx < 0x2406 ∧ 1 ≤ sub then guardOf (0x80 + 16 * (idx - 0x2400) + (sub - 1)) else r.dflt

/-- The register of an object. -/
def objReg (r : ObjRow) (p item idx sub : Nat) : Reg := ⟨objKey p item idx sub, objDefault r idx sub⟩

/-- The item a key names. -/
def keyItem (k : Nat) : Nat := k / 2 ^ 40 - 1

/-! The stored sets (R311, R312). -/

/-- Whether a key holds an rws object, of the part that a sub-index of 0x1010 and 0x1011 selects. -/
def keyStored (sub k : Nat) : Bool :=
  let i := keyIndex k
  (sub == 1 || (sub == 2 && decide (i < 0x2000)) || (sub == 3 && decide (0x2000 ≤ i))) &&
    match findRow i (keySub k) with
    | some r => r.acc == .rws
    | none => false

/-- The set that is current. -/
def currentSet (s : State) : Map Nat := if s.flash.useB then s.flash.setB else s.flash.setA

/-- Merge two canonical maps whose keys are disjoint. -/
def mergeMap (a b : Map Nat) : Map Nat := b.foldl (fun m x => Map.insert m x.1 x.2) a

/-- The set that a store of part `sub` leaves: the part from the snapshot, the rest as it was. -/
def storedSet (s : State) (sub : Nat) : Map Nat :=
  mergeMap ((currentSet s).filter fun x => !keyStored sub x.1) s.snapshot

/-- Whether a store or restore is outstanding. -/
def storeRuns (s : State) : Bool := s.handles.any fun h => match h.op with
  | .store _ | .restore _ => true
  | _ => false

/-- A write of 0x1010:sub. -/
def writeStore (p sub v : Nat) (s : State) : State × Nat :=
  if v ≠ 0x65766173 then (s, abGuard)
  else if storeRuns s || eraseRuns s then (s, abState)
  else if !admits s then (s.inc Obj.handlesRefused, abBusy)
  else
    let s' := (issueHandle (.store sub) p s).2
    ({ s' with snapshot := s.od.filter fun x => keyStored sub x.1 }, abNone)

/-- A write of 0x1011:sub. -/
def writeRestore (p sub v : Nat) (s : State) : State × Nat :=
  if v ≠ 0x64616F6C then (s, abGuard)
  else if storeRuns s || eraseRuns s then (s, abState)
  else if !admits s then (s.inc Obj.handlesRefused, abBusy)
  else ((issueHandle (.restore sub) p s).2, abNone)

/-- A new set becomes current as the last act of a store. -/
def putSet (m : Map Nat) (s : State) : State :=
  if s.flash.useB then { s with flash := { s.flash with setA := m, useB := false } }
  else { s with flash := { s.flash with setB := m, useB := true } }

/-- Replace the current set in place, as a restore and an LSS store do. -/
def patchSet (m : Map Nat) (s : State) : State :=
  if s.flash.useB then { s with flash := { s.flash with setB := m } } else { s with flash := { s.flash with setA := m } }

/-! The start of the field network (R297 to R299). -/

/-- The CAN controller starts with the node-ID and bit rate of 0x2002. A mismatched pair leaves it silent. -/
def canStart (s : State) : State :=
  let id := s.rd Obj.nodeId
  let br := s.rd Obj.bitRate
  let silent (s : State) : State := { s with can := { s.can with silent := true } }
  let s := if guardGood id then s else silent (raise 0x9001 0 0x2002 1 s)
  let s := if guardGood br then s else silent (raise 0x9001 0 0x2002 2 s)
  if s.can.silent then s
  else
    let s := { s with can := { s.can with rate := BitVec.ofNat 8 (guardVal br) } }.wr Obj.nodeIdActive (guardVal id)
    if guardVal id = 0xFF then s
    else canSend (.bootUp (BitVec.ofNat 8 (guardVal id))) { s with can := { s.can with nmt := 127 } }

/-- The flash holds a good pair for node-ID and bit rate: a controller that a bad pair had silenced takes part again (R299). -/
def endSilence (s : State) : State :=
  let good (r : Reg) : Bool := guardGood ((currentSet s).get r.dflt r.key)
  if !s.can.silent || s.boot.mode != 0 || !good Obj.nodeId || !good Obj.bitRate then s
  else
    let s := { s with can := { s.can with silent := false } }
    if s.can.nmt = 0 then canStart s else s

/-- STORE_COMPLETE: it has succeeded, or failed with 0x8010 and left the previous set current. Flash programming pauses in hold-safe
(R351). A good pair of 0x2002 in the stored set ends the silence of a controller that met a bad one (R299). -/
def execStoreComplete (ok : Bool) (s : State) : Host.Outcome State Fault Refusal :=
  clocked (fun s => if s.rd Obj.holdSafe = 1 then s else match handleOf (fun o => match o with
      | .store _ => true
      | _ => false) s with
    | none => s
    | some h => match h.op with
      | .store sub =>
        let s := if ok then endSilence (putSet (storedSet s sub) s) else s
        completeHandle h (if ok then 0 else 0x8010) sub s.slate { s with snapshot := [] }
      | _ => s) s

/-- RESTORE_COMPLETE: the selected part of the current set stands at its defaults. -/
def execRestoreComplete (s : State) : Host.Outcome State Fault Refusal :=
  clocked (fun s => if s.rd Obj.holdSafe = 1 then s else match handleOf (fun o => match o with
      | .restore _ => true
      | _ => false) s with
    | none => s
    | some h => match h.op with
      | .restore sub =>
        completeHandle h 0 sub s.slate (patchSet ((currentSet s).filter fun x => !keyStored sub x.1) s)
      | _ => s) s

end Sys2Proof.Machine
end

