-- ==== Sys2Proof/Machine/Views.lean ====
section
/-! DEFINITION. What an object reads (R289 to R293): the register that holds it, or the value that the state behind it gives. -/

namespace Sys2Proof.Machine

/-- The bits of a register that a predicate sets, of `n`. -/
def bitsWhere (n : Nat) (p : Nat → Bool) : Nat := bitsOf ((List.range n).map p)

/-- The node-ID in use. -/
def activeNode (s : State) : Nat := s.rd Obj.nodeIdActive

/-- A COB-ID as it reads: a default with the node-ID added (R294, R310). -/
def cobValue (s : State) (r : Reg) : Nat :=
  let v := s.rd r
  if byNode ≤ v then (v - byNode + activeNode s) % 2 ^ 32 else v

/-- A reading over the last 10 ms, of an object in the present cycle: a free value of `n` bits. -/
def measuredNow (s : State) (key n : Nat) : Nat := Config.measured (key + s.slate.toNat * 2 ^ 24) % 2 ^ n

/-- The busy fraction of a unit over the last 10 ms, 1,000,000 ticks, in 1/65,536 (R196, R238). -/
def busyFraction (s : State) (unit : Nat) : Nat :=
  let now := s.slate.toNat
  let ticks := sumBy (fun x => if x.unit = unit then min x.hi now - max x.lo (now - 1000000) else 0) s.busy
  min 65535 (ticks * 65536 / 1000000)

/-- The bytes of a completion record and of a fault record (R307, R377). -/
def recordBytes (r : Record) : List Byte :=
  leBytes 2 r.handle.toNat ++ leBytes 2 r.status.toNat ++ leBytes 4 r.detail.toNat ++ leBytes 8 r.slate.toNat
def faultBytes (r : FaultRec) : List Byte :=
  leBytes 2 r.rep.toNat ++ leBytes 2 r.code.toNat ++ leBytes 2 r.info.toNat ++ leBytes 2 r.unit.toNat ++
    leBytes 8 r.extra.toNat ++ leBytes 8 r.slate.toNat

def noRecord : Record := ⟨0, 0, 0, 0⟩
def noFault : FaultRec := ⟨0, 0, 0, 0, 0, 0⟩

/-- Harvest entry `k`, and fault log entry `k`. -/
def ringRecord (s : State) (k : Nat) : Record := s.records.get noRecord k
def logRecord (s : State) (k : Nat) : FaultRec := s.faultLog.get noFault k

/-- 0x1018 (R1, R294). -/
def identityWord (sub : Nat) : Nat := match sub with
  | 1 => 0x0A5D
  | 2 => if Config.variantM8 then 0x6408 else 0x6404
  | 3 => 0x10000 + (Config.revision.extractLsb' 0 16).toNat
  | _ => Config.serial.toNat

/-- OUT_MASK of lane `n` (R58). -/
def outMask (s : State) (n : Nat) : Nat :=
  if laneSt s n = laneUnloaded then 0 else bitsWhere 96 fun k => (s.lane n).ocOwned.contains k

/-- Objects 0x1000 to 0x1FFF that have no register. -/
def viewComm (s : State) (idx sub stored : Nat) : Nat :=
  if idx = 0x1001 then errRegister s
  else if idx = 0x1003 then (if sub = 0 then s.can.errors.length else ((s.can.errors[sub - 1]?).getD 0).toNat)
  else if idx = 0x1014 then cobValue s Obj.cobEmcy
  else if idx = 0x180F ∧ sub = 1 then cobValue s (Obj.tpdoCob 15)
  else if (idx = 0x1010 ∨ idx = 0x1011) ∧ 1 ≤ sub then 1
  else if idx = 0x1018 ∧ 1 ≤ sub then identityWord sub
  else stored

/-- Objects 0x2000 to 0x2FFF that have no register. -/
def viewUnits (s : State) (idx sub stored : Nat) : Nat :=
  if idx = 0x2102 ∧ sub = 1 then s.slate.toNat
  else if idx = 0x2102 ∧ sub = 2 then (s.slate.extractLsb' 56 8).toNat
  else if idx = 0x2103 ∧ sub = 1 then s.power.vinMv.toNat
  else if idx = 0x2103 ∧ sub = 2 then s.power.coreMv.toNat
  else if 0x2600 ≤ idx ∧ idx < 0x2640 ∧ sub = 21 then outMask s (idx - 0x2600)
  else if 0x2680 ≤ idx ∧ idx < 0x26C0 ∧ sub = 3 then groupBudget s (idx - 0x2680)
  else if 0x2680 ≤ idx ∧ idx < 0x26C0 ∧ sub = 6 then bitsWhere 64 fun n => laneGroup s n == idx - 0x2680
  else if idx = 0x2801 then match sub with
    | 1 => bitsWhere 64 fun n => (pendingSplice s n).isSome
    | 2 => bitsWhere 64 fun n => (s.lane n).copy.isSome
    | 3 => bitsWhere 64 fun n => (s.lane n).glides.any fun g => decide (g.count + g.behind < g.len)
    | 4 => (s.splices.filter fun r => !r.waiting.isEmpty).length
    | _ => stored
  else if 0x2A00 ≤ idx ∧ idx < 0x2A08 ∧ sub = 17 then dtValidBits s false (idx - 0x2A00)
  else if 0x2A10 ≤ idx ∧ idx < 0x2A18 ∧ sub = 17 then dtValidBits s true (idx - 0x2A10)
  else stored

/-- The engine or core that holds a firing of a node; 0xFF for none (R231). -/
def heldBy (s : State) (slot : Nat) : Nat :=
  match s.firings.find? fun f => f.slot == slot && f.state != 2 with
  | some f => f.holder
  | none => 0xFF

/-- Objects 0x3000 to 0x32FF that have no register. -/
def viewFlow (s : State) (item idx sub stored : Nat) : Nat :=
  if idx = 0x3000 then match sub with
    | 1 => ((List.range 512).filter fun i => s.rd (Obj.nodeState i) != 0).length
    | 2 => tokenSlots s
    | 3 => (s.firings.filter fun f => f.state == 2).length
    | 4 => (s.firings.filter fun f => f.state != 2).length
    | 5 => bitsWhere 8 fun c => s.rd (Obj.coreState c) == 2
    | _ => stored
  else if idx = 0x3001 ∧ sub = 11 then heldBy s item
  else if idx = 0x3002 then match sub with
    | 6 => edgeTokens s item
    | 7 => edgeCredit s item
    | 8 => ((s.edge item).prod != 0).toNat + 2 * ((s.edge item).cons != 0).toNat
    | _ => stored
  else if idx = 0x3200 then match sub with
    | 1 => bitsWhere 32 fun ch => s.rd (Obj.dmaState ch) == dmaActive
    | 2 => bitsWhere 32 fun ch => s.rd (Obj.dmaState ch) == dmaHalted
    | 3 => dmaBufUsed s
    | _ => stored
  else stored

/-- Objects 0x3400 to 0x3BFF that have no register. -/
def viewEngines (s : State) (idx sub stored : Nat) : Nat :=
  let key := idx * 256 + sub
  if idx = 0x3420 then match sub with
    | 1 => dramSize
    | 2 => measuredNow s key 32
    | 3 => measuredNow s key 32
    | _ => stored
  else if 0x3600 ≤ idx ∧ idx < 0x3680 ∧ (sub = 17 ∨ sub = 49) then (cpLoadedNow s (2 * (idx - 0x3600) + sub / 32)).toNat
  else if 0x3690 ≤ idx ∧ idx < 0x36A0 ∧ sub = 3 then busyFraction s (0x10 + (idx - 0x3690))
  else if idx = 0x36A0 ∧ sub = 2 then sumBy (fun p => if p.2.on then s.rd (Obj.cpReads p.1) else 0) s.paths
  else if idx = 0x3880 ∧ sub = 1 then asLoadNow s
  else if idx = 0x3A00 ∧ sub = 1 then activeClasses s
  else if idx = 0x3A00 ∧ sub = 7 then meterClass s
  else if idx = 0x3A02 ∧ sub = 2 then wdtRemain s
  else if 0x3A40 ≤ idx ∧ idx < 0x3A48 ∧ sub = 4 then busyFraction s (idx - 0x3A40)
  else stored

/-- Objects 0x3C00 to 0x5FFF that have no register. -/
def viewService (s : State) (p idx sub stored : Nat) : Nat :=
  if idx = 0x3C00 ∧ sub = 3 then s.service.meterMv
  else if idx = 0x3C60 ∧ sub = 3 then s.codec.queue.length
  else if idx = 0x3C60 ∧ sub = 6 then s.codec.rx.length
  else if idx = 0x3E00 ∧ sub = 1 then Config.unitPubkey.toNat
  else if idx = 0x5F00 ∧ sub = 1 then s.handles.length
  else if idx = 0x5F00 ∧ sub = 4 then (findHandle s (s.rd (Obj.handleQuery p))).isSome.toNat
  else stored

/-- The value of an object whose type has a fixed length and that no rule below gives as bytes. -/
def viewNat (s : State) (p item idx sub stored : Nat) : Nat :=
  if idx < 0x2000 then viewComm s idx sub stored
  else if idx < 0x3000 then viewUnits s idx sub stored
  else if idx < 0x3400 then viewFlow s item idx sub stored
  else if idx < 0x3C00 then viewEngines s idx sub stored
  else viewService s p idx sub stored

/-- The value of an object that is bytes. -/
def viewBytes (s : State) (p idx sub : Nat) : Option (List Byte) :=
  if idx = 0x1008 then some [0x4C, 0x58, 0x2D, 0x36, 0x34, 0x30, 0x30]
  else if idx = 0x1009 then some Config.hwVersion
  else if idx = 0x100A then some Config.swVersion
  else if idx = 0x3A00 ∧ 17 ≤ sub then some (faultBytes (logRecord s (sub - 17)))
  else if idx = 0x3E00 ∧ sub = 2 then some Config.unitCert
  else if idx = 0x3E00 ∧ sub = 3 then some Config.interCert
  else if idx = 0x3E02 ∧ sub = 3 then some (fitBytes 192 s.service.attReport)
  else if idx = 0x3E03 ∧ sub = 1 then some (challengeBytes s)
  else if idx = 0x5F01 ∧ sub = 4 then
    some (recordBytes (if s.rd Obj.hvUsed = 0 then noRecord else ringRecord s (s.rd Obj.hvTail)))
  else if idx = 0x5F01 ∧ sub = 6 then some (recordBytes (ringRecord s (s.rd (Obj.hvSel p))))
  else none

/-- The value of a readable object, on path `p`. -/
def objBytes (s : State) (p item : Nat) (r : ObjRow) (idx sub : Nat) : List Byte :=
  match viewBytes s p idx sub with
  | some bs => bs
  | none => leBytes r.type.bytes (viewNat s p item idx sub (s.rd (objReg r p item idx sub)))

/-- Abort codes of a lookup and of an access right (R293). -/
def abNoIndex : Nat := 0x06020000
def abNoSub : Nat := 0x06090011
def abWriteOnly : Nat := 0x06010001
def abReadOnly : Nat := 0x06010002
def abLonger : Nat := 0x06070012
def abShorter : Nat := 0x06070013
def abNoMap : Nat := 0x06040041
def abMapLong : Nat := 0x06040042

/-- Look an object up; the abort code where it does not exist. -/
def lookup (idx sub : Nat) : Except Nat ObjRow := match findRow idx sub with
  | some r => .ok r
  | none => .error (if indexExists idx then abNoSub else abNoIndex)

/-- A read by path `p`: the value, the state after it (R338), the abort code. -/
def dictRead (p idx sub : Nat) (s : State) : List Byte × State × Nat :=
  match lookup idx sub with
  | .error e => ([], s, e)
  | .ok r =>
    if r.acc == .wo then ([], s, abWriteOnly)
    else if idx = 0x3C60 ∧ sub = 7 then let (b, s') := readRxWord s; (b, s', abNone)
    else if idx = 0x3C60 ∧ sub = 8 then let (b, s') := readRxBlock s; (b, s', abNone)
    else (objBytes s p (selected s p idx) r idx sub, s, abNone)

/-- The dictionary server runs on the firmware's cores (R235): it answers from step 4 of R362 on, while the fast clocks run, and
not in recovery mode (R344, R366). -/
def served (s : State) : Bool := s.boot.booted && awake s

/-- Keep the answer to an access of path `p`. -/
def answer (p key abort : Nat) (value : List Byte) (s : State) : State :=
  { s with answers := s.answers.set {} p ⟨key, BitVec.ofNat 32 abort, value⟩ }

end Sys2Proof.Machine
end

