-- ==== Sys2Proof/Machine/Dict.lean ====
section
/-! DEFINITION. The dictionary server: the checks of a write, and what an accepted write does (R11, R289 to R293, and the conditions
that the chapters set on their objects). -/

namespace Sys2Proof.Machine

/-! Checks of a value (R11). -/

/-- The check of a value domain. -/
def domGood (r : ObjRow) (v : Nat) : Bool := match r.dom with
  | .any => true
  | .range lo hi => decide (lo ≤ v) && decide (v ≤ hi)
  | .rangeOr lo hi e => (decide (lo ≤ v) && decide (v ≤ hi)) || v == e
  | .bits _ => true
  | .srange lo hi => decide (lo ≤ toSigned (8 * r.type.bytes) v) && decide (toSigned (8 * r.type.bytes) v ≤ hi)
  | .guard lo hi => decide (lo ≤ guardVal v) && decide (guardVal v ≤ hi)
  | .mult n => v % n == 0
  | .custom => true

/-- Drop the reserved bits of a value (R10). -/
def dropReserved (r : ObjRow) (idx sub v : Nat) : Nat :=
  if idx = 0x2030 ∧ 1 ≤ sub ∧ sub ≤ 16 then v &&& 0x7F
  else if 0x2200 ≤ idx ∧ idx < 0x2260 ∧ idx % 16 = 0 ∧ sub = 2 then v &&& 0x3F
  else if 0x2400 ≤ idx ∧ idx < 0x2406 ∧ 1 ≤ sub then guardOf (guardVal v &&& 0x1FF)
  else if 0x2840 ≤ idx ∧ idx < 0x2880 ∧ 1 ≤ sub then v &&& 0xFFFF1FFF
  else if idx = 0x1016 ∧ 1 ≤ sub then v &&& 0xFFFFFF
  else if idx = 0x1014 ∨ ((0x1400 ≤ idx ∧ idx < 0x1410 ∨ 0x1800 ≤ idx ∧ idx < 0x1810) ∧ sub = 1) then v &&& 0xBFFFFFFF
  else match r.dom with
    | .bits m => v &&& m
    | _ => v

/-- PORT_FORMAT (R151): HALF is not 3 and W does not exceed H. -/
def formatGood (v : Nat) : Bool := v / 16 % 4 != 3 && decide (fmtWlen v ≤ fmtHalf v)

/-- A routing value (R168). -/
def routingGood (v : Nat) : Bool := match v / 128 % 4 with
  | 0 => v % 128 == 0
  | 1 => decide (v % 128 < 96)
  | 2 => v % 128 == 0
  | _ => false

/-- TG_SOURCE (R59). -/
def sourceGood (v : Nat) : Bool := match v / 0x1000 with
  | 0 => v % 0x1000 == 0
  | 1 | 2 | 3 => decide (v % 0x1000 < 6)
  | 4 => v % 0x1000 == 0
  | 5 => decide (v % 0x1000 < 256)
  | _ => false

/-- A pair M, N from 1 Hz to 192 kHz (R28). -/
def houseGood (m n : Nat) : Bool := decide (n ≤ 24576000 * m) && decide (24576000 * m ≤ 192000 * n)

/-- NODE_ID and BIT_RATE (R299). -/
def nodeIdGood (v : Nat) : Bool := (decide (1 ≤ v) && decide (v ≤ 127)) || v == 0xFF
def arbRate : Nat → Nat
  | 0 => 1000
  | 1 => 500
  | 2 => 250
  | _ => 125
def dataRate : Nat → Nat
  | 1 => 1000
  | 2 => 2000
  | 3 => 4000
  | 4 => 5000
  | _ => 8000
def bitRateGood (v : Nat) : Bool :=
  decide (v < 256) && decide (v / 16 < 4) && decide (v % 16 < 6) && (v % 16 == 0 || decide (arbRate (v / 16) ≤ dataRate (v % 16)))

/-- PDO transmission types (R296). -/
def pdoTypeGood (v : Nat) : Bool := decide (v ≤ 240) || v == 254 || v == 255

/-- CP_GAIN: no NaN, infinity or subnormal (R194). -/
def gainGood (v : Nat) : Bool :=
  let e := v / 2 ^ 23 % 256
  e != 255 && (e != 0 || v % 2 ^ 23 == 0)

/-- Objects 0x1000 to 0x23FF. -/
def valueGood0 (s : State) (idx sub v : Nat) : Bool :=
  if idx = 0x1019 then v == 0 || (decide (2 ≤ v) && decide (v ≤ 240))
  else if (0x1400 ≤ idx ∧ idx < 0x1410 ∨ 0x1800 ≤ idx ∧ idx < 0x1810) ∧ sub = 2 then pdoTypeGood v
  else if idx = 0x2002 ∧ sub = 1 then nodeIdGood (guardVal v)
  else if idx = 0x2002 ∧ sub = 2 then bitRateGood (guardVal v)
  else if idx = 0x2030 ∧ 1 ≤ sub ∧ sub ≤ 16 then v % 4 != 3 && v / 4 % 4 != 3
  else if 0x2200 ≤ idx ∧ idx < 0x2260 ∧ idx % 16 = 0 then
    let g := (idx - 0x2200) / 16
    match sub with
    | 2 => formatGood v && rateSupported v (100 * s.rd (Obj.portRate g))
    | 3 => rateSupported (s.rd (Obj.portFormat g)) (100 * v) &&
        (s.rd Obj.toneChannel / 16 != g || toneFits s (s.rd Obj.toneChannel) (s.rd Obj.toneFreq))
    | _ => true
  else true

/-- Objects 0x2400 to 0x2FFF. -/
def valueGood1 (s : State) (idx sub v : Nat) : Bool :=
  if 0x2400 ≤ idx ∧ idx < 0x2406 then routingGood (guardVal v)
  else if 0x2600 ≤ idx ∧ idx < 0x2640 ∧ sub = 13 then grantFits (idx - 0x2600) v s
  else if 0x2680 ≤ idx ∧ idx < 0x26C0 then
    let g := idx - 0x2680
    match sub with
    | 1 => sourceGood v
    | 4 => houseGood v (s.rd (Obj.tgHouseN g))
    | 5 => houseGood (s.rd (Obj.tgHouseM g)) v
    | 7 => (List.range 64).all fun k => k == g || s.rd (Obj.tgXchBanks k) &&& v == 0
    | _ => true
  else if 0x2840 ≤ idx ∧ idx < 0x2880 then glideGood s (idx - 0x2840) (sub - 1) v
  else if 0x2880 ≤ idx ∧ idx < 0x28C0 then bitmapGood s (idx - 0x2880) v
  else if 0x2A00 ≤ idx ∧ idx < 0x2A18 ∧ sub ≤ 16 then dtEntryGood v
  else true

/-- Objects 0x3000 to 0x5FFF. -/
def valueGood2 (s : State) (idx sub v : Nat) : Bool :=
  if idx = 0x3001 ∧ sub = 2 then v % 16 == 0 && decide (0x400000 ≤ v) && decide (v < 0x800000)
  else if idx = 0x3002 ∧ sub = 4 then v % 64 == 0 && decide (64 ≤ v) && decide (v ≤ 1048576)
  else if 0x3410 ≤ idx ∧ idx < 0x3418 ∧ sub = 1 then ownerGood v
  else if 0x3410 ≤ idx ∧ idx < 0x3418 ∧ sub = 3 then v != 2 || s.rd (Obj.pgCompat (idx - 0x3410)) == 1
  else if 0x3600 ≤ idx ∧ idx < 0x3680 ∧ (sub = 8 ∨ sub = 40) then gainGood v
  else if (idx = 0x3C00 ∧ sub = 2) ∨ (idx = 0x3C40 ∧ sub = 4) then channelGood v
  else if idx = 0x3C40 ∧ sub = 2 then toneFits s (s.rd Obj.toneChannel) v
  else if idx = 0x3E04 ∧ sub = 1 then [0, 1, 0x10, 0x11, 0x12, 0x13, 0x20].contains v
  else true

/-- Whether the value `v` that an object holds in `s` is no reserved encoding, on its own and against the other objects. -/
def valueGood (s : State) (idx sub v : Nat) : Bool :=
  if idx < 0x2400 then valueGood0 s idx sub v else if idx < 0x3000 then valueGood1 s idx sub v else valueGood2 s idx sub v

/-- The COB-IDs of R294: SYNC, EMCY and the PDOs. -/
def isCob (idx sub : Nat) : Bool :=
  idx == 0x1005 || idx == 0x1014 || (((decide (0x1400 ≤ idx) && decide (idx < 0x1410)) ||
    (decide (0x1800 ≤ idx) && decide (idx < 0x1810))) && sub == 1)

/-- A COB-ID changes only while its bit 31 is set, or by setting that bit alone. -/
def cobGood (old new : Nat) : Bool := old.testBit 31 || new == old || new == old + 0x80000000

/-! PDO mapping (R295). -/

/-- The fields of a mapping entry. -/
def mapIdx (e : Nat) : Nat := e / 0x10000
def mapSub (e : Nat) : Nat := e / 0x100 % 0x100
def mapBits (e : Nat) : Nat := e % 0x100

/-- Objects whose write starts a long operation, SPL_CTRL apart (R303). -/
def startsOp (idx sub : Nat) : Bool :=
  (idx == 0x2020 && sub == 2) || (idx == 0x3680 && sub == 4) || (idx == 0x3C20 && sub == 3) || (idx == 0x3E04 && sub == 2) ||
    (idx == 0x3E05 && sub == 1)

/-- The per-path selector objects. -/
def isSelector (idx sub : Nat) : Bool :=
  ((idx == 0x3001 || idx == 0x3002) && sub == 1) || (idx == 0x5F00 && sub == 3) || (idx == 0x5F01 && sub == 5)

/-- Whether an object can be mapped, into an RPDO or a TPDO. -/
def mappable (rpdo : Bool) (e : Nat) : Bool :=
  let i := mapIdx e
  let b := mapSub e
  match findRow i b with
  | none => false
  | some r =>
    let typed := match r.type with
      | .bool | .uint _ | .int _ | .real32 | .guard32 => true
      | .handle16 => !rpdo
      | _ => false
    let access := match r.acc with
      | .rw | .rws => true
      | .wo => rpdo
      | .ro => !rpdo
      | .const => false
    typed && access && mapBits e == 8 * r.type.bytes && decide (0x2000 ≤ i) && i != 0x2002 && i != 0x2010 &&
      !isSelector i b && !startsOp i b

/-- The entries of PDO number `k`. -/
def mapEntries (s : State) (rpdo : Bool) (k count : Nat) : List Nat :=
  (List.range count).map fun j => s.rd (if rpdo then Obj.rpdoMap k j else Obj.tpdoMap k j)

/-- The abort code of a non-zero count, or 0. -/
def mapStatus (s : State) (rpdo : Bool) (k count : Nat) : Nat :=
  let es := mapEntries s rpdo k count
  let objs := es.map (· / 0x100)
  if !es.all (mappable rpdo) || (rpdo && objs.eraseDups.length != objs.length) then abNoMap
  else if 512 < sumBy mapBits es then abMapLong
  else abNone

/-- The PDO that a mapping index configures. -/
def mapPdo (idx : Nat) : Option (Bool × Nat) :=
  if 0x1600 ≤ idx ∧ idx < 0x1610 then some (true, idx - 0x1600)
  else if 0x1A00 ≤ idx ∧ idx < 0x1A0F then some (false, idx - 0x1A00)
  else none

/-- The abort code of a mapping write, or 0: the count may return to 0, or leave it, while the COB-ID is invalid. -/
def mapAbort (s : State) (rpdo : Bool) (k sub v : Nat) : Nat :=
  let cob := s.rd (if rpdo then Obj.rpdoCob k else Obj.tpdoCob k)
  let count := s.rd (if rpdo then Obj.rpdoMapCount k else Obj.tpdoMapCount k)
  if !cob.testBit 31 then abState
  else if sub = 0 then (if v = 0 then abNone else if count ≠ 0 then abState else mapStatus s rpdo k v)
  else if count ≠ 0 then abState
  else abNone

/-! Conditions on the state of an object (order 9 of R293). -/

def laneIdle (s : State) (n : Nat) : Bool := laneSt s n == laneUnloaded || laneSt s n == laneStopped

/-- Trigger group `g` accepts a change (R59, R62): `s'` is the state with it made. -/
def groupOpen (s s' : State) (g : Nat) : Bool :=
  ((List.range 64).all fun n => laneGroup s n != g || laneIdle s n) && groupFits s' g

/-- Whether a write of object `idx`:`sub` is allowed now: `s` before it, `s'` with the value in place. -/
def stateGood (s s' : State) (item idx sub : Nat) : Bool :=
  if 0x2200 ≤ idx ∧ idx < 0x2260 ∧ idx % 16 = 0 then
    let g := (idx - 0x2200) / 16
    !(decide (2 ≤ sub) && decide (sub ≤ 7)) || (portSt s g == portOff &&
      (sub != 3 || budgetsFit s' fun src => src % 0x1000 == g && [1, 2, 3].contains (src / 0x1000)))
  else if 0x2200 ≤ idx ∧ idx < 0x2260 ∧ idx % 16 = 2 then
    let en := s.rd (Obj.streamEnable ((idx - 0x2200) / 16))
    match sub with
    | 1 | 2 | 6 => !en.testBit 0
    | 3 | 4 | 7 => !en.testBit 1
    | _ => en == 0
  else if 0x2600 ≤ idx ∧ idx < 0x2640 ∧ sub = 2 then
    let n := idx - 0x2600
    laneIdle s n && groupFits s' (laneGroup s' n)
  else if 0x2680 ≤ idx ∧ idx < 0x26C0 ∧ sub ≠ 7 then groupOpen s s' (idx - 0x2680)
  else if 0x26C0 ≤ idx ∧ idx < 0x2700 then groupOpen s s' (idx - 0x26C0)
  else if 0x2880 ≤ idx ∧ idx < 0x28C0 then laneIdle s (idx - 0x2880)
  else if idx = 0x3001 ∧ sub = 2 then decide (288 ≤ item) && s.rd (Obj.nodeState item) == 0
  else if idx = 0x3002 ∧ 2 ≤ sub ∧ sub ≤ 4 then !(s.edge item).on
  else if 0x3080 ≤ idx ∧ idx < 0x3100 then
    let r := 2 * (idx - 0x3080) + sub / 32
    s.rd (Obj.rpEnable r) == 0 && ((sub % 32 != 4 && sub % 32 != 7) || budgetsFit s' fun src => src == 0x5000 + r)
  else if 0x3210 ≤ idx ∧ idx < 0x3230 then s.rd (Obj.dmaEnable (idx - 0x3210)) == 0
  else if 0x3600 ≤ idx ∧ idx < 0x3680 then sub % 32 == 8 || s.rd (Obj.cpEnable (2 * (idx - 0x3600) + sub / 32)) == 0
  else if 0x3800 ≤ idx ∧ idx < 0x3810 then s.rd (Obj.asEnable (idx - 0x3800)) == 0
  else if idx = 0x3C60 ∧ sub = 1 then s.codec.queue.isEmpty
  else true

/-! What a plain write does beside its register. -/

def afterWrite (idx sub v : Nat) (s : State) : State :=
  if 0x2270 ≤ idx ∧ idx < 0x2276 then operandWritten .trim (16 * (idx - 0x2270) + (sub - 1)) v s
  else if 0x2400 ≤ idx ∧ idx < 0x2406 then operandWritten .routing (16 * (idx - 0x2400) + (sub - 1)) v s
  else if 0x2410 ≤ idx ∧ idx < 0x2416 then operandWritten .mute (16 * (idx - 0x2410) + (sub - 1)) v s
  else if 0x2420 ≤ idx ∧ idx < 0x2426 then
    let c := 16 * (idx - 0x2420) + (sub - 1)
    s.setOutchan c { s.outchan c with ceiling := BitVec.ofNat 64 v }
  else if idx = 0x2260 ∧ sub = 4 then (if s.rd Obj.steerState = steerFree then s.wr Obj.steerOffset v else s)
  else if 0x3600 ≤ idx ∧ idx < 0x3680 ∧ 2 ≤ sub % 32 ∧ sub % 32 ≤ 6 then
    let q := 2 * (idx - 0x3600) + sub / 32
    s.setPath q { s.path q with loaded := false }
  else if 0x3080 ≤ idx ∧ idx < 0x3100 ∧ (sub % 32 = 4 ∨ sub % 32 = 5) then
    forUpto 256 (fun q s => if s.rd (Obj.cpRing q) = 2 * (idx - 0x3080) + sub / 32 ∧ !cpLoadedNow s q ∧ (s.path q).loaded then
      s.setPath q { s.path q with loaded := false } else s) s
  else if (idx = 0x3C00 ∧ sub = 2) ∨ (idx = 0x3C40 ∧ sub = 4) then putLevelChannel v s
  else s

/-! Objects whose write is a command. Each answers the state after it and an abort code. -/

/-- A write of HV_TAIL (R309). -/
def writeHvTail (v : Nat) (s : State) : State × Nat :=
  let used := s.rd Obj.hvUsed
  let d := (v + 256 - s.rd Obj.hvTail) % 256
  let freed := if used = 256 ∧ d = 0 then 256 else d
  if used < freed then (s, abValue) else ((s.wr Obj.hvTail v).wr Obj.hvUsed (used - freed), abNone)

/-- A write of 0 to DBG_LOCK (R403): an instruction of the scope acts as BYPASS from then on. -/
def lockDebug (s : State) : State :=
  setTap (tapUnder 0 s.service.tapIr) (s.wr Obj.dbgScope 0)

/-- A write of PORT_ENABLE (R157, R175). -/
def putPortEnable (g v : Nat) (s : State) : State × Nat :=
  if v = 1 ∧ !portEnableGood s g then (s, abValue) else (writePortEnable g v s, abNone)

/-- Commands at 0x1000 to 0x2FFF. -/
def command0 (p idx sub v : Nat) (s : State) : Option (State × Nat) :=
  let ok (t : State) : Option (State × Nat) := some (t, abNone)
  if idx = 0x1003 then ok { s with can := { s.can with errors := [] } }
  else if idx = 0x1010 then some (writeStore p sub v s)
  else if idx = 0x1011 then some (writeRestore p sub v s)
  else if idx = 0x2010 then ok (softReset s)
  else if idx = 0x2020 ∧ sub = 2 then some (writeShowLoad p v s)
  else if idx = 0x2030 ∧ sub = 20 then ok (clearGpEdge v s)
  else if idx = 0x2100 ∧ sub = 2 then some (writePwrRequest v s)
  else if idx = 0x2103 ∧ sub = 6 then ok (supplyClearBits v s)
  else if 0x2200 ≤ idx ∧ idx < 0x2260 then
    let g := (idx - 0x2200) / 16
    match idx % 16, sub with
    | 0, 1 => some (putPortEnable g v s)
    | 0, 9 => ok (writePortTest g v s)
    | 1, 13 => ok (portClearBits g v s)
    | 2, 8 => some (writeStreamEnable g v s)
    | _, _ => none
  else if idx = 0x2260 ∧ sub = 1 then ok (writeLeader v s)
  else if 0x2600 ≤ idx ∧ idx < 0x2640 then
    let n := idx - 0x2600
    match sub with
    | 3 => ok (laneEnable n v s)
    | 10 => ok (laneClearBits n v s)
    | 12 => ok (if v = 1 then safeRequest 0 n s else safeRelease n s)
    | 13 => some (writeFarGrant n v s)
    | _ => none
  else if idx = 0x2800 ∧ sub = 4 then some (writeSplCtrl p v s)
  else if 0x2880 ≤ idx ∧ idx < 0x28C0 then some (writeBitmap (idx - 0x2880) v s)
  else if 0x2A00 ≤ idx ∧ idx < 0x2A18 then
    let core := decide (0x2A10 ≤ idx)
    let k := (idx - 0x2A00) % 16
    if sub = 18 then some (writeDtClear core k s) else some (writeDtEntry core k (sub - 1) v s)
  else none

/-- Commands at 0x3000 to 0x39FF. -/
def command1 (p item idx sub v : Nat) (s : State) : Option (State × Nat) :=
  let ok (t : State) : Option (State × Nat) := some (t, abNone)
  if idx = 0x3000 ∧ sub = 9 then ok (schClearBits v s)
  else if idx = 0x3001 ∧ sub = 3 then some (writeNodeEnable item v s)
  else if idx = 0x3001 ∧ sub = 12 then ok (nodeClearBits item v s)
  else if idx = 0x3002 ∧ sub = 5 then some (writeEdgeEnable item v s)
  else if idx = 0x3002 ∧ sub = 11 then ok (if v.testBit 0 then s.wr (Obj.edgePosted item) 0 else s)
  else if 0x3080 ≤ idx ∧ idx < 0x3100 ∧ sub % 32 = 1 then some (writeRpEnable (2 * (idx - 0x3080) + sub / 32) v s)
  else if 0x3210 ≤ idx ∧ idx < 0x3230 ∧ sub = 6 then some (writeDmaEnable (idx - 0x3210) v s)
  else if 0x3210 ≤ idx ∧ idx < 0x3230 ∧ sub = 7 then some (writeDmaCmd (idx - 0x3210) v s)
  else if 0x3210 ≤ idx ∧ idx < 0x3230 ∧ sub = 15 then ok (dmaClearBits (idx - 0x3210) v s)
  else if 0x3410 ≤ idx ∧ idx < 0x3418 then
    let g := idx - 0x3410
    match sub with
    | 1 => some (writePgOwner g v s)
    | 3 => some (writePgPower g v s)
    | 4 => some (writePgCompat g v s)
    | _ => ok (pgClearBits g v s)
  else if 0x3600 ≤ idx ∧ idx < 0x3680 ∧ sub % 32 = 1 then some (writeCpEnable (2 * (idx - 0x3600) + sub / 32) v s)
  else if idx = 0x3680 ∧ sub = 4 then some (startIrLoad p s)
  else if 0x3800 ≤ idx ∧ idx < 0x3810 ∧ sub = 1 then some (writeAsEnable (idx - 0x3800) v s)
  else none

/-- Commands at 0x3A00 to 0x5FFF; `data` are the bytes written. -/
def command2 (p idx sub v : Nat) (data : List Byte) (s : State) : Option (State × Nat) :=
  let ok (t : State) : Option (State × Nat) := some (t, abNone)
  if idx = 0x3A00 then some (writeFltClear v s)
  else if idx = 0x3A01 ∧ sub = 5 then some (writeSupCmd v s)
  else if 0x3A40 ≤ idx ∧ idx < 0x3A48 then
    if sub = 2 then some (writeCoreCmd (idx - 0x3A40) v s) else ok (coreClearBits (idx - 0x3A40) v s)
  else if idx = 0x3C20 ∧ sub = 3 then some (startBist p s)
  else if idx = 0x3C40 ∧ sub = 1 then some (writeToneChannel v s)
  else if idx = 0x3C60 ∧ sub = 2 then some (writeCdcEntry v s)
  else if idx = 0x3C60 ∧ sub = 11 then ok (flushCodec v s)
  else if idx = 0x3E01 then if sub = 5 then some (writeShowQuorum v s) else some (writeCustKey sub v s)
  else if idx = 0x3E02 then some (writeAttNonce v s)
  else if idx = 0x3E03 then if sub = 2 then some (writeDbgToken data s) else ok (lockDebug s)
  else if idx = 0x3E04 ∧ sub = 2 then some (startVerify p s)
  else if idx = 0x3E05 then some (writeFullErase p v s)
  else if idx = 0x5F00 ∧ sub = 5 then some (writeHandleCancel v s)
  else if idx = 0x5F01 ∧ sub = 2 then some (writeHvTail v s)
  else none

/-- The command that a write of an object is; none for a plain register. -/
def command (p item idx sub v : Nat) (data : List Byte) (s : State) : Option (State × Nat) :=
  if idx < 0x3000 then command0 p idx sub v s
  else if idx < 0x3A00 then command1 p item idx sub v s
  else command2 p idx sub v data s

/-! A running test refuses the writes that would take its resources (R414). -/

/-- The lanes that a show load of `source` programs. -/
def loadsLanes (s : State) (source : Nat) : List Nat :=
  (showTargets (Config.showSections (imgBody (loadImage s source)))).filter (· < 64)

/-- Whether a write enables, loads or starts one of the resources of "idle". -/
def startsWork (s : State) (idx sub v : Nat) : Bool :=
  v != 0 && ((idx == 0x2020 && sub == 2 && decide (v ≤ 0x10) && !(loadsLanes s v).isEmpty) || (idx == 0x3001 && sub == 3) ||
    (idx == 0x3002 && sub == 5) || (decide (0x3080 ≤ idx) && decide (idx < 0x3100) && sub % 32 == 1) ||
    (decide (0x3210 ≤ idx) && decide (idx < 0x3230) && sub == 6) ||
    (decide (0x3600 ≤ idx) && decide (idx < 0x3680) && sub % 32 == 1) || (idx == 0x3680 && sub == 4) ||
    (decide (0x3800 ≤ idx) && decide (idx < 0x3810) && sub == 1) ||
    (decide (0x2200 ≤ idx) && decide (idx < 0x2260) && idx % 16 == 2 && sub == 8)) ||
  (v == 0 && idx == 0x2020 && sub == 2 && !(loadsLanes s 0).isEmpty)

/-- Whether pan test 1 with argument `arg` has lost a prerequisite that a write can take. -/
def panTaken (s : State) (arg : Nat) : Bool :=
  (List.range 8).any (fun g => arg.testBit g && (groupInUse s g || s.rd (Obj.pgOwner g) != 0 || s.rd (Obj.pgPower g) != 1)) ||
    (arg.testBit 9 && (List.range 64).any fun g => s.rd (Obj.tgXchBanks g) != 0)

/-- Whether the running test refuses a write that takes `s` to `s'`; it refuses no action of the supervisor (R24, R390). -/
def bistRefuses (s s' : State) (idx sub v : Nat) : Bool :=
  let loads (p : Nat → Bool) : Bool := idx == 0x2020 && sub == 2 && decide (v ≤ 0x10) && (loadsLanes s v).any p
  let enables (i k : Nat) : Bool := decide (0x2200 ≤ idx) && decide (idx < 0x2260) && idx % 16 == i && sub == k && v != 0
  if idx = 0x3A01 then false
  else match s.service.bist with
  | none => false
  | some (test, a) =>
    let arg := a.toNat
    match test with
    | 1 => (panTaken s' arg && !panTaken s arg) || (arg.testBit 8 && loads fun _ => true)
    | 2 | 4 => startsWork s idx sub v
    | 3 => loads fun n => arg.testBit n
    | 5 | 6 => (List.range 6).any fun g => arg.testBit g &&
        ((enables 2 8 && idx == 0x2202 + 16 * g) || (loads fun n => boundToPort s g n) ||
          (decide (0x2600 ≤ idx) && decide (idx < 0x2640) && sub == 3 && v == 1 && boundToPort s g (idx - 0x2600)))
    | 8 => (idx == 0x2260 && sub == 1 && v != 0xFF) || enables 0 1
    | _ => false

/-! A write. -/

/-- A write of a plain register. -/
def writePlain (p item : Nat) (r : ObjRow) (idx sub v : Nat) (s : State) : State × Nat :=
  let reg := objReg r p item idx sub
  let s' := s.wr reg v
  if !valueGood s' idx sub v || (isCob idx sub && !cobGood (cobValue s reg) v) then (s, abValue)
  else match mapPdo idx with
    | some (rpdo, k) =>
      let a := mapAbort s rpdo k sub v
      (if a = abNone then s' else s, a)
    | none => if stateGood s s' item idx sub then (afterWrite idx sub v s', abNone) else (s, abState)

/-- A write whose length and guard are right. -/
def writeValue (p item : Nat) (r : ObjRow) (idx sub v : Nat) (data : List Byte) (s : State) : State × Nat :=
  if !domGood r v then (s, abValue)
  else
    let v := dropReserved r idx sub v
    let (s', a) := match command p item idx sub v data s with
      | some x => x
      | none => writePlain p item r idx sub v s
    if a = abNone && bistRefuses s s' idx sub v then (s, abState) else (s', a)

/-- The length check of R293: a DBG_TOKEN of a wrong length has a status of its own (R403). -/
def lengthAbort (r : ObjRow) (idx sub : Nat) (data : List Byte) : Nat :=
  let n := if r.type.bytes = 0 then 1024 else r.type.bytes
  if idx = 0x3E03 ∧ sub = 2 then abNone
  else if n < data.length then abLonger
  else if data.length < n then abShorter
  else abNone

/-- A GUARD32 mismatch on the field network or the link raises 0x9001 (R292, R374). -/
def guardMismatch (p idx sub : Nat) (s : State) : State :=
  if p = pathCode .field ∨ p = pathCode .link then raise 0x9001 p idx sub s else s

/-- A write by path `p` (R293): the state after it and the abort code. -/
def dictWrite (p idx sub : Nat) (data : List Byte) (s : State) : State × Nat :=
  match lookup idx sub with
  | .error e => (s, e)
  | .ok r =>
    let n := lengthAbort r idx sub data
    if r.acc == .ro || r.acc == .const then (s, abReadOnly)
    else if n ≠ abNone then (s, n)
    else
      let v := ofLe data
      if r.type == .guard32 && !guardGood v && !(idx == 0x2800 && sub == 4) then (guardMismatch p idx sub s, abGuard)
      else writeValue p (selected s p idx) r idx sub v data s

/-! The order of accesses (R289, R297). -/

/-- The request that the link has posted and that waits in the server's input queue is served; its answer is reported by
OD_REQUEST_COMPLETE. Where serving it has already answered it, that stands (R387). -/
def serveLink (s : State) : State :=
  if !served s || s.link.reqState != 1 || s.link.odServed then s
  else
    let key := s.link.reqKey.toNat
    let p := pathCode .link
    let (b, s, a) := match s.link.reqWrite with
      | none => dictRead p (key / 256) (key % 256) s
      | some d => let (s, a) := dictWrite p (key / 256) (key % 256) d s; ([], s, a)
    let s := answer p key a b s
    if s.link.reqState = 1 then
      { s with link := { s.link with odServed := true, reqWrite := none, reqAbort := BitVec.ofNat 32 a, reqValue := b } }
    else s

/-- A read as a command: what the link has posted before it is served first; the answer is kept for the path. -/
def readObject (p idx sub : Nat) (s : State) : State :=
  if !served s then s
  else
    let (b, s, a) := dictRead p idx sub (serveLink s)
    answer p (idx * 256 + sub) a b s

/-- A write as a command: what the link has posted before it is served first; its answer is kept for the path. -/
def writeObject (p : Path) (idx sub : Nat) (data : List Byte) (s : State) : State :=
  if !served s then s
  else
    let (s, a) := dictWrite (pathCode p) idx sub data (serveLink s)
    answer (pathCode p) (idx * 256 + sub) a [] s

/-- A write of a number of `n` bytes. -/
def writeNat (p : Path) (idx sub n v : Nat) (s : State) : State := writeObject p idx sub (leBytes n v) s

end Sys2Proof.Machine
end

