-- ==== Sys2Proof/Machine/Boot.lean ====
section
/-! DEFINITION. Boot from the firmware check on: the stored set, the boot show, recovery mode (R362 to R368, R375, R451). -/

namespace Sys2Proof.Machine

/-! The stored set (R375, R451). -/

/-- The enable objects of the second pass, in its order. -/
def enableRank (idx sub : Nat) : Nat :=
  if 0x3080 ≤ idx ∧ idx < 0x3100 ∧ sub % 32 = 1 then 1
  else if 0x2200 ≤ idx ∧ idx < 0x2260 ∧ idx % 16 = 2 ∧ sub = 8 then 2
  else if 0x3800 ≤ idx ∧ idx < 0x3810 ∧ sub = 1 then 3
  else if idx = 0x3002 ∧ sub = 5 then 4
  else if 0x3600 ≤ idx ∧ idx < 0x3680 ∧ sub % 32 = 1 then 5
  else if idx = 0x3001 ∧ sub = 3 then 6
  else if 0x3210 ≤ idx ∧ idx < 0x3230 ∧ sub = 6 then 7
  else if 0x2200 ≤ idx ∧ idx < 0x2260 ∧ idx % 16 = 0 ∧ sub = 1 then 8
  else 0

/-- The order in which keys are applied: pass, index, sub-index, item. -/
def keyRank (k : Nat) : Nat := enableRank (keyIndex k) (keySub k) * 2 ^ 80 + k % 2 ^ 24 * 2 ^ 40 + k / 2 ^ 40

def insertKey (x : Nat × Nat) : List (Nat × Nat) → List (Nat × Nat)
  | [] => [x]
  | y :: l => if keyRank x.1 < keyRank y.1 then x :: y :: l else y :: insertKey x l

def sortKeys (l : List (Nat × Nat)) : List (Nat × Nat) := l.foldr insertKey []

/-- The register of a stored key. -/
def storedReg (k : Nat) : Reg := match findRow (keyIndex k) (keySub k) with
  | some r => ⟨k, objDefault r (keyIndex k) (keySub k)⟩
  | none => ⟨k, 0⟩

/-- Whether a stored pair fails its guard. -/
def storedBad (x : Nat × Nat) : Bool := match findRow (keyIndex x.1) (keySub x.1) with
  | some r => r.type == .guard32 && !guardGood x.2
  | none => false

/-- An object takes its default and the fault names it. -/
def storedFault (code k : Nat) (s : State) : State := raise code 0x82 (keyIndex k) (keySub k) (s.wr (storedReg k) (storedReg k).dflt)

/-- Whether the value of a stored key passes as a write of it would, as the state stands. -/
def storedGood (s : State) (x : Nat × Nat) : Bool :=
  let i := keyIndex x.1
  let b := keySub x.1
  match findRow i b with
  | none => false
  | some r => domGood r x.2 && valueGood s i b x.2 &&
      match mapPdo i with
      | some (rpdo, k) => b != 0 || x.2 == 0 || mapStatus s rpdo k x.2 == abNone
      | none => true

/-- The first pass, for the values of one index: they are put in place together, then checked. -/
def applyIndex (xs : List (Nat × Nat)) (s : State) : State :=
  let s := forList xs (fun x s => if storedBad x then s else s.wr (storedReg x.1) x.2) s
  let bad := xs.filter fun x => !storedBad x && !storedGood s x
  forList xs (fun x s =>
    if storedBad x then storedFault 0x9011 x.1 s
    else if bad.contains x then storedFault 0x9012 x.1 s
    else s) s

/-- The power that stored PG_POWER and PG_OWNER give a group. -/
def applyGroup (g : Nat) (s : State) : State :=
  let s := s.setPan g { s.pan g with
    code := BitVec.ofNat 8 (s.rd (Obj.pgOwner g)), newOwner := BitVec.ofNat 8 (s.rd (Obj.pgOwner g)) }
  let st := s.rd (Obj.pgState g)
  match s.rd (Obj.pgPower g) with
  | 1 => powerUp g s
  | 2 => if st = 4 then s else ((powerUpGroup g s).setPan g { s.pan g with compatNow := true }).wr (Obj.pgState g) 4
  | _ => ({ s with mem := clearMem s.mem (groupLo g) (groupLo (g + 1)) }.setPan g { s.pan g with compatNow := false }).wr (Obj.pgState g) 0

/-- What the units behind the objects take over from the first pass. -/
def applyUnits (s : State) : State :=
  let s := forUpto 64 (fun n s => s.setLane n { s.lane n with grant := BitVec.ofNat 8 (s.rd (Obj.farGrant n)) }) s
  let s := forUpto 96 (fun c s =>
    let pair (r : Reg) : Pair := BitVec.ofNat 64 (s.rd r)
    s.setOutchan c { s.outchan c with
      route := pair (Obj.routing (c / 16) (c % 16)), trim := pair (Obj.trimGain (c / 16) (c % 16))
      mute := pair (Obj.mute (c / 16) (c % 16)), ceiling := pair (Obj.ceiling (c / 16) (c % 16)) }) s
  writeLeader (s.rd Obj.leader) (forUpto 8 applyGroup s)

/-- One enable of the second pass. CP_ENABLE without its spectra and NODE_ENABLE are deferred while `again` is false. -/
def applyEnable (again : Bool) (x : Nat × Nat) (s : State) : State :=
  let i := keyIndex x.1
  let b := keySub x.1
  let rank := enableRank i b
  if !storedGood s x then storedFault 0x9012 x.1 s
  else if rank = 8 then
    (if x.2 = 1 ∧ !portEnableGood s ((i - 0x2200) / 16) then storedFault 0x9012 x.1 s else s.wr (storedReg x.1) x.2)
  else
    let (s, a) := (command1 0 (keyItem x.1) i b x.2 s).getD ((command0 0 i b x.2 s).getD (s, abNone))
    let waits := rank == 6 || (rank == 5 && s.rd (Obj.cpResult (2 * (i - 0x3600) + b / 32)) == 0x5105)
    if a = abNone then s
    else if !again && waits then { s with boot := { s.boot with deferred := s.boot.deferred ++ [x.1] } }
    else storedFault 0x9012 x.1 s

/-- Apply the current set: step 5 of R362. -/
def applyStored (s : State) : State :=
  let xs := sortKeys (currentSet s)
  let first := xs.filter fun x => enableRank (keyIndex x.1) (keySub x.1) == 0
  let second := xs.filter fun x => enableRank (keyIndex x.1) (keySub x.1) != 0
  let s := forList ((first.map fun x => keyIndex x.1).eraseDups) (fun i s => applyIndex (first.filter fun x => keyIndex x.1 == i) s) s
  forList second (applyEnable false) (applyUnits s)

/-- The deferred enables are applied again (R451). -/
def applyDeferred (s : State) : State :=
  let ks := s.boot.deferred
  forList ks (fun k s => applyEnable true (k, 1) s) { s with boot := { s.boot with deferred := [] } }

/-! The firmware starts (R362 to R365). -/

/-- A slot's rank by version; a slot with no image ranks lowest. -/
def slotRank (s : State) (k : Nat) : Nat := if (s.flash.fw.get [] k).isEmpty then 0 else imgVersion (fwSource s k) + 1
def slotPasses (s : State) (k : Nat) : Bool := imageStatus s 1 (fwSource s k) == 0

/-- The firmware slot checked first, and the one that runs (R363). -/
def firstSlot (s : State) : Nat := if slotRank s 1 ≤ slotRank s 0 then 0 else 1
def bootSlot (s : State) : Option Nat :=
  let a := firstSlot s
  if slotPasses s a then some a else if slotPasses s (1 - a) then some (1 - a) else none

/-- Recovery mode: no firmware runs (R366). -/
def enterRecovery (s : State) : State :=
  { s with boot := { s.boot with mode := 2, meterE := false } }.wr Obj.bootMode 2

/-- Step 7: the booting part ends and the groups start. -/
def endBoot (s : State) : State :=
  forUpto 6 startGroup { s with boot := { s.boot with meterE := false, loading := false } }

/-- Step 6: the boot show (R364). -/
def bootShow (s : State) : State :=
  let sel := s.rd Obj.showSelect
  if sel = 0xFF then endBoot (applyDeferred s)
  else if !admits s then endBoot (applyDeferred (raise 0xC003 sel 0 0 ((s.wr Obj.showResult 0xB101).inc Obj.handlesRefused)))
  else startLoad (pathCode (.core 1)) sel true { s with boot := { s.boot with loading := true } }

/-- The firmware runs from slot `k`. -/
def runFirmware (k bootTime : Nat) (s : State) : State :=
  let back := decide (k ≠ firstSlot s)
  let s := if back then raise 0xC001 (firstSlot s) 0 0 s else s
  let s := ((s.wr Obj.fwSlot k).wr Obj.fwFallback back.toNat).wr Obj.bootTime bootTime
  let s := releaseCore 1 (releaseCore 0 { s with boot := { s.boot with booted := true } })
  let s := postNotice (s.rd Obj.resetCause + 16 * s.rd Obj.bootMode + 256 * back.toNat) s
  let s := applyStored s
  if s.boot.mode = 1 then
    applyDeferred { s with boot := { s.boot with meterE := false }, can := { s.can with silent := true } }
  else bootShow (canStart s)

/-- BOOT_FIRMWARE_START: steps 3 to 5 of R362, and the start of step 6 or 7. -/
def execBootFirmwareStart (bootTime : Word) (s : State) : Host.Outcome State Fault Refusal :=
  .next (if s.boot.booted || s.boot.inReset || !s.power.supplied || !s.boot.meterE || s.rd Obj.pwrState == 5 then s
    else if s.boot.mode = 2 then enterRecovery s
    else match bootSlot s with
      | none => enterRecovery (raise 0xC002 0 0 0 s)
      | some k => runFirmware k bootTime.toNat s)

/-- The boot show has ended: 0xC003 for an image that failed; else its control-core programs start. -/
def bootShowEnded (h : Handle) (s : State) : State := match h.op with
  | .show source targets _ true =>
    if h.status ≠ 0 then raise 0xC003 source 0 0 s
    else forList targets (fun n s => if 64 ≤ n then releaseCore (n - 64) s else s) s
  | _ => s

/-- Whether a boot show load is outstanding. -/
def bootLoads (s : State) : Bool := s.handles.any fun h => match h.op with
  | .show _ _ _ b => b
  | _ => false

/-- SHOW_LOAD_COMPLETE: the oldest load ends; after the boot show, deferred enables are applied and step 7 begins. -/
def execShowLoadComplete (s : State) : Host.Outcome State Fault Refusal := clocked (fun s =>
  let s := match handleOf (fun o => match o with
      | .show _ _ _ _ => true
      | _ => false) s with
    | none => s
    | some h => bootShowEnded h (finishLoad h s)
  if s.boot.loading && !bootLoads s then endBoot (applyDeferred s) else s) s

/-- DRAM_CLEAR_COMPLETE (R368). Every access has met cleared beats before. -/
def execDramClearComplete (s : State) : Host.Outcome State Fault Refusal :=
  .next (if s.boot.inReset || !s.power.supplied then s else { s with dramClean := true })

/-! Recovery mode (R366). -/

/-- Word `k` of the recovery control block. -/
def rcvAddr (k : Nat) : Nat := 0x104000000 + 4 * k
def rcvReport (state status : Nat) (s : State) : State := s.setMemWord (rcvAddr 2) (BitVec.ofNat 32 (state * 2 ^ 16 + status))

/-- RECOVERY_POLL: the ROM reads RCV_CMD and takes a command. -/
def execRecoveryPoll (s : State) : Host.Outcome State Fault Refusal :=
  let w := s.memWord (rcvAddr 0)
  .next (if !recovering s || s.boot.rcvBusy.isSome || s.boot.rcvCmd != 0 || w == 0 then s
    else
      let s := (s.setMemWord (rcvAddr 0) 0).setMemWord (rcvAddr 3) (s.memWord (rcvAddr 3) + 1)
      if w = 1 then rcvReport 1 0 { s with boot := { s.boot with rcvCmd := w } }
      else if w = 2 then { s with boot := { s.boot with rcvCmd := w } }
      else rcvReport 2 0xC012 s)

/-- The image in DRAM. -/
def rcvImage (s : State) : Source := { dramSource s 0x4000040 with size := (s.memWord (rcvAddr 1)).toNat }

/-- The slot that recovery programs: one with no valid image, else the one with the lower version. -/
def rcvSlot (s : State) : Nat :=
  if !slotPasses s 0 then 0 else if !slotPasses s 1 then 1 else if slotRank s 0 ≤ slotRank s 1 then 0 else 1

/-- RCV_PROGRAM: the image is checked; one that passes starts to be written, and its slot is erased. -/
def execRcvProgram (s : State) : Host.Outcome State Fault Refusal :=
  .next (if !recovering s || s.boot.rcvCmd != 1 then s
    else
      let x := rcvImage s
      let s := noteImage 0x4000040 x s
      let s := { s with boot := { s.boot with rcvCmd := 0 } }
      if x.size = 0 ∨ 16777216 < x.size ∨ imageStatus s 1 x ≠ 0 then rcvReport 2 0xC011 s
      else
        let k := rcvSlot s
        { s with
          boot := { s.boot with rcvBusy := some k }
          flash := { s.flash with fw := s.flash.fw.erase k }
          slotImages := s.slotImages.set [] 0 (x.read 0 (imgTotal x)) })

/-- RCV_PROGRAM_COMPLETE: the write has been read back. -/
def execRcvProgramComplete (s : State) : Host.Outcome State Fault Refusal :=
  .next (if s.rd Obj.holdSafe = 1 then s else match s.boot.rcvBusy with
    | none => s
    | some k => rcvReport 2 0 { s with
        boot := { s.boot with rcvBusy := none }
        flash := { s.flash with fw := s.flash.fw.set [] k (s.slotImages.get [] 0) }
        slotImages := s.slotImages.erase 0 })

/-- RCV_END: a PIN-equivalent reset. -/
def execRcvEnd (boot : BitVec 2) (s : State) : Host.Outcome State Fault Refusal :=
  .next (if recovering s && s.boot.rcvCmd == 2 then samplePins boot (enterReset causePin s) else s)

end Sys2Proof.Machine
end

