-- ==== Sys2Proof/Machine/Can.lean ====
section
/-! DEFINITION. The field network (R294 to R302, R310, R314): USDO, PDO, SYNC, NMT, LSS, EMCY and heartbeat. -/

namespace Sys2Proof.Machine

/-- The controller takes part in the bus: firmware runs in normal mode, its clocks too, and it is neither silent nor bus-off. -/
def canUp (s : State) : Bool := served s && !s.can.silent && !s.can.busOff && s.boot.mode == 0

/-- The NMT states (R297). -/
def nmtPreOp : Byte := 127
def nmtOp : Byte := 5
def nmtStopped : Byte := 4

/-- USDO, SYNC and EMCY run in PRE-OPERATIONAL and OPERATIONAL; PDOs in OPERATIONAL. -/
def canServes (s : State) : Bool := canUp s && (s.can.nmt == nmtPreOp || s.can.nmt == nmtOp)
def canPdo (s : State) : Bool := canUp s && s.can.nmt == nmtOp

def setCan (c : Can) (s : State) : State := { s with can := c }

/-- The CAN FD controller pends source 2 (R240) on a frame that it receives and on a change of its bus state. -/
def canHeard (s : State) : State := if canUp s then pendAll 2 s else s

/-- What such an event does. -/
def heard (s : State) (run : State → State) : State := run (canHeard s)

/-! USDO (R293, R297). -/

/-- The field network's path. -/
def fieldPath : Nat := pathCode .field

/-- Whether a client may use a session: it has one, or fewer than four run. -/
def sessionFree (s : State) (client : Byte) : Bool :=
  s.can.sessions.any (fun x => x.1 == client) || decide (s.can.sessions.length < 4)

/-- The bytes that a client's download of an object has brought so far. -/
def sessionBytes (s : State) (client : Byte) (key : Nat) : List Byte :=
  match s.can.sessions.find? fun x => x.1 == client && x.2.1 == key with
  | some x => x.2.2
  | none => []

def endSession (client : Byte) (s : State) : State :=
  setCan { s.can with sessions := s.can.sessions.filter fun x => x.1 != client } s

/-- USDO_DOWNLOAD: `more` says that a further segment follows; the last one makes the write. -/
def execUsdoDownload (client : Byte) (index : BitVec 16) (sub : Byte) (data : List Byte) (more : Bool) (s : State) :
    Host.Outcome State Fault Refusal :=
  let key := index.toNat * 256 + sub.toNat
  .next (heard s fun s => if !canServes s then s
    else if !sessionFree s client then canSend (.usdo client (BitVec.ofNat 32 abBusy) []) s
    else
      let bs := sessionBytes s client key ++ data
      let s := endSession client s
      if more then canSend (.usdo client 0 []) (setCan { s.can with sessions := s.can.sessions ++ [(client, key, bs)] } s)
      else
        let (s, a) := dictWrite fieldPath index.toNat sub.toNat bs (serveLink s)
        canSend (.usdo client (BitVec.ofNat 32 a) []) (answer fieldPath key a [] s))

/-- USDO_UPLOAD. -/
def execUsdoUpload (client : Byte) (index : BitVec 16) (sub : Byte) (s : State) : Host.Outcome State Fault Refusal :=
  let key := index.toNat * 256 + sub.toNat
  .next (heard s fun s => if !canServes s then s
    else if !sessionFree s client then canSend (.usdo client (BitVec.ofNat 32 abBusy) []) s
    else
      let (b, s, a) := dictRead fieldPath index.toNat sub.toNat (serveLink (endSession client s))
      canSend (.usdo client (BitVec.ofNat 32 a) b) (answer fieldPath key a b s))

/-- USDO_IDLE_TIMEOUT. Time in NAP does not count (R346). -/
def execUsdoIdleTimeout (client : Byte) (s : State) : Host.Outcome State Fault Refusal :=
  .next (if awake s && s.can.sessions.any fun x => x.1 == client then canSend (.usdo client 0x05040000 []) (endSession client s) else s)

/-! RPDOs (R295, R296). -/

/-- The mapping entries of a PDO in use. -/
def pdoMap (s : State) (rpdo : Bool) (k : Nat) : List Nat :=
  mapEntries s rpdo k (s.rd (if rpdo then Obj.rpdoMapCount k else Obj.tpdoMapCount k))

/-- The entries with the bytes that the frame holds for them. -/
def splitPdo : List Nat → List Byte → List (Nat × List Byte)
  | [], _ => []
  | e :: es, bs => (e, bs.take (mapBits e / 8)) :: splitPdo es (bs.drop (mapBits e / 8))

/-- Apply entries in order; the abort codes met. -/
def applyPdo : List (Nat × List Byte) → State → State × List Nat
  | [], s => (s, [])
  | (e, bs) :: es, s =>
    let (s, a) := dictWrite fieldPath (mapIdx e) (mapSub e) bs s
    let (s, as) := applyPdo es s
    (s, a :: as)

/-- The faults of the GUARD32 entries that do not match. -/
def pdoGuardFaults (es : List (Nat × List Byte)) (s : State) : State :=
  forList es (fun x s =>
    match findRow (mapIdx x.1) (mapSub x.1) with
    | some r => if r.type == .guard32 && !guardGood (ofLe x.2) then (dictWrite fieldPath (mapIdx x.1) (mapSub x.1) x.2 s).1 else s
    | none => s) s

/-- A field network fault: raised once and then counted (R314). -/
def fieldFault (code node : Nat) (s : State) : State := raiseOnce 0 code node 0 0 s

/-- The abort codes of the entries, each checked on the state before the RPDO. -/
def checkPdo (es : List (Nat × List Byte)) (s : State) : List Nat :=
  es.map fun x => (dictWrite fieldPath (mapIdx x.1) (mapSub x.1) x.2 s).2

/-- A received RPDO takes effect whole, or is discarded whole: where an entry carries a reserved encoding as the objects stand, or its
entries together make one. -/
def takeRpdo (k : Nat) (data : List Byte) (s : State) : State :=
  let s := serveLink s
  let m := pdoMap s true k
  let es := splitPdo m data
  if 8 * data.length < sumBy mapBits m then fieldFault 0xB004 0 s
  else
    let (s', as) := applyPdo es s
    if (checkPdo es s ++ as).any fun a => a == abValue || a == abGuard then fieldFault 0xB004 0 (pdoGuardFaults es s) else s'

/-- Whether a PDO is valid and mapped. -/
def pdoOn (s : State) (rpdo : Bool) (k : Nat) : Bool :=
  !(if rpdo then s.rd (Obj.rpdoCob k) else cobValue s (Obj.tpdoCob k)).testBit 31 &&
    s.rd (if rpdo then Obj.rpdoMapCount k else Obj.tpdoMapCount k) != 0

/-- RPDO_RECEIVE: applied, or held for the next SYNC. -/
def execRpdoReceive (k : Fin 16) (data : List Byte) (s : State) : Host.Outcome State Fault Refusal :=
  .next (heard s fun s => if !canPdo s || !pdoOn s true k.val then s
    else if s.rd (Obj.rpdoType k.val) ≤ 240 then
      setCan { s.can with heldRpdo := (s.can.heldRpdo.filter fun x => x.1 != k.val) ++ [(k.val, data)] } s
    else takeRpdo k.val data s)

/-! TPDOs (R296, R310). -/

/-- Read mapped objects in order. -/
def samplePdo : List Nat → State → List Byte × State
  | [], s => ([], s)
  | e :: es, s =>
    let (b, s, _) := dictRead fieldPath (mapIdx e) (mapSub e) s
    let (bs, s) := samplePdo es s
    (b ++ bs, s)

def lastSample (s : State) (k : Nat) : Option (List Byte) := (s.can.tpdoLast.find? fun x => x.1 == k).map (·.2)
def putSample (k : Nat) (d : List Byte) (s : State) : State :=
  setCan { s.can with tpdoLast := (s.can.tpdoLast.filter fun x => x.1 != k) ++ [(k, d)] } s

/-- Send TPDO `k`; its inhibit time starts where it has one. -/
def sendTpdo (k : Nat) (d : List Byte) (s : State) : State :=
  let s := canSend (.tpdo (k + 1) d) (setCan { s.can with tpdoHeld := s.can.tpdoHeld.filter (· != k) } s)
  if s.rd (Obj.tpdoInhibit k) = 0 then s else setCan { s.can with tpdoBlock := k :: s.can.tpdoBlock.filter (· != k) } s

/-- Send an event-driven TPDO, or hold it back. -/
def offerTpdo (k : Nat) (d : List Byte) (s : State) : State :=
  if s.can.tpdoBlock.contains k then setCan { s.can with tpdoHeld := k :: s.can.tpdoHeld.filter (· != k) } s else sendTpdo k d s

/-- The event-driven TPDOs 1 to 15. -/
def eventTpdo (s : State) (k : Nat) : Bool := decide (k < 15) && pdoOn s false k && decide (254 ≤ s.rd (Obj.tpdoType k))

/-- TPDO_VALUE_SAMPLE. -/
def execTpdoValueSample (s : State) : Host.Outcome State Fault Refusal :=
  .next (if !canPdo s then s
    else forUpto 15 (fun k s =>
      if !eventTpdo s k then s
      else
        let (d, s) := samplePdo (pdoMap s false k) s
        if lastSample s k = some d then s else offerTpdo k d (putSample k d s)) s)

/-- TPDO_EVENT_TIMER. -/
def execTpdoEventTimer (k : Fin 16) (s : State) : Host.Outcome State Fault Refusal :=
  .next (if !canPdo s || !eventTpdo s k.val || s.rd (Obj.tpdoEventTimer k.val) == 0 then s
    else
      let (d, s) := samplePdo (pdoMap s false k.val) s
      offerTpdo k.val d (putSample k.val d s))

/-- TPDO_INHIBIT_TIME_EXPIRY. -/
def execTpdoInhibitTimeExpiry (k : Fin 16) (s : State) : Host.Outcome State Fault Refusal :=
  let held := s.can.tpdoHeld.contains k.val
  let s := setCan { s.can with tpdoBlock := s.can.tpdoBlock.filter (· != k.val) } s
  .next (if held && canPdo s && eventTpdo s k.val then
      let (d, s) := samplePdo (pdoMap s false k.val) s
      sendTpdo k.val d (putSample k.val d s)
    else s)

/-- COMPLETION_TPDO_SEND (R310). -/
def execCompletionTpdoSend (s : State) : Host.Outcome State Fault Refusal :=
  .next (if !canPdo s || (cobValue s (Obj.tpdoCob 15)).testBit 31 || s.can.tpdoBlock.contains 15 then s
    else match s.can.tpdo16 with
      | [] => s
      | r :: rs => sendTpdo 15 (recordBytes r) (setCan { s.can with tpdo16 := rs } s))

/-! SYNC (R294, R296). -/

/-- Note a change of a value that a TPDO of type 0 maps. Looking at the values takes nothing from a FIFO. -/
def noteChange (k : Nat) (s : State) : State :=
  if !pdoOn s false k || s.rd (Obj.tpdoType k) != 0 then s
  else
    let d := (samplePdo (pdoMap s false k) s).1
    if lastSample s k = some d then s
    else
      let s := putSample k d s
      setCan { s.can with tpdoDirty := k :: s.can.tpdoDirty.filter (· != k) } s

/-- The values that TPDOs of type 0 map are looked at in each tick (R296). -/
def watchTpdos (s : State) : State := if canPdo s then forUpto 15 noteChange s else s

/-- A synchronous TPDO at a SYNC: type 0 after a change, type n at every n-th SYNC. -/
def syncTpdo (k : Nat) (s : State) : State :=
  let t := s.rd (Obj.tpdoType k)
  if !pdoOn s false k || 240 < t then s
  else
    let s := noteChange k s
    if t = 0 ∧ !s.can.tpdoDirty.contains k then s
    else
    let s := setCan { s.can with tpdoDirty := s.can.tpdoDirty.filter (· != k) } s
    let (d, s) := samplePdo (pdoMap s false k) s
    if t = 0 then sendTpdo k d s
    else
      let n := ((s.can.tpdoSync.find? fun x => x.1 == k).map (·.2)).getD 0 + 1
      let keep (v : Nat) (s : State) : State :=
        setCan { s.can with tpdoSync := (s.can.tpdoSync.filter fun x => x.1 != k) ++ [(k, v)] } s
      if n < t then keep n s else sendTpdo k d (putSample k d (keep 0 s))

/-- A registered SYNC: synchronous TPDOs sample and are sent, and held RPDOs are applied, in one cycle. -/
def takeSync (s : State) : State :=
  if s.can.nmt ≠ nmtOp then s
  else
    let held := s.can.heldRpdo
    let s := forUpto 15 syncTpdo s
    forList held (fun x s => takeRpdo x.1 x.2 s) (setCan { s.can with heldRpdo := [] } s)

/-- Whether a SYNC counter is in range. -/
def syncGood (s : State) (c : Option Byte) : Bool := match c with
  | none => true
  | some v => s.rd Obj.syncOverflow == 0 || (decide (1 ≤ v.toNat) && decide (v.toNat ≤ s.rd Obj.syncOverflow))

/-- Whether the COB-ID of SYNC is valid (R294). -/
def syncValid (s : State) : Bool := !(s.rd Obj.cobSync).testBit 31

/-- SYNC_RECEIVE. -/
def execSyncReceive (counter : Option Byte) (s : State) : Host.Outcome State Fault Refusal :=
  .next (heard s fun s => if canServes s && syncValid s && syncGood s counter then takeSync s else s)

/-- SYNC_PRODUCE: the module sends a SYNC and registers it. -/
def execSyncProduce (s : State) : Host.Outcome State Fault Refusal :=
  let n := s.rd Obj.syncOverflow
  .next (if !canServes s || !syncValid s || !(s.rd Obj.cobSync).testBit 30 || s.rd Obj.syncPeriod == 0 then s
    else if n = 0 then takeSync (canSend (.sync none) s)
    else
      let c := s.can.syncCount % n + 1
      takeSync (canSend (.sync (some (BitVec.ofNat 8 c))) (setCan { s.can with syncCount := c } s)))

/-! NMT (R297). -/

/-- Whether an NMT command addresses the module. -/
def nmtFor (s : State) (node : Byte) : Bool :=
  canUp s && s.can.nmt != 0 && (node == 0 || node.toNat == activeNode s)

def nmtGo (st node : Byte) (s : State) : State := if nmtFor s node then setCan { s.can with nmt := st } s else s

def execNmtStartRemoteNode (node : Byte) (s : State) : Host.Outcome State Fault Refusal := .next (heard s fun s => nmtGo nmtOp node s)
def execNmtStopRemoteNode (node : Byte) (s : State) : Host.Outcome State Fault Refusal := .next (heard s fun s => nmtGo nmtStopped node s)
def execNmtEnterPreOperational (node : Byte) (s : State) : Host.Outcome State Fault Refusal := .next (heard s fun s => nmtGo nmtPreOp node s)

/-- NMT_RESET_NODE: a warm reset once the outputs have faded (R359). -/
def execNmtResetNode (node : Byte) (s : State) : Host.Outcome State Fault Refusal :=
  .next (heard s fun s => if nmtFor s node then requestReset causeNode s else s)

/-- The keys that NMT reset-communication returns to their stored values, and the field network's copies. -/
def keyComm (k : Nat) : Bool := decide (keyIndex k < 0x2000) || keyIndex k == 0x2002
def keyField (k : Nat) : Bool := keyPath k == 1

/-- NMT_RESET_COMMUNICATION (R297, R308, R357). A reset that waits or runs absorbs it (R358). -/
def execNmtResetCommunication (node : Byte) (s : State) : Host.Outcome State Fault Refusal :=
  .next (heard s fun s => if !nmtFor s node || s.boot.pending.isSome then s
    else
      let kept := s.od.filter fun x => !keyComm x.1 && !keyField x.1
      let s := { s with od := mergeMap kept ((currentSet s).filter fun x => keyComm x.1) }
      let s := setCan { ({} : Can) with
        sent := s.can.sent, emcy := s.can.emcy, emcyDrop := s.can.emcyDrop, emcyOwed := s.can.emcyOwed
        tpdo16 := s.can.tpdo16 } s
      let s := s.wr Obj.resetCause causeComm
      canStart (postNotice (causeComm + 16 * s.rd Obj.bootMode + 256 * s.rd Obj.fwFallback) s))

/-! LSS (R298). The command specifiers and error codes are those of CiA 305. -/

/-- LSS is answered while the controller takes part in the bus, with or without a node-ID. -/
def lssReply (cs : Byte) (data : List Byte) (s : State) : State := canSend (.lss cs data) s
def lssOn (s : State) : Bool := canUp s
def lssConf (s : State) : Bool := lssOn s && s.can.lssConfig

def execLssSwitchStateGlobal (mode : Byte) (s : State) : Host.Outcome State Fault Refusal :=
  .next (heard s fun s => if !lssOn s then s
    else if mode = 0 then setCan { s.can with lssConfig := false } s
    else if mode = 1 then setCan { s.can with lssConfig := true } s
    else s)

def execLssSwitchStateSelective (vendor product revision serial : Word) (s : State) : Host.Outcome State Fault Refusal :=
  let hit := vendor.toNat == identityWord 1 && product.toNat == identityWord 2 && revision.toNat == identityWord 3 &&
    serial.toNat == identityWord 4
  .next (heard s fun s => if lssOn s && hit then lssReply 0x44 [] (setCan { s.can with lssConfig := true } s) else s)

/-- Configure node-ID: the value of NODE_ID, in use from the next reset on (R299). -/
def execLssConfigureNodeId (node : Byte) (s : State) : Host.Outcome State Fault Refusal :=
  .next (heard s fun s => if !lssConf s then s
    else if nodeIdGood node.toNat then lssReply 0x11 [0, 0] (s.wr Obj.nodeId (guardOf node.toNat))
    else lssReply 0x11 [1, 0] s)

/-- The arbitration code of an index of the bit timing table 0 of CiA 305. -/
def lssRateCode (table index : Byte) : Option Nat :=
  if table ≠ 0 then none
  else match index.toNat with
    | 0 => some 0
    | 2 => some 1
    | 3 => some 2
    | 4 => some 3
    | _ => none

/-- Configure bit timing: the arbitration code of BIT_RATE; its data code is kept. -/
def execLssConfigureBitTiming (table index : Byte) (s : State) : Host.Outcome State Fault Refusal :=
  .next (heard s fun s => if !lssConf s then s
    else match lssRateCode table index with
      | some c => lssReply 0x13 [0, 0] (s.wr Obj.bitRate (guardOf (16 * c + guardVal (s.rd Obj.bitRate) % 16)))
      | none => lssReply 0x13 [1, 0] s)

/-- Activate bit timing: the rate of BIT_RATE comes into use, after the delay of the service. A pair that does not match leaves the
controller silent (R299). -/
def execLssActivateBitTiming (_delay : BitVec 16) (s : State) : Host.Outcome State Fault Refusal :=
  .next (heard s fun s => if !lssConf s then s
    else if guardGood (s.rd Obj.bitRate) then setCan { s.can with rate := BitVec.ofNat 8 (guardVal (s.rd Obj.bitRate)) } s
    else
      let s := raise 0x9001 0 0x2002 2 s
      setCan { s.can with silent := true } s)

/-- Store configuration: 0x2002 goes into the current set at once. No flash write begins in hold-safe (R351): the service then answers
with the storage error of CiA 305. -/
def execLssStoreConfiguration (s : State) : Host.Outcome State Fault Refusal :=
  .next (heard s fun s => if !lssConf s then s
    else if s.rd Obj.holdSafe = 1 then lssReply 0x17 [2, 0] s
    else
      let put (r : Reg) (m : Map Nat) : Map Nat := m.set r.dflt r.key (s.rd r)
      lssReply 0x17 [0, 0] (patchSet (put Obj.bitRate (put Obj.nodeId (currentSet s))) s))

/-- Inquire identity: cs 0x5A vendor-ID, 0x5B product code, 0x5C revision, 0x5D serial number, 0x5E node-ID. -/
def execLssInquireIdentity (cs : Byte) (s : State) : Host.Outcome State Fault Refusal :=
  let k := cs.toNat
  .next (heard s fun s => if !lssConf s then s
    else if 0x5A ≤ k ∧ k ≤ 0x5D then lssReply cs (leBytes 4 (identityWord (k - 0x59))) s
    else if k = 0x5E then lssReply cs (leBytes 4 (activeNode s)) s
    else s)

def execLssIdentifyRemoteSlave (vendor product revLow revHigh serLow serHigh : Word) (s : State) : Host.Outcome State Fault Refusal :=
  let inside (lo hi : Word) (v : Nat) : Bool := decide (lo.toNat ≤ v) && decide (v ≤ hi.toNat)
  .next (heard s fun s => if lssOn s && vendor.toNat == identityWord 1 && product.toNat == identityWord 2 &&
      inside revLow revHigh (identityWord 3) && inside serLow serHigh (identityWord 4) then lssReply 0x4F [] s
    else s)

def execLssIdentifyNonConfiguredSlave (s : State) : Host.Outcome State Fault Refusal :=
  .next (heard s fun s => if lssOn s && activeNode s == 0xFF then lssReply 0x50 [] s else s)

/-! EMCY, heartbeat and bus errors (R301, R302). -/

/-- EMCY_TRANSMIT: the oldest message is sent; the message of a queue overflow takes the place it leaves. -/
def execEmcyTransmit (s : State) : Host.Outcome State Fault Refusal :=
  .next (if !canServes s then s
    else match s.can.emcy with
      | [] => s
      | m :: ms =>
        let owed := if s.can.emcyOwed then [emcyBytes (emcyCode 0xB005) (errRegister s) 0xB005 0] else []
        let c := s.can
        canSend (.emcy m) (setCan { c with
          emcy := ms ++ owed, emcyOwed := false, emcyDrop := c.emcyDrop && !(ms ++ owed).isEmpty
          errors := if c.emcyOwed then (BitVec.ofNat 16 (emcyCode 0xB005) :: c.errors).take 16 else c.errors } s))

/-- HEARTBEAT_PRODUCE. -/
def execHeartbeatProduce (s : State) : Host.Outcome State Fault Refusal :=
  .next (if canUp s && s.can.nmt != 0 && s.rd Obj.prodHeartbeat != 0 then
      canSend (.heartbeat (BitVec.ofNat 8 (activeNode s)) s.can.nmt) s
    else s)

/-- The node-ID and time of a consumer heartbeat entry. -/
def consNode (s : State) (i : Nat) : Nat := s.rd (Obj.consHeartbeat i) / 0x10000
def consTime (s : State) (i : Nat) : Nat := s.rd (Obj.consHeartbeat i) % 0x10000

/-- HEARTBEAT_RECEIVE: the entries that name the node are monitored from now on. -/
def execHeartbeatReceive (node : Byte) (s : State) : Host.Outcome State Fault Refusal :=
  .next (heard s fun s => if !canUp s || s.can.nmt == 0 then s
    else
      let hit := (List.range 4).filter fun i => consNode s i == node.toNat && consTime s i != 0
      setCan { s.can with monitored := (s.can.monitored.filter fun i => !hit.contains i) ++ hit } s)

/-- What 0x1029:01 selects on a timeout or a bus-off. -/
def errBehaviour (s : State) : State :=
  match s.rd Obj.errBehaviour with
  | 0 => if s.can.nmt = nmtOp then setCan { s.can with nmt := nmtPreOp } s else s
  | 2 => if s.can.nmt = 0 then s else setCan { s.can with nmt := nmtStopped } s
  | _ => s

/-- HEARTBEAT_TIMEOUT of entry `i`. -/
def execHeartbeatTimeout (i : Fin 4) (s : State) : Host.Outcome State Fault Refusal :=
  .next (if !canUp s || !s.can.monitored.contains i.val || consTime s i.val == 0 then s
    else
      let s := setCan { s.can with monitored := s.can.monitored.filter (· != i.val) } s
      errBehaviour (fieldFault 0xB003 (consNode s i.val) s))

/-- BUS_OFF. -/
def execBusOff (s : State) : Host.Outcome State Fault Refusal :=
  .next (heard s fun s => if canUp s then errBehaviour (fieldFault 0xB001 0 (setCan { s.can with busOff := true } s)) else s)

/-- BUS_OFF_RECOVERY. -/
def execBusOffRecovery (s : State) : Host.Outcome State Fault Refusal :=
  clocked (fun s => setCan { s.can with busOff := false } s) s

/-- ERROR_PASSIVE. -/
def execErrorPassive (s : State) : Host.Outcome State Fault Refusal := .next (heard s fun s => if canUp s then fieldFault 0xB002 0 s else s)

end Sys2Proof.Machine
end

