-- ==== Sys2Proof/Machine/Link.lean ====
section
/-! DEFINITION. The Uamin link (R315 to R333, R339): frames, their checks, and their execution. -/

namespace Sys2Proof.Machine

/-! CRC-32C (R319). -/

def crcBit (c : Word) : Word := if c.getLsbD 0 then (c >>> 1) ^^^ 0x82F63B78 else c >>> 1

def crcByte (c : Word) (b : Byte) : Word :=
  crcBit (crcBit (crcBit (crcBit (crcBit (crcBit (crcBit (crcBit (c ^^^ b.setWidth 32))))))))

/-- The standard CRC-32C of a byte string. -/
def crc32c (bs : List Byte) : Word := ~~~(bs.foldl crcByte 0xFFFFFFFF)

/-- `n` bytes of a number, most significant first. -/
def beBytes (n v : Nat) : List Byte := (leBytes n v).reverse

/-- The wire bytes of words. -/
def wireBytes (ws : List Word) : List Byte := ws.flatMap fun w => beBytes 4 w.toNat

/-! The frame on HDI (R317, R318). -/

/-- The link configuration in force: recovery mode runs at the reset value (R366). -/
def linkCfg (s : State) : Word := if recovering s then 0xA0 else s.link.cfg
def addrWidth (s : State) : Nat := if (linkCfg s).getLsbD 7 then 32 else 24
def dummyWidth (s : State) : Nat := (linkCfg s).toNat % 64
/-- Bits before the data phase. -/
def headBits (s : State) : Nat := 32 + addrWidth s + dummyWidth s
/-- The length that the header implies. -/
def impliedBits (s : State) (f : Frame) : Nat := headBits s + 32 * f.len.toNat + 32
/-- ADDR, zero-extended in 24-bit mode (R326). -/
def frameAddr (s : State) (f : Frame) : Nat := f.addr.toNat % 2 ^ addrWidth s
/-- The data phase. -/
def frameData (f : Frame) : List Word := (List.range f.len.toNat).map fun k => f.data.getD k 0

/-- The bytes that the CRC of a frame covers. -/
def frameBytes (s : State) (cmd : Nat) (f : Frame) : List Byte :=
  [BitVec.ofNat 8 cmd, f.alive] ++ beBytes 2 f.len.toNat ++ beBytes (addrWidth s / 8) (frameAddr s f) ++
    beBytes (dummyWidth s / 8) f.dummy ++ wireBytes (frameData f)

/-! Check 4: the command, LEN and ADDR (R326, R330, R366). -/

/-- The length word of OD_WRITE against LEN (R330). -/
def odLengthGood (f : Frame) : Bool :=
  let n := (f.data.getD 0 0).toNat
  decide (1 ≤ n) && decide (n ≤ 1024) && f.len.toNat == 1 + (n + 3) / 4

def commandGood (s : State) (cmd : Nat) (f : Frame) : Bool :=
  let len := f.len.toNat
  let addr := frameAddr s f
  (!recovering s || [1, 2, 3, 4, 9].contains cmd) &&
    match cmd with
    | 1 | 2 => decide (1 ≤ len) && decide (len ≤ 16)
    | 3 => addr % 4 == 0 && decide (1 ≤ len)
    | 4 => addr % 4 == 0 && decide (1 ≤ len) && decide (len ≤ 1024)
    | 5 => decide (addr < 2 ^ 24) && len == 0
    | 6 => decide (addr < 2 ^ 24) && decide (2 ≤ len) && decide (len ≤ 257) && odLengthGood f
    | 7 => addr % 4 == 0 && decide (addr < 1024) && decide (3 ≤ len) && decide (len ≤ 259)
    | 8 => decide (addr ≤ 256) && len % 4 == 0 && decide (4 ≤ len) && decide (len ≤ 64)
    | 9 => addr == 0 && len == 0
    | 10 => addr % 4 == 0 && len % 2 == 0 && decide (2 ≤ len) && decide (len ≤ 1024)
    | _ => false

/-! Addresses (R327). -/

/-- The working address of the first word of a memory command. -/
def baseAddr (s : State) (f : Frame) : Nat :=
  if (linkCfg s).getLsbD 7 then frameAddr s f else s.link.memBase.toNat % 256 * 2 ^ 24 + frameAddr s f
/-- The fabric address of word k. -/
def wordAddr (s : State) (f : Frame) (k : Nat) : Nat :=
  s.link.memBase.toNat / 256 % 256 * 2 ^ 32 + (baseAddr s f + 4 * k) % 2 ^ 32
/-- Whether the words of a memory command step past 0xFFFF_FFFC. -/
def memWraps (s : State) (f : Frame) (n : Nat) : Bool := decide (2 ^ 32 < baseAddr s f + 4 * n)

/-- The window address of word k, and whether the words wrap. -/
def winAddr (s : State) (f : Frame) (k : Nat) : Nat := (frameAddr s f + k) % 2 ^ 32
def winWraps (s : State) (f : Frame) (n : Nat) : Bool := decide (2 ^ 32 < frameAddr s f + n)
def winRange (s : State) (f : Frame) (n : Nat) : Bool := (List.range n).any fun k => decide (0xB < winAddr s f k)

/-- FAULT, RANGE, WRAP and SLOW as bits 3 to 0. -/
def flagBits (fault range wrap slow : Bool) : BitVec 4 :=
  BitVec.ofNat 4 (bitsOf [slow, wrap, range, fault])

def addFlags (fl : BitVec 4) (s : State) : State := { s with link := { s.link with flags := s.link.flags ||| fl } }

/-! The window registers (R332). -/

def winRead (s : State) (a : Nat) : Word :=
  match a with
  | 0x0 => BitVec.ofNat 32 (identityWord 2)
  | 0x1 => s.link.cfg
  | 0x2 => s.link.memBase
  | 0x3 => s.link.irqPend.setWidth 32
  | 0x4 => s.link.irqEn.setWidth 32
  | 0x5 => match s.link.alive with
    | some a => a.setWidth 32 ||| 0x100
    | none => 0
  | 0x6 => s.slate.setWidth 32
  | 0x7 => s.slate.extractLsb' 32 32
  | 0x8 => s.link.frames
  | 0x9 => s.link.rejected
  | 0xA => s.link.crcErrs
  | 0xB => BitVec.ofNat 32 (s.rd Obj.fltLast)
  | _ => 0

/-- A value of UL_CFG whose fields are no reserved encoding (R317). -/
def cfgGood (v : Word) : Bool :=
  v.toNat / 2 ^ 8 % 2 ^ 8 == 0 && ((if v.getLsbD 7 then 32 else 24) + v.toNat % 64) % 32 == 0

/-- UL_IRQ_PEND is write 1 to clear (R333). -/
def clearIrq (w : Word) (s : State) : State :=
  { s with link := { s.link with irqPend := s.link.irqPend &&& ~~~(w.setWidth 6) } }

def winWrite (a : Nat) (v : Word) (s : State) : State :=
  match a with
  | 0x1 => { s with link := { s.link with cfg := v &&& 0xBF } }
  | 0x2 => { s with link := { s.link with memBase := v &&& 0xFFFF } }
  | 0x3 => clearIrq v s
  | 0x4 => { s with link := { s.link with irqEn := v.setWidth 6 } }
  | _ => s

/-! The data phase on HDO (R320, R328, R330, R331). -/

/-- READ_MEM: the words sent, with what the reads do and their flags. `slow` holds from the first word that is late. -/
def memWords (f : Frame) : List Nat → Bool → State → List Word × State
  | [], _, s => ([], s)
  | k :: ks, slow, s =>
    let a := wordAddr s f k
    let (w, slow, s) : Word × Bool × State :=
      if slow || decide (f.ready ≤ k) then (0, true, addFlags 1 s)
      else match hostCheck false a s with
        | .ok => (fabRead s a, false,
            noteReads masterHost [(a, 4)] (if readFails s [(a, 4)] then addFlags 8 s else s))
        | .wait => (0, true, addFlags 1 s)
        | .deny c => (0, false, addFlags (denyFlags c) (hostReport c a s))
    let (ws, s) := memWords f ks slow s
    (w :: ws, s)

/-- OD_FETCH (R330). -/
def fetchWords (s : State) (f : Frame) : List Word :=
  let done := s.link.reqState == 2
  let v := s.link.reqValue
  [(s.link.reqState.setWidth 32 <<< 30) ||| s.link.reqKey.setWidth 32, if done then s.link.reqAbort else 0,
      if done then BitVec.ofNat 32 v.length else 0] ++
    (List.range (f.len.toNat - 3)).map fun k =>
      if done then BitVec.ofNat 32 (ofLe ((v.drop (frameAddr s f + 4 * k)).take 4)) else 0

/-- HARVEST: the records from HV_TAIL + ADDR (R331). -/
def harvestWords (s : State) (f : Frame) : List Word :=
  (List.range (f.len.toNat / 4)).flatMap fun i =>
    let p := frameAddr s f + i
    let r := if p < s.rd Obj.hvUsed then ringRecord s ((s.rd Obj.hvTail + p) % 256) else noRecord
    let bs := recordBytes r
    (List.range 4).map fun k => BitVec.ofNat 32 (ofLe ((bs.drop (4 * k)).take 4))

/-- The words a frame reads, up to the bits it clocked. -/
def readWords (cmd : Nat) (f : Frame) (s : State) : List Word × State :=
  let n := min f.len.toNat ((f.bits - headBits s + 31) / 32)
  match cmd with
  | 1 => ((List.range n).map fun k => winRead s (winAddr s f k),
      addFlags (flagBits false (winRange s f n) (winWraps s f n) false) s)
  | 3 => memWords f (List.range n) false (addFlags (flagBits false false (memWraps s f n) false) s)
  | 7 => (fetchWords s f, s)
  | 8 => (harvestWords s f, s)
  | _ => ([], s)

/-! Checks 5 and 6, and the effect of an executed frame (R322, R324, R329 to R331). -/

/-- A background write is still executing. -/
def linkPend (s : State) : Bool := s.link.bg.isSome

/-- The link cannot execute the command now. -/
def linkBusy (s : State) (cmd : Nat) : Bool :=
  if cmd = 3 ∨ cmd = 4 ∨ cmd = 10 then linkPend s
  else if cmd = 5 ∨ cmd = 6 then s.link.reqState == 1
  else false

/-- Every pair of WRITE_GUARDED is a value and its complement. -/
def pairsGood (f : Frame) : Bool :=
  (List.range (f.len.toNat / 2)).all fun j => (frameData f).getD (2 * j + 1) 0 == ~~~((frameData f).getD (2 * j) 0)

/-- Check 5: what the frame would write is acceptable. -/
def frameAccepted (s : State) (cmd : Nat) (f : Frame) : Bool :=
  match cmd with
  | 2 => (List.range f.len.toNat).all fun k => winAddr s f k != 1 || cfgGood ((frameData f).getD k 0)
  | 8 => decide (frameAddr s f ≤ s.rd Obj.hvUsed)
  | 10 => pairsGood f
  | _ => true

/-- Put a write into the link buffer. -/
def startWrite (guarded : Bool) (f : Frame) (s : State) : State :=
  let ws := (List.range f.len.toNat).map fun k => (wordAddr s f k, (frameData f).getD k 0)
  { s with link := { s.link with bg := some ⟨guarded, memWraps s f f.len.toNat, ws⟩ } }

/-- Post a dictionary request; `data` is none for a read. -/
def postRequest (key : Nat) (data : Option (List Byte)) (s : State) : State :=
  { s with link := { s.link with
    reqState := 1, reqKey := BitVec.ofNat 24 key, reqWrite := data, reqAbort := 0, reqValue := [], odServed := false } }

/-- The value bytes of OD_WRITE. -/
def odValue (f : Frame) : List Byte :=
  (((frameData f).drop 1).flatMap fun w => leBytes 4 w.toNat).take (f.data.getD 0 0).toNat

/-- HV_TAIL advances over acknowledged records. -/
def acknowledge (n : Nat) (s : State) : State :=
  (s.wr Obj.hvTail ((s.rd Obj.hvTail + n) % 256)).wr Obj.hvUsed (s.rd Obj.hvUsed - n)

/-- What an executed frame does beside its reply. -/
def runFrame (cmd : Nat) (f : Frame) (s : State) : State :=
  match cmd with
  | 2 =>
    let n := f.len.toNat
    let fl := flagBits false (winRange s f n) (winWraps s f n) false
    let addrs := (List.range n).map fun k => (winAddr s f k, (frameData f).getD k 0)
    addFlags fl (forList addrs (fun x s => winWrite x.1 x.2 s) s)
  | 4 => startWrite false f s
  | 5 => postRequest (frameAddr s f) none s
  | 6 => postRequest (frameAddr s f) (some (odValue f)) s
  | 8 => acknowledge (frameAddr s f) s
  | 10 => startWrite true f s
  | _ => s

/-- PALIVE and PCMD of S0 (R321). -/
def frameId (cmd : Nat) (f : Frame) : Word :=
  BitVec.ofNat 32 ((if 16 ≤ f.bits then f.alive.toNat * 2 ^ 24 else 0) + (if 8 ≤ f.bits then cmd % 256 * 2 ^ 16 else 0))

def setS0 (w : Word) (s : State) : State := { s with link := { s.link with s0 := w } }

/-- A saturating 32-bit count. -/
def countUp (w : Word) : Word := if w = 0xFFFFFFFF then w else w + 1

/-- A frame that is not executed, with its bit of S0 (R322, R333). -/
def refuseFrame (cmd : Nat) (f : Frame) (bit : Nat) (s : State) : State :=
  ulIrq 5 (setS0 (frameId cmd f ||| BitVec.ofNat 32 (2 ^ bit))
    { s with link := { s.link with rejected := countUp s.link.rejected } })

/-- Fault 0xA001 (R322, R339). -/
def frameFault (f : Frame) (s : State) : State := raiseOnce 0 0xA001 0 (if 16 ≤ f.bits then f.alive.toNat else 0) 0 s

/-- A frame that passes every check (R322, R323). -/
def acceptFrame (cmd : Nat) (f : Frame) (s : State) : State :=
  let gap := match s.link.alive with
    | some a => f.alive != a + 1
    | none => false
  let rej := cmd == 7 && s.link.reqState == 2 && s.link.reqAbort != 0
  let s := runFrame cmd f s
  let s := pendAll 1 { s with link := { s.link with frames := countUp s.link.frames, alive := some f.alive } }
  let s := setS0 (frameId cmd f ||| BitVec.ofNat 32 (8 + (if gap then 2 ^ 12 else 0) + (if rej then 2 ^ 10 else 0))) s
  if gap then raiseOnce 0 0xA002 0 f.alive.toNat 0 s else s

/-- The checks of R322 in their order, at the rise of HSEL_N. `crc` is the CRC of what was received. -/
def checkFrame (cmd : Nat) (f : Frame) (busy : Bool) (s : State) : State :=
  if f.bits ≠ impliedBits s f then frameFault f (refuseFrame cmd f 14 s)
  else if f.crc ≠ crc32c (frameBytes s cmd f) then
    frameFault f (refuseFrame cmd f 15 { s with link := { s.link with crcErrs := countUp s.link.crcErrs } })
  else if s.link.alive = some f.alive then refuseFrame cmd f 11 s
  else if !commandGood s cmd f then frameFault f (refuseFrame cmd f 13 s)
  else if !frameAccepted s cmd f then
    let s := if cmd = 10 then raise 0x9002 1 f.alive.toNat 0 s else s
    refuseFrame cmd f 10 s
  else if busy then refuseFrame cmd f 9 s
  else acceptFrame cmd f s

/-- The status words captured at the fall of HSEL_N (R320, R321). S0 is zero while no frame has ended. -/
def capturedS0 (s : State) : Word :=
  if s.link.s0 = 0 then 0 else s.link.s0 ||| BitVec.ofNat 32 ((if hirq s then 2 ^ 8 else 0) + s.link.flags.toNat * 16 + (if linkPend s then 4 else 0))
def capturedS1 (s : State) : Word :=
  BitVec.ofNat 32 (statusCode s * 2 ^ 28 + s.handles.length * 2 ^ 16 + s.rd Obj.hvUsed)

/-- The reply on HDO, cut to the whole words that the frame clocked. -/
def frameReply (s0 s1 : Word) (head : Nat) (f : Frame) (data : List Word) : List Word :=
  let body := [s0, s1] ++ List.replicate (head / 32 - 2) 0 ++
    (List.range f.len.toNat).map fun k => data.getD k 0
  (body ++ [crc32c (wireBytes body)]).take (f.bits / 32)

/-- A frame of command code `cmd`: its reply, its reads, its checks and its execution. Until the firmware runs, and until a
wake completes, S0 holds BUSY alone and the frame is refused (R325); so it is during the exit from DORMANT (R349), while the link does not
answer in any other reset. The fall of HSEL_N is a wake source. -/
def frameRun (cmd : Nat) (f : Frame) (s : State) : State :=
  if !s.power.supplied || (s.boot.inReset && s.rd Obj.resetCause != causeDormant) then s
  else
  let s := wakeBy 1 s
  if !(served s || recovering s) then
    refuseFrame cmd f 9 { s with link := { s.link with flags := 0, reply := frameReply 0x200 0 (headBits s) f [] } }
  else
    let s0 := capturedS0 s
    let s1 := capturedS1 s
    let busy := linkBusy s cmd
    let head := headBits s
    let s := { s with link := { s.link with flags := 0 } }
    let (data, s) := if commandGood s cmd f && s.link.alive != some f.alive && !busy then readWords cmd f s else ([], s)
    let s := checkFrame cmd f busy s
    { s with link := { s.link with reply := frameReply s0 s1 head f data } }

/-! The rows. -/

def execReadWin (f : Frame) (s : State) : Host.Outcome State Fault Refusal := .next (frameRun 1 f s)
def execWriteWin (f : Frame) (s : State) : Host.Outcome State Fault Refusal := .next (frameRun 2 f s)
def execReadMem (f : Frame) (s : State) : Host.Outcome State Fault Refusal := .next (frameRun 3 f s)
def execWriteMem (f : Frame) (s : State) : Host.Outcome State Fault Refusal := .next (frameRun 4 f s)
def execOdRead (f : Frame) (s : State) : Host.Outcome State Fault Refusal := .next (frameRun 5 f s)
def execOdWrite (f : Frame) (s : State) : Host.Outcome State Fault Refusal := .next (frameRun 6 f s)
def execOdFetch (f : Frame) (s : State) : Host.Outcome State Fault Refusal := .next (frameRun 7 f s)
def execHarvest (f : Frame) (s : State) : Host.Outcome State Fault Refusal := .next (frameRun 8 f s)
def execStatus (f : Frame) (s : State) : Host.Outcome State Fault Refusal := .next (frameRun 9 f s)
def execWriteGuarded (f : Frame) (s : State) : Host.Outcome State Fault Refusal := .next (frameRun 10 f s)
def execReservedCommandFrame (cmd : Byte) (f : Frame) (s : State) : Host.Outcome State Fault Refusal :=
  .next (frameRun cmd.toNat f s)

/-- UAMIN_WRITE_LANDED: the words of the background write reach their places (R324). While one waits for a pan group, the write
goes on. -/
def execUaminWriteLanded (s : State) : Host.Outcome State Fault Refusal :=
  .next (match s.link.bg with
    | none => s
    | some w =>
      if !(served s || recovering s) || w.writes.any (fun x => hostCheck true x.1 s == .wait) then s
      else
        let (s, fl) := landAccesses w.accesses.length w s
        addFlags fl { s with link := { s.link with bg := none } })

/-- OD_REQUEST_COMPLETE: the server answers the link's request (R289, R330), which it has served by now. -/
def execOdRequestComplete (s : State) : Host.Outcome State Fault Refusal :=
  .next (if !served s || s.link.reqState != 1 then s
    else
      let s := serveLink s
      if s.link.reqState = 1 then ulIrq 0 { s with link := { s.link with reqState := 2, odServed := false } } else s)

/-- UL_IRQ_PEND_CLEAR (R333). -/
def execUlIrqPendClear (w : Word) (s : State) : Host.Outcome State Fault Refusal :=
  .next (if served s || recovering s then clearIrq w s else s)

end Sys2Proof.Machine
end

