-- ==== Sys2Proof/Machine/Console.lean ====
section
/-! DEFINITION. The service console (R411 to R413): characters, lines and commands. -/

namespace Sys2Proof.Machine

/-- The console runs in normal and safe modes while the firmware does (R411). -/
def conUp (s : State) : Bool := served s && s.boot.mode != 2

/-- It executes a line: `lvl` holds it for 100 ms. -/
def conFree (s : State) : Bool := conUp s && !s.service.lvlDue

/-- The console's path. -/
def conPath : Nat := pathCode .console

/-- CR and LF end a line. -/
def isEol (c : Byte) : Bool := c == 13 || c == 10

/-- Print. -/
def say (o : ConOut) (s : State) : State := { s with service := { s.service with conOut := s.service.conOut ++ [o] } }

/-- A reply and the prompt. -/
def reply (o : ConOut) (s : State) : State := say .prompt (say o s)

/-! Characters (R411). -/

/-- The characters behind the first line end. -/
def behindLine (b : List Byte) : List Byte := (b.dropWhile fun c => !isEol c).drop 1

/-- The buffer when its first line has been executed: CR LF ends one line. -/
def takeLine (b : List Byte) : List Byte :=
  if !b.any isEol then b
  else
    let rest := behindLine b
    if (b.find? isEol == some 13) && rest.head? == some 10 then rest.drop 1 else rest

/-- CONSOLE_CHARACTER: echoed; part of the line, up to 128 and one that marks a longer line; behind a line that waits or executes,
one of the 256 that may wait. The UART pends source 3 (R240). A character that comes in NAP or DORMANT is lost; its edge is a wake
source (R347). -/
def execConsoleCharacter (ch : Byte) (s : State) : Host.Outcome State Fault Refusal :=
  .next (if !conUp s then wakeBy 4 s
    else
      let s := pendAll 3 s
      let s := if s.rd Obj.conEcho = 1 then say (.echo ch) s else s
      let b := s.service.conBuf
      let put : State := { s with service := { s.service with conBuf := b ++ [ch] } }
      if b.any isEol || s.service.lvlDue then
        if (if b.any isEol then behindLine b else b).length < 256 then put else s.inc Obj.conOverruns
      else if isEol ch || decide (b.length ≤ 128) then put else s)

/-- The line at the front of the buffer leaves it. -/
def dropLine (s : State) : State := { s with service := { s.service with conBuf := takeLine s.service.conBuf } }

/-- A line is executed and counted. -/
def lineDone (s : State) : State := (dropLine s).inc Obj.conLines

/-- A command of normal mode's gate is refused while SERVICE_N is high, and changes nothing (R413). -/
def gated (s : State) : Bool := s.service.serviceN && s.boot.mode == 0

/-- Run a command line: `run` answers the state and what is printed. What the link has posted before it is served first (R289). -/
def runLine (run : State → State × ConOut) (s : State) : Host.Outcome State Fault Refusal :=
  .next (if !conFree s then s else let (s, o) := run (lineDone (serveLink s)); reply o s)

/-- A refused line. -/
def refuseLine (a : Nat) (s : State) : State := reply (.err (BitVec.ofNat 32 a)) (dropLine s)

/-- Run a command that the gate holds back. -/
def runGated (shut : Bool) (run : State → State × ConOut) (s : State) : Host.Outcome State Fault Refusal :=
  if conFree s && shut then .next (refuseLine abState s) else runLine run s

/-! Objects on the console's path. -/

/-- The reply to a write. -/
def replyOf (a : Nat) (vals : List Nat) : ConOut := if a = abNone then .ok vals else .err (BitVec.ofNat 32 a)

/-- A write on the console's path. -/
def conPut (idx sub : Nat) (data : List Byte) (s : State) : State × Nat :=
  let (s, a) := dictWrite conPath idx sub data s
  (answer conPath (idx * 256 + sub) a [] s, a)

/-- Writes in order, up to the first that is refused. -/
def conPuts : List (Nat × Nat × Nat × Nat) → State → State × Nat
  | [], s => (s, abNone)
  | (idx, sub, n, v) :: rest, s =>
    let (s, a) := conPut idx sub (leBytes n v) s
    if a = abNone then conPuts rest s else (s, a)

/-- The value of an object, as the console prints it. -/
def conVal (s : State) (idx sub : Nat) : Nat := ofLe (dictRead conPath idx sub s).1

/-- The bytes that a value of `wr` is sent as: a GUARD32 is given as its value alone; a value too large for the object stays too
large. -/
def conBytes (idx sub value : Nat) : List Byte :=
  match findRow idx sub with
  | none => leBytes 4 value
  | some r =>
    if r.type == .guard32 then
      if value < 2 ^ 32 then leBytes 8 (guardOf value) else leBytes 9 value
    else
      let n := r.type.bytes
      let m := (Nat.log2 value) / 8 + 1
      leBytes (max n m) value

/-- Numbers print as numbers, strings as at most 64 bytes and their length. -/
def printValue (idx sub : Nat) (b : List Byte) : ConOut :=
  match findRow idx sub with
  | none => .ok [ofLe b]
  | some r => match r.type with
    | .octets _ | .domain | .vstring => .bytes (b.take 64) b.length
    | _ => .ok [ofLe b]

/-! The commands (R412). -/

def execConInfo (s : State) : Host.Outcome State Fault Refusal :=
  runLine (fun s => (s, .ok [conVal s 0x1018 2, conVal s 0x1018 3, conVal s 0x1018 4, conVal s 0x100A 0,
    s.rd Obj.bootMode, s.rd Obj.fwSlot, s.rd Obj.resetCause])) s

def execConSt (s : State) : Host.Outcome State Fault Refusal :=
  runLine (fun s => (s, .ok ([s.rd Obj.pwrState, s.rd Obj.holdSafe, conVal s 0x2103 1, ofSigned 16 (junction s),
    activeClasses s, s.rd Obj.steerState] ++ (List.range 6).map fun g => s.rd (Obj.portState g)))) s

def execConRd (index : BitVec 16) (sub : Byte) (s : State) : Host.Outcome State Fault Refusal :=
  runLine (fun s =>
    let (b, s, a) := dictRead conPath index.toNat sub.toNat s
    (answer conPath (index.toNat * 256 + sub.toNat) a b s,
      if a = abNone then printValue index.toNat sub.toNat b else .err (BitVec.ofNat 32 a))) s

def execConWr (index : BitVec 16) (sub : Byte) (value : Nat) (s : State) : Host.Outcome State Fault Refusal :=
  runGated (gated s) (fun s =>
    let (s, a) := conPut index.toNat sub.toNat (conBytes index.toNat sub.toNat value) s
    (s, replyOf a [])) s

/-- The newest `n` records of the fault log, newest first (R377, R379). -/
def newestFaults (n : Nat) (s : State) : List FaultRec :=
  let head := s.rd Obj.fltLogHead
  ((List.range n).map fun k => logRecord s ((head + 63 - k) % 64)).filter fun r => r.code != 0

def execConLog (n : Nat) (s : State) : Host.Outcome State Fault Refusal :=
  if n = 0 ∨ 64 < n then .next (if conFree s then reply .errSyntax (dropLine s) else s)
  else runLine (fun s => (s, .records (newestFaults n s))) s

def execConClr (code : BitVec 16) (s : State) : Host.Outcome State Fault Refusal :=
  runGated (gated s) (fun s =>
    let (s, a) := conPuts [(0x3A00, 6, 2, code.toNat)] s
    (s, replyOf a [])) s

def execConMeter (mode : Byte) (channel : Option Byte) (s : State) : Host.Outcome State Fault Refusal :=
  runLine (fun s =>
    let ch := match channel with
      | none => []
      | some c => [(0x3C00, 2, 1, c.toNat)]
    let (s, a) := conPuts ((0x3C00, 1, 1, mode.toNat) :: ch) s
    (s, replyOf a [])) s

/-- `lvl`: the reply comes with the values, 100 ms later. -/
def execConLvl (channel : Byte) (s : State) : Host.Outcome State Fault Refusal :=
  .next (if !conFree s then s
    else
      let (s, a) := conPuts [(0x3C40, 4, 1, channel.toNat)] (lineDone (serveLink s))
      if a = abNone then { s with service := { s.service with lvlDue := true } } else reply (replyOf a []) s)

def execConLvlReport (s : State) : Host.Outcome State Fault Refusal :=
  .next (if conUp s && s.service.lvlDue then
      reply (.ok [s.rd Obj.levelPeak, s.rd Obj.levelRms]) { s with service := { s.service with lvlDue := false } }
    else s)

/-- `tone`: gated on every path and in every mode (R418). -/
def execConTone (channel : Byte) (hz dbfs : BitVec 16) (s : State) : Host.Outcome State Fault Refusal :=
  runGated s.service.serviceN (fun s =>
    let (s, a) := conPuts [(0x3C40, 2, 2, hz.toNat), (0x3C40, 3, 2, dbfs.toNat), (0x3C40, 1, 1, channel.toNat)] s
    (s, replyOf a [])) s

def execConToneOff (s : State) : Host.Outcome State Fault Refusal :=
  runGated s.service.serviceN (fun s =>
    let (s, a) := conPuts [(0x3C40, 1, 1, 0xFF)] s
    (s, replyOf a [])) s

/-- `bist`: the record prints when it posts. -/
def execConBist (test : Byte) (arg : BitVec 64) (s : State) : Host.Outcome State Fault Refusal :=
  runLine (fun s =>
    let (s, a) := conPuts [(0x3C20, 1, 1, test.toNat), (0x3C20, 2, 8, arg.toNat), (0x3C20, 3, 1, 1)] s
    if a = abNone then ({ s with service := { s.service with conBist := true } }, .ok [s.rd Obj.bistHandle])
    else (s, .err (BitVec.ofNat 32 a))) s

def execConBistQuery (s : State) : Host.Outcome State Fault Refusal :=
  runLine (fun s =>
    let test := match s.service.bist with
      | some (t, _) => t
      | none => 0
    (s, .ok [s.rd Obj.bistState, test, s.rd Obj.bistResult])) s

def execConReset (s : State) : Host.Outcome State Fault Refusal :=
  runGated (gated s) (fun s =>
    let (s, a) := conPuts [(0x2010, 1, 4, 0x74657372)] s
    (s, replyOf a [])) s

/-- CON_BAD_LINE: an over-long line, an unknown command or a malformed argument (R411). -/
def execConBadLine (tooLong : Bool) (s : State) : Host.Outcome State Fault Refusal :=
  .next (if conFree s then reply (if tooLong then .errLine else .errSyntax) (dropLine s) else s)

end Sys2Proof.Machine
end

