-- ==== Sys2Proof/Machine/Control.lean ====
section
/-! DEFINITION. Branches, subroutines, loops, GETW, RTI, HALT and PHASE (R34, R37, R104, R218, R244, R245); undefined opcodes
(R88), interrupt entry (R241), the landing of far accesses (R44) and of the moves of TAPM (R99). -/

namespace Sys2Proof.Machine

/-- A branch displacement: 16 bits, or 32 under WIDE (R80, R83). -/
def dispOf (p : Prefix) (d : Word) : Word := if p.wide then d else (d.truncate 16).signExtend 32

/-- The shape of format B; on a lane a negative displacement is undefined (R82). -/
def shapeB (u : Agent) (p : Prefix) (d : Word) : Shape :=
  { len := if p.wide then 5 else 3, wide := true, rep := false
    reasons := if Agent.isLane u && (dispOf p d).msb then [0x0C] else [] }

/-- The slot at which a taken branch of a lane continues: padding until then (R34). -/
def laneTarget (l : Lane) (len : Nat) (d : Word) : Nat :=
  let pc := l.regs.pc.toNat
  (slotOfByte l (byteOfSlot l pc + len + d.toNat)).getD (pc + 1)

/-- Run a branch under a condition code of R82. -/
def runBranch (cond : Nat) (u : Agent) (p : Prefix) (disp : Word) (s : State) : Host.Outcome State Fault Refusal :=
  let sh := shapeB u p disp
  let len := decodedLen p sh
  let d := dispOf p disp
  let taken := condHolds (regsOf s u).f cond
  match u with
  | .core _ =>
    runInstr u p sh 1 (fun _ r => pure
      { dest := if taken then some (r.pc + BitVec.ofNat 20 len + d.truncate 20) else none }) s
  | .lane n =>
    let run := runInstr u p sh 1 (fun _ _ => pure {}) s
    if laneRuns s n.val && (undefReason u p sh).isNone && taken then
      match run with
      | .next t => .next (lanePc n.val (laneTarget (s.lane n.val) len d) t)
      | r => r
    else run

/-- BSR: push the address of the next instruction and branch. -/
def bsrBody (len : Nat) (d : Word) (_ : Cx) (r : Regs) : Eff :=
  let next := r.pc + BitVec.ofNat 20 len
  { writes := [(r.sp - 1, next.zeroExtend 32)], upd := fun t => { t with sp := r.sp - 1 }, dest := some (next + d.truncate 20) }

def retBody (c : Cx) (r : Regs) : Hv Eff := do
  let w ← dRead c r.sp
  pure { upd := fun t => { t with sp := r.sp + 1 }, dest := some (w.truncate 20) }

/-- LOOP on a level; like every instruction of R104 but RTI it leaves F unchanged. -/
def loopBody (len : Nat) (level : Fin 4) (o : Operand) (disp : BitVec 16) (c : Cx) (r : Regs) : Hv Eff := do
  let (w, _) ← operand c r o
  let next := r.pc + BitVec.ofNat 20 len
  pure { upd := fun t => { t with
    ls := t.ls.set level.val next
    le := t.le.set level.val (next + disp.zeroExtend 20)
    lc := t.lc.set level.val w } }

/-- GETW: complete the node held, join the waiting set and block; PC stays at the GETW until a hand-over (R218, R246). With PC as
its register it runs and the hand-over's write of it is dropped (DESIGN CHOICE: R65 makes only MOV, POP and IN to PC
undefined). -/
def getwBody (rd : Fin 32) (len : Nat) (c : Cx) (r : Regs) : Hv Eff := do
  match c.u with
  | .core k =>
    modify fun s =>
      let s := match heldFiring s k.val with
        | some f => completeFiring f 0 false (s.setCore k.val { s.core k.val with node := none })
        | none => s
      let s := s.setCore k.val { s.core k.val with getwReg := rd, getwLen := len, waitSince := s.waitSeq }
      { s with waitSeq := s.waitSeq + 1 }.wr (Obj.coreState k.val) 2
    pure { dest := some r.pc, xfer := true }
  | .lane _ => pure {}

def rtiBody (c : Cx) (r : Regs) : Hv Eff := do
  match c.u with
  | .core k =>
    let ef := ((← get).core k.val).ef
    modify (returnFrom k.val)
    pure { upd := fun t => { t with f := ef }, dest := some r.epc, xfer := true }
  | .lane _ => pure {}

def haltBody (c : Cx) (_ : Regs) : Hv Eff := do
  match c.u with
  | .core k =>
    modify fun s => s.wr (Obj.coreState k.val) 3
    pure {}
  | .lane _ => pure {}

/-- The first slot after the phase that holds slot `slot` of a group (R36, R37). -/
def phaseEnd (s : State) (g slot : Nat) : Nat :=
  let bs := (List.range 7).map fun k => s.rd (Obj.phaseB g k)
  match bs.find? fun b => decide (slot < b) with
  | some b => b
  | none => s.rd (Obj.tgLength g)

def execBra (u : Agent) (p : Prefix) (d : Word) (s : State) : Host.Outcome State Fault Refusal := runBranch 0 u p d s
def execBeq (u : Agent) (p : Prefix) (d : Word) (s : State) : Host.Outcome State Fault Refusal := runBranch 1 u p d s
def execBne (u : Agent) (p : Prefix) (d : Word) (s : State) : Host.Outcome State Fault Refusal := runBranch 2 u p d s
def execBmi (u : Agent) (p : Prefix) (d : Word) (s : State) : Host.Outcome State Fault Refusal := runBranch 3 u p d s
def execBpl (u : Agent) (p : Prefix) (d : Word) (s : State) : Host.Outcome State Fault Refusal := runBranch 4 u p d s
def execBvs (u : Agent) (p : Prefix) (d : Word) (s : State) : Host.Outcome State Fault Refusal := runBranch 5 u p d s
def execBvc (u : Agent) (p : Prefix) (d : Word) (s : State) : Host.Outcome State Fault Refusal := runBranch 6 u p d s
def execBc (u : Agent) (p : Prefix) (d : Word) (s : State) : Host.Outcome State Fault Refusal := runBranch 7 u p d s
def execBnc (u : Agent) (p : Prefix) (d : Word) (s : State) : Host.Outcome State Fault Refusal := runBranch 8 u p d s
def execBge (u : Agent) (p : Prefix) (d : Word) (s : State) : Host.Outcome State Fault Refusal := runBranch 9 u p d s
def execBlt (u : Agent) (p : Prefix) (d : Word) (s : State) : Host.Outcome State Fault Refusal := runBranch 10 u p d s
def execBgt (u : Agent) (p : Prefix) (d : Word) (s : State) : Host.Outcome State Fault Refusal := runBranch 11 u p d s
def execBle (u : Agent) (p : Prefix) (d : Word) (s : State) : Host.Outcome State Fault Refusal := runBranch 12 u p d s

def execBsr (u : Agent) (p : Prefix) (d : Word) (s : State) : Host.Outcome State Fault Refusal :=
  let sh : Shape := { len := if p.wide then 5 else 3, wide := true, rep := false, lane := false }
  runInstr u p sh 1 (fun c r => pure (bsrBody (decodedLen p sh) (dispOf p d) c r)) s

def execRet (u : Agent) (p : Prefix) (s : State) : Host.Outcome State Fault Refusal :=
  runInstr u p { len := 1, rep := false, lane := false } 1 retBody s

def execLoop (u : Agent) (p : Prefix) (level : Fin 4) (o : Operand) (disp : BitVec 16) (s : State) :
    Host.Outcome State Fault Refusal :=
  let sh := shapeD u { p with wide := false } true true false o
  let sh := { sh with len := sh.len + 2, wide := false, rep := false, lane := false
                      reasons := sh.reasons ++ (if disp.msb then [0x07] else []) }
  runInstr u p sh 1 (loopBody (decodedLen p sh) level o disp) s

def execGetw (u : Agent) (p : Prefix) (rd : Fin 32) (s : State) : Host.Outcome State Fault Refusal :=
  let sh : Shape := { len := 2, rep := false, lane := false, reasons := regReasons u rd.val }
  runInstr u p sh 1 (getwBody rd (decodedLen p sh)) s

def execRti (u : Agent) (p : Prefix) (s : State) : Host.Outcome State Fault Refusal :=
  runInstr u p { len := 1, rep := false, lane := false } 1 rtiBody s

def execHalt (u : Agent) (p : Prefix) (s : State) : Host.Outcome State Fault Refusal :=
  runInstr u p { len := 1, rep := false, lane := false } 1 haltBody s

def execPhase (u : Agent) (p : Prefix) (s : State) : Host.Outcome State Fault Refusal :=
  let cost := match u with
    | .lane n => phaseEnd s (laneGroup s n.val) (s.lane n.val).regs.pc.toNat - (s.lane n.val).regs.pc.toNat
    | .core _ => 1
  runInstr u p { len := 1, rep := false, core := false } cost (fun _ _ => pure {}) s

/-- UNDEFINED_OPCODE: bytes that spell no instruction, or one that R84 finds undefined (R12, R88). -/
def execUndefinedOpcode (u : Agent) (reason : Byte) (len : Fin 16) (s : State) : Host.Outcome State Fault Refusal :=
  .next (match u with
    | .lane n => if laneRuns s n.val then laneUndefined n.val s else s
    | .core c =>
      let pc := (s.core c.val).regs.pc.toNat
      if !coreRuns s c.val then s
      else if !iImplemented pc || !iImplemented (pc + len.val - 1) then coreTrap c 3 0x20 len.val 0 s
      else coreUndefined c reason.toNat len.val s)

/-- INTERRUPT_ENTRY: the core takes what R241 lets it take at this boundary. -/
def execInterruptEntry (c : Fin 8) (s : State) : Host.Outcome State Fault Refusal :=
  .next (match nextVector c.val s with
    | some v => takeInterrupt c.val v s
    | none => s)

/-- FAR_ACCESS_PERFORMED: the lane's oldest far access is performed in the shared pan (R44). -/
def execFarAccessPerformed (n : Fin 64) (s : State) : Host.Outcome State Fault Refusal :=
  let (t, s) := farPerform n.val s
  .next (blockTicks t s)

/-- FAR_READ_DELIVERY: the lane's oldest far read delivers its word (R44). -/
def execFarReadDelivery (n : Fin 64) (s : State) : Host.Outcome State Fault Refusal := .next (farDeliver n.val s)

/-- TAPM_MOVE_WRITE: the moves that are owed are written (R99). -/
def execTapmMoveWrite (u : Agent) (s : State) : Host.Outcome State Fault Refusal :=
  .next (match movesOf s u with
    | m :: _ => flushMoves u m.due [] s
    | [] => s)

end Sys2Proof.Machine
end

