-- ==== Sys2Proof/Machine/DictRows.lean ====
section
/-! DEFINITION. The commands that are one write or read of a dictionary object, by the path that makes it. -/

namespace Sys2Proof.Machine

/-- The index of an output-stage operand of group 0 (R179). -/
def operandIndex : OutOperand → Nat
  | .routing => 0x2400
  | .trim => 0x2270
  | .mute => 0x2410

/-- A write of SUP_CMD (R390). -/
def supCommand (p : Path) (action arg : Nat) (s : State) : State := writeNat p 0x3A01 5 4 (action * 2 ^ 24 + arg) s

/-- The argument of action 5 (R390). -/
def engineArg : Engine → Nat
  | .cx e => e.val
  | .asrc => 0x20

/-- A write of 1 to BIST_CTRL while BIST_SELECT names `test`. -/
def startTest (p : Path) (test : Nat) (s : State) : State :=
  if s.rd Obj.bistSelect = test then writeNat p 0x3C20 3 1 1 s else s

/-! Lanes (R54 to R58, R43). -/

def execSafeRequestForce (p : Path) (n : Fin 64) (s : State) : Host.Outcome State Fault Refusal :=
  .next (writeNat p (0x2600 + n.val) 12 1 1 s)

def execSafeRequestRelease (p : Path) (n : Fin 64) (s : State) : Host.Outcome State Fault Refusal :=
  .next (writeNat p (0x2600 + n.val) 12 1 2 s)

def execLaneEnableWrite (p : Path) (n : Fin 64) (v : Byte) (s : State) : Host.Outcome State Fault Refusal :=
  .next (writeNat p (0x2600 + n.val) 3 1 v.toNat s)

def execLaneClearFaults (p : Path) (n : Fin 64) (s : State) : Host.Outcome State Fault Refusal :=
  .next (writeNat p (0x2600 + n.val) 10 1 1 s)

def execLaneClearCounters (p : Path) (n : Fin 64) (s : State) : Host.Outcome State Fault Refusal :=
  .next (writeNat p (0x2600 + n.val) 10 1 2 s)

def execFarGrantWrite (p : Path) (n : Fin 64) (v : Byte) (s : State) : Host.Outcome State Fault Refusal :=
  .next (writeNat p (0x2600 + n.val) 13 1 v.toNat s)

/-! Any object (R289), the splice word (R109) and the decode tables (R144). -/

def execObjectWrite (p : Path) (index : BitVec 16) (sub : Byte) (data : List Byte) (s : State) : Host.Outcome State Fault Refusal :=
  .next (writeObject p index.toNat sub.toNat data s)

def execSpliceRequestFlipOnly (p : Path) (seq : BitVec 16) (atSlate : Bool) (s : State) : Host.Outcome State Fault Refusal :=
  .next (writeNat p 0x2800 4 8 (guardOf (splWord seq 1 atSlate 0)) s)

def execSpliceRequestFlipAndCopy (p : Path) (seq : BitVec 16) (atSlate : Bool) (s : State) : Host.Outcome State Fault Refusal :=
  .next (writeNat p 0x2800 4 8 (guardOf (splWord seq 1 atSlate 1)) s)

def execSpliceCancel (p : Path) (seq : BitVec 16) (s : State) : Host.Outcome State Fault Refusal :=
  .next (writeNat p 0x2800 4 8 (guardOf (splWord seq 2 false 0)) s)

def execDtEntryWrite (p : Path) (core : Bool) (k : Fin 8) (i : Fin 16) (entry : BitVec 160) (s : State) : Host.Outcome State Fault Refusal :=
  .next (writeNat p ((if core then 0x2A10 else 0x2A00) + k.val) (i.val + 1) 20 entry.toNat s)

def execDtClear (p : Path) (core : Bool) (k : Fin 8) (s : State) : Host.Outcome State Fault Refusal :=
  .next (writeNat p ((if core then 0x2A10 else 0x2A00) + k.val) 18 1 1 s)

/-! Port groups (R157, R162, R170, R174, R177, R178). -/

def execPortEnableWrite (p : Path) (g : Fin 6) (v : Byte) (s : State) : Host.Outcome State Fault Refusal :=
  .next (writeNat p (0x2200 + 16 * g.val) 1 1 v.toNat s)

def execPortTestWrite (p : Path) (g : Fin 6) (v : Byte) (s : State) : Host.Outcome State Fault Refusal :=
  .next (writeNat p (0x2200 + 16 * g.val) 9 1 v.toNat s)

def execPortClearFaults (p : Path) (g : Fin 6) (s : State) : Host.Outcome State Fault Refusal :=
  .next (writeNat p (0x2201 + 16 * g.val) 13 1 1 s)

def execPortClearCounters (p : Path) (g : Fin 6) (s : State) : Host.Outcome State Fault Refusal :=
  .next (writeNat p (0x2201 + 16 * g.val) 13 1 2 s)

def execStreamEnableWrite (p : Path) (g : Fin 6) (v : Byte) (s : State) : Host.Outcome State Fault Refusal :=
  .next (writeNat p (0x2202 + 16 * g.val) 8 1 v.toNat s)

def execOutputOperandWrite (p : Path) (op : OutOperand) (c : Fin 96) (v : Pair) (s : State) : Host.Outcome State Fault Refusal :=
  .next (writeNat p (operandIndex op + c.val / 16) (1 + c.val % 16) 8 v.toNat s)

def execLeaderWrite (p : Path) (v : Byte) (s : State) : Host.Outcome State Fault Refusal :=
  .next (writeNat p 0x2260 1 1 v.toNat s)

/-! The scheduler (R230 to R234); a node or edge is the one the path has selected. -/

def execSchClearFaults (p : Path) (s : State) : Host.Outcome State Fault Refusal :=
  .next (writeNat p 0x3000 9 1 1 s)

def execSchClearCounters (p : Path) (s : State) : Host.Outcome State Fault Refusal :=
  .next (writeNat p 0x3000 9 1 2 s)

def execNodeEnableWrite (p : Path) (v : Byte) (s : State) : Host.Outcome State Fault Refusal :=
  .next (writeNat p 0x3001 3 1 v.toNat s)

def execNodeClear (p : Path) (s : State) : Host.Outcome State Fault Refusal :=
  .next (writeNat p 0x3001 12 1 1 s)

def execEdgeEnableWrite (p : Path) (v : Byte) (s : State) : Host.Outcome State Fault Refusal :=
  .next (writeNat p 0x3002 5 1 v.toNat s)

def execEdgeClear (p : Path) (s : State) : Host.Outcome State Fault Refusal :=
  .next (writeNat p 0x3002 11 1 1 s)

def execRpEnableWrite (p : Path) (r : Fin 256) (v : Byte) (s : State) : Host.Outcome State Fault Refusal :=
  .next (writeNat p (0x3080 + r.val / 2) (1 + 32 * (r.val % 2)) 1 v.toNat s)

/-! Engines (R194, R195, R204). -/

def execCpEnableWrite (p : Path) (q : Fin 256) (v : Byte) (s : State) : Host.Outcome State Fault Refusal :=
  .next (writeNat p (0x3600 + q.val / 2) (1 + 32 * (q.val % 2)) 1 v.toNat s)

def execIrLoadStart (p : Path) (s : State) : Host.Outcome State Fault Refusal :=
  .next (writeNat p 0x3680 4 1 1 s)

def execAsEnableWrite (p : Path) (v : Fin 16) (on : Byte) (s : State) : Host.Outcome State Fault Refusal :=
  .next (writeNat p (0x3800 + v.val) 1 1 on.toNat s)

/-! Control cores (R238), pans (R257 to R263, R269) and DMA (R273, R287). -/

def execCoreHoldReset (p : Path) (c : Fin 8) (s : State) : Host.Outcome State Fault Refusal :=
  .next (writeNat p (0x3A40 + c.val) 2 1 1 s)

def execCoreRelease (p : Path) (c : Fin 8) (s : State) : Host.Outcome State Fault Refusal :=
  .next (writeNat p (0x3A40 + c.val) 2 1 2 s)

def execCoreClearFaults (p : Path) (c : Fin 8) (s : State) : Host.Outcome State Fault Refusal :=
  .next (writeNat p (0x3A40 + c.val) 6 1 1 s)

def execCoreClearResets (p : Path) (c : Fin 8) (s : State) : Host.Outcome State Fault Refusal :=
  .next (writeNat p (0x3A40 + c.val) 6 1 2 s)

def execPgOwnerWrite (p : Path) (g : Fin 8) (v : Byte) (s : State) : Host.Outcome State Fault Refusal :=
  .next (writeNat p (0x3410 + g.val) 1 1 v.toNat s)

def execPgPowerOff (p : Path) (g : Fin 8) (s : State) : Host.Outcome State Fault Refusal :=
  .next (writeNat p (0x3410 + g.val) 3 1 0 s)

def execPgPowerOn (p : Path) (g : Fin 8) (s : State) : Host.Outcome State Fault Refusal :=
  .next (writeNat p (0x3410 + g.val) 3 1 1 s)

def execPgPowerRetention (p : Path) (g : Fin 8) (s : State) : Host.Outcome State Fault Refusal :=
  .next (writeNat p (0x3410 + g.val) 3 1 2 s)

def execPgClear (p : Path) (g : Fin 8) (s : State) : Host.Outcome State Fault Refusal :=
  .next (writeNat p (0x3410 + g.val) 8 1 1 s)

def execDmaEnableWrite (p : Path) (ch : Fin 32) (v : Byte) (s : State) : Host.Outcome State Fault Refusal :=
  .next (writeNat p (0x3210 + ch.val) 6 1 v.toNat s)

def execDmaKick (p : Path) (ch : Fin 32) (s : State) : Host.Outcome State Fault Refusal :=
  .next (writeNat p (0x3210 + ch.val) 7 1 1 s)

def execDmaAbort (p : Path) (ch : Fin 32) (s : State) : Host.Outcome State Fault Refusal :=
  .next (writeNat p (0x3210 + ch.val) 7 1 2 s)

def execDmaRestart (p : Path) (ch : Fin 32) (s : State) : Host.Outcome State Fault Refusal :=
  .next (writeNat p (0x3210 + ch.val) 7 1 3 s)

def execDmaSkip (p : Path) (ch : Fin 32) (s : State) : Host.Outcome State Fault Refusal :=
  .next (writeNat p (0x3210 + ch.val) 7 1 4 s)

def execDmaClearFaults (p : Path) (ch : Fin 32) (s : State) : Host.Outcome State Fault Refusal :=
  .next (writeNat p (0x3210 + ch.val) 15 1 1 s)

def execDmaClearCounters (p : Path) (ch : Fin 32) (s : State) : Host.Outcome State Fault Refusal :=
  .next (writeNat p (0x3210 + ch.val) 15 1 2 s)

/-! Communication, reset, handles and stores (R294, R300, R305, R309, R311, R312). -/

def execErrorFieldClear (p : Path) (s : State) : Host.Outcome State Fault Refusal :=
  .next (writeNat p 0x1003 0 4 0 s)

def execSoftResetCommand (p : Path) (s : State) : Host.Outcome State Fault Refusal :=
  .next (writeNat p 0x2010 1 4 0x74657372 s)

def execHandleCancelWrite (p : Path) (h : BitVec 16) (s : State) : Host.Outcome State Fault Refusal :=
  .next (writeNat p 0x5F00 5 2 h.toNat s)

def execHvTailWrite (p : Path) (v : Byte) (s : State) : Host.Outcome State Fault Refusal :=
  .next (writeNat p 0x5F01 2 1 v.toNat s)

def execStoreParameters (p : Path) (sub : Byte) (s : State) : Host.Outcome State Fault Refusal :=
  .next (writeNat p 0x1010 sub.toNat 4 0x65766173 s)

def execRestoreDefaults (p : Path) (sub : Byte) (s : State) : Host.Outcome State Fault Refusal :=
  .next (writeNat p 0x1011 sub.toNat 4 0x64616F6C s)

/-! The codec port (R335 to R338). -/

def execCdcEntryAppend (p : Path) (entry : BitVec 64) (s : State) : Host.Outcome State Fault Refusal :=
  .next (writeNat p 0x3C60 2 8 entry.toNat s)

def execCdcFlushQueue (p : Path) (s : State) : Host.Outcome State Fault Refusal :=
  .next (writeNat p 0x3C60 11 1 1 s)

def execCdcEmptyReply (p : Path) (s : State) : Host.Outcome State Fault Refusal :=
  .next (writeNat p 0x3C60 11 1 2 s)

def execCdcFlushBoth (p : Path) (s : State) : Host.Outcome State Fault Refusal :=
  .next (writeNat p 0x3C60 11 1 3 s)

def execCdcRxWordRead (p : Path) (s : State) : Host.Outcome State Fault Refusal :=
  .next (readObject (pathCode p) 0x3C60 7 s)

def execCdcRxBlockRead (p : Path) (s : State) : Host.Outcome State Fault Refusal :=
  .next (readObject (pathCode p) 0x3C60 8 s)

/-! Power, show and faults (R345, R355, R370, R380, R431). -/

def execPwrRequestNap (p : Path) (s : State) : Host.Outcome State Fault Refusal :=
  .next (writeNat p 0x2100 2 1 1 s)

def execPwrRequestDormant (p : Path) (s : State) : Host.Outcome State Fault Refusal :=
  .next (writeNat p 0x2100 2 1 2 s)

def execVinMinReset (p : Path) (s : State) : Host.Outcome State Fault Refusal :=
  .next (writeNat p 0x2103 6 1 1 s)

def execHoldCountClear (p : Path) (s : State) : Host.Outcome State Fault Refusal :=
  .next (writeNat p 0x2103 6 1 2 s)

def execGpEdgeClr (p : Path) (w : BitVec 16) (s : State) : Host.Outcome State Fault Refusal :=
  .next (writeNat p 0x2030 20 2 w.toNat s)

def execShowLoadSlot (p : Path) (i : Fin 4) (s : State) : Host.Outcome State Fault Refusal :=
  .next (writeNat p 0x2020 2 1 i.val s)

def execShowLoadSource (p : Path) (s : State) : Host.Outcome State Fault Refusal :=
  .next (writeNat p 0x2020 2 1 0x10 s)

def execShowSlotWrite (p : Path) (i : Fin 4) (s : State) : Host.Outcome State Fault Refusal :=
  .next (writeNat p 0x2020 2 1 (0x20 + i.val) s)

def execFltClearWrite (p : Path) (code : BitVec 16) (s : State) : Host.Outcome State Fault Refusal :=
  .next (writeNat p 0x3A00 6 2 code.toNat s)

/-! Commands to the supervisor (R390). -/

def execSupRevokeClear (p : Path) (g : Fin 8) (s : State) : Host.Outcome State Fault Refusal :=
  .next (supCommand p 1 g.val s)

def execSupRevokeKeep (p : Path) (g : Fin 8) (s : State) : Host.Outcome State Fault Refusal :=
  .next (supCommand p 2 g.val s)

def execSupAbortDma (p : Path) (ch : Fin 32) (s : State) : Host.Outcome State Fault Refusal :=
  .next (supCommand p 3 ch.val s)

def execSupResetCore (p : Path) (c : Fin 8) (s : State) : Host.Outcome State Fault Refusal :=
  .next (supCommand p 4 c.val s)

def execSupResetEngine (p : Path) (e : Engine) (s : State) : Host.Outcome State Fault Refusal :=
  .next (supCommand p 5 (engineArg e) s)

def execSupForceSafe (p : Path) (n : Fin 64) (s : State) : Host.Outcome State Fault Refusal :=
  .next (supCommand p 6 n.val s)

def execSupReleaseSafe (p : Path) (n : Fin 64) (s : State) : Host.Outcome State Fault Refusal :=
  .next (supCommand p 7 n.val s)

def execSupCancelHandle (p : Path) (h : BitVec 16) (s : State) : Host.Outcome State Fault Refusal :=
  .next (supCommand p 8 h.toNat s)

/-! Identity (R398 to R404). -/

def execCustKeyWrite (p : Path) (i : Fin 4) (key : BitVec 256) (s : State) : Host.Outcome State Fault Refusal :=
  .next (writeNat p 0x3E01 (1 + i.val) 32 key.toNat s)

def execShowQuorumWrite (p : Path) (v : Byte) (s : State) : Host.Outcome State Fault Refusal :=
  .next (writeNat p 0x3E01 5 1 v.toNat s)

def execFullErase (p : Path) (s : State) : Host.Outcome State Fault Refusal :=
  .next (writeNat p 0x3E05 1 4 0x73617265 s)

def execAttNonceWrite (p : Path) (nonce : BitVec 256) (s : State) : Host.Outcome State Fault Refusal :=
  .next (writeNat p 0x3E02 1 32 nonce.toNat s)

def execDbgTokenWrite (p : Path) (token : List Byte) (s : State) : Host.Outcome State Fault Refusal :=
  .next (writeObject p 0x3E03 2 token s)

def execDbgLockWrite (p : Path) (s : State) : Host.Outcome State Fault Refusal :=
  .next (writeNat p 0x3E03 4 1 0 s)

def execVfyStart (p : Path) (s : State) : Host.Outcome State Fault Refusal :=
  .next (writeNat p 0x3E04 2 1 1 s)

/-! Service (R414, R418). A test row is the write that starts the test `BIST_SELECT` names. -/

def execToneChannelWrite (p : Path) (v : Byte) (s : State) : Host.Outcome State Fault Refusal :=
  .next (writeNat p 0x3C40 1 1 v.toNat s)

def execBistPanMarch (p : Path) (s : State) : Host.Outcome State Fault Refusal :=
  .next (startTest p 1 s)

def execBistDram (p : Path) (s : State) : Host.Outcome State Fault Refusal :=
  .next (startTest p 2 s)

def execBistLaneSelfTest (p : Path) (s : State) : Host.Outcome State Fault Refusal :=
  .next (startTest p 3 s)

def execBistCrystallizerAsrc (p : Path) (s : State) : Host.Outcome State Fault Refusal :=
  .next (startTest p 4 s)

def execBistPortInternalLoopback (p : Path) (s : State) : Host.Outcome State Fault Refusal :=
  .next (startTest p 5 s)

def execBistPortExternalLoopback (p : Path) (s : State) : Host.Outcome State Fault Refusal :=
  .next (startTest p 6 s)

def execBistCanLoopback (p : Path) (s : State) : Host.Outcome State Fault Refusal :=
  .next (startTest p 7 s)

def execBistRefSteeringRange (p : Path) (s : State) : Host.Outcome State Fault Refusal :=
  .next (startTest p 8 s)

def execBistTemperatureSensors (p : Path) (s : State) : Host.Outcome State Fault Refusal :=
  .next (startTest p 9 s)

end Sys2Proof.Machine
end

