-- ==== Sys2Proof/Machine/Moves.lean ====
section
/-! DEFINITION. Loads, stores and moves: NOP to POP and MOV (R95), with the far-window forms of a lane (R44 to R46, R73). -/

namespace Sys2Proof.Machine

/-- The addresses of a lane's far-window operand: the word, and its complement where it is guarded. -/
def farOperand (c : Cx) (r : Regs) (o : Operand) : Option (DAddr × Option DAddr) :=
  match effAddr r o with
  | some (ea, ea') => if Agent.isLane c.u && isFar ea then some (ea, if c.p.guard then some ea' else none) else none
  | none => none

/-- Issue a far access of a lane. -/
def issueFar (c : Cx) (write : Bool) (a : DAddr × Option DAddr) (dest : Fin 32) (w : Word) : Hv Unit :=
  modify fun s => match c.u with
    | .lane n => farIssue n.val c.slot write a.1 a.2 dest w s
    | .core _ => s

/-- LDA, LDX and LDY: load `dest` with the operand word, one instruction later (R85) or, from the far window, at s + 12. -/
def loadBody (dest : Fin 32) (o : Operand) (c : Cx) (r : Regs) : Hv Eff := do
  match farOperand c r o with
  | some a =>
    issueFar c false a dest 0
    pure { upd := postMod r o }
  | none =>
    let (w, ov) ← operand c r o
    pure { upd := postMod r o, load := some ⟨dest, w⟩, fl := viewFlags ov }

/-- STA: store the word view of A. -/
def staBody (o : Operand) (c : Cx) (r : Regs) : Hv Eff := do
  let (w, ov) := wordView c.sat r.a
  match farOperand c r o with
  | some a =>
    issueFar c true a 0 w
    pure { upd := postMod r o, fl := viewFlags ov }
  | none => pure { writes := storeTo c r o w, upd := postMod r o, fl := viewFlags ov }

/-- STX and STY: store an index as it stood. -/
def storeIndexBody (i : DAddr) (o : Operand) (c : Cx) (r : Regs) : Eff :=
  { writes := storeTo c r o (i.zeroExtend 32), upd := postMod r o }

/-- LDI: load A from I space. -/
def ldiBody (o : Operand) (c : Cx) (r : Regs) : Hv Eff := do
  let (w, ov) ← operand c r o
  let a := (w &&& 0xFFFFC).toNat
  match c.u with
  | .core k =>
    let s ← get
    if iImplemented a then
      pure { load := some ⟨0, iWord s k.val a⟩, fl := viewFlags ov }
    else throw (0x20, s)
  | .lane _ => pure {}

/-- IN. -/
def inBody (rd : Fin 32) (pa : Nat) (c : Cx) (_ : Regs) : Hv Eff := do
  match c.u with
  | .lane n =>
    let s ← get
    pure { load := some ⟨rd, laneIn s n.val pa⟩ }
  | .core k =>
    let w ← coreIn k.val pa
    pure { load := some ⟨rd, w⟩ }

/-- OUT. -/
def outBody (rs : Fin 32) (pa : Nat) (c : Cx) (r : Regs) : Hv Eff := do
  let (w, ov) := readReg c.sat r rs.val
  match c.u with
  | .lane _ =>
    modify (writeOC (pa - 0x80) w)
  | .core k => coreOut k.val pa w
  pure { fl := viewFlags ov }

def pushBody (rs : Fin 32) (c : Cx) (r : Regs) : Eff :=
  let (w, ov) := readReg c.sat r rs.val
  { writes := [(r.sp - 1, w)], upd := fun t => { t with sp := r.sp - 1 }, fl := viewFlags ov }

def popBody (rd : Fin 32) (c : Cx) (r : Regs) : Hv Eff := do
  let w ← dRead c r.sp
  pure { upd := fun t => writeReg false rd.val w { t with sp := r.sp + 1 } }

def movBody (rd : Fin 32) (o : Operand) (c : Cx) (r : Regs) : Hv Eff := do
  let (w, ov) ← operand c r o
  pure { upd := writeReg (Agent.isLane c.u) rd.val w, fl := viewFlags ov }

/-- Reason of a destination register: 0x0D for PC, 0x0B for a code the unit lacks (R65, R88). -/
def destReasons (u : Agent) (rd : Fin 32) : List Nat := (if rd = 13 then [0x0D] else []) ++ regReasons u rd.val

/-- The shape of format P (R83): the P address has bits 15:10 reserved. -/
def shapeP (rs : List Nat) (pa : BitVec 16) : Shape :=
  { len := 4, reasons := rs ++ (if 0x400 ≤ pa.toNat then [0x07] else []) }

def execNop (u : Agent) (p : Prefix) (s : State) : Host.Outcome State Fault Refusal :=
  runInstr u p { len := 1 } 1 (fun _ _ => pure {}) s

def execLda (u : Agent) (p : Prefix) (o : Operand) (s : State) : Host.Outcome State Fault Refusal :=
  runInstr u p (shapeD u p true true true o) 1 (loadBody 0 o) s

def execSta (u : Agent) (p : Prefix) (o : Operand) (s : State) : Host.Outcome State Fault Refusal :=
  runInstr u p (shapeD u p false false true o) 1 (staBody o) s

def execLdx (u : Agent) (p : Prefix) (o : Operand) (s : State) : Host.Outcome State Fault Refusal :=
  runInstr u p (shapeD u p true true true o) 1 (loadBody 4 o) s

def execLdy (u : Agent) (p : Prefix) (o : Operand) (s : State) : Host.Outcome State Fault Refusal :=
  runInstr u p (shapeD u p true true true o) 1 (loadBody 5 o) s

def execStx (u : Agent) (p : Prefix) (o : Operand) (s : State) : Host.Outcome State Fault Refusal :=
  runInstr u p (shapeD u p false false true o) 1 (fun c r => pure (storeIndexBody r.x o c r)) s

def execSty (u : Agent) (p : Prefix) (o : Operand) (s : State) : Host.Outcome State Fault Refusal :=
  runInstr u p (shapeD u p false false true o) 1 (fun c r => pure (storeIndexBody r.y o c r)) s

def execLdi (u : Agent) (p : Prefix) (o : Operand) (s : State) : Host.Outcome State Fault Refusal :=
  runInstr u p { shapeD u p true true false o with lane := false } 1 (ldiBody o) s

/-- IN; a lane's IN that names no register of its P space stands in no loaded program (R47). -/
def execInp (u : Agent) (p : Prefix) (rd : Fin 32) (pa : BitVec 16) (s : State) : Host.Outcome State Fault Refusal :=
  let sh := shapeP (destReasons u rd) pa
  if Agent.isLane u && !laneInOk pa.toNat && (undefReason u p sh).isNone then .next s
  else runInstr u p sh 1 (inBody rd pa.toNat) s

/-- OUT; a lane's OUT that names no output register stands in no loaded program (R47). -/
def execOut (u : Agent) (p : Prefix) (rs : Fin 32) (pa : BitVec 16) (s : State) : Host.Outcome State Fault Refusal :=
  let sh := shapeP (regReasons u rs.val) pa
  if Agent.isLane u && !laneOutOk pa.toNat && (undefReason u p sh).isNone then .next s
  else runInstr u p sh 1 (outBody rs pa.toNat) s

def execPush (u : Agent) (p : Prefix) (rs : Fin 32) (s : State) : Host.Outcome State Fault Refusal :=
  runInstr u p { len := 2, lane := false, reasons := regReasons u rs.val } 1 (fun c r => pure (pushBody rs c r)) s

def execPop (u : Agent) (p : Prefix) (rd : Fin 32) (s : State) : Host.Outcome State Fault Refusal :=
  runInstr u p { len := 2, lane := false, reasons := destReasons u rd } 1 (popBody rd) s

def execMov (u : Agent) (p : Prefix) (rd : Fin 32) (o : Operand) (s : State) : Host.Outcome State Fault Refusal :=
  let sh := shapeD u p true true false o
  runInstr u p { sh with reasons := sh.reasons ++ destReasons u rd } 1 (movBody rd o) s

end Sys2Proof.Machine
end

