-- ==== Sys2Proof/Machine/Dispatch.lean ====
section
/-! DEFINITION. The one dispatch from a command to its meaning. -/

namespace Sys2Proof.Machine

open Sys2Proof

-- The effect of a command on everything but the queue: one arm per constructor.
def exec (i : Instr) (s : State) : Host.Outcome State Fault Refusal :=
  match i with
  | .nop u p => Sys2Proof.Machine.execNop u p s
  | .lda u p o => Sys2Proof.Machine.execLda u p o s
  | .sta u p o => Sys2Proof.Machine.execSta u p o s
  | .ldx u p o => Sys2Proof.Machine.execLdx u p o s
  | .ldy u p o => Sys2Proof.Machine.execLdy u p o s
  | .stx u p o => Sys2Proof.Machine.execStx u p o s
  | .sty u p o => Sys2Proof.Machine.execSty u p o s
  | .ldi u p o => Sys2Proof.Machine.execLdi u p o s
  | .inp u p rd pa => Sys2Proof.Machine.execInp u p rd pa s
  | .out u p rs pa => Sys2Proof.Machine.execOut u p rs pa s
  | .push u p rs => Sys2Proof.Machine.execPush u p rs s
  | .pop u p rd => Sys2Proof.Machine.execPop u p rd s
  | .mov u p rd o => Sys2Proof.Machine.execMov u p rd o s
  | .add u p o => Sys2Proof.Machine.execAdd u p o s
  | .sub u p o => Sys2Proof.Machine.execSub u p o s
  | .cmp u p o => Sys2Proof.Machine.execCmp u p o s
  | .and u p o => Sys2Proof.Machine.execAnd u p o s
  | .or u p o => Sys2Proof.Machine.execOr u p o s
  | .xor u p o => Sys2Proof.Machine.execXor u p o s
  | .neg u p => Sys2Proof.Machine.execNeg u p s
  | .abs u p => Sys2Proof.Machine.execAbs u p s
  | .div u p o => Sys2Proof.Machine.execDiv u p o s
  | .rnd u p => Sys2Proof.Machine.execRnd u p s
  | .sata u p => Sys2Proof.Machine.execSata u p s
  | .mul u p o => Sys2Proof.Machine.execMul u p o s
  | .mac u p o => Sys2Proof.Machine.execMac u p o s
  | .msu u p o => Sys2Proof.Machine.execMsu u p o s
  | .tap u p => Sys2Proof.Machine.execTap u p s
  | .tapm u p => Sys2Proof.Machine.execTapm u p s
  | .lsl u p n => Sys2Proof.Machine.execLsl u p n s
  | .lsr u p n => Sys2Proof.Machine.execLsr u p n s
  | .asr u p n => Sys2Proof.Machine.execAsr u p n s
  | .rol u p n => Sys2Proof.Machine.execRol u p n s
  | .lslMem u p o n => Sys2Proof.Machine.execLslMem u p o n s
  | .lsrMem u p o n => Sys2Proof.Machine.execLsrMem u p o n s
  | .asrMem u p o n => Sys2Proof.Machine.execAsrMem u p o n s
  | .rolMem u p o n => Sys2Proof.Machine.execRolMem u p o n s
  | .bfx u p pos width => Sys2Proof.Machine.execBfx u p pos width s
  | .bfi u p pos width => Sys2Proof.Machine.execBfi u p pos width s
  | .clz u p => Sys2Proof.Machine.execClz u p s
  | .perm u p sel => Sys2Proof.Machine.execPerm u p sel s
  | .bra u p disp => Sys2Proof.Machine.execBra u p disp s
  | .beq u p disp => Sys2Proof.Machine.execBeq u p disp s
  | .bne u p disp => Sys2Proof.Machine.execBne u p disp s
  | .bmi u p disp => Sys2Proof.Machine.execBmi u p disp s
  | .bpl u p disp => Sys2Proof.Machine.execBpl u p disp s
  | .bvs u p disp => Sys2Proof.Machine.execBvs u p disp s
  | .bvc u p disp => Sys2Proof.Machine.execBvc u p disp s
  | .bc u p disp => Sys2Proof.Machine.execBc u p disp s
  | .bnc u p disp => Sys2Proof.Machine.execBnc u p disp s
  | .bge u p disp => Sys2Proof.Machine.execBge u p disp s
  | .blt u p disp => Sys2Proof.Machine.execBlt u p disp s
  | .bgt u p disp => Sys2Proof.Machine.execBgt u p disp s
  | .ble u p disp => Sys2Proof.Machine.execBle u p disp s
  | .bsr u p disp => Sys2Proof.Machine.execBsr u p disp s
  | .ret u p => Sys2Proof.Machine.execRet u p s
  | .loop u p level o disp => Sys2Proof.Machine.execLoop u p level o disp s
  | .getw u p rd => Sys2Proof.Machine.execGetw u p rd s
  | .rti u p => Sys2Proof.Machine.execRti u p s
  | .halt u p => Sys2Proof.Machine.execHalt u p s
  | .phase u p => Sys2Proof.Machine.execPhase u p s
  | .userOpcode u p idx arg => Sys2Proof.Machine.execUserOpcode u p idx arg s
  | .undefinedOpcode u reason len => Sys2Proof.Machine.execUndefinedOpcode u reason len s
  | .interruptEntry c => Sys2Proof.Machine.execInterruptEntry c s
  | .farAccessPerformed n => Sys2Proof.Machine.execFarAccessPerformed n s
  | .farReadDelivery n => Sys2Proof.Machine.execFarReadDelivery n s
  | .tapmMoveWrite u => Sys2Proof.Machine.execTapmMoveWrite u s
  | .houseTick edge => Sys2Proof.Machine.execHouseTick edge s
  | .inputWordLatch g right words => Sys2Proof.Machine.execInputWordLatch g right words s
  | .busyWindowEnd n => Sys2Proof.Machine.execBusyWindowEnd n s
  | .laneLoadComplete n => Sys2Proof.Machine.execLaneLoadComplete n s
  | .safeRequestForce p n => Sys2Proof.Machine.execSafeRequestForce p n s
  | .safeRequestRelease p n => Sys2Proof.Machine.execSafeRequestRelease p n s
  | .laneEnableWrite p n v => Sys2Proof.Machine.execLaneEnableWrite p n v s
  | .laneClearFaults p n => Sys2Proof.Machine.execLaneClearFaults p n s
  | .laneClearCounters p n => Sys2Proof.Machine.execLaneClearCounters p n s
  | .farGrantWrite p n v => Sys2Proof.Machine.execFarGrantWrite p n v s
  | .objectWrite p index sub data => Sys2Proof.Machine.execObjectWrite p index sub data s
  | .spliceRequestFlipOnly p seq atSlate => Sys2Proof.Machine.execSpliceRequestFlipOnly p seq atSlate s
  | .spliceRequestFlipAndCopy p seq atSlate => Sys2Proof.Machine.execSpliceRequestFlipAndCopy p seq atSlate s
  | .spliceCancel p seq => Sys2Proof.Machine.execSpliceCancel p seq s
  | .spliceCopyWord n => Sys2Proof.Machine.execSpliceCopyWord n s
  | .dtEntryWrite p core k idx entry => Sys2Proof.Machine.execDtEntryWrite p core k idx entry s
  | .dtClear p core k => Sys2Proof.Machine.execDtClear p core k s
  | .portWsEdge g rise edges => Sys2Proof.Machine.execPortWsEdge g rise edges s
  | .outputCapture g right => Sys2Proof.Machine.execOutputCapture g right s
  | .zcTimeout c => Sys2Proof.Machine.execZcTimeout c s
  | .glitchRunEnd g => Sys2Proof.Machine.execGlitchRunEnd g s
  | .waitGoodFrames g => Sys2Proof.Machine.execWaitGoodFrames g s
  | .prerollComplete g => Sys2Proof.Machine.execPrerollComplete g s
  | .clockStopDetected g => Sys2Proof.Machine.execClockStopDetected g s
  | .holdFadeStep g => Sys2Proof.Machine.execHoldFadeStep g s
  | .rateChangeDetected g => Sys2Proof.Machine.execRateChangeDetected g s
  | .relockMeasureComplete g => Sys2Proof.Machine.execRelockMeasureComplete g s
  | .relockComplete g => Sys2Proof.Machine.execRelockComplete g s
  | .portEnableWrite p g v => Sys2Proof.Machine.execPortEnableWrite p g v s
  | .portOffEntry g => Sys2Proof.Machine.execPortOffEntry g s
  | .portTestWrite p g v => Sys2Proof.Machine.execPortTestWrite p g v s
  | .portTestApply g => Sys2Proof.Machine.execPortTestApply g s
  | .portClearFaults p g => Sys2Proof.Machine.execPortClearFaults p g s
  | .portClearCounters p g => Sys2Proof.Machine.execPortClearCounters p g s
  | .streamEnableWrite p g v => Sys2Proof.Machine.execStreamEnableWrite p g v s
  | .outputOperandWrite p op c v => Sys2Proof.Machine.execOutputOperandWrite p op c v s
  | .leaderWrite p v => Sys2Proof.Machine.execLeaderWrite p v s
  | .steerUpdate => Sys2Proof.Machine.execSteerUpdate s
  | .sharedClockCheck g => Sys2Proof.Machine.execSharedClockCheck g s
  | .classEPrefetch => Sys2Proof.Machine.execClassEPrefetch s
  | .classSHandover => Sys2Proof.Machine.execClassSHandover s
  | .cxFwd e => Sys2Proof.Machine.execCxFwd e s
  | .cxInv e => Sys2Proof.Machine.execCxInv e s
  | .cxSmac e => Sys2Proof.Machine.execCxSmac e s
  | .cxTail e => Sys2Proof.Machine.execCxTail e s
  | .asrcConvert v => Sys2Proof.Machine.execAsrcConvert v s
  | .asrcLocked v => Sys2Proof.Machine.execAsrcLocked v s
  | .firingComplete slot rung => Sys2Proof.Machine.execFiringComplete slot rung s
  | .schDone c w => Sys2Proof.Machine.execSchDone c w s
  | .schPost c w => Sys2Proof.Machine.execSchPost c w s
  | .schTake c w => Sys2Proof.Machine.execSchTake c w s
  | .schHoldLimitExpiry slot => Sys2Proof.Machine.execSchHoldLimitExpiry slot s
  | .schClearFaults p => Sys2Proof.Machine.execSchClearFaults p s
  | .schClearCounters p => Sys2Proof.Machine.execSchClearCounters p s
  | .nodeEnableWrite p v => Sys2Proof.Machine.execNodeEnableWrite p v s
  | .nodeClear p => Sys2Proof.Machine.execNodeClear p s
  | .edgeEnableWrite p v => Sys2Proof.Machine.execEdgeEnableWrite p v s
  | .edgeClear p => Sys2Proof.Machine.execEdgeClear p s
  | .rpEnableWrite p r v => Sys2Proof.Machine.execRpEnableWrite p r v s
  | .cpEnableWrite p q v => Sys2Proof.Machine.execCpEnableWrite p q v s
  | .irLoadStart p => Sys2Proof.Machine.execIrLoadStart p s
  | .irLoadComplete => Sys2Proof.Machine.execIrLoadComplete s
  | .asEnableWrite p v on => Sys2Proof.Machine.execAsEnableWrite p v on s
  | .coreHoldReset p c => Sys2Proof.Machine.execCoreHoldReset p c s
  | .coreRelease p c => Sys2Proof.Machine.execCoreRelease p c s
  | .coreClearFaults p c => Sys2Proof.Machine.execCoreClearFaults p c s
  | .coreClearResets p c => Sys2Proof.Machine.execCoreClearResets p c s
  | .ring c w => Sys2Proof.Machine.execRing c w s
  | .iclr c w => Sys2Proof.Machine.execIclr c w s
  | .tcmp c w => Sys2Proof.Machine.execTcmp c w s
  | .timerCompare c => Sys2Proof.Machine.execTimerCompare c s
  | .pgOwnerWrite p g v => Sys2Proof.Machine.execPgOwnerWrite p g v s
  | .pgHandoverComplete g => Sys2Proof.Machine.execPgHandoverComplete g s
  | .pgGroupClearComplete g => Sys2Proof.Machine.execPgGroupClearComplete g s
  | .pgPowerOff p g => Sys2Proof.Machine.execPgPowerOff p g s
  | .pgPowerOn p g => Sys2Proof.Machine.execPgPowerOn p g s
  | .pgPowerRetention p g => Sys2Proof.Machine.execPgPowerRetention p g s
  | .pgPowerTransitionComplete g => Sys2Proof.Machine.execPgPowerTransitionComplete g s
  | .pgClear p g => Sys2Proof.Machine.execPgClear p g s
  | .dramClearComplete => Sys2Proof.Machine.execDramClearComplete s
  | .dmaEnableWrite p ch v => Sys2Proof.Machine.execDmaEnableWrite p ch v s
  | .dmaKick p ch => Sys2Proof.Machine.execDmaKick p ch s
  | .dmaAbort p ch => Sys2Proof.Machine.execDmaAbort p ch s
  | .dmaRestart p ch => Sys2Proof.Machine.execDmaRestart p ch s
  | .dmaSkip p ch => Sys2Proof.Machine.execDmaSkip p ch s
  | .dmaHeadPoll ch => Sys2Proof.Machine.execDmaHeadPoll ch s
  | .dmaReadBeat ch => Sys2Proof.Machine.execDmaReadBeat ch s
  | .dmaWriteBeat ch => Sys2Proof.Machine.execDmaWriteBeat ch s
  | .dmaBeatRetry ch => Sys2Proof.Machine.execDmaBeatRetry ch s
  | .dmaStatusWriteback ch => Sys2Proof.Machine.execDmaStatusWriteback ch s
  | .dmaOwnClear ch => Sys2Proof.Machine.execDmaOwnClear ch s
  | .dmaHeadAdvance ch => Sys2Proof.Machine.execDmaHeadAdvance ch s
  | .dmaAbortSettle ch => Sys2Proof.Machine.execDmaAbortSettle ch s
  | .dmaClearFaults p ch => Sys2Proof.Machine.execDmaClearFaults p ch s
  | .dmaClearCounters p ch => Sys2Proof.Machine.execDmaClearCounters p ch s
  | .usdoDownload client index sub data more => Sys2Proof.Machine.execUsdoDownload client index sub data more s
  | .usdoUpload client index sub => Sys2Proof.Machine.execUsdoUpload client index sub s
  | .usdoIdleTimeout client => Sys2Proof.Machine.execUsdoIdleTimeout client s
  | .rpdoReceive k data => Sys2Proof.Machine.execRpdoReceive k data s
  | .syncReceive counter => Sys2Proof.Machine.execSyncReceive counter s
  | .syncProduce => Sys2Proof.Machine.execSyncProduce s
  | .tpdoValueSample => Sys2Proof.Machine.execTpdoValueSample s
  | .tpdoEventTimer k => Sys2Proof.Machine.execTpdoEventTimer k s
  | .completionTpdoSend => Sys2Proof.Machine.execCompletionTpdoSend s
  | .nmtStartRemoteNode node => Sys2Proof.Machine.execNmtStartRemoteNode node s
  | .nmtStopRemoteNode node => Sys2Proof.Machine.execNmtStopRemoteNode node s
  | .nmtEnterPreOperational node => Sys2Proof.Machine.execNmtEnterPreOperational node s
  | .nmtResetNode node => Sys2Proof.Machine.execNmtResetNode node s
  | .nmtResetCommunication node => Sys2Proof.Machine.execNmtResetCommunication node s
  | .lssSwitchStateGlobal mode => Sys2Proof.Machine.execLssSwitchStateGlobal mode s
  | .lssSwitchStateSelective vendor product revision serial => Sys2Proof.Machine.execLssSwitchStateSelective vendor product revision serial s
  | .lssConfigureNodeId node => Sys2Proof.Machine.execLssConfigureNodeId node s
  | .lssConfigureBitTiming table index => Sys2Proof.Machine.execLssConfigureBitTiming table index s
  | .lssActivateBitTiming delay => Sys2Proof.Machine.execLssActivateBitTiming delay s
  | .lssStoreConfiguration => Sys2Proof.Machine.execLssStoreConfiguration s
  | .lssInquireIdentity cs => Sys2Proof.Machine.execLssInquireIdentity cs s
  | .lssIdentifyRemoteSlave vendor product revLow revHigh serLow serHigh => Sys2Proof.Machine.execLssIdentifyRemoteSlave vendor product revLow revHigh serLow serHigh s
  | .lssIdentifyNonConfiguredSlave => Sys2Proof.Machine.execLssIdentifyNonConfiguredSlave s
  | .emcyTransmit => Sys2Proof.Machine.execEmcyTransmit s
  | .heartbeatProduce => Sys2Proof.Machine.execHeartbeatProduce s
  | .heartbeatReceive node => Sys2Proof.Machine.execHeartbeatReceive node s
  | .heartbeatTimeout idx => Sys2Proof.Machine.execHeartbeatTimeout idx s
  | .busOff => Sys2Proof.Machine.execBusOff s
  | .busOffRecovery => Sys2Proof.Machine.execBusOffRecovery s
  | .errorPassive => Sys2Proof.Machine.execErrorPassive s
  | .errorFieldClear p => Sys2Proof.Machine.execErrorFieldClear p s
  | .softResetCommand p => Sys2Proof.Machine.execSoftResetCommand p s
  | .handleCancelWrite p h => Sys2Proof.Machine.execHandleCancelWrite p h s
  | .hvTailWrite p v => Sys2Proof.Machine.execHvTailWrite p v s
  | .storeParameters p sub => Sys2Proof.Machine.execStoreParameters p sub s
  | .storeComplete ok => Sys2Proof.Machine.execStoreComplete ok s
  | .restoreDefaults p sub => Sys2Proof.Machine.execRestoreDefaults p sub s
  | .restoreComplete => Sys2Proof.Machine.execRestoreComplete s
  | .readWin f => Sys2Proof.Machine.execReadWin f s
  | .writeWin f => Sys2Proof.Machine.execWriteWin f s
  | .readMem f => Sys2Proof.Machine.execReadMem f s
  | .writeMem f => Sys2Proof.Machine.execWriteMem f s
  | .odRead f => Sys2Proof.Machine.execOdRead f s
  | .odWrite f => Sys2Proof.Machine.execOdWrite f s
  | .odFetch f => Sys2Proof.Machine.execOdFetch f s
  | .harvest f => Sys2Proof.Machine.execHarvest f s
  | .status f => Sys2Proof.Machine.execStatus f s
  | .writeGuarded f => Sys2Proof.Machine.execWriteGuarded f s
  | .uaminWriteLanded => Sys2Proof.Machine.execUaminWriteLanded s
  | .odRequestComplete => Sys2Proof.Machine.execOdRequestComplete s
  | .ulIrqPendClear w => Sys2Proof.Machine.execUlIrqPendClear w s
  | .cdcEntryAppend p entry => Sys2Proof.Machine.execCdcEntryAppend p entry s
  | .codecEntryStart => Sys2Proof.Machine.execCodecEntryStart s
  | .codecWordComplete rx => Sys2Proof.Machine.execCodecWordComplete rx s
  | .cdcFlushQueue p => Sys2Proof.Machine.execCdcFlushQueue p s
  | .cdcEmptyReply p => Sys2Proof.Machine.execCdcEmptyReply p s
  | .cdcFlushBoth p => Sys2Proof.Machine.execCdcFlushBoth p s
  | .cdcRxWordRead p => Sys2Proof.Machine.execCdcRxWordRead p s
  | .cdcRxBlockRead p => Sys2Proof.Machine.execCdcRxBlockRead p s
  | .pllUnlock idx => Sys2Proof.Machine.execPllUnlock idx s
  | .pllLockHeld idx => Sys2Proof.Machine.execPllLockHeld idx s
  | .counterWrap => Sys2Proof.Machine.execCounterWrap s
  | .vinWarning mv => Sys2Proof.Machine.execVinWarning mv s
  | .vinRecovery mv => Sys2Proof.Machine.execVinRecovery mv s
  | .vinHigh mv => Sys2Proof.Machine.execVinHigh mv s
  | .coreRailWarning mv => Sys2Proof.Machine.execCoreRailWarning mv s
  | .coreRailRecovery mv => Sys2Proof.Machine.execCoreRailRecovery mv s
  | .holdSafeEnd => Sys2Proof.Machine.execHoldSafeEnd s
  | .pwrRequestNap p => Sys2Proof.Machine.execPwrRequestNap p s
  | .pwrRequestDormant p => Sys2Proof.Machine.execPwrRequestDormant p s
  | .napEntryComplete => Sys2Proof.Machine.execNapEntryComplete s
  | .wakeEvent sources => Sys2Proof.Machine.execWakeEvent sources s
  | .wakeTimerExpiry => Sys2Proof.Machine.execWakeTimerExpiry s
  | .serviceNHoldWake => Sys2Proof.Machine.execServiceNHoldWake s
  | .wakeComplete => Sys2Proof.Machine.execWakeComplete s
  | .por boot => Sys2Proof.Machine.execPor boot s
  | .bor => Sys2Proof.Machine.execBor s
  | .pinReset => Sys2Proof.Machine.execPinReset s
  | .resetProper boot => Sys2Proof.Machine.execResetProper boot s
  | .bootFirmwareStart bootTime => Sys2Proof.Machine.execBootFirmwareStart bootTime s
  | .recoveryPoll => Sys2Proof.Machine.execRecoveryPoll s
  | .rcvProgram => Sys2Proof.Machine.execRcvProgram s
  | .rcvEnd boot => Sys2Proof.Machine.execRcvEnd boot s
  | .rcvProgramComplete => Sys2Proof.Machine.execRcvProgramComplete s
  | .showLoadSlot p idx => Sys2Proof.Machine.execShowLoadSlot p idx s
  | .showLoadSource p => Sys2Proof.Machine.execShowLoadSource p s
  | .showSlotWrite p idx => Sys2Proof.Machine.execShowSlotWrite p idx s
  | .showLoadComplete => Sys2Proof.Machine.execShowLoadComplete s
  | .showSlotWriteComplete => Sys2Proof.Machine.execShowSlotWriteComplete s
  | .fltClearWrite p code => Sys2Proof.Machine.execFltClearWrite p code s
  | .junctionWarning t0 t1 => Sys2Proof.Machine.execJunctionWarning t0 t1 s
  | .sensorImplausible t0 t1 => Sys2Proof.Machine.execSensorImplausible t0 t1 s
  | .watchdogRestart => Sys2Proof.Machine.execWatchdogRestart s
  | .watchdogExpiry => Sys2Proof.Machine.execWatchdogExpiry s
  | .supGraceExpiry c => Sys2Proof.Machine.execSupGraceExpiry c s
  | .supEngineLimitExpiry e => Sys2Proof.Machine.execSupEngineLimitExpiry e s
  | .supRevokeClear p g => Sys2Proof.Machine.execSupRevokeClear p g s
  | .supRevokeKeep p g => Sys2Proof.Machine.execSupRevokeKeep p g s
  | .supAbortDma p ch => Sys2Proof.Machine.execSupAbortDma p ch s
  | .supResetCore p c => Sys2Proof.Machine.execSupResetCore p c s
  | .supResetEngine p e => Sys2Proof.Machine.execSupResetEngine p e s
  | .supForceSafe p n => Sys2Proof.Machine.execSupForceSafe p n s
  | .supReleaseSafe p n => Sys2Proof.Machine.execSupReleaseSafe p n s
  | .supCancelHandle p h => Sys2Proof.Machine.execSupCancelHandle p h s
  | .custKeyWrite p idx key => Sys2Proof.Machine.execCustKeyWrite p idx key s
  | .showQuorumWrite p v => Sys2Proof.Machine.execShowQuorumWrite p v s
  | .fullErase p => Sys2Proof.Machine.execFullErase p s
  | .fullEraseComplete => Sys2Proof.Machine.execFullEraseComplete s
  | .attNonceWrite p nonce => Sys2Proof.Machine.execAttNonceWrite p nonce s
  | .attestationComplete => Sys2Proof.Machine.execAttestationComplete s
  | .dbgTokenWrite p token => Sys2Proof.Machine.execDbgTokenWrite p token s
  | .dbgLockWrite p => Sys2Proof.Machine.execDbgLockWrite p s
  | .vfyStart p => Sys2Proof.Machine.execVfyStart p s
  | .vfyComplete => Sys2Proof.Machine.execVfyComplete s
  | .extest => Sys2Proof.Machine.execExtest s
  | .samplePreload => Sys2Proof.Machine.execSamplePreload s
  | .idcode => Sys2Proof.Machine.execIdcode s
  | .bypass code => Sys2Proof.Machine.execBypass code s
  | .dbgCore => Sys2Proof.Machine.execDbgCore s
  | .dbgFabric => Sys2Proof.Machine.execDbgFabric s
  | .dbgTrace => Sys2Proof.Machine.execDbgTrace s
  | .tapReset => Sys2Proof.Machine.execTapReset s
  | .meterUpdate => Sys2Proof.Machine.execMeterUpdate s
  | .levelUpdate => Sys2Proof.Machine.execLevelUpdate s
  | .toneChannelWrite p v => Sys2Proof.Machine.execToneChannelWrite p v s
  | .toneSwitch => Sys2Proof.Machine.execToneSwitch s
  | .serviceNRise => Sys2Proof.Machine.execServiceNRise s
  | .bistPanMarch p => Sys2Proof.Machine.execBistPanMarch p s
  | .bistDram p => Sys2Proof.Machine.execBistDram p s
  | .bistLaneSelfTest p => Sys2Proof.Machine.execBistLaneSelfTest p s
  | .bistCrystallizerAsrc p => Sys2Proof.Machine.execBistCrystallizerAsrc p s
  | .bistPortInternalLoopback p => Sys2Proof.Machine.execBistPortInternalLoopback p s
  | .bistPortExternalLoopback p => Sys2Proof.Machine.execBistPortExternalLoopback p s
  | .bistCanLoopback p => Sys2Proof.Machine.execBistCanLoopback p s
  | .bistRefSteeringRange p => Sys2Proof.Machine.execBistRefSteeringRange p s
  | .bistTemperatureSensors p => Sys2Proof.Machine.execBistTemperatureSensors p s
  | .bistComplete failDetail => Sys2Proof.Machine.execBistComplete failDetail s
  | .conInfo => Sys2Proof.Machine.execConInfo s
  | .conSt => Sys2Proof.Machine.execConSt s
  | .conRd index sub => Sys2Proof.Machine.execConRd index sub s
  | .conWr index sub value => Sys2Proof.Machine.execConWr index sub value s
  | .conLog n => Sys2Proof.Machine.execConLog n s
  | .conClr code => Sys2Proof.Machine.execConClr code s
  | .conMeter mode channel => Sys2Proof.Machine.execConMeter mode channel s
  | .conLvl channel => Sys2Proof.Machine.execConLvl channel s
  | .conLvlReport => Sys2Proof.Machine.execConLvlReport s
  | .conTone channel hz dbfs => Sys2Proof.Machine.execConTone channel hz dbfs s
  | .conToneOff => Sys2Proof.Machine.execConToneOff s
  | .conBist test arg => Sys2Proof.Machine.execConBist test arg s
  | .conBistQuery => Sys2Proof.Machine.execConBistQuery s
  | .conReset => Sys2Proof.Machine.execConReset s
  | .conBadLine tooLong => Sys2Proof.Machine.execConBadLine tooLong s
  | .gpEdge k level => Sys2Proof.Machine.execGpEdge k level s
  | .gpEdgeClr p w => Sys2Proof.Machine.execGpEdgeClr p w s
  | .vinMinReset p => Sys2Proof.Machine.execVinMinReset p s
  | .holdCountClear p => Sys2Proof.Machine.execHoldCountClear p s
  | .reservedCommandFrame cmd f => Sys2Proof.Machine.execReservedCommandFrame cmd f s
  | .pinResetRelease boot => Sys2Proof.Machine.execPinResetRelease boot s
  | .currentLimit => Sys2Proof.Machine.execCurrentLimit s
  | .powerStageRestart boot => Sys2Proof.Machine.execPowerStageRestart boot s
  | .junctionCooled t0 t1 => Sys2Proof.Machine.execJunctionCooled t0 t1 s
  | .tpdoInhibitTimeExpiry k => Sys2Proof.Machine.execTpdoInhibitTimeExpiry k s
  | .consoleCharacter ch => Sys2Proof.Machine.execConsoleCharacter ch s

end Sys2Proof.Machine
end

