-- ==== Sys2Proof/Machine/Idle.lean ====
section
/-! DEFINITION. What time alone does, where no command waits. -/

namespace Sys2Proof.Machine

/-- A tick of the system counter passes (R342): clears of pan groups go on (R260), the codec port starts the next word of its entry
(R336), and values that TPDOs of type 0 map are looked at (R296). -/
def idle (s : State) : State := watchTpdos (nextWord (tick s))

end Sys2Proof.Machine
end

