-- ==== Sys2Proof/WellFormed.lean ====
section
/-! DEFINITION. Which commands the outside can send: operand fields that fit their encodings and frames that carry the data
their header announces. exec is total on the others too. -/

namespace Sys2Proof

/-- An operand fits its descriptor and extension bytes (R75, R76); WIDE gives an immediate four bytes (R80). -/
def Operand.fits (wide : Bool) : Operand → Bool
  | .imm size _ raw => wide || (match size with
    | .b8 => decide (raw.toNat < 2 ^ 8)
    | .b16 => decide (raw.toNat < 2 ^ 16)
    | .b24 => decide (raw.toNat < 2 ^ 24))
  | .dir long addr => long || decide (addr.toNat < 2 ^ 16)
  | .reg _ | .idx _ _ _ | .spr _ => true

/-- A branch displacement is 16 bits, sign-extended; four bytes under WIDE (R80, R83). -/
def dispFits (p : Prefix) (disp : Word) : Bool := p.wide || disp == (disp.setWidth 16).signExtend 32

/-- The operands of a user opcode fit (R135). -/
def UserArg.fits (wide : Bool) : UserArg → Bool
  | .desc o => o.fits wide
  | .none | .byte _ => true

/-- A frame carries the data words its header announces, and no more read words are ready than it asks for (R318, R328). -/
def Frame.fits (f : Frame) : Bool :=
  f.data.length == f.len.toNat && decide (f.dummy < 2 ^ 63) && decide (f.ready ≤ f.len.toNat)

/-- The REASON codes of an undefined instruction are 0x01 to 0x0E (R88), and it has a byte at least. -/
def undefinedFits (reason : Byte) (len : Fin 16) : Bool :=
  decide (1 ≤ reason.toNat) && decide (reason.toNat ≤ 0x0E) && len.val != 0

/-- A command that the outside can send. -/
def Instr.wellFormed : Instr → Bool
  | .lda _ p o | .sta _ p o | .ldx _ p o | .ldy _ p o | .stx _ p o | .sty _ p o | .ldi _ p o | .mov _ p _ o
  | .add _ p o | .sub _ p o | .cmp _ p o | .and _ p o | .or _ p o | .xor _ p o | .div _ p o
  | .mul _ p o | .mac _ p o | .msu _ p o
  | .lslMem _ p o _ | .lsrMem _ p o _ | .asrMem _ p o _ | .rolMem _ p o _ | .loop _ p _ o _ => o.fits p.wide
  | .bra _ p d | .beq _ p d | .bne _ p d | .bmi _ p d | .bpl _ p d | .bvs _ p d | .bvc _ p d | .bc _ p d | .bnc _ p d
  | .bge _ p d | .blt _ p d | .bgt _ p d | .ble _ p d | .bsr _ p d => dispFits p d
  | .userOpcode _ p _ arg => arg.fits p.wide
  | .undefinedOpcode _ reason len => undefinedFits reason len
  | .inputWordLatch _ _ words => words.length == 0 || words.length == 8
  | .rpdoReceive _ data => decide (data.length ≤ 64)
  | .usdoDownload client _ _ _ _ | .usdoUpload client _ _ | .usdoIdleTimeout client =>
    decide (1 ≤ client.toNat) && decide (client.toNat ≤ 127)
  | .syncReceive (some c) => decide (1 ≤ c.toNat) && decide (c.toNat ≤ 240)
  | .nmtStartRemoteNode n | .nmtStopRemoteNode n | .nmtEnterPreOperational n | .nmtResetNode n
  | .nmtResetCommunication n => decide (n.toNat ≤ 127)
  | .heartbeatReceive n => decide (1 ≤ n.toNat) && decide (n.toNat ≤ 127)
  | .readWin f | .writeWin f | .readMem f | .writeMem f | .odRead f | .odWrite f | .odFetch f | .harvest f | .status f
  | .writeGuarded f => f.fits
  | .reservedCommandFrame cmd f => f.fits && (cmd == 0 || decide (0x0B ≤ cmd.toNat) || decide (f.bits < 8))
  | .conLog n => decide (1 ≤ n) && decide (n ≤ 64)
  | _ => true

end Sys2Proof
end

