-- ==== Sys2Proof/Safety.lean ====
section
/-! DEFINITION. What a safe run is: the queue holds commands that the outside can send, the memory and the sparse maps of the
state are in their canonical form, and a step ends in a next state. -/

namespace Sys2Proof.Machine

/-- The keys of a sparse map rise strictly. -/
def rising {α : Type} : Map α → Bool
  | [] => true
  | [_] => true
  | x :: y :: m => decide (x.1 < y.1) && rising (y :: m)

/-- The memory and every map of the state are in canonical form: keys rise, and where the value an absent key reads as is one for
all keys, no entry holds it. -/
def State.tidy (s : State) : Bool :=
  Memory.wf s.mem && rising s.od && Map.wf {} s.answers && Map.wf {} s.lanes && Map.wf {} s.cores && Map.wf 0 s.oc &&
    Map.wf {} s.inCh && rising s.outCh && Map.wf {} s.ports && Map.wf {} s.nodes && Map.wf {} s.edges && Map.wf {} s.paths &&
    Map.wf {} s.convs && Map.wf {} s.pans && Map.wf {} s.dma && Map.wf 0 s.gens && rising s.records &&
    rising s.faultLog && Map.wf {} s.rings && rising s.flash.fw && rising s.flash.shows && rising s.flash.setA &&
    rising s.flash.setB && rising s.snapshot && rising s.slotImages && Map.wf 0 s.dramErr

/-- Every command that waits is one that the outside can send. -/
def QueueFits (s : State) : Prop := ∀ c ∈ s.pending, c.wellFormed = true

/-- The invariant that every step keeps. -/
def Inv (s : State) : Prop := QueueFits s ∧ s.tidy = true

/-- A step that goes on. -/
def Goes (s : State) : Prop := ∃ t, step s = .next t

/-- A command answers a next state, of which `P` holds. -/
def Does (c : Instr) (s : State) (P : State → Prop) : Prop := ∃ t, exec c s = .next t ∧ P t

end Sys2Proof.Machine
end

