-- ==== Sys2Proof/Certificates/Slice0/Obligations.lean ====
section
/-! DEFINITION. The statements. Each names the rules of spec/ it states; OBLIGATIONS.json lists them. -/

namespace Sys2Proof.Claims

open Sys2Proof.Machine

/-! What the statements about instructions have in common. -/

/-- A control core runs an instruction of shape `sh`: it runs, the bytes are implemented, the form is defined, no REP; no move of
TAPM is owed and loop ends are off. -/
def CoreTakes (s : State) (c : Fin 8) (p : Prefix) (sh : Shape) : Prop :=
  s.tidy = true ∧ coreRuns s c.val = true ∧ undefReason (.core c) p sh = none ∧ p.rep = none ∧
    iImplemented (s.core c.val).regs.pc.toNat = true ∧
    iImplemented ((s.core c.val).regs.pc.toNat + decodedLen p sh - 1) = true ∧
    (s.core c.val).moves = [] ∧ ictlLpe (s.core c.val) = false

/-- What a core instruction runs under. -/
def coreCx (s : State) (c : Fin 8) (p : Prefix) : Cx :=
  ⟨.core c, p, (s.core c.val).count, saturates (.core c) p (s.core c.val).regs⟩

/-- A core has run an instruction of `len` bytes: the load owed by the one before has landed (R85), then the registers and F
are written, PC stands past it, and a load may be owed. -/
def coreDone (c : Fin 8) (len : Nat) (upd : Regs → Regs) (fl : FlagSet) (load : Option Load) (s : State) : State :=
  let x := s.core c.val
  let r := upd (landUnder false fl x.delayed x.regs)
  s.setCore c.val { x with
    regs := { r with f := fl.apply r.f, pc := x.regs.pc + BitVec.ofNat 20 len }
    delayed := load, count := x.count + 256, noIrq := load.isSome }

/-- A lane runs an instruction of shape `sh` in a take: the form is defined, no REP, no far access and no move under way. -/
def LaneTakes (s : State) (n : Fin 64) (p : Prefix) (sh : Shape) : Prop :=
  s.tidy = true ∧ laneRuns s n.val = true ∧ undefReason (.lane n) p sh = none ∧ p.rep = none ∧
    (s.lane n.val).far = [] ∧ (s.lane n.val).moves = []

/-- What a lane instruction runs under: its start slot, always saturating (R87). -/
def laneCx (s : State) (n : Fin 64) (p : Prefix) : Cx := ⟨.lane n, p, (s.lane n.val).regs.pc.toNat, true⟩

/-- A lane has run an instruction of `cost` slots, as `coreDone`; a take that saturates is counted once
(R56). -/
def laneDone (n : Fin 64) (cost : Nat) (upd : Regs → Regs) (fl : FlagSet) (load : Option Load) (s : State) : State :=
  let l := s.lane n.val
  let r := upd (landUnder true fl l.delayed l.regs)
  let t := s.setLane n.val { l with
    regs := { r with f := fl.apply r.f, pc := BitVec.ofNat 20 (l.regs.pc.toNat + cost) }
    delayed := load, satTaken := l.satTaken || fl.sv }
  if fl.sv && !l.satTaken then t.inc (Obj.satTakes n.val) else t

/-- What reading operands and making writes leave of a core: a fault on the way may pend an interrupt source, no more. -/
def SameCore (s s' : State) (c : Fin 8) : Prop :=
  s'.tidy = true ∧ (s'.core c.val).regs = (s.core c.val).regs ∧ (s'.core c.val).delayed = (s.core c.val).delayed ∧
    (s'.core c.val).moves = [] ∧ (s'.core c.val).ictl = (s.core c.val).ictl ∧ (s'.core c.val).count = (s.core c.val).count

/-- What reading operands leaves of a lane: a fault on the way may ask for SAFE, no more. -/
def SameLane (s s' : State) (n : Fin 64) : Prop :=
  s'.tidy = true ∧ (s'.lane n.val).regs = (s.lane n.val).regs ∧ (s'.lane n.val).delayed = (s.lane n.val).delayed ∧
    (s'.lane n.val).moves = [] ∧ (s'.lane n.val).far = []

/-- The instructions that compute A from A and an operand word: slots on a lane, and the result and flags of A and w. -/
def accOp : Instr → Option (Agent × Prefix × Operand × Nat × (Bool → Acc → Word → Acc × FlagSet))
  | .add u p o => some (u, p, o, 1, aluAdd)
  | .sub u p o => some (u, p, o, 1, aluSub)
  | .and u p o => some (u, p, o, 1, fun _ a w => (extAcc (accH a &&& w), wordFlags (accH a &&& w) false))
  | .or u p o => some (u, p, o, 1, fun _ a w => (extAcc (accH a ||| w), wordFlags (accH a ||| w) false))
  | .xor u p o => some (u, p, o, 1, fun _ a w => (extAcc (accH a ^^^ w), wordFlags (accH a ^^^ w) false))
  | .div u p o => some (u, p, o, 17, fun sat a w => (extAcc (aluDiv sat (accH a) w).1, (aluDiv sat (accH a) w).2))
  | _ => none

/-- All of A is written. -/
def whole (r : Acc × FlagSet) : (Acc → Acc) × FlagSet := (fun _ => r.1, r.2)

/-- The instructions that compute A from A alone, with their shapes: of A, what they write to A as they find it, and the flags.
SATA writes A where it clamps, BFI all but A.L. -/
def ownOp : Instr → Option (Agent × Prefix × Shape × (Bool → Acc → (Acc → Acc) × FlagSet))
  | .neg u p => some (u, p, { len := 1 }, fun sat a => whole (extAcc (aluNeg sat (accH a)).1, (aluNeg sat (accH a)).2))
  | .abs u p => some (u, p, { len := 1 }, fun sat a => whole (extAcc (aluAbs sat (accH a)).1, (aluAbs sat (accH a)).2))
  | .rnd u p => some (u, p, { len := 1 }, fun sat a => whole (aluRnd sat a))
  | .sata u p => some (u, p, { len := 1 }, fun _ a => (fun t => if (aluSata a).2.sv then (aluSata a).1 else t, (aluSata a).2))
  | .lsl u p n => some (u, p, { len := 2, reasons := countReasons n }, fun _ a => whole (shiftA .lsl n.toNat a))
  | .lsr u p n => some (u, p, { len := 2, reasons := countReasons n }, fun _ a => whole (shiftA .lsr n.toNat a))
  | .asr u p n => some (u, p, { len := 2, reasons := countReasons n }, fun _ a => whole (shiftA .asr n.toNat a))
  | .rol u p n => some (u, p, { len := 2, reasons := countReasons n }, fun _ a => whole (shiftA .rol n.toNat a))
  | .bfx u p pos w => some (u, p, shapeF pos w, fun _ a =>
      let x := bfxWord (accH a) pos.toNat (w.toNat + 1)
      whole (extAcc x, wordFlags x false))
  | .bfi u p pos w => some (u, p, shapeF pos w, fun _ a =>
      let x := bfiWord (accH a) (accL a) pos.toNat (w.toNat + 1)
      (fun t => putL (extAcc x) (accL t), wordFlags x false))
  | .clz u p => some (u, p, { len := 1 }, fun _ a =>
      let x := BitVec.ofNat 32 (clzWord (accH a))
      whole (extAcc x, wordFlags x false))
  | .perm u p sel => some (u, p, { len := 2 }, fun _ a => whole (extAcc (permWord (accH a) sel), wordFlags (permWord (accH a) sel) false))
  | _ => none

/-- The delayed loads of an operand word, with the register each loads. -/
def loadOp : Instr → Option (Agent × Prefix × Operand × Fin 32)
  | .lda u p o => some (u, p, o, 0)
  | .ldx u p o => some (u, p, o, 4)
  | .ldy u p o => some (u, p, o, 5)
  | _ => none

/-- The stores of a register to a D operand: the word, and whether its read of A saturated. -/
def storeOp : Instr → Option (Agent × Prefix × Operand × (Bool → Regs → Word × Bool))
  | .sta u p o => some (u, p, o, fun sat r => wordView sat r.a)
  | .stx u p o => some (u, p, o, fun _ r => (r.x.zeroExtend 32, false))
  | .sty u p o => some (u, p, o, fun _ r => (r.y.zeroExtend 32, false))
  | _ => none

/-- The shifts of a memory word. -/
def shiftMemOp : Instr → Option (Agent × Prefix × Operand × Byte × Shift)
  | .lslMem u p o n => some (u, p, o, n, .lsl)
  | .lsrMem u p o n => some (u, p, o, n, .lsr)
  | .asrMem u p o n => some (u, p, o, n, .asr)
  | .rolMem u p o n => some (u, p, o, n, .rol)
  | _ => none

/-- The shape of a memory shift. -/
def shiftMemShape (u : Agent) (p : Prefix) (o : Operand) (n : Byte) : Shape :=
  let sh := shapeD u { p with wide := false } false false true o
  { sh with len := sh.len + 1, reasons := sh.reasons ++ countReasons n }

/-- The multiplications of an operand word and D[X]: what they keep of A, and the sign. -/
def mulOp : Instr → Option (Agent × Prefix × Operand × Int × Int)
  | .mul u p o => some (u, p, o, 0, 1)
  | .mac u p o => some (u, p, o, 1, 1)
  | .msu u p o => some (u, p, o, 1, -1)
  | _ => none

/-- The branches, with their condition codes. -/
def branchOp : Instr → Option (Agent × Prefix × Word × Nat)
  | .bra u p d => some (u, p, d, 0)
  | .beq u p d => some (u, p, d, 1)
  | .bne u p d => some (u, p, d, 2)
  | .bmi u p d => some (u, p, d, 3)
  | .bpl u p d => some (u, p, d, 4)
  | .bvs u p d => some (u, p, d, 5)
  | .bvc u p d => some (u, p, d, 6)
  | .bc u p d => some (u, p, d, 7)
  | .bnc u p d => some (u, p, d, 8)
  | .bge u p d => some (u, p, d, 9)
  | .blt u p d => some (u, p, d, 10)
  | .bgt u p d => some (u, p, d, 11)
  | .ble u p d => some (u, p, d, 12)
  | _ => none

/-- The words that a core's store writes are in D space the core may write: their fabric addresses. -/
def coreStores (s : State) (c : Fin 8) (ws : List (DAddr × Word)) : Except Nat (List (Nat × Word)) :=
  ws.mapM fun x => (coreAddr s c.val true x.1).map fun f => (f, x.2)

/-- A core makes its writes: a guarded pair in one access, else word by word (R78, R127), but for the words that its firing may no
longer write (R215, R225). -/
def coreWrites (c : Fin 8) (guard : Bool) (fs : List (Nat × Word)) (s : State) : State :=
  if guard then coreWrite c.val fs s else forList fs (fun x => coreWrite c.val [x]) s

/-- The instructions that read an operand word first. -/
def readOp (i : Instr) : Option (Agent × Prefix × Operand) :=
  ((accOp i).map fun x => (x.1, x.2.1, x.2.2.1)) <|> ((loadOp i).map fun x => (x.1, x.2.1, x.2.2.1))

/-- The shapes of the instructions of the tables above. -/
def formOf (i : Instr) : Option (Agent × Prefix × Shape) :=
  ((readOp i).map fun x => (x.1, x.2.1, shapeD x.1 x.2.1 true true true x.2.2)) <|>
  ((mulOp i).map fun x => (x.1, x.2.1, shapeD x.1 x.2.1 true true true x.2.2.1)) <|>
  ((ownOp i).map fun x => (x.1, x.2.1, x.2.2.1)) <|>
  ((storeOp i).map fun x => (x.1, x.2.1, shapeD x.1 x.2.1 false false true x.2.2.1)) <|>
  ((shiftMemOp i).map fun x => (x.1, x.2.1, shiftMemShape x.1 x.2.1 x.2.2.1 x.2.2.2.1)) <|>
  ((branchOp i).map fun x => (x.1, x.2.1, shapeB x.1 x.2.1 x.2.2.1))

/-- One repetition of an operation on A: A, F, and whether one saturated. -/
def repOwn (g : Acc → (Acc → Acc) × FlagSet) (x : Acc × BitVec 16 × Bool) : Acc × BitVec 16 × Bool :=
  ((g x.1).1 x.1, (g x.1).2.apply x.2.1, x.2.2 || (g x.1).2.sv)

/-- One repetition of TAP on lane `n` over its reel pan. -/
def repTap (s : State) (n : Fin 64) (x : Regs × Bool) : Regs × Bool :=
  let word := fun a : DAddr => s.memWord (n.val * 0x40000 + 4 * a.toNat)
  let r := aluMac true x.1.a.toInt 1 (word x.1.x) (word x.1.y)
  ({ x.1 with a := r.1, f := r.2.apply x.1.f, x := stepX x.1 x.1.ox.toInt, y := stepY x.1 x.1.oy.toInt }, x.2 || r.2.sv)

/-- The shape of LOOP (R82, R83, R104). -/
def loopShape (p : Prefix) (o : Operand) (disp : BitVec 16) : Shape :=
  let sh := shapeD (.core 0) { p with wide := false } true true false o
  { sh with len := sh.len + 2, wide := false, rep := false, lane := false
            reasons := sh.reasons ++ (if disp.msb then [0x07] else []) }

/-- The shape of BSR. -/
def bsrShape (p : Prefix) : Shape := { len := if p.wide then 5 else 3, wide := true, rep := false, lane := false }

/-- The shape of the one-byte control instructions of a core. -/
def soloShape : Shape := { len := 1, rep := false, lane := false }

/-- `coreDone` with PC elsewhere. -/
def coreTo (c : Fin 8) (pc : BitVec 20) (upd : Regs → Regs) (s : State) : State :=
  let x := s.core c.val
  let r := upd (landLoad false x.delayed x.regs)
  s.setCore c.val { x with regs := { r with pc := pc }, delayed := none, count := x.count + 256, noIrq := false }

/-- What a core's OUT leaves of the core's registers. -/
def SameRegs (s s' : State) (c : Fin 8) : Prop :=
  s'.tidy = true ∧ (s'.core c.val).regs = (s.core c.val).regs ∧ (s'.core c.val).delayed = (s.core c.val).delayed ∧
    (s'.core c.val).moves = [] ∧ ictlLpe (s'.core c.val) = false ∧ (s'.core c.val).count = (s.core c.val).count

/-- A core stands where it may take a vector: no exception is in progress, and the entry of vector `v` is implemented (R243). -/
def VectorOpen (s : State) (c : Fin 8) (v : Nat) : Prop :=
  s.tidy = true ∧ ictlExc (s.core c.val) = false ∧ iImplemented ((s.core c.val).vbase.toNat + 4 * v) = true ∧
    iImplemented ((s.core c.val).vbase.toNat + 4 * v + 3) = true

/-- A core has taken vector `v` (R243): EPC and ESR hold the return address and the cause, EF the flags, ICTL says EXC with GIE and
LPE kept, and PC comes from the vector entry. -/
def TookVector (s t : State) (c : Fin 8) (v reason len done : Nat) (epc : BitVec 20) (f : BitVec 16) : Prop :=
  let x := s.core c.val
  let y := t.core c.val
  y.regs.epc = epc ∧ y.regs.esr = BitVec.ofNat 32 (done * 0x1000000 + reason * 0x10000 + len * 0x100 + v) ∧
    y.ef = f ∧ y.regs.f = f ∧ y.regs.pc = (iWord s c.val (x.vbase.toNat + 4 * v)).truncate 20 ∧
    y.ictl = BitVec.ofNat 5 (0x10 + (if ictlLpe x then 8 else 0) + (if ictlGie x then 2 else 0))

/-- The operand and the byte that the operand bytes of a user opcode give (R135). -/
def ArgOf (arg : UserArg) (o : Operand) (w : Word) : Prop :=
  arg = .none ∧ o = .reg 0 ∧ w = 0 ∨ arg = .desc o ∧ w = 0 ∨ ∃ b : Byte, arg = .byte b ∧ o = .reg 0 ∧ w = b.zeroExtend 32

/-- No request of the link waits in the dictionary server's queue (R289). -/
abbrev NoneWaits (s : State) : Prop := s.link.reqState ≠ 1 ∨ s.link.odServed = true

/-- The dictionary server runs, nothing waits before it, and no built-in test runs. -/
def Ready (s : State) : Prop := s.tidy = true ∧ served s = true ∧ s.service.bist = none ∧ NoneWaits s

/-- The last access of a path succeeded. -/
def Accepted (p : Path) (t : State) : Prop := (t.answers.get {} (pathCode p)).abort = 0

/-- A write that is accepted, after which `P` holds. -/
def Writes (c : Instr) (p : Path) (s : State) (P : State → Prop) : Prop := Does c s fun t => Accepted p t ∧ P t

end Sys2Proof.Claims


open Sys2Proof Sys2Proof.Machine Sys2Proof.Claims

/-! ## Instructions -/

/-- R96, R100, R101, R97 on a control core: ADD, SUB, AND, OR, XOR and DIV with every operand form, guarded or not: A takes the
result, the index register of the operand steps, F follows the instruction, and nothing else changes. A division by zero under
the trap enable of F is in `TrapsAndFaults`. -/
def Sys2Proof.Claims.AluOnCore : Prop :=
  ∀ (i : Instr) (c : Fin 8) (p : Prefix) (o : Operand) (k : Nat) (f : Bool → Acc → Word → Acc × FlagSet) (s s' : State)
    (w : Word) (ov : Bool),
    accOp i = some (.core c, p, o, k, f) →
    CoreTakes s c p (shapeD (.core c) p true true true o) →
    (operand (coreCx s c p) (s.core c.val).regs o).run s = .ok ((w, ov), s') →
    SameCore s s' c →
    let x := s.core c.val
    let r := f (coreCx s c p).sat x.regs.a w
    (r.2.dz = true → x.regs.f.getLsbD 9 = false) →
    exec i s = .next (coreDone c (decodedLen p (shapeD (.core c) p true true true o))
      (fun t => { postMod x.regs o t with a := r.1 }) (r.2.withRead ov) none s')

/-- R96, R100, R101, R97 on a lane: as on a core; DIV takes 17 slots. -/
def Sys2Proof.Claims.AluOnLane : Prop :=
  ∀ (i : Instr) (n : Fin 64) (p : Prefix) (o : Operand) (k : Nat) (f : Bool → Acc → Word → Acc × FlagSet) (s s' : State)
    (w : Word) (ov : Bool),
    accOp i = some (.lane n, p, o, k, f) →
    LaneTakes s n p (shapeD (.lane n) p true true true o) →
    (operand (laneCx s n p) (s.lane n.val).regs o).run s = .ok ((w, ov), s') →
    SameLane s s' n →
    let x := s.lane n.val
    let r := f true x.regs.a w
    exec i s = .next (laneDone n k (fun t => { postMod x.regs o t with a := r.1 }) (r.2.withRead ov) none s')

/-- R96, R100, R102, R103: NEG, ABS, RND, SATA, the shifts and rotate of A, BFX, BFI, CLZ and PERM on a core and on a lane. -/
def Sys2Proof.Claims.OwnOps : Prop :=
  (∀ (i : Instr) (c : Fin 8) (p : Prefix) (sh : Shape) (f : Bool → Acc → (Acc → Acc) × FlagSet) (s : State),
    ownOp i = some (.core c, p, sh, f) → CoreTakes s c p sh →
    let r := f (coreCx s c p).sat (s.core c.val).regs.a
    exec i s = .next (coreDone c (decodedLen p sh) (fun t => { t with a := r.1 t.a }) r.2 none s)) ∧
  (∀ (i : Instr) (n : Fin 64) (p : Prefix) (sh : Shape) (f : Bool → Acc → (Acc → Acc) × FlagSet) (s : State),
    ownOp i = some (.lane n, p, sh, f) → LaneTakes s n p sh →
    let r := f true (s.lane n.val).regs.a
    exec i s = .next (laneDone n 1 (fun t => { t with a := r.1 t.a }) r.2 none s))

/-- R81 and R89: under REP an operation on A runs its count plus one times, each on what the one before left, in as many slots on a
lane; TAP under REP on a lane runs down two arrays of its reel pan. -/
def Sys2Proof.Claims.Repetitions : Prop :=
  (∀ (i : Instr) (c : Fin 8) (p : Prefix) (b : Byte) (sh : Shape) (f : Bool → Acc → (Acc → Acc) × FlagSet) (s : State),
    ownOp i = some (.core c, p, sh, f) → p.rep = some b → s.tidy = true → coreRuns s c.val = true →
    undefReason (.core c) p sh = none → iImplemented (s.core c.val).regs.pc.toNat = true →
    iImplemented ((s.core c.val).regs.pc.toNat + decodedLen p sh - 1) = true →
    (s.core c.val).moves = [] → ictlLpe (s.core c.val) = false → (s.core c.val).delayed = none →
    let x := s.core c.val
    let y := Nat.repeat (repOwn (f (coreCx s c p).sat)) (b.toNat + 1) (x.regs.a, x.regs.f, false)
    exec i s = .next (coreDone c (decodedLen p sh) (fun t => { t with a := y.1, f := y.2.1 }) {} none s)) ∧
  (∀ (i : Instr) (n : Fin 64) (p : Prefix) (b : Byte) (sh : Shape) (f : Bool → Acc → (Acc → Acc) × FlagSet) (s : State),
    ownOp i = some (.lane n, p, sh, f) → p.rep = some b → s.tidy = true → laneRuns s n.val = true →
    undefReason (.lane n) p sh = none → (s.lane n.val).far = [] → (s.lane n.val).moves = [] → (s.lane n.val).delayed = none →
    let l := s.lane n.val
    let y := Nat.repeat (repOwn (f true)) (b.toNat + 1) (l.regs.a, l.regs.f, false)
    exec i s = .next (laneDone n (b.toNat + 1) (fun t => { t with a := y.1, f := y.2.1 }) { sv := y.2.2 } none s)) ∧
  (∀ (n : Fin 64) (p : Prefix) (b : Byte) (s : State), p.rep = some b → p.guard = false → s.tidy = true → laneRuns s n.val = true →
    undefReason (.lane n) p { len := 1, guard := true } = none →
    (s.lane n.val).far = [] → (s.lane n.val).moves = [] → (s.lane n.val).delayed = none →
    let at' := fun k : Nat => Nat.repeat (repTap s n) k ((s.lane n.val).regs, false)
    (∀ k ≤ b.toNat, (at' k).1.x.toNat < 0x8000 ∧ (at' k).1.y.toNat < 0x8000) →
    ∃ t, exec (.tap (.lane n) p) s = .next t ∧ t.mem = s.mem ∧
      (t.lane n.val).regs = { (at' (b.toNat + 1)).1 with
        pc := BitVec.ofNat 20 ((s.lane n.val).regs.pc.toNat + b.toNat + 1) } ∧
      (t.lane n.val).satTaken = ((s.lane n.val).satTaken || (at' (b.toNat + 1)).2))

/-- R95 and R96: CMP writes flags only, and no SV but that of its read of A; NOP changes nothing but PC. -/
def Sys2Proof.Claims.CompareAndNop : Prop :=
  (∀ (c : Fin 8) (p : Prefix) (o : Operand) (s s' : State) (w : Word) (ov : Bool),
    CoreTakes s c p (shapeD (.core c) p true true true o) →
    (operand (coreCx s c p) (s.core c.val).regs o).run s = .ok ((w, ov), s') → SameCore s s' c →
    exec (.cmp (.core c) p o) s = .next (coreDone c (decodedLen p (shapeD (.core c) p true true true o))
      (postMod (s.core c.val).regs o) ((aluCmp (s.core c.val).regs.a w).withRead ov) none s')) ∧
  (∀ (n : Fin 64) (p : Prefix) (o : Operand) (s s' : State) (w : Word) (ov : Bool),
    LaneTakes s n p (shapeD (.lane n) p true true true o) →
    (operand (laneCx s n p) (s.lane n.val).regs o).run s = .ok ((w, ov), s') → SameLane s s' n →
    exec (.cmp (.lane n) p o) s = .next (laneDone n 1
      (postMod (s.lane n.val).regs o) ((aluCmp (s.lane n.val).regs.a w).withRead ov) none s')) ∧
  (∀ (c : Fin 8) (p : Prefix) (s : State), CoreTakes s c p { len := 1 } →
    exec (.nop (.core c) p) s = .next (coreDone c (decodedLen p { len := 1 }) id {} none s)) ∧
  (∀ (n : Fin 64) (p : Prefix) (s : State), LaneTakes s n p { len := 1 } →
    exec (.nop (.lane n) p) s = .next (laneDone n 1 id {} none s))

/-- R85 and R95: LDA, LDX and LDY leave the operand word owed to their register, to land after the next instruction has read. A far
operand of a lane is in `FarAccess`. -/
def Obligations.Loads : Prop :=
  (∀ (i : Instr) (c : Fin 8) (p : Prefix) (o : Operand) (d : Fin 32) (s s' : State) (w : Word) (ov : Bool),
    loadOp i = some (.core c, p, o, d) → CoreTakes s c p (shapeD (.core c) p true true true o) →
    (operand (coreCx s c p) (s.core c.val).regs o).run s = .ok ((w, ov), s') → SameCore s s' c →
    exec i s = .next (coreDone c (decodedLen p (shapeD (.core c) p true true true o))
      (postMod (s.core c.val).regs o) (viewFlags ov) (some ⟨d, w⟩) s')) ∧
  (∀ (i : Instr) (n : Fin 64) (p : Prefix) (o : Operand) (d : Fin 32) (s s' : State) (w : Word) (ov : Bool),
    loadOp i = some (.lane n, p, o, d) → LaneTakes s n p (shapeD (.lane n) p true true true o) →
    farOperand (laneCx s n p) (s.lane n.val).regs o = none →
    (operand (laneCx s n p) (s.lane n.val).regs o).run s = .ok ((w, ov), s') → SameLane s s' n →
    exec i s = .next (laneDone n 1 (postMod (s.lane n.val).regs o) (viewFlags ov) (some ⟨d, w⟩) s'))

/-- R78, R91, R95 and R127 on a control core: STA, STX and STY write the word at the operand's address, and its complement where
guarded; then the index register steps. -/
def Sys2Proof.Claims.StoresOnCore : Prop :=
  ∀ (i : Instr) (c : Fin 8) (p : Prefix) (o : Operand) (f : Bool → Regs → Word × Bool) (s : State) (fs : List (Nat × Word)),
    storeOp i = some (.core c, p, o, f) → CoreTakes s c p (shapeD (.core c) p false false true o) →
    let x := s.core c.val
    let w := f (coreCx s c p).sat x.regs
    coreStores s c (storeTo (coreCx s c p) x.regs o w.1) = .ok fs →
    SameCore s (coreWrites c p.guard fs s) c →
    exec i s = .next (coreDone c (decodedLen p (shapeD (.core c) p false false true o)) (postMod x.regs o) (viewFlags w.2) none
      (coreWrites c p.guard fs s))

/-- R91 and R95 on a lane: STA, STX and STY without GUARD write the word through the lane's D space, unless STA's address is far. -/
def Sys2Proof.Claims.StoresOnLane : Prop :=
  ∀ (i : Instr) (n : Fin 64) (p : Prefix) (o : Operand) (f : Bool → Regs → Word × Bool) (s : State) (ea ea' : DAddr),
    storeOp i = some (.lane n, p, o, f) → LaneTakes s n p (shapeD (.lane n) p false false true o) →
    effAddr (s.lane n.val).regs o = some (ea, ea') → isFar ea = false → isXch ea = false → ea.toNat < 0xA000 →
    let x := s.lane n.val
    let w := f true x.regs
    p.guard = false →
    exec i s = .next (laneDone n 1 (postMod x.regs o) (viewFlags w.2) none
      (laneWrite n.val x.regs.pc.toNat ea w.1 false s))

/-- R103: LSL, LSR, ASR and ROL of a memory word shift it in place, on a core and on a lane. -/
def Obligations.MemoryShifts : Prop :=
  (∀ (i : Instr) (c : Fin 8) (p : Prefix) (o : Operand) (n : Byte) (k : Shift) (s s' : State) (w : Word) (ov : Bool)
    (fs : List (Nat × Word)),
    shiftMemOp i = some (.core c, p, o, n, k) → CoreTakes s c p (shiftMemShape (.core c) p o n) →
    let x := s.core c.val
    (operand (coreCx s c p) x.regs o).run s = .ok ((w, ov), s') →
    let r := shiftBits k w n.toNat
    coreStores s' c (storeTo (coreCx s c p) x.regs o r.1) = .ok fs →
    SameCore s (coreWrites c p.guard fs s') c →
    exec i s = .next (coreDone c (decodedLen p (shiftMemShape (.core c) p o n)) (postMod x.regs o)
      (shiftFlags r.1 r.2.1 r.2.2) none (coreWrites c p.guard fs s'))) ∧
  (∀ (i : Instr) (l : Fin 64) (p : Prefix) (o : Operand) (n : Byte) (k : Shift) (s : State) (ea ea' : DAddr) (w : Word) (ov : Bool),
    shiftMemOp i = some (.lane l, p, o, n, k) → LaneTakes s l p (shiftMemShape (.lane l) p o n) →
    let x := s.lane l.val
    effAddr x.regs o = some (ea, ea') → ea.toNat < 0xA000 → p.guard = false →
    (operand (laneCx s l p) x.regs o).run s = .ok ((w, ov), s) →
    let r := shiftBits k w n.toNat
    exec i s = .next (laneDone l 1 (postMod x.regs o) (shiftFlags r.1 r.2.1 r.2.2) none
      (laneWrite l.val x.regs.pc.toNat ea r.1 false s)))

/-- R92, R96 and R97: MUL, MAC and MSU form twice the product of the operand word and D[X], exactly, on what they keep of A. -/
def Obligations.Multiplies : Prop :=
  (∀ (i : Instr) (c : Fin 8) (p : Prefix) (o : Operand) (keep sign : Int) (s s' : State) (w d : Word) (ov : Bool),
    mulOp i = some (.core c, p, o, keep, sign) → CoreTakes s c p (shapeD (.core c) p true true true o) →
    let x := s.core c.val
    (factors (coreCx s c p) x.regs o).run s = .ok (((w, ov), d), s') → SameCore s s' c →
    let r := toAcc (coreCx s c p).sat (keep * x.regs.a.toInt + sign * 2 * w.toInt * d.toInt)
    exec i s = .next (coreDone c (decodedLen p (shapeD (.core c) p true true true o)) (fun t => { postMod x.regs o t with a := r.1 })
      ({ z := some (r.1 == 0), n := some r.1.msb, c := some false, v := some (r.2 || ov), sv := r.2 || ov }) none s')) ∧
  (∀ (i : Instr) (n : Fin 64) (p : Prefix) (o : Operand) (keep sign : Int) (s s' : State) (w d : Word) (ov : Bool),
    mulOp i = some (.lane n, p, o, keep, sign) → LaneTakes s n p (shapeD (.lane n) p true true true o) →
    let x := s.lane n.val
    (factors (laneCx s n p) x.regs o).run s = .ok (((w, ov), d), s') → SameLane s s' n →
    let r := toAcc true (keep * x.regs.a.toInt + sign * 2 * w.toInt * d.toInt)
    exec i s = .next (laneDone n 1 (fun t => { postMod x.regs o t with a := r.1 })
      ({ z := some (r.1 == 0), n := some r.1.msb, c := some false, v := some (r.2 || ov), sv := r.2 || ov }) none s'))

/-- R92, R98 and R99: TAP accumulates twice D[X] times D[Y] and steps X by OX and Y by OY; TAPM does the same and owes the word of
D[Y] to the stepped Y; the move that is owed lands by TAPM_MOVE_WRITE, through the D space of its lane or core. -/
def Obligations.Taps : Prop :=
  (∀ (c : Fin 8) (p : Prefix) (s s' : State) (a b : Word), CoreTakes s c p { len := 1, guard := true } →
    let x := s.core c.val
    (tapFactors (coreCx s c p) x.regs).run s = .ok ((a, b), s') → SameCore s s' c →
    let r := aluMac (coreCx s c p).sat x.regs.a.toInt 1 a b
    let upd := fun t : Regs => { t with a := r.1, x := stepX x.regs x.regs.ox.toInt, y := stepY x.regs x.regs.oy.toInt }
    exec (.tap (.core c) p) s = .next (coreDone c (decodedLen p { len := 1, guard := true }) upd r.2 none s')) ∧
  (∀ (c : Fin 8) (p : Prefix) (s s' : State) (a b : Word) (f : Nat), CoreTakes s c p { len := 1, guard := true } →
    let x := s.core c.val
    let y' := stepY x.regs x.regs.oy.toInt
    (tapFactors (coreCx s c p) x.regs).run s = .ok ((a, b), s') → SameCore s s' c → coreAddr s' c.val true y' = .ok f →
    let r := aluMac (coreCx s c p).sat x.regs.a.toInt 1 a b
    let t := coreDone c (decodedLen p { len := 1, guard := true })
      (fun t => { t with a := r.1, x := stepX x.regs x.regs.ox.toInt, y := y' }) r.2 none s'
    exec (.tapm (.core c) p) s =
      .next (t.setCore c.val { t.core c.val with moves := [⟨x.count + 1, y', b⟩], noIrq := true })) ∧
  (∀ (n : Fin 64) (p : Prefix) (s s' : State) (a b : Word), LaneTakes s n p { len := 1, guard := true } →
    let x := s.lane n.val
    (tapFactors (laneCx s n p) x.regs).run s = .ok ((a, b), s') → SameLane s s' n →
    let r := aluMac true x.regs.a.toInt 1 a b
    let upd := fun t : Regs => { t with a := r.1, x := stepX x.regs x.regs.ox.toInt, y := stepY x.regs x.regs.oy.toInt }
    exec (.tap (.lane n) p) s = .next (laneDone n 1 upd r.2 none s')) ∧
  (∀ (n : Fin 64) (p : Prefix) (s s' : State) (a b : Word), LaneTakes s n p { len := 1, guard := true } →
    let x := s.lane n.val
    let y' := stepY x.regs x.regs.oy.toInt
    (tapFactors (laneCx s n p) x.regs).run s = .ok ((a, b), s') → SameLane s s' n → isFar y' = false →
    let r := aluMac true x.regs.a.toInt 1 a b
    let t := laneDone n 1 (fun t => { t with a := r.1, x := stepX x.regs x.regs.ox.toInt, y := y' }) r.2 none s'
    exec (.tapm (.lane n) p) s =
      .next (t.setLane n.val { t.lane n.val with moves := [⟨x.regs.pc.toNat + 1, y', b⟩] })) ∧
  (∀ (n : Fin 64) (p : Prefix) (s s' : State) (a b : Word), LaneTakes s n p { len := 1, guard := true } →
    let x := s.lane n.val
    let y' := stepY x.regs x.regs.oy.toInt
    (tapFactors (laneCx s n p) x.regs).run s = .ok ((a, b), s') → SameLane s s' n → isFar y' = true →
    let r := aluMac true x.regs.a.toInt 1 a b
    let upd := fun t : Regs => { t with a := r.1, x := stepX x.regs x.regs.ox.toInt, y := y' }
    exec (.tapm (.lane n) p) s =
      .next (laneDone n 1 upd r.2 none (laneFault n.val 3 (laneCx s n p).slot s'))) ∧
  (∀ (n : Fin 64) (s : State) (m : Move), s.tidy = true → (s.lane n.val).moves = [m] →
    exec (.tapmMoveWrite (.lane n)) s =
      .next (laneWrite n.val m.due m.addr m.value false (s.setLane n.val { s.lane n.val with moves := [] }))) ∧
  (∀ (n : Fin 64) (s : State) (m : Move), s.tidy = true → (s.lane n.val).moves = [m] → m.addr.toNat < 0x8000 →
    Does (.tapmMoveWrite (.lane n)) s fun t =>
      (t.lane n.val).moves = [] ∧ t.memWord (n.val * 0x40000 + 4 * m.addr.toNat) = m.value) ∧
  (∀ (c : Fin 8) (s : State) (m : Move) (f : Nat), s.tidy = true → (s.core c.val).moves = [m] →
    coreAddr s c.val true m.addr = .ok f →
    exec (.tapmMoveWrite (.core c)) s =
      .next (coreWrite c.val [(f, m.value)] (s.setCore c.val { s.core c.val with moves := [] })))

/-- R34, R82 and R104: a branch whose condition holds on F as it stood goes to the next instruction's address plus the displacement;
on a lane it goes to that instruction's start slot. Otherwise the next instruction follows. -/
def Sys2Proof.Claims.Branches : Prop :=
  (∀ (i : Instr) (c : Fin 8) (p : Prefix) (d : Word) (k : Nat) (s : State),
    branchOp i = some (.core c, p, d, k) → CoreTakes s c p (shapeB (.core c) p d) →
    let x := s.core c.val
    let len := decodedLen p (shapeB (.core c) p d)
    exec i s = .next (if condHolds x.regs.f k = true then coreTo c (x.regs.pc + BitVec.ofNat 20 len + (dispOf p d).truncate 20) id s
      else coreDone c len id {} none s)) ∧
  (∀ (i : Instr) (n : Fin 64) (p : Prefix) (d : Word) (k : Nat) (s : State),
    branchOp i = some (.lane n, p, d, k) → LaneTakes s n p (shapeB (.lane n) p d) →
    let l := s.lane n.val
    let len := decodedLen p (shapeB (.lane n) p d)
    exec i s = .next (if condHolds l.regs.f k = true then lanePc n.val (laneTarget l len (dispOf p d)) (laneDone n 1 id {} none s)
      else laneDone n 1 id {} none s))

/-- R104 and R245 on a core: BSR pushes the next address and jumps; RET pops PC; LOOP sets LS, LE and LC of its level. None changes
F. -/
def Sys2Proof.Claims.CallsAndLoops : Prop :=
  (∀ (c : Fin 8) (p : Prefix) (d : Word) (s : State) (f : Nat), CoreTakes s c p (bsrShape p) →
    let x := s.core c.val
    let next := x.regs.pc + BitVec.ofNat 20 (decodedLen p (bsrShape p))
    coreAddr s c.val true (x.regs.sp - 1) = .ok f →
    let s' := coreWrite c.val [(f, next.zeroExtend 32)] s
    SameCore s s' c →
    exec (.bsr (.core c) p d) s = .next (coreTo c (next + (dispOf p d).truncate 20) (fun t => { t with sp := x.regs.sp - 1 }) s')) ∧
  (∀ (c : Fin 8) (p : Prefix) (s : State) (f : Nat), CoreTakes s c p soloShape →
    let x := s.core c.val
    coreAddr s c.val false x.regs.sp = .ok f →
    let s' := noteReads (0x10 + c.val) [(f, 4)] s
    SameCore s s' c →
    exec (.ret (.core c) p) s = .next (coreTo c ((fabRead s f).truncate 20) (fun t => { t with sp := x.regs.sp + 1 }) s')) ∧
  (∀ (c : Fin 8) (p : Prefix) (k : Fin 4) (o : Operand) (disp : BitVec 16) (s s' : State) (w : Word) (ov : Bool),
    CoreTakes s c p (loopShape p o disp) →
    let x := s.core c.val
    let next := x.regs.pc + BitVec.ofNat 20 (decodedLen p (loopShape p o disp))
    (operand (coreCx s c p) x.regs o).run s = .ok ((w, ov), s') → SameCore s s' c →
    exec (.loop (.core c) p k o disp) s = .next (coreDone c (decodedLen p (loopShape p o disp)) (fun t => { t with
      ls := t.ls.set k.val next, le := t.le.set k.val (next + disp.zeroExtend 20), lc := t.lc.set k.val w }) {} none s'))

/-- R65, R70 and R95: MOV writes a register from its operand; PUSH and POP use the stack at SP; LDI loads a word of I space. -/
def Obligations.MovesAndStack : Prop :=
  (∀ (c : Fin 8) (p : Prefix) (rd : Fin 32) (o : Operand) (s s' : State) (w : Word) (ov : Bool),
    let sh := shapeD (.core c) p true true false o
    let sh := { sh with reasons := sh.reasons ++ destReasons (.core c) rd }
    CoreTakes s c p sh → (operand (coreCx s c p) (s.core c.val).regs o).run s = .ok ((w, ov), s') → SameCore s s' c →
    exec (.mov (.core c) p rd o) s = .next (coreDone c (decodedLen p sh) (writeReg false rd.val w) (viewFlags ov) none s')) ∧
  (∀ (n : Fin 64) (p : Prefix) (rd : Fin 32) (o : Operand) (s s' : State) (w : Word) (ov : Bool),
    let sh := shapeD (.lane n) p true true false o
    let sh := { sh with reasons := sh.reasons ++ destReasons (.lane n) rd }
    LaneTakes s n p sh → (operand (laneCx s n p) (s.lane n.val).regs o).run s = .ok ((w, ov), s') → SameLane s s' n →
    exec (.mov (.lane n) p rd o) s = .next (laneDone n 1 (writeReg true rd.val w) (viewFlags ov) none s')) ∧
  (∀ (c : Fin 8) (p : Prefix) (rs : Fin 32) (s : State) (f : Nat),
    let sh : Shape := { len := 2, lane := false, reasons := regReasons (.core c) rs.val }
    CoreTakes s c p sh →
    let x := s.core c.val
    let w := readReg (coreCx s c p).sat x.regs rs.val
    coreAddr s c.val true (x.regs.sp - 1) = .ok f →
    let s' := coreWrite c.val [(f, w.1)] s
    SameCore s s' c →
    exec (.push (.core c) p rs) s = .next (coreDone c (decodedLen p sh) (fun t => { t with sp := x.regs.sp - 1 }) (viewFlags w.2) none s')) ∧
  (∀ (c : Fin 8) (p : Prefix) (rd : Fin 32) (s : State) (f : Nat),
    let sh : Shape := { len := 2, lane := false, reasons := destReasons (.core c) rd }
    CoreTakes s c p sh →
    let x := s.core c.val
    coreAddr s c.val false x.regs.sp = .ok f →
    let s' := noteReads (0x10 + c.val) [(f, 4)] s
    SameCore s s' c →
    exec (.pop (.core c) p rd) s = .next (coreDone c (decodedLen p sh)
      (fun t => writeReg false rd.val (fabRead s f) { t with sp := x.regs.sp + 1 }) {} none s')) ∧
  (∀ (c : Fin 8) (p : Prefix) (o : Operand) (s s' : State) (w : Word) (ov : Bool),
    let sh := { shapeD (.core c) p true true false o with lane := false }
    CoreTakes s c p sh → (operand (coreCx s c p) (s.core c.val).regs o).run s = .ok ((w, ov), s') → SameCore s s' c →
    let a := (w &&& 0xFFFFC).toNat
    iImplemented a = true →
    exec (.ldi (.core c) p o) s = .next (coreDone c (decodedLen p sh) id (viewFlags ov) (some ⟨0, iWord s c.val a⟩) s'))

/-- R47, R48 and R72: IN owes the word of a P register to its destination; OUT writes a register's word to a P register. -/
def Obligations.PortMoves : Prop :=
  (∀ (c : Fin 8) (p : Prefix) (rd : Fin 32) (pa : BitVec 16) (s s' : State) (w : Word),
    let sh := shapeP (destReasons (.core c) rd) pa
    CoreTakes s c p sh → (coreIn c.val pa.toNat).run s = .ok (w, s') → SameCore s s' c →
    exec (.inp (.core c) p rd pa) s = .next (coreDone c (decodedLen p sh) id {} (some ⟨rd, w⟩) s')) ∧
  (∀ (n : Fin 64) (p : Prefix) (rd : Fin 32) (pa : BitVec 16) (s : State),
    LaneTakes s n p (shapeP (destReasons (.lane n) rd) pa) → laneInOk pa.toNat = true →
    exec (.inp (.lane n) p rd pa) s = .next (laneDone n 1 id {} (some ⟨rd, laneIn s n.val pa.toNat⟩) s)) ∧
  (∀ (c : Fin 8) (p : Prefix) (rs : Fin 32) (pa : BitVec 16) (s s' : State),
    let sh := shapeP (regReasons (.core c) rs.val) pa
    let w := readReg (coreCx s c p).sat (s.core c.val).regs rs.val
    CoreTakes s c p sh → (coreOut c.val pa.toNat w.1).run s = .ok ((), s') → SameRegs s s' c →
    exec (.out (.core c) p rs pa) s = .next (coreDone c (decodedLen p sh) id (viewFlags w.2) none s')) ∧
  (∀ (n : Fin 64) (p : Prefix) (rs : Fin 32) (pa : BitVec 16) (s : State),
    LaneTakes s n p (shapeP (regReasons (.lane n) rs.val) pa) → laneOutOk pa.toNat = true →
    let w := readReg true (s.lane n.val).regs rs.val
    exec (.out (.lane n) p rs pa) s = .next (laneDone n 1 id (viewFlags w.2) none (writeOC (pa.toNat - 0x80) w.1 s)))

/-- R37, R218, R238, R244 and R246: HALT stops a core; RTI restores PC, F and the enables; GETW blocks the core at its PC; PHASE
carries a lane to the first slot after its phase. -/
def Obligations.CoreControl : Prop :=
  (∀ (c : Fin 8) (p : Prefix) (s : State), CoreTakes s c p soloShape →
    exec (.halt (.core c) p) s = .next (coreDone c (decodedLen p soloShape) id {} none (s.wr (Obj.coreState c.val) 3))) ∧
  (∀ (c : Fin 8) (p : Prefix) (s : State), CoreTakes s c p soloShape →
    let x := s.core c.val
    Does (.rti (.core c) p) s fun t =>
      (t.core c.val).regs.pc = x.regs.epc ∧ (t.core c.val).regs.f = x.ef ∧ ictlExc (t.core c.val) = false ∧
      ictlGie (t.core c.val) = x.ictl.getLsbD 1 ∧ ictlLpe (t.core c.val) = x.ictl.getLsbD 3 ∧
      { t with cores := s.cores } = s) ∧
  (∀ (c : Fin 8) (p : Prefix) (rd : Fin 32) (s : State),
    CoreTakes s c p { len := 2, rep := false, lane := false, reasons := regReasons (.core c) rd.val } → heldFiring s c.val = none →
    Does (.getw (.core c) p rd) s fun t =>
      t.rd (Obj.coreState c.val) = 2 ∧ (t.core c.val).regs.pc = (s.core c.val).regs.pc ∧ (t.core c.val).getwReg = rd ∧
      (t.core c.val).waitSince = s.waitSeq ∧ t.mem = s.mem) ∧
  (∀ (n : Fin 64) (p : Prefix) (s : State), LaneTakes s n p { len := 1, rep := false, core := false } →
    let g := laneGroup s n.val
    let slot := (s.lane n.val).regs.pc.toNat
    exec (.phase (.lane n) p) s = .next (laneDone n (phaseEnd s g slot - slot) id {} none s))

/-- R135, R139, R141 and R143: a programmed user opcode runs the steps of its entry; A, X and Y are written where the entry writes
them, and F only where its FLAGS bit says so. -/
def Obligations.UserOpcodes : Prop :=
  (∀ (c : Fin 8) (p : Prefix) (i : Fin 16) (arg : UserArg) (o : Operand) (w : Word) (s s' : State) (x : UserSt)
    (ws : List (DAddr × Word)),
    let e := s.rd (dtOf (.core c) i.val)
    argFits e arg = true → ArgOf arg o w →
    CoreTakes s c p (userShape (.core c) p e arg) →
    let r := (s.core c.val).regs
    (runSteps (coreCx s c p) o w (dtForm e) (stepsOf (dtUops e) []) { r := r } []).run s = .ok ((x, ws), s') → SameCore s s' c →
    let idx := if dtForm e = 1 then postMod x.r o x.r else x.r
    exec (.userOpcode (.core c) p i arg) s = .next (coreDone c (decodedLen p (userShape (.core c) p e arg)) (fun t => { t with
        a := if x.wroteA then x.r.a else t.a
        x := if movesIndex false e o then idx.x else t.x
        y := if movesIndex true e o then idx.y else t.y })
      { (if dtFlags e then x.fl else {}) with sv := x.sv } none s')) ∧
  (∀ (n : Fin 64) (p : Prefix) (i : Fin 16) (arg : UserArg) (o : Operand) (w : Word) (s s' : State) (x : UserSt)
    (ws : List (DAddr × Word)),
    let e := s.rd (dtOf (.lane n) i.val)
    argFits e arg = true → ArgOf arg o w → LaneTakes s n p (userShape (.lane n) p e arg) →
    let r := (s.lane n.val).regs
    (runSteps (laneCx s n p) o w (dtForm e) (stepsOf (dtUops e) []) { r := r } []).run s = .ok ((x, ws), s') →
    s'.tidy = true → (s'.lane n.val).delayed = (s.lane n.val).delayed → (s'.lane n.val).moves = [] → (s'.lane n.val).far = [] →
    (s'.lane n.val).regs.pc = r.pc →
    let idx := if dtForm e = 1 then postMod x.r o x.r else x.r
    exec (.userOpcode (.lane n) p i arg) s = .next (laneDone n (dtCost e) (fun t => { t with
        a := if x.wroteA then x.r.a else t.a
        x := if movesIndex false e o then idx.x else t.x
        y := if movesIndex true e o then idx.y else t.y })
      { (if dtFlags e then x.fl else {}) with sv := x.sv } none s'))

/-- R12, R67, R88, R241 and R243: an undefined instruction takes vector 2 on a core, with its reason and length in ESR, and passes in
one slot on a lane, which sets UD, counts it and notes its first slot; an interrupt entry takes the vector that is due, at the
next instruction, and clears its pending bit. -/
def Sys2Proof.Claims.TrapsAndInterrupts : Prop :=
  (∀ (c : Fin 8) (reason : Byte) (len : Fin 16) (s : State), coreRuns s c.val = true → VectorOpen s c 2 →
    (s.core c.val).moves = [] → (s.core c.val).delayed = none →
    iImplemented (s.core c.val).regs.pc.toNat = true → iImplemented ((s.core c.val).regs.pc.toNat + len.val - 1) = true →
    Does (.undefinedOpcode (.core c) reason len) s fun t =>
      TookVector s t c 2 reason.toNat len.val 0 (s.core c.val).regs.pc (s.core c.val).regs.f ∧ t.mem = s.mem ∧
      (t.core c.val).regs.a = (s.core c.val).regs.a) ∧
  (∀ (n : Fin 64) (reason : Byte) (len : Fin 16) (s : State), s.tidy = true → laneRuns s n.val = true →
    (s.lane n.val).far = [] → (s.lane n.val).moves = [] → (s.lane n.val).delayed = none →
    s.rd (Obj.udCount n.val) < 0xFFFFFFFF →
    Does (.undefinedOpcode (.lane n) reason len) s fun t =>
      (t.lane n.val).regs.pc = (s.lane n.val).regs.pc + 1 ∧ (t.lane n.val).regs.f = putF (s.lane n.val).regs.f 6 true ∧
      t.rd (Obj.udCount n.val) = s.rd (Obj.udCount n.val) + 1 ∧ (t.rd (Obj.laneFaults n.val)).testBit 1 = true ∧
      ((s.rd (Obj.laneFaults n.val)).testBit 1 = false → t.rd (Obj.firstUdSlot n.val) = (s.lane n.val).regs.pc.toNat) ∧
      t.mem = s.mem) ∧
  (∀ (c : Fin 8) (v : Nat) (s : State), VectorOpen s c v → nextVector c.val s = some v →
    Does (.interruptEntry c) s fun t =>
      TookVector s t c v 0 0 0 (s.core c.val).regs.pc (s.core c.val).regs.f ∧ t.rd (Obj.coreState c.val) = 1 ∧
      (if v = 1 then (t.core c.val).notice = false else (t.core c.val).ipend.getLsbD (v - 8) = false) ∧ t.mem = s.mem)

/-- R12, R67, R74, R84, R88, R101 and R243: a form that R84 finds undefined acts as an undefined opcode with its reason and length;
on a core an operand that faults takes vector 3 before anything is written, an access that the fabric holds back waits, and a
division by zero with the trap enabled takes vector 4 after its result. -/
def Sys2Proof.Claims.UndefinedFormsAndFaults : Prop :=
  (∀ (i : Instr) (u : Agent) (p : Prefix) (sh : Shape) (r : Nat) (s : State),
    formOf i = some (u, p, sh) → undefReason u p sh = some r →
    exec i s = exec (.undefinedOpcode u (BitVec.ofNat 8 r) (Fin.ofNat 16 (decodedLen p sh))) s) ∧
  (∀ (i : Instr) (c : Fin 8) (p : Prefix) (o : Operand) (r : Nat) (s s' : State),
    readOp i = some (.core c, p, o) → CoreTakes s c p (shapeD (.core c) p true true true o) →
    (operand (coreCx s c p) (s.core c.val).regs o).run s = .error (r, s') → (s.core c.val).delayed = none →
    (r = 0 → exec i s = .next s) ∧
    (r ≠ 0 → SameCore s s' c → VectorOpen s' c 3 → Does i s fun t =>
      TookVector s' t c 3 r (decodedLen p (shapeD (.core c) p true true true o)) 0 (s.core c.val).regs.pc (s.core c.val).regs.f ∧
      (t.core c.val).regs.a = (s.core c.val).regs.a ∧ (t.core c.val).regs.x = (s.core c.val).regs.x ∧ t.mem = s'.mem)) ∧
  (∀ (c : Fin 8) (p : Prefix) (o : Operand) (s s' : State) (ov : Bool),
    let sh := shapeD (.core c) p true true true o
    CoreTakes s c p sh → (operand (coreCx s c p) (s.core c.val).regs o).run s = .ok ((0, ov), s') → SameCore s s' c →
    (s.core c.val).delayed = none → (s.core c.val).regs.f.getLsbD 9 = true → VectorOpen s' c 4 →
    let x := s.core c.val
    let r := aluDiv (coreCx s c p).sat (accH x.regs.a) 0
    Does (.div (.core c) p o) s fun t =>
      TookVector s' t c 4 0 (decodedLen p sh) 0 (x.regs.pc + BitVec.ofNat 20 (decodedLen p sh)) ((r.2.withRead ov).apply x.regs.f) ∧
      (t.core c.val).regs.a = extAcc r.1 ∧ t.mem = s'.mem)

/-- R44, R45, R46 and R73: a far load of a granted group with a place free is queued at its slot; its access reads the shared pan,
a refused one zero, and that of a far store writes it; the delivery writes the register. -/
def Obligations.FarAccess : Prop :=
  (∀ (n : Fin 64) (p : Prefix) (o : Operand) (s : State) (ea ea' : DAddr),
    LaneTakes s n p (shapeD (.lane n) p true true true o) → p.guard = false →
    let l := s.lane n.val
    effAddr l.regs o = some (ea, ea') → isFar ea = true → farGranted s n.val ea = true → returnRingAt s ea.toNat = none →
    Does (.lda (.lane n) p o) s fun t =>
      (t.lane n.val).far = [⟨l.regs.pc.toNat, false, false, ea, none, 0, 0, false⟩] ∧
      (t.lane n.val).regs.a = (landLoad true l.delayed l.regs).a ∧ t.mem = s.mem) ∧
  (∀ (n : Fin 64) (s : State) (x : FarAcc) (rest : List FarAcc), s.tidy = true → (s.lane n.val).far = x :: rest →
    x.done = false → x.write = false → (x.refused = true ∨ x.second = none ∧ returnRingAt s x.addr.toNat = none) →
    let v : Word := if x.refused then 0 else lanePortWord s n.val x.slot (farByte x.addr.toNat)
    exec (.farAccessPerformed n) s =
      .next (s.setLane n.val { s.lane n.val with far := { x with done := true, value := v } :: rest })) ∧
  (∀ (n : Fin 64) (s : State) (x : FarAcc) (rest : List FarAcc), s.tidy = true → (s.lane n.val).far = x :: rest →
    x.done = false → x.write = true → x.refused = false → x.second = none → sendRingsAt s x.addr.toNat = [] →
    panWrite s (farByte x.addr.toNat) = none →
    Does (.farAccessPerformed n) s fun t => (t.lane n.val).far = rest ∧
      t.mem = (s.setMemWord (farByte x.addr.toNat) x.value).mem) ∧
  (∀ (n : Fin 64) (s : State) (x : FarAcc) (rest : List FarAcc), s.tidy = true → (s.lane n.val).far = x :: rest → x.done = true →
    exec (.farReadDelivery n) s = .next (s.setLane n.val { s.lane n.val with
      far := rest, regs := writeReg true x.dest.val x.value (s.lane n.val).regs }))

/-! ## Lanes, splice and decode tables -/

namespace Sys2Proof.Claims

/-- The state `t`, with the answer of an accepted write of an object by path `p`. -/
def told (p : Path) (idx sub : Nat) (t : State) : State := answer (pathCode p) (idx * 256 + sub) 0 [] t

/-- The state `t`, with the abort code of a refused write. -/
def denied (p : Path) (idx sub abort : Nat) (t : State) : State := answer (pathCode p) (idx * 256 + sub) abort [] t

/-- Memory reads the same outside the bytes from `lo` up to but not including `hi`. -/
def SameOutside (s t : State) (lo hi : Nat) : Prop := ∀ a, (a < lo ∨ hi ≤ a) → readByte t.mem a = readByte s.mem a

/-- Every register but those of `rs` reads the same. -/
def RegsBut (s t : State) (rs : List Reg) : Prop := ∀ r : Reg, (∀ q ∈ rs, r.key ≠ q.key) → t.rd r = s.rd r

end Sys2Proof.Claims

/-- R54: a safe request takes a lane in ARMED or TAKE to SAFE and waits in the other states; a release takes it from SAFE to ARMED
and withdraws a request that waits. -/
def Sys2Proof.Claims.LaneSafeRequests : Prop :=
  ∀ (p : Path) (n : Fin 64) (s : State), Ready s →
    let i := 0x2600 + n.val
    let l := s.lane n.val
    let st := laneSt s n.val
    (st = laneArmed ∨ st = laneTake → exec (.safeRequestForce p n) s = .next (told p i 12 ((s.setLane n.val { l with
        safePending := false, safeBy := 0, ran := false, faded := true }).wr (Obj.laneState n.val) laneSafe))) ∧
    (st = laneSafe → exec (.safeRequestForce p n) s = .next (told p i 12 s)) ∧
    (st = laneUnloaded ∨ st = laneLoading ∨ st = laneStopped →
      exec (.safeRequestForce p n) s = .next (told p i 12 (s.setLane n.val { l with safePending := true, safeBy := 0 }))) ∧
    (st = laneSafe → exec (.safeRequestRelease p n) s = .next (told p i 12 (s.wr (Obj.laneState n.val) laneArmed))) ∧
    (st = laneArmed ∨ st = laneTake → exec (.safeRequestRelease p n) s = .next (told p i 12 s)) ∧
    (st = laneUnloaded ∨ st = laneLoading ∨ st = laneStopped →
      exec (.safeRequestRelease p n) s = .next (told p i 12 (s.setLane n.val { l with safePending := false })))

/-- R54: LANE_ENABLE at 0 stops a lane, from SAFE with its request kept; at 1 a stopped lane is armed, or enters SAFE where a
request of the host waits. R54: the end of a program load does the same by the enable. -/
def Sys2Proof.Claims.LaneEnables : Prop :=
  ∀ (p : Path) (n : Fin 64) (s : State),
    let i := 0x2600 + n.val
    let l := s.lane n.val
    let st := laneSt s n.val
    let en := s.rd (Obj.laneEnable n.val)
    (Ready s → (st = laneArmed ∨ st = laneTake) → en = 1 → exec (.laneEnableWrite p n 0) s = .next (told p i 3
      (((s.wr (Obj.laneEnable n.val) 0).setLane n.val { l with ran := false, faded := true }).wr (Obj.laneState n.val) laneStopped))) ∧
    (Ready s → st = laneSafe → en = 1 → exec (.laneEnableWrite p n 0) s = .next (told p i 3
      (((s.wr (Obj.laneEnable n.val) 0).setLane n.val { l with ran := false, faded := true, safePending := true, safeBy := 3 }).wr
        (Obj.laneState n.val) laneStopped))) ∧
    (Ready s → st = laneStopped → en = 0 → l.safePending = false → exec (.laneEnableWrite p n 1) s = .next (told p i 3
      ((s.wr (Obj.laneEnable n.val) 1).wr (Obj.laneState n.val) laneArmed))) ∧
    (Ready s → st = laneStopped → en = 0 → l.safePending = true → (l.safeBy = 0 ∨ l.safeBy = 3) →
      exec (.laneEnableWrite p n 1) s = .next (told p i 3
        (((s.wr (Obj.laneEnable n.val) 1).setLane n.val { l with safePending := false, ran := false, faded := true }).wr
          (Obj.laneState n.val) laneSafe))) ∧
    (awake s = true → st = laneLoading → en = 0 → exec (.laneLoadComplete n) s = .next (s.wr (Obj.laneState n.val) laneStopped)) ∧
    (awake s = true → st = laneLoading → en = 1 → l.safePending = false → exec (.laneLoadComplete n) s =
      .next (s.wr (Obj.laneState n.val) laneArmed)) ∧
    (awake s = true → st = laneLoading → en = 1 → l.safePending = true → l.safeBy = 0 → exec (.laneLoadComplete n) s =
      .next ((s.setLane n.val { l with safePending := false, ran := false, faded := true }).wr (Obj.laneState n.val) laneSafe))

/-- R43, R58 and R380: a clear of the fault bits of a lane clears the active flag of a code that no other lane holds; a clear of its
counters keeps TAKE_COUNT; FAR_GRANT is accepted within 8 lanes a group, for groups that are ON or being handed over, and in force at once outside a busy window, and refused
with 0x0609_0030 beyond. -/
def Obligations.LaneClears : Prop :=
  ∀ (p : Path) (n : Fin 64) (v : Byte) (s : State), Ready s →
    let i := 0x2600 + n.val
    Writes (.laneClearFaults p n) p s (fun t =>
      t.rd (Obj.laneFaults n.val) = 0 ∧ t.rd (Obj.firstUdSlot n.val) = 0xFFFF ∧ (t.lane n.val).clearFlags = true ∧
      (∀ k, k < 9 → (s.rd (Obj.laneFaults n.val)).testBit k = true →
        (∀ m, m < 64 → m ≠ n.val → (s.rd (Obj.laneFaults m)).testBit k = false) →
        ∀ a ∈ t.active, a.1.toNat ≠ 0x4001 + k) ∧
      t.mem = s.mem ∧ t.lane n.val = { s.lane n.val with clearFlags := true }) ∧
    Writes (.laneClearCounters p n) p s (fun t =>
      let rs := [Obj.missedTakes n.val, Obj.lastMissSlate n.val, Obj.farRefused n.val, Obj.xchRefused n.val, Obj.udCount n.val,
        Obj.drangeCount n.val, Obj.guardCount n.val, Obj.safeTakes n.val, Obj.satTakes n.val]
      (∀ r ∈ rs, t.rd r = 0) ∧ RegsBut s t rs ∧ { t with od := s.od, answers := s.answers } = s) ∧
    (grantFits n.val v.toNat s = true →
      (∀ g, g < 8 → v.toNat.testBit g = true → s.rd (Obj.pgState g) = 1 ∨ s.rd (Obj.pgState g) = 2) →
      exec (.farGrantWrite p n v) s = .next (told p i 13
      (let u := s.wr (Obj.farGrant n.val) v.toNat
       if (s.lane n.val).busy then u else u.setLane n.val { s.lane n.val with grant := v }))) ∧
    (grantFits n.val v.toNat s = false → exec (.farGrantWrite p n v) s = .next (denied p i 13 0x06090030 s))

/-- R29, R30, R31 and R52: at a house tick of its group an armed lane starts a take at slot 0 and a busy one counts a missed
trigger; a lane of a group that does not tick is as before; the end of the busy window of a lane with nothing in flight ends
its take. -/
def Obligations.TakesStartAndEnd : Prop :=
  (∀ (edge : Nat) (s : State), s.tidy = true → s.houseEdge < edge → houseStopped s = false →
    Does (.houseTick edge) s fun t =>
      t.houseEdge = edge ∧ t.mem = s.mem ∧ ∀ n, n < 64 →
        let g := laneGroup s n
        (64 ≤ g ∨ tickAt s edge g = false → t.lane n = s.lane n ∧ laneSt t n = laneSt s n) ∧
        (g < 64 → tickAt s edge g = true → laneSt s n = laneArmed → (s.lane n).busy = false → (s.lane n).safePending = false →
          pendingSplice s n = none →
          laneSt t n = laneTake ∧ (t.lane n).busy = true ∧ (t.lane n).regs.pc = 0 ∧ (t.lane n).trigSlate = s.slate ∧
          t.rd (Obj.takeCount n) = (s.rd (Obj.takeCount n) + 1) % 2 ^ 64) ∧
        (g < 64 → tickAt s edge g = true → laneSt s n = laneTake → (s.lane n).busy = true → (s.lane n).safePending = false →
          pendingSplice s n = none →
          (t.lane n).regs = (s.lane n).regs ∧ t.rd (Obj.missedTakes n) = min (s.rd (Obj.missedTakes n) + 1) 0xFFFFFFFF ∧
          t.rd (Obj.lastMissSlate n) = s.slate.toNat ∧ (t.rd (Obj.laneFaults n)).testBit 0 = true)) ∧
  (∀ (n : Fin 64) (s : State), s.tidy = true →
    let l := s.lane n.val
    l.busy = true → l.far = [] → l.moves = [] →
    let u := s.setLane n.val { l with
      busy := false, ran := false, grant := BitVec.ofNat 8 (s.rd (Obj.farGrant n.val)), faded := l.faded && !l.ran }
    exec (.busyWindowEnd n) s = .next (if laneSt s n.val = laneTake then u.wr (Obj.laneState n.val) laneArmed else u))

/-- R109, R110 and R113: a splice request that no check refuses waits on every lane of the path's mask; flip-and-copy issues a
handle; a refused request answers 0x0800_0022 with its status and is counted. -/
def Sys2Proof.Claims.SpliceRequests : Prop :=
  ∀ (p : Path) (seq : BitVec 16) (at' : Bool) (s : State), Ready s →
    let k := pathCode p
    guardGood (s.rd (Obj.splMaskLo k)) = true → guardGood (s.rd (Obj.splMaskHi k)) = true →
    (spliceRefusal s k at' false = 0 →
      Writes (.spliceRequestFlipOnly p seq at') p s fun t =>
        (∃ r : Splice, t.splices = s.splices ++ [r] ∧ r.seq = seq ∧ r.waiting = maskLanes s k ∧ r.copy = false ∧
          r.slate = (if at' then some (BitVec.ofNat 64 (s.rd (Obj.splSlate k))) else none) ∧ r.accepted = s.slate) ∧
        t.rd (Obj.splResult k) = 0 ∧ t.rd (Obj.splHandle k) = 0 ∧ t.handles = s.handles ∧ t.mem = s.mem) ∧
    (spliceRefusal s k at' true = 0 →
      Writes (.spliceRequestFlipAndCopy p seq at') p s fun t =>
        (∃ r : Splice, t.splices = s.splices ++ [r] ∧ r.seq = seq ∧ r.waiting = maskLanes s k ∧ r.copy = true ∧
          ∃ h : Handle, t.handles = s.handles ++ [h] ∧ h.op = .splice r.id ∧ t.rd (Obj.splHandle k) = h.word ∧
            t.rd (Obj.lastHandle k) = h.word) ∧
        t.rd (Obj.splResult k) = 0 ∧ t.mem = s.mem) ∧
    (∀ st, spliceRefusal s k at' false = st → st ≠ 0 → exec (.spliceRequestFlipOnly p seq at') s =
      .next (denied p 0x2800 4 0x08000022 ((s.wr (Obj.splResult k) st).inc Obj.splRefused)))

/-- R110, R117, R120 and R128: a cancel removes the lanes of the mask from the requests they wait in; a step of a copy takes the word
of the live side into the other side, unless that was written since the flip, and no other byte. -/
def Sys2Proof.Claims.SpliceCancelAndCopy : Prop :=
  (∀ (p : Path) (seq : BitVec 16) (s : State), Ready s →
    let k := pathCode p
    guardGood (s.rd (Obj.splMaskLo k)) = true → guardGood (s.rd (Obj.splMaskHi k)) = true →
    s.splices.Pairwise (fun a b => a.id ≠ b.id ∧ ∀ n ∈ a.waiting, n ∉ b.waiting ∧ n ∉ b.copying) →
    s.splices.Pairwise (fun a b => ∀ n ∈ a.copying, n ∉ b.waiting) →
    (∃ n ∈ maskLanes s k, (pendingSplice s n).isSome = true) →
    Writes (.spliceCancel p seq) p s fun t =>
      (∀ n ∈ maskLanes s k, pendingSplice t n = none) ∧ t.rd (Obj.splResult k) = 0 ∧ t.rd (Obj.splHandle k) = 0 ∧
      t.mem = s.mem) ∧
  (∀ (n : Fin 64) (s : State) (c : Copy), s.tidy = true → awake s = true → (s.lane n.val).copy = some c → c.next < 8192 →
    marked s n.val c.next = false →
    let dst := sideBase n.val (1 - liveSide s n.val) + 4 * c.next
    Does (.spliceCopyWord n) s fun t =>
      (c.next ∉ c.written → t.memWord dst = sideWord s n.val (liveSide s n.val) c.next) ∧ SameOutside s t dst (dst + 4) ∧
      (c.next ∈ c.written → t.mem = s.mem) ∧ t.rd (Obj.copyWords n.val) = c.next + 1 ∧
      (c.next < 8191 → (t.lane n.val).copy = some ⟨c.next + 1, c.written.filter (c.next + 1 ≤ ·)⟩) ∧
      (c.next = 8191 → (t.lane n.val).copy = none)) ∧
  (∀ (n : Fin 64) (s : State) (c : Copy), s.tidy = true → awake s = true → (s.lane n.val).copy = some c → c.next < 8190 →
    marked s n.val c.next = true → c.next ∉ c.written →
    Does (.spliceCopyWord n) s fun t =>
      let dst := 1 - liveSide s n.val
      sideWord t n.val dst c.next = sideWord s n.val (liveSide s n.val) c.next ∧
      sideWord t n.val dst (c.next + 1) = sideWord s n.val (liveSide s n.val) (c.next + 1) ∧
      t.rd (Obj.copyWords n.val) = c.next + 2)

/-- R11, R140 and R144 to R146: an entry of a decode table is stored with its reserved bits ignored while the table's lanes are UNLOADED (for
a core, while it is in reset or halted) and refused with 0x0800_0022 elsewhere; a malformed entry is refused; DT_CLEAR clears all
16. -/
def Obligations.DecodeTables : Prop :=
  ∀ (p : Path) (core : Bool) (k : Fin 8) (i : Fin 16) (e : BitVec 160) (s : State), Ready s →
    let idx := (if core then 0x2A10 else 0x2A00) + k.val
    (dtEntryGood e.toNat = false → exec (.dtEntryWrite p core k i e) s = .next (denied p idx (i.val + 1) 0x06090030 s)) ∧
    (tableLocked s (tableCode core k.val) = false → tableOpen s core k.val true = true →
      (dtEntryGood e.toNat = true → exec (.dtEntryWrite p core k i e) s =
        .next (told p idx (i.val + 1) (s.wr (tableReg core k.val i.val) (dtClean e.toNat)))) ∧
      Writes (.dtClear p core k) p s fun t =>
        (∀ j, j < 16 → t.rd (tableReg core k.val j) = 0) ∧ dtValidBits t core k.val = 0 ∧
        { t with od := s.od, answers := s.answers } = s) ∧
    (tableLocked s (tableCode core k.val) = true ∨ tableOpen s core k.val false = false →
      (dtEntryGood e.toNat = true → exec (.dtEntryWrite p core k i e) s = .next (denied p idx (i.val + 1) 0x08000022 s)) ∧
      exec (.dtClear p core k) s = .next (denied p idx 18 0x08000022 s)) ∧
    (core = true → ∀ header, tableOpen s core k.val header = true ↔
      s.rd (Obj.coreState k.val) = 0 ∨ s.rd (Obj.coreState k.val) = 3)

/-! ## Port groups and the steering loop -/

namespace Sys2Proof.Claims

/-- A channel's input fade length pair holds the length in use. -/
def InLenHeld (s : State) (c : Nat) : Prop :=
  guardGood (s.rd (Obj.inFade (chanGroup c) (chanPos c))) = true ∧
    guardVal (s.rd (Obj.inFade (chanGroup c) (chanPos c))) = (s.inchan c).len

/-- An output channel in plain play: its group runs, its operands and fade length are good and in use, nothing is pending, nothing
fades it out, and its line is enabled. -/
def PlainPlay (s : State) (c : Nat) : Prop :=
  let o := s.outchan c
  portSt s (chanGroup c) = portRun ∧ badOperands o = [] ∧ o.guardBad = false ∧ hasPending o = false ∧ o.cut = false ∧ 0 < o.p ∧
    guardGood (s.rd (Obj.outFade (chanGroup c) (chanPos c))) = true ∧
    guardVal (s.rd (Obj.outFade (chanGroup c) (chanPos c))) = o.len ∧
    fadeCause s c = false ∧ (s.rd (Obj.portOutMask (chanGroup c))).testBit (chanPos c) = true

/-- The clock of a group has stopped for 2 nominal frame periods. -/
def ClockLate (s : State) (g : Nat) : Prop :=
  2 * 10 ^ 8 ≤ (slateCount s.slate - slateCount (s.port g).lastEdge) * s.rd (Obj.portRate g)

/-- The register of an output operand. -/
def operandReg : OutOperand → Nat → Reg
  | .routing, c => Obj.routing (chanGroup c) (chanPos c)
  | .trim, c => Obj.trimGain (chanGroup c) (chanPos c)
  | .mute, c => Obj.mute (chanGroup c) (chanPos c)

/-- The operand pairs that a write accepts. -/
def operandFits : OutOperand → Pair → Prop
  | .routing, v => guardGood v.toNat = true ∧ v.toNat = guardOf (guardVal v.toNat &&& 0x1FF) ∧ routingGood (guardVal v.toNat) = true
  | .trim, v => guardGood v.toNat = true
  | .mute, v => guardGood v.toNat = true ∧ guardVal v.toNat ≤ 1

end Sys2Proof.Claims

/-- R157, R158, R160 and R161: a WS edge does nothing to a group in OFF, takes a group in HOLD to WAIT with silent inputs, counts a
frame in WAIT, and counts a glitch where a half has a wrong number of BCLK edges; a third one in 16 frames is a glitch run, at once
unless the frame's own end may still bring a rate change, which goes first. -/
def Sys2Proof.Claims.PortClockEdges : Prop :=
  ∀ (g : Fin 6) (rise : Bool) (edges : Nat) (s : State), s.tidy = true →
    let x := s.port g.val
    let st := portSt s g.val
    (st = portOff → exec (.portWsEdge g rise edges) s = .next s) ∧
    (st = portHold → Does (.portWsEdge g rise edges) s fun t =>
      portSt t g.val = portWait ∧ t.rd (Obj.portRateMeas g.val) = 0 ∧ (t.port g.val).lastEdge = s.slate ∧
      (x.inS.active = false → t.mem = s.mem) ∧ (t.port g.val).frames = 0 ∧
      ∀ c ∈ groupChannels g.val, (t.inchan c).p = 0 ∧ (t.inchan c).word = 0 ∧ (t.inchan c).frame = 0) ∧
    (st = portPreroll ∨ st = portRun ∨ st = portRelock → edges = fmtHalf (s.rd (Obj.portFormat g.val)) →
      exec (.portWsEdge g true edges) s = .next (s.setPort g.val { x with lastEdge := s.slate, seen := true })) ∧
    (st = portWait → ¬ ClockLate s g.val → edges = fmtHalf (s.rd (Obj.portFormat g.val)) → x.seen = true → x.seenFall = true →
      Does (.portWsEdge g false edges) s fun t =>
        (t.port g.val).frames = x.frames + 1 ∧
        (t.port g.val).good =
          (if frameGood (slateCount s.slate - slateCount x.lastFall) 1 (s.rd (Obj.portRate g.val)) then x.good + 1 else x.good) ∧
        (t.port g.val).lastFall = s.slate ∧ portSt t g.val = portWait ∧ t.mem = s.mem) ∧
    (st = portRun → x.seen = true → edges ≠ fmtHalf (s.rd (Obj.portFormat g.val)) →
      Does (.portWsEdge g true edges) s fun t =>
        t.rd (Obj.glitchCount g.val) = min (s.rd (Obj.glitchCount g.val) + 1) 0xFFFFFFFF ∧
        (2 ≤ x.glitches.length → x.glitchRun = false → 3 ≤ x.bad → (t.port g.val).glitchRun = false ∧
          (t.port g.val).owedRun = true) ∧
        (2 ≤ x.glitches.length → x.glitchRun = false → x.bad < 3 → (t.port g.val).glitchRun = true ∧
          (t.rd (Obj.portFaults g.val)).testBit 2 = true ∧
          t.rd (Obj.glitchFades g.val) = min (s.rd (Obj.glitchFades g.val) + 1) 0xFFFFFFFF))

/-- R152, R154 and R155: in RUN an input word takes the raised-cosine gain one step further in; in HOLD its last word fades out one
step further. -/
def Sys2Proof.Claims.InputWords : Prop :=
  (∀ (g : Fin 6) (right : Bool) (words : List Word) (k : Fin 8) (s : State), s.tidy = true →
    let c := 16 * g.val + 2 * k.val + (if right then 1 else 0)
    let x := s.inchan c
    portSt s g.val = portRun → (s.port g.val).glitchRun = false → (s.port g.val).fadeTest = false → InLenHeld s c →
    Does (.inputWordLatch g right words) s fun t =>
      let p := min (x.p + 1) x.len
      (t.inchan c).p = p ∧ (t.inchan c).last = latchedWord s c k.val words ∧
      (t.inchan c).word = (if p = 0 then 0 else fadeWord (latchedWord s c k.val words) p x.len) ∧
      (right = true → (t.inchan c).frame = (t.inchan c).word)) ∧
  (∀ (g : Fin 6) (s : State) (c : Nat), s.tidy = true → portSt s g.val = portHold → c ∈ groupChannels g.val → InLenHeld s c →
    Does (.holdFadeStep g) s fun t =>
      let x := s.inchan c
      (t.inchan c).p = x.p - 1 ∧ (t.inchan c).last = x.last ∧ portSt t g.val = portHold ∧
      (t.inchan c).frame = (if x.p - 1 = 0 then 0 else fadeWord x.last (x.p - 1) x.len))

/-- R20, R50, R152 and R169: an output word in plain play is the source word under trim, mute, ceiling, fade and rounding. -/
def Sys2Proof.Claims.OutputWords : Prop :=
  ∀ (g : Fin 6) (right : Bool) (k : Fin 8) (s : State), s.tidy = true →
    let c := 16 * g.val + 2 * k.val + (if right then 1 else 0)
    let o := s.outchan c
    PlainPlay s c →
    Does (.outputCapture g right) s fun t =>
      let p := min (o.p + 1) o.len
      let w := shapeWord o (sourceWord s c o.route)
      (t.outchan c).p = p ∧
      (t.outchan c).shifter = (if p = 0 then 0 else roundOut (fadeWord w p o.len) (fmtWlen (s.rd (Obj.portFormat g.val))))

/-- R157, R158, R159, R160 and R162: the timed moves of a group between its states; a relocked group's output stream realigns at
the frame start that ends its 64th frame. -/
def Sys2Proof.Claims.PortStates : Prop :=
  ∀ (g : Fin 6) (s : State), s.tidy = true →
    let x := s.port g.val
    let st := portSt s g.val
    (x.glitchRun = true → 16 ≤ x.clean → exec (.glitchRunEnd g) s =
      .next (s.setPort g.val { x with glitchRun := false, inS := { x.inS with fadeIn := true } })) ∧
    (st = portWait → 4 ≤ x.frames → x.good = x.frames → exec (.waitGoodFrames g) s =
      .next ((s.setPort g.val { x with frames := 0, bad := 0, counting := x.lastFall == s.slate }).wr (Obj.portState g.val)
        portPreroll)) ∧
    (st = portWait → 4 ≤ x.frames → x.good ≠ x.frames → Does (.waitGoodFrames g) s fun t =>
      portSt t g.val = portRelock ∧ (t.port g.val).relockStep = 2 ∧ (t.port g.val).sum = 0 ∧ t.mem = s.mem) ∧
    (st = portPreroll → x.fadeTest = false → s.rd (Obj.portPreroll g.val) ≤ x.frames → Does (.prerollComplete g) s fun t =>
      portSt t g.val = portRun ∧ ∀ c ∈ groupChannels g.val, (t.inchan c).p = 0 ∧ (t.outchan c).p = 0) ∧
    (st = portPreroll ∨ st = portRun ∨ st = portRelock → ClockLate s g.val → x.fadeOff = false →
      Does (.clockStopDetected g) s fun t =>
        portSt t g.val = portHold ∧ t.rd (Obj.portRateMeas g.val) = 0 ∧ (t.rd (Obj.portFaults g.val)).testBit 0 = true ∧
        t.rd (Obj.stopCount g.val) = min (s.rd (Obj.stopCount g.val) + 1) 0xFFFFFFFF ∧ t.mem = s.mem) ∧
    (st = portPreroll ∨ st = portRun ∨ st = portRelock → ClockLate s g.val → x.fadeOff = true →
      Does (.clockStopDetected g) s fun t =>
        portSt t g.val = portOff ∧ (t.rd (Obj.portFaults g.val)).testBit 0 = true ∧
        t.rd (Obj.stopCount g.val) = min (s.rd (Obj.stopCount g.val) + 1) 0xFFFFFFFF ∧ (t.port g.val).fadeOff = false ∧
        ∀ c ∈ groupChannels g.val, (t.inchan c).word = 0 ∧ (t.outchan c).p = 0 ∧ (t.outchan c).shifter = 0) ∧
    (st = portPreroll ∨ st = portRun → 4 ≤ x.bad → Does (.rateChangeDetected g) s fun t =>
      portSt t g.val = portRelock ∧ (t.port g.val).relockStep = 2 ∧ (t.rd (Obj.portFaults g.val)).testBit 1 = true ∧
      t.rd (Obj.rateChanges g.val) = min (s.rd (Obj.rateChanges g.val) + 1) 0xFFFFFFFF) ∧
    (st = portRelock → x.relockStep = 2 → 16 ≤ x.periods →
      rateSupported (s.rd (Obj.portFormat g.val)) (meanRate x.sum) = true →
      exec (.relockMeasureComplete g) s = .next ((s.wr (Obj.portRateMeas g.val) (meanRate x.sum)).setPort g.val
        { x with relock := x.sum, relockStep := 3, good := 0 })) ∧
    (st = portRelock → x.relockStep = 2 → 16 ≤ x.periods →
      rateSupported (s.rd (Obj.portFormat g.val)) (meanRate x.sum) = false →
      Does (.relockMeasureComplete g) s fun t =>
        portSt t g.val = portRelock ∧ t.port g.val = { x with sum := 0, periods := 0 } ∧
        (t.rd (Obj.portFaults g.val)).testBit 3 = true) ∧
    (st = portRelock → x.relockStep = 3 → 64 ≤ x.good → ∃ t, exec (.relockComplete g) s = .next (outFrame g.val t) ∧
      portSt t g.val = portRun ∧ ∀ c ∈ groupChannels g.val, (t.inchan c).p = 0 ∧ (t.outchan c).p = 0)

/-- R157, R162 and R177: PORT_ENABLE starts a group from OFF in WAIT and fades a running one toward OFF, which it enters once its
outputs are silent; PORT_TEST takes a running group to PREROLL; a clear of the counters touches them alone. -/
def Obligations.PortControls : Prop :=
  ∀ (p : Path) (g : Fin 6) (v : Byte) (s : State), s.tidy = true →
    let i := 0x2200 + 16 * g.val
    let x := s.port g.val
    let st := portSt s g.val
    (Ready s → st = portOff → portsMayRun s = true → s.rd (Obj.portClock g.val) = 0 →
      Writes (.portEnableWrite p g 1) p s fun t => t.rd (Obj.portEnable g.val) = 1 ∧ portSt t g.val = portWait ∧ t.mem = s.mem) ∧
    (Ready s → st = portRun → exec (.portEnableWrite p g 0) s = .next (told p i 1
      ((s.wr (Obj.portEnable g.val) 0).setPort g.val { x with fadeOff := true, fadeFrames := 0 }))) ∧
    (Ready s → st = portOff → exec (.portEnableWrite p g 0) s = .next (told p i 1 (s.wr (Obj.portEnable g.val) 0))) ∧
    (x.fadeOff = true → outputsSilent s g.val = true → Does (.portOffEntry g) s fun t =>
      portSt t g.val = portOff ∧ t.rd (Obj.portRateMeas g.val) = 0 ∧ (t.port g.val).fadeOff = false ∧
      (st ≠ portHold → t.mem = s.mem) ∧
      ∀ c ∈ groupChannels g.val, (t.inchan c).word = 0 ∧ (t.outchan c).p = 0 ∧ (t.outchan c).shifter = 0) ∧
    (Ready s → st = portOff → v.toNat ≤ 1 → exec (.portTestWrite p g v) s = .next (told p i 9 (s.wr (Obj.portTest g.val) v.toNat))) ∧
    (Ready s → st = portRun → v.toNat ≤ 1 → s.rd (Obj.portTest g.val) ≠ v.toNat →
      Writes (.portTestWrite p g v) p s fun t =>
        t.rd (Obj.portTest g.val) = v.toNat ∧ portSt t g.val = portPreroll ∧ (t.port g.val).fadeTest = true ∧
        (t.port g.val).testMode = x.testMode ∧ t.mem = s.mem) ∧
    (x.fadeTest = true → outputsSilent s g.val = true → inputsSilent s g.val = true → exec (.portTestApply g) s =
      .next (s.setPort g.val { x with
        fadeTest := false, testMode := s.rd (Obj.portTest g.val), frames := 0, counting := x.lastFall == s.slate })) ∧
    (Ready s → Writes (.portClearFaults p g) p s fun t =>
      t.rd (Obj.portFaults g.val) = 0 ∧ t.mem = s.mem ∧ t.ports = s.ports ∧
      ∀ k, k < 7 → (s.rd (Obj.portFaults g.val)).testBit k = true →
        (∀ m, m < 6 → m ≠ g.val → (s.rd (Obj.portFaults m)).testBit k = false) → ∀ a ∈ t.active, a.1.toNat ≠ 0x3001 + k) ∧
    (Ready s → Writes (.portClearCounters p g) p s fun t =>
      let rs := [Obj.stopCount g.val, Obj.rateChanges g.val, Obj.glitchCount g.val, Obj.glitchFades g.val, Obj.inOverruns g.val,
        Obj.outUnderruns g.val, Obj.lateDiscards g.val, Obj.zcTimeouts g.val, Obj.sharedErrors g.val]
      (∀ r ∈ rs, t.rd r = 0) ∧ RegsBut s t rs ∧ { t with od := s.od, answers := s.answers } = s)

/-- R170, R171, R178 and R233: an enabled stream direction owns its edge; an operand written while its output plays waits for a zero
crossing and is in use at once elsewhere; the time-out of a wait is a fade cause. -/
def Obligations.StreamsAndOperands : Prop :=
  (∀ (p : Path) (g : Fin 6) (s : State), Ready s → s.rd (Obj.streamEnable g.val) = 0 →
    let e := s.rd (Obj.inEdge g.val)
    let q := s.rd (Obj.inRingDepth g.val)
    let words := 4 + streamB s g.val * inCount s g.val
    edgeRefusal s e q = 0 → inOneGroup (s.rd (Obj.inRingAddr g.val)) (q * words) = true →
    Writes (.streamEnableWrite p g 1) p s fun t =>
      t.rd (Obj.streamEnable g.val) = 1 ∧ (t.edge e).on = true ∧ (t.edge e).owned = true ∧ (t.edge e).prod = endPort g.val ∧
      (t.edge e).cons = 0 ∧ t.rd (Obj.edgeDepth e) = q ∧ t.rd (Obj.edgePosBytes e) = 4 * words ∧
      t.rd (Obj.edgeBase e) = farByte (s.rd (Obj.inRingAddr g.val)) ∧ (t.port g.val).inS = { ({} : Stream) with on := true } ∧
      (t.port g.val).outS = (s.port g.val).outS ∧ t.mem = s.mem) ∧
  (∀ (p : Path) (g : Fin 6) (s : State), Ready s → s.rd (Obj.streamEnable g.val) = 0 →
    inOneGroup (s.rd (Obj.inRingAddr g.val)) (s.rd (Obj.inRingDepth g.val) * (4 + streamB s g.val * inCount s g.val)) = false →
    exec (.streamEnableWrite p g 1) s = .next (denied p (0x2202 + 16 * g.val) 8 0x06090030 s)) ∧
  (∀ (p : Path) (op : OutOperand) (c : Fin 96) (v : Pair) (s : State), Ready s → operandFits op v →
    let o := s.outchan c.val
    let o' := match op with
      | .routing => { o with pRoute := some v, cutPrev := if o.cut then sourceWord s c.val v else o.cutPrev }
      | .trim => { o with pTrim := some v }
      | .mute => { o with pMute := some v }
    exec (.outputOperandWrite p op c v) s = .next (told p (operandIndex op + c.val / 16) (1 + c.val % 16)
      ((s.wr (operandReg op c.val) v.toNat).setOutchan c.val
        (if 0 < o.p ∧ portSt s (c.val / 16) = portRun then o' else applyPending o')))) ∧
  (∀ (c : Fin 96) (s : State), s.tidy = true →
    let o := s.outchan c.val
    (hasPending o = true ∨ o.cut = true) → o.causes.timeout = false →
    exec (.zcTimeout c) s = .next ((s.setOutchan c.val { o with causes := { o.causes with timeout := true } }).inc
      (Obj.zcTimeouts (chanGroup c.val))))

/-- R172 to R175: without a leader the loop runs free on the manual offset; a new leader starts it from HOLDOVER; every update keeps
the offset within 100 ppm; a shared clock off by more than a frame in 256 leader frames is counted and raised. -/
def Obligations.Steering : Prop :=
  (∀ (p : Path) (s : State), Ready s → exec (.leaderWrite p 0xFF) s = .next (told p 0x2260 1
    (((s.wr Obj.leader 0xFF).wr Obj.steerState steerFree).wr Obj.steerOffset (s.rd Obj.steerManual)))) ∧
  (∀ (p : Path) (v : Byte) (s : State), Ready s → v.toNat < 6 →
    Writes (.leaderWrite p v) p s fun t =>
      t.rd Obj.leader = v.toNat ∧ t.rd Obj.steerState = steerHoldover ∧ t.rd Obj.steerOffset = s.rd Obj.steerOffset ∧
      t.mem = s.mem) ∧
  (∀ (s : State), s.tidy = true → s.rd Obj.steerState = steerAcquiring ∨ s.rd Obj.steerState = steerLocked → 16 ≤ s.steer.since →
    Does .steerUpdate s fun t =>
      t.steer.since = 0 ∧ -10000 ≤ toSigned 32 (t.rd Obj.steerOffset) ∧ toSigned 32 (t.rd Obj.steerOffset) ≤ 10000 ∧
      (t.steer.clamped = true → t.rd Obj.steerClamps = min (s.rd Obj.steerClamps + 1) 0xFFFFFFFF) ∧ t.mem = s.mem) ∧
  (∀ (g : Fin 6) (s : State), s.tidy = true → s.rd (Obj.portClock g.val) = 1 → 256 ≤ (s.port g.val).sharedLead →
    s.rd Obj.leader < 6 →
    let x := s.port g.val
    let rl := s.rd (Obj.portRate (s.rd Obj.leader))
    let off : Int := x.shared * rl - 256 * s.rd (Obj.portRate g.val)
    (off.natAbs ≤ rl → exec (.sharedClockCheck g) s = .next (s.setPort g.val { x with shared := 0, sharedLead := 0 })) ∧
    (rl < off.natAbs → Does (.sharedClockCheck g) s fun t =>
      t.rd (Obj.sharedErrors g.val) = min (s.rd (Obj.sharedErrors g.val) + 1) 0xFFFFFFFF ∧
      (t.rd (Obj.portFaults g.val)).testBit 6 = true ∧ t.port g.val = { x with shared := 0, sharedLead := 0 } ∧ t.mem = s.mem))

/-! ## The sluice, the engines and the converters -/

namespace Sys2Proof.Claims

/-- A handle has completed: it is outstanding no more, and its record stands at the head of the harvest ring (R307). -/
def Posted (s t : State) (h : Handle) (status detail : Nat) (slate : Slate) : Prop :=
  ringRecord t (s.rd Obj.hvHead) = ⟨BitVec.ofNat 16 status, BitVec.ofNat 16 h.word, BitVec.ofNat 32 detail, slate⟩ ∧
    t.rd Obj.hvHead = (s.rd Obj.hvHead + 1) % 256 ∧ t.rd Obj.hvUsed = s.rd Obj.hvUsed + 1 ∧
    t.handles = s.handles.filter fun k => k.slot != h.slot

/-- A handle has been issued for an operation that path `p` started (R303, R304). -/
def Issued (s t : State) (op : Op) (p : Path) (h : Handle) : Prop :=
  t.handles = s.handles ++ [h] ∧ h.op = op ∧ h.status = 0 ∧ (∀ k ∈ s.handles, k.slot ≠ h.slot) ∧ 1 ≤ h.slot ∧ h.slot ≤ 64 ∧
    h.gen = (s.gens.get 0 h.slot + 1) % 16 ∧ t.rd (Obj.lastHandle (pathCode p)) = h.word

/-- The firing of a slot and rung has ended its operation with a status. -/
def Ended (t : State) (f : Firing) (status : Nat) : Prop :=
  ∃ g ∈ t.firings, sameFiring g f = true ∧ g.done = true ∧ g.status = BitVec.ofNat 16 status

/-- The crystallizer rows, with their operation codes (R184). -/
def cxOp : Instr → Option (Fin 16 × Nat)
  | .cxFwd e => some (e, 1)
  | .cxInv e => some (e, 2)
  | .cxSmac e => some (e, 3)
  | .cxTail e => some (e, 4)
  | _ => none

/-- The sources of an operation of a graph's own node, in bytes and words, and its destination and the words written there (R184). -/
def cxSpans (ops : List Word) : List (Nat × Nat) × Nat × Nat :=
  let n := 2 ^ opLog2S ops
  let sp := specWords (opUni ops) n
  let a (k : Nat) : Nat := 64 * opW ops k
  match opCode ops with
  | 1 => ([(a 1, 2 * n)], a 2, sp)
  | 2 => ([(a 1, sp)], a 2, if opKeep ops then n else 2 * n)
  | 3 => let p := opW ops 5
    ([(a 1, p * sp), (a 2, p * sp)] ++ (if opW ops 3 = 0 then [] else [(a 3, sp)]), a 4, sp)
  | _ => let np := opW ops 5 / 0x10000
    ([(a 1, np * sp), (a 2, np * sp), (a 3, n)], a 4, n)

/-- Every access of an operation of crystallizer `e` is allowed (R212, R250). -/
def cxAllowed (s : State) (f : Firing) (e : Nat) : Prop :=
  let x := cxSpans f.ops
  (∀ r ∈ x.1, ∀ k, k < (4 * r.2 + 63) / 64 → engCheck s f (0x30 + e) false (r.1 + 64 * k) = .ok) ∧
    (∀ k, k < (4 * x.2.2 + 63) / 64 → engCheck s f (0x30 + e) true (x.2.1 + 64 * k) = .ok) ∧
    (opCode f.ops = 4 → ∀ k, k < (4 * (opSlot f.ops).2 + 63) / 64 →
      engCheck s f (0x30 + e) true ((opSlot f.ops).1 + 64 * k) = .ok)

/-- A firing may write the words from byte address `a` on, `n` of them, outside the coefficient sides: none belongs to a return block
that has moved on (R225), and no lane wrote one in this tick (R256). -/
def Lands (s : State) (f : Firing) (a n : Nat) : Prop :=
  (0x1000000 ≤ a ∧ a + 4 * n ≤ 0x2000000 ∨ 0x104000000 ≤ a ∧ a + 4 * n ≤ 0x300000000) ∧
    ∀ k, k < n → retDrops s f (a + 4 * k) = false ∧ panWrite s (a + 4 * k) = none

/-- Memory holds the words from byte address `a` on. -/
def HoldsWords (t : State) (a : Nat) (ws : List Word) : Prop := ∀ k w, ws[k]? = some w → t.memWord (a + 4 * k) = w

end Sys2Proof.Claims

/-- R215, R217 and R219: the first firing of the highest priority of a node that has not failed goes to an engine of its kind,
running where the engine is free and staged behind its firing elsewhere, void where its return block has moved on; no other firing
moves and no memory changes. -/
def Sys2Proof.Claims.EngineDispatch : Prop :=
  ∀ (s : State) (f : Firing) (h : Nat), s.tidy = true →
    pickFiring (fun f => mayDispatch s f && firingClassE s f && (engineFor s f).isSome) s = some f → engineFor s f = some h →
    let st := if engineLoad s h = 0 then 4 else 3
    let r := refreshVoid f s
    Does .classEPrefetch s fun t =>
      (∃ g ∈ t.firings, sameFiring g f = true ∧ g.holder = h ∧ g.state = st ∧ g.done = false ∧ g.prio = f.prio ∧
        g.void = r.1.void) ∧
      (∀ g ∈ s.firings, sameFiring g f = false → g ∈ t.firings) ∧ t.firings.length = s.firings.length ∧
      (f.rung = 0 → t.rd (Obj.nodeState f.slot) = st) ∧ (0x10 ≤ h ∧ h < 0x20 → t.rd (Obj.cxState (h - 0x10)) = 1) ∧
      t.rings = r.2.rings ∧ { t with od := s.od, firings := s.firings, rings := s.rings } = s

/-- R218 and R246: a firing of a software node is handed to the core that has waited longest, with its words in the core's mailbox;
the core runs again. -/
def Sys2Proof.Claims.CoreHandover : Prop :=
  ∀ (s : State) (f : Firing) (c : Nat), s.tidy = true →
    pickFiring (fun f => mayDispatch s f && !firingClassE s f && !(eligibleCores s f).isEmpty) s = some f →
    longestWaiting s (eligibleCores s f) = some c →
    let f' := (refreshVoid f s).1
    Does .classSHandover s fun t =>
      t.rd (Obj.coreState c) = 1 ∧ (t.core c).node = some f.slot ∧ t.rd (Obj.nodeState f.slot) = 4 ∧
      HoldsWords t (0x3000000 + 0x40000 * c + 0x20000 + 4 * 0x3FF0) (handedWords s f') ∧
      SameOutside s t (0x3000000 + 0x40000 * c + 0x20000 + 4 * 0x3FF0)
        (0x3000000 + 0x40000 * c + 0x20000 + 4 * (0x3FF0 + (handedWords s f').length)) ∧
      (∃ g ∈ t.firings, sameFiring g f = true ∧ g.holder = c ∧ g.state = 4)

/-- R183 to R185, R212 and R267: an operation on a crystallizer ends with status 0 where its block is good and its accesses are
allowed, and leaves the words of `opResult` at its destination; a read of DRAM that cannot be corrected fails it with 0x8003; a bad
block fails with 0x5003 under any row. -/
def Sys2Proof.Claims.CrystallizerOps : Prop :=
  ∀ (i : Instr) (e : Fin 16) (code : Nat) (s : State) (f : Firing), cxOp i = some (e, code) → s.tidy = true →
    runningOn s (0x10 + e.val) = some f → 272 ≤ f.slot →
    (opGood f.ops = true → opCode f.ops = code → cxAllowed s f e.val →
      readFails s ((cxSpans f.ops).1.map fun r => (r.1, 4 * r.2)) = true →
      Does i s fun t => Ended t f 0x8003 ∧ t.mem = s.mem ∧ s.rd Obj.dramUncorrected ≤ t.rd Obj.dramUncorrected) ∧
    (opGood f.ops = true → opCode f.ops = code → cxAllowed s f e.val →
      readFails s ((cxSpans f.ops).1.map fun r => (r.1, 4 * r.2)) = false →
      let ws := opResult f.ops (s.node f.slot).carry ((cxSpans f.ops).1.map fun r => engRead s f r.1 r.2)
      Does i s fun t => Ended t f 0 ∧ t.handles = s.handles ∧
        (Lands s f (cxSpans f.ops).2.1 ws.length → HoldsWords t (cxSpans f.ops).2.1 ws)) ∧
    (opGood f.ops = false → Does i s fun t => Ended t f 0x5003 ∧ t.mem = s.mem) ∧
    (opGood f.ops = true → opCode f.ops ≠ code → exec i s = .next s)

/-- R189, R198, R200 and R250: TAIL of a convolution path and a block of a converter end with status 0 where all their accesses are
allowed. A path's return block has the words of `returnWords`, a converter's block those of `convWords`, under a header that gives
its length and channels, silent in ACQUIRE. -/
def Sys2Proof.Claims.PathsAndBlocks : Prop :=
  (∀ (e : Fin 16) (s : State) (f : Firing), s.tidy = true → runningOn s (0x10 + e.val) = some f → f.slot < 256 →
    exec (.cxFwd e) s = .next s ∧ exec (.cxInv e) s = .next s ∧ exec (.cxSmac e) s = .next s ∧
    ((∀ r ∈ tailReads f.slot f.rung f s, ∀ k, k < (r.2 + 63) / 64 → engCheck s f (0x30 + e.val) false (r.1 + 64 * k) = .ok) →
      (∀ r ∈ tailWrites f.slot f.rung f s, ∀ k, k < (r.2 + 63) / 64 → engCheck s f (0x30 + e.val) true (r.1 + 64 * k) = .ok) →
      (readFails s (tailReads f.slot f.rung f s) = true →
        Does (.cxTail e) s fun t => Ended t f 0x8003 ∧ t.handles = s.handles ∧ t.mem = s.mem) ∧
      (readFails s (tailReads f.slot f.rung f s) = false →
        Does (.cxTail e) s fun t => Ended t f 0 ∧ t.handles = s.handles ∧
          ∀ r0 rest, f.rung = 0 → (s.path f.slot).rungs = r0 :: rest →
            let r := s.rd (Obj.cpRing f.slot)
            let dst := posBase s (s.rd (Obj.rpReturnEdge r)) (f.outPos.headD 0)
            let ws := (returnWords s f.slot (tailCore s f.slot 0 r0 f).2 f).1.flatMap fun w =>
              w.1 :: List.replicate (ringC s r - 1) 0
            Lands s f dst ws.length → HoldsWords t dst ws))) ∧
  (∀ (v : Fin 16) (s : State) (f : Firing), s.tidy = true → runningOn s 0x20 = some f → f.slot = 256 + v.val →
    let dst := posBase s (convDest s v.val) (f.outPos.headD 0)
    let b := (convBlocks s v.val).2
    let n := convChannels s v.val
    let k := (f.ops.headD 0).toNat
    let src := (convWaiting s v.val).take k
    Lands s f dst (4 + b * n) →
    (∀ j, j < (16 + 4 * b * n + 63) / 64 → engCheck s f 0x50 true (dst + 64 * j) = .ok) →
    (∀ a ∈ src, ∀ j, j < (convSrcBytes s v.val + 63) / 64 → fabCheck masterSluice false (a + 64 * j) s = .ok) →
    readFails s (src.map fun a => (a, convSrcBytes s v.val)) = false →
    Does (.asrcConvert v) s fun t => Ended t f 0 ∧ HoldsWords t dst (convWords s v.val (convTrack s v.val k)) ∧
      t.memWord (dst + 12) = BitVec.ofNat 32 (b * 0x10000 + n) ∧ SameOutside s t dst (dst + 16 + 4 * b * n) ∧
      (s.rd (Obj.asState v.val) = convAcquire → ∀ j, j < b * n → t.memWord (dst + 16 + 4 * j) = 0))

/-- R196, R220 and R221: a firing of a graph's node that has ended completes; with status 0 its node counts it, with another it enters
FAULTED, counts the failure and raises 0x6001. -/
def Sys2Proof.Claims.FiringsComplete : Prop :=
  ∀ (slot : Fin 512) (rung : Fin 8) (s : State) (f : Firing), s.tidy = true → 272 ≤ slot.val →
    s.firings.find? (fun f => f.slot == slot.val && f.rung == rung.val && f.state == 4 && decide (0x10 ≤ f.holder)) = some f →
    f.done = true →
    (f.status = 0 → Does (.firingComplete slot rung) s fun t =>
      t.rd (Obj.nodeLastStatus slot.val) = 0 ∧
      t.rd (Obj.nodeFirings slot.val) = min (s.rd (Obj.nodeFirings slot.val) + 1) (2 ^ 64 - 1) ∧
      t.rd (Obj.nodeFails slot.val) = s.rd (Obj.nodeFails slot.val) ∧
      (opCode f.ops ≠ 4 → t.mem = s.mem) ∧
      (opCode f.ops = 4 →
        t.mem = (putHome slot.val 13 (BitVec.ofNat 32 (opParts f.ops * 0x10000 + (opHpos f.ops + 1) % opParts f.ops)) s).mem) ∧
      (0x10 ≤ f.holder ∧ f.holder < 0x20 →
        t.rd (Obj.cxNodes (f.holder - 0x10)) = min (s.rd (Obj.cxNodes (f.holder - 0x10)) + 1) (2 ^ 64 - 1))) ∧
    (f.status ≠ 0 → (s.node slot.val).closing = false → Does (.firingComplete slot rung) s fun t =>
      t.rd (Obj.nodeLastStatus slot.val) = f.status.toNat ∧ t.rd (Obj.nodeState slot.val) = 5 ∧
      t.rd (Obj.nodeFails slot.val) = min (s.rd (Obj.nodeFails slot.val) + 1) 0xFFFFFFFF ∧
      (t.rd Obj.schFaults).testBit 0 = true ∧ t.rd (Obj.nodeFirings slot.val) = s.rd (Obj.nodeFirings slot.val) ∧ t.mem = s.mem)

/-- R218, R225 and R229: a core completes the firing it holds, posts a token on an edge whose producer is software, on a return ring
by the block's position and credit, and takes the oldest token of an edge whose consumer is software; a write that names none of these is refused with its status and counted. -/
def Sys2Proof.Claims.SchedulerWrites : Prop :=
  ∀ (c : Fin 8) (w : Word) (s : State), s.tidy = true → coreRuns s c.val = true →
    let e := (w.extractLsb' 0 10).toNat
    let ed := s.edge e
    let p := ed.next % s.rd (Obj.edgeDepth e)
    (∀ f, heldFiring s c.val = some f → Does (.schDone c w) s fun t =>
      (t.core c.val).node = none ∧ (t.core c.val).schResult = 0 ∧ t.rd (Obj.nodeLastStatus f.slot) = (w.extractLsb' 0 16).toNat ∧
      t.mem = s.mem) ∧
    (heldFiring s c.val = none → Does (.schDone c w) s fun t =>
      (t.core c.val).schResult = 0x6151 ∧ t.rd Obj.schRefused = min (s.rd Obj.schRefused + 1) 0xFFFFFFFF ∧
      (t.rd Obj.schFaults).testBit 3 = true ∧ t.edges = s.edges ∧ t.firings = s.firings) ∧
    (∀ r q void, ed.on = true → ed.prod = 0 → ringOfEnd ed.cons = some r → creditFor s e ed.posted = some (q, void) →
      (s.ring r).ret.any (fun x => x.block == ed.posted + ringK s r && x.valid) = false → Does (.schPost c w) s fun t =>
      (t.core c.val).schResult = BitVec.ofNat 32 (q * 0x10000) ∧ (t.edge e).posted = ed.posted + 1 ∧ t.mem = s.mem ∧
      (void = true → t.rings = s.rings) ∧
      (void = false → t.rd (Obj.edgePosted e) = min (s.rd (Obj.edgePosted e) + 1) (2 ^ 64 - 1) ∧
        ∃ x ∈ (t.ring r).ret, x.block = ed.posted + ringK s r ∧ x.valid = true)) ∧
    (∀ r, ed.on = true → ed.prod = 0 → ringOfEnd ed.cons = some r → creditFor s e ed.posted = none → Does (.schPost c w) s fun t =>
      (t.core c.val).schResult = 0x6152 ∧ t.edges = s.edges ∧ t.rings = s.rings ∧
      t.rd Obj.schRefused = min (s.rd Obj.schRefused + 1) 0xFFFFFFFF) ∧
    (ed.on = true → ed.prod = 0 → ringOfEnd ed.cons = none → p ∉ ed.held → Does (.schPost c w) s fun t =>
      (t.core c.val).schResult = BitVec.ofNat 32 (p * 0x10000) ∧
      t.rd (Obj.edgePosted e) = min (s.rd (Obj.edgePosted e) + 1) (2 ^ 64 - 1) ∧
      (∃ x ∈ (t.edge e).tokens, x.index = ed.posted ∧ x.pos = some p ∧ x.late = false) ∧ t.mem = s.mem) ∧
    (ed.on = false ∨ ed.prod ≠ 0 ∨ ringOfEnd ed.cons = none ∧ p ∈ ed.held → Does (.schPost c w) s fun t =>
      (t.core c.val).schResult = 0x6152 ∧ t.edges = s.edges ∧ t.rd Obj.schRefused = min (s.rd Obj.schRefused + 1) 0xFFFFFFFF) ∧
    (∀ x rest, ed.on = true → ed.cons = 0 → ed.tokens = x :: rest → Does (.schTake c w) s fun t =>
      (t.core c.val).schResult = BitVec.ofNat 32 (x.pos.getD 0 * 0x10000) ∧ x ∉ (t.edge e).tokens ∧ t.mem = s.mem) ∧
    (ed.on = false ∨ ed.cons ≠ 0 ∨ ed.tokens = [] → Does (.schTake c w) s fun t =>
      (t.core c.val).schResult = 0x6153 ∧ t.edges = s.edges ∧ t.rd Obj.schRefused = min (s.rd Obj.schRefused + 1) 0xFFFFFFFF)

/-- R214, R230 to R232: a node is enabled on edges that are enabled and have the ends it binds free, and refused with its status
elsewhere; an edge whose positions lie in one pan group is enabled empty; the clears zero their counters and no more. -/
def Obligations.NodesAndEdges : Prop :=
  ∀ (p : Path) (s : State), Ready s →
    let slot := s.rd (Obj.nodeSel (pathCode p))
    let e := s.rd (Obj.edgeSel (pathCode p))
    let h := withSlot (homeWord s slot 0) slot :: (List.range 4).map fun k => homeWord s slot (k + 1)
    (288 ≤ slot → s.rd (Obj.nodeState slot) = 0 → nodeRefusal s h = 0 →
      fabCheck masterSluice true (farByte (s.rd (Obj.nodeHome slot))) s = .ok → Writes (.nodeEnableWrite p 1) p s fun t =>
      t.rd (Obj.nodeEnable slot) = 1 ∧ t.rd (Obj.nodeResult slot) = 0 ∧ (t.node slot).on = true ∧ (t.node slot).hdr = h ∧
      (∀ x ∈ hdrIns h, (t.edge x).cons = endNode slot) ∧ (∀ x ∈ hdrOuts h, (t.edge x).prod = endNode slot) ∧
      t.memWord (farByte (s.rd (Obj.nodeHome slot))) = withSlot (homeWord s slot 0) slot ∧
      SameOutside s t (farByte (s.rd (Obj.nodeHome slot))) (farByte (s.rd (Obj.nodeHome slot)) + 4)) ∧
    (∀ r, 288 ≤ slot → s.rd (Obj.nodeState slot) = 0 → nodeRefusal s h = r → r ≠ 0 → exec (.nodeEnableWrite p 1) s =
      .next (denied p 0x3001 3 0x08000022 (s.wr (Obj.nodeResult slot) r))) ∧
    (slot < 288 → exec (.nodeEnableWrite p 1) s = .next (denied p 0x3001 3 0x08000022 s)) ∧
    (288 ≤ slot → (s.node slot).on = false → exec (.nodeEnableWrite p 0) s = .next (told p 0x3001 3 (s.wr (Obj.nodeEnable slot) 0))) ∧
    Writes (.nodeClear p) p s (fun t =>
      let rs := [Obj.nodeFirings slot, Obj.nodeFails slot, Obj.nodeVoids slot, Obj.nodeReruns slot]
      (∀ r ∈ rs, t.rd r = 0) ∧ RegsBut s t rs ∧ { t with od := s.od, answers := s.answers } = s) ∧
    ((s.edge e).on = false → edgePlaced s e = true → tokenSlots s + s.rd (Obj.edgeDepth e) ≤ 4096 →
      Writes (.edgeEnableWrite p 1) p s fun t =>
        t.rd (Obj.edgeEnable e) = 1 ∧ t.rd (Obj.edgeResult e) = 0 ∧ t.rd (Obj.edgePosted e) = 0 ∧ (t.edge e).on = true ∧
        (t.edge e).tokens = [] ∧ t.mem = s.mem) ∧
    ((s.edge e).on = false → edgePlaced s e = false → exec (.edgeEnableWrite p 1) s =
      .next (denied p 0x3002 5 0x08000022 (s.wr (Obj.edgeResult e) 0x6111))) ∧
    ((s.edge e).on = true → (s.edge e).prod ≠ 0 → exec (.edgeEnableWrite p 0) s =
      .next (denied p 0x3002 5 0x08000022 (s.wr (Obj.edgeResult e) 0x6113))) ∧
    exec (.edgeClear p) s = .next (told p 0x3002 11 (s.wr (Obj.edgePosted e) 0)) ∧
    Writes (.schClearFaults p) p s (fun t => t.rd Obj.schFaults = 0 ∧ t.edges = s.edges ∧ t.nodes = s.nodes ∧ t.mem = s.mem) ∧
    Writes (.schClearCounters p) p s (fun t =>
      t.rd Obj.schRefused = 0 ∧ t.rd Obj.schHoldOver = 0 ∧ t.rd Obj.schFaults = s.rd Obj.schFaults ∧
      (∀ i, i < 512 → t.rd (Obj.nodeFirings i) = 0 ∧ t.rd (Obj.nodeFails i) = 0 ∧ t.rd (Obj.nodeVoids i) = 0 ∧
        t.rd (Obj.nodeReruns i) = 0) ∧ (∀ i, i < 1024 → t.rd (Obj.edgePosted i) = 0) ∧
      (∀ r, r < 256 → t.rd (Obj.rpSendLate r) = 0 ∧ t.rd (Obj.rpReturnLate r) = 0) ∧
      { t with od := s.od, answers := s.answers } = s)

/-- R194, R195, R204, R225 and R234: a ring pair, a convolution path and a converter are enabled where no check refuses them and
refused with their status elsewhere; a ring pair starts with K valid return blocks of zeros. -/
def Sys2Proof.Claims.EngineEnables : Prop :=
  ∀ (p : Path) (r q : Fin 256) (v : Fin 16) (s : State), Ready s →
    let ret := farByte (s.rd (Obj.rpReturnAddr r.val))
    ((s.ring r.val).on = false → rpRefusal s r.val = 0 → Writes (.rpEnableWrite p r 1) p s fun t =>
      t.rd (Obj.rpEnable r.val) = 1 ∧ t.rd (Obj.rpResult r.val) = 0 ∧ (t.ring r.val).on = true ∧
      (t.ring r.val).ret.length = ringK s r.val ∧
      (∀ (k : Nat) (x : RetPos), (t.ring r.val).ret[k]? = some x → x.block = k ∧ x.valid = true) ∧
      (∀ a, ret ≤ a → a < ret + 4 * rpReturnWords s r.val → readByte t.mem a = 0) ∧
      SameOutside s t ret (ret + 4 * rpReturnWords s r.val)) ∧
    (∀ x, (s.ring r.val).on = false → rpRefusal s r.val = x → x ≠ 0 → exec (.rpEnableWrite p r 1) s =
      .next (denied p (0x3080 + r.val / 2) (1 + 32 * (r.val % 2)) 0x08000022 (s.wr (Obj.rpResult r.val) x))) ∧
    ((s.path q.val).on = false → cpRefusal s q.val = 0 → Writes (.cpEnableWrite p q 1) p s fun t =>
      t.rd (Obj.cpEnable q.val) = 1 ∧ t.rd (Obj.cpState q.val) = 1 ∧ t.rd (Obj.cpResult q.val) = 0 ∧ (t.path q.val).on = true ∧
      (t.path q.val).rungs = buildRungs s q.val ∧ (t.node q.val).on = true) ∧
    (∀ x, (s.path q.val).on = false → cpRefusal s q.val = x → x ≠ 0 → exec (.cpEnableWrite p q 1) s =
      .next (denied p (0x3600 + q.val / 2) (1 + 32 * (q.val % 2)) 0x08000022 (s.wr (Obj.cpResult q.val) x))) ∧
    ((s.path q.val).on = false → exec (.cpEnableWrite p q 0) s =
      .next (told p (0x3600 + q.val / 2) (1 + 32 * (q.val % 2)) (s.wr (Obj.cpEnable q.val) 0))) ∧
    ((s.conv v.val).on = false → asRefusal s v.val = 0 → Writes (.asEnableWrite p v 1) p s fun t =>
      t.rd (Obj.asEnable v.val) = 1 ∧ t.rd Obj.asResult = 0 ∧ (t.conv v.val).on = true ∧ (t.conv v.val).blocks = 0 ∧
      t.rd (Obj.asState v.val) = (if s.rd (Obj.asMode v.val) = 2 then convLocked else convAcquire) ∧ t.mem = s.mem) ∧
    (∀ x, (s.conv v.val).on = false → asRefusal s v.val = x → x ≠ 0 → x < 0x6000 → exec (.asEnableWrite p v 1) s =
      .next (denied p (0x3800 + v.val) 1 0x08000022 (s.wr Obj.asResult x))) ∧
    ((s.conv v.val).on = false → exec (.asEnableWrite p v 0) s = .next (told p (0x3800 + v.val) 1 (s.wr (Obj.asEnable v.val) 0)))

/-- R195 and R200: a load of an impulse response is admitted with a handle, answered BUSY where none is free, and ends with its
status in a record, 0x5111 for an enabled path; a converter whose loop has held 16 blocks locks and takes the measured ratio. -/
def Sys2Proof.Claims.LoadsAndLocks : Prop :=
  (∀ (p : Path) (s : State), Ready s →
    let q := s.rd Obj.irPath
    (admits s = true → Writes (.irLoadStart p) p s fun t =>
      (∃ h, Issued s t (.irLoad q (s.rd Obj.irSource) (s.rd Obj.irFormat)) p h ∧ t.rd Obj.irHandle = h.word) ∧
      t.rd (Obj.cpState q) = (if (s.path q).on = true then s.rd (Obj.cpState q) else 2) ∧ t.mem = s.mem) ∧
    (admits s = false → exec (.irLoadStart p) s = .next (denied p 0x3680 4 0x08000000 (s.inc Obj.handlesRefused)))) ∧
  (∀ (s : State) (h : Handle) (q source fmt : Nat), s.tidy = true → awake s = true →
    s.handles.find? (fun h => match h.op with
      | .irLoad _ _ _ => true
      | _ => false) = some h →
    h.op = .irLoad q source fmt →
    Does .irLoadComplete s fun t =>
      Posted s t h (loadSpectra q source fmt s).2 0 s.slate ∧
      ((s.path q).on = true → (loadSpectra q source fmt s).2 = 0x5111 ∧ t.rd (Obj.cpState q) = s.rd (Obj.cpState q) ∧
        t.mem = s.mem) ∧
      ((s.path q).on = false → t.rd (Obj.cpState q) = 0 ∧
        ((loadSpectra q source fmt s).2 = 0 → (t.path q).loaded = true))) ∧
  (∀ (v : Fin 16) (s : State), s.tidy = true → awake s = true → s.rd (Obj.asState v.val) = convAcquire → 16 ≤ (s.conv v.val).good →
    let g := groupRate s (s.rd (Obj.asGroup v.val))
    let house := 100 * s.rd (Obj.asRate v.val)
    Does (.asrcLocked v) s fun t =>
      t.rd (Obj.asState v.val) = convLocked ∧
      (s.rd (Obj.asMode v.val) = 0 → t.rd (Obj.asRatio v.val) = house * 2 ^ 24 / g) ∧
      (s.rd (Obj.asMode v.val) = 1 → t.rd (Obj.asRatio v.val) = g * 2 ^ 24 / house) ∧
      (t.conv v.val).blocks = 0 ∧ (t.conv v.val).t0 = s.slate ∧ t.mem = s.mem)

/-! ## Control cores, the supervisor, shared pans and DMA -/

namespace Sys2Proof.Claims

/-- The head descriptor of a channel as the fabric reads it (R272). -/
def headDesc (s : State) (ch : Nat) : List Word := (List.range 8).map fun k => fabRead s (headAddr s ch + 4 * k)

/-- The channel may issue a read beat now: an entry is free and the arbiter serves the channel (R278 to R280). -/
def ReadBeatDue (s : State) (ch : Nat) : Prop :=
  let x := s.dmaCh ch
  dmaIn s ch 1 = true ∧ x.aborting = false ∧ x.rd < dmaTotal x.desc ∧ entryFree s ch = true ∧ dmaTurn s 0 ch = true

/-- The address and length of the next read beat, and of the next write beat. -/
def readBeat (s : State) (ch : Nat) : Nat × Nat :=
  let x := s.dmaCh ch
  let y := sideOf x.desc 0
  (y.at x.rd, min (64 - y.at x.rd % 64) (y.len - x.rd % y.len))
def writeBeat (s : State) (ch : Nat) : Nat × Nat :=
  let x := s.dmaCh ch
  let y := sideOf x.desc 1
  (y.at x.wr, min (64 - y.at x.wr % 64) (y.len - x.wr % y.len))

/-- The bytes of the next write beat are in the buffer, its destination is plain memory that no lane writes in this tick, the access
is allowed and the arbiter serves the channel. -/
def WriteBeatGoes (s : State) (ch : Nat) : Prop :=
  let x := s.dmaCh ch
  let b := writeBeat s ch
  dmaIn s ch 1 = true ∧ x.aborting = false ∧ x.wr < dmaTotal x.desc ∧ x.wr + b.2 ≤ x.rd ∧ dramPaused s b.1 = false ∧
    dmaCheck s ch true b.1 = .ok ∧ (∀ n o, regionOf b.1 ≠ .shadow n o) ∧ dmaTurn s 1 ch = true ∧
    ∀ e ∈ s.panLog, e.addr + 4 ≤ b.1 ∨ b.1 + b.2 ≤ e.addr

/-- A write beat has landed: its bytes, and no other (R278). -/
def BeatLanded (s t : State) (ch : Nat) : Prop :=
  let x := s.dmaCh ch
  let b := writeBeat s ch
  (∀ k, k < b.2 → readByte t.mem (b.1 + k) = bufByte x (x.wr + k)) ∧ SameOutside s t b.1 (b.1 + b.2) ∧
    (t.dmaCh ch).wr = x.wr + b.2 ∧ (t.dmaCh ch).wrTries = 0 ∧ t.rd (Obj.dmaBytes ch) = (s.rd (Obj.dmaBytes ch) + b.2) % 2 ^ 64

end Sys2Proof.Claims

/-- R237 and R238: cores 2 to 7 are held in reset and released to vector 0; cores 0 and 1 refuse; a release needs the core in
reset. -/
def Sys2Proof.Claims.CoreCommands : Prop :=
  ∀ (p : Path) (c : Fin 8) (s : State), Ready s →
    (c.val < 2 → exec (.coreHoldReset p c) s = .next (denied p (0x3A40 + c.val) 2 0x08000022 s) ∧
      exec (.coreRelease p c) s = .next (denied p (0x3A40 + c.val) 2 0x08000022 s)) ∧
    (2 ≤ c.val → Writes (.coreHoldReset p c) p s fun t =>
      t.rd (Obj.coreState c.val) = 0 ∧ (t.core c.val).regs = {} ∧ (t.core c.val).accept = 0xFF ∧
      (t.rd (Obj.coreFaults c.val)).testBit 1 = true ∧
      t.rd (Obj.coreResets c.val) = min (s.rd (Obj.coreResets c.val) + 1) 0xFFFFFFFF ∧ t.mem = s.mem) ∧
    (2 ≤ c.val → s.rd (Obj.coreState c.val) = 0 → exec (.coreRelease p c) s = .next (told p (0x3A40 + c.val) 2
      ((s.setCore c.val { s.core c.val with
        vbase := 0x20000, regs := { (s.core c.val).regs with pc := (iWord s c.val 0x20000).truncate 20 } }).wr
          (Obj.coreState c.val) 1))) ∧
    (2 ≤ c.val → s.rd (Obj.coreState c.val) ≠ 0 →
      exec (.coreRelease p c) s = .next (denied p (0x3A40 + c.val) 2 0x08000022 s)) ∧
    Writes (.coreClearFaults p c) p s (fun t => t.rd (Obj.coreFaults c.val) = 0 ∧ t.cores = s.cores ∧ t.mem = s.mem ∧
      ∀ k, k < 2 → (s.rd (Obj.coreFaults c.val)).testBit k = true →
        (∀ m, m < 8 → m ≠ c.val → (s.rd (Obj.coreFaults m)).testBit k = false) → ∀ a ∈ t.active, a.1.toNat ≠ 0x5021 + k) ∧
    exec (.coreClearResets p c) s = .next (told p (0x3A40 + c.val) 6 (s.wr (Obj.coreResets c.val) 0))

/-- R239: RING pends source 16 + c on the cores of its mask, ICLR clears pending bits, TCMP arms the timer, which pends source 0 once
when the slate has reached it. -/
def Sys2Proof.Claims.InterruptWrites : Prop :=
  ∀ (c : Fin 8) (w : Word) (s : State), s.tidy = true →
    let x := s.core c.val
    (coreRuns s c.val = true → Does (.ring c w) s fun t =>
      (∀ k, k < 8 → t.core k = { s.core k with
        ipend := if w.getLsbD k then (s.core k).ipend ||| BitVec.ofNat 32 (2 ^ (16 + c.val)) else (s.core k).ipend }) ∧
      { t with cores := s.cores } = s) ∧
    (coreRuns s c.val = true → exec (.iclr c w) s = .next (s.setCore c.val { x with ipend := x.ipend &&& ~~~w })) ∧
    (coreRuns s c.val = true → exec (.tcmp c w) s = .next (s.setCore c.val
      { x with tcmp := s.slate.extractLsb' 32 32 ++ w, tArmed := true })) ∧
    (awake s = true → x.tArmed = true → x.tcmp.toNat ≤ s.slate.toNat → exec (.timerCompare c) s =
      .next (s.setCore c.val { x with tArmed := false, ipend := x.ipend ||| 1 })) ∧
    (awake s = false ∨ x.tArmed = false ∨ s.slate.toNat < x.tcmp.toNat → exec (.timerCompare c) s = .next s)

/-- R228, R384 to R386 and R389: a firing held too long is counted and gives its core notice and grace; a core that answers in time
goes on, another is reset; an engine past its limit is reset and its firings run again. -/
def Sys2Proof.Claims.SupervisorCauses : Prop :=
  (∀ (slot : Fin 512) (s : State) (f : Firing), s.tidy = true → awake s = true →
    s.firings.find? (fun f => f.slot == slot.val && f.rung == 0 && f.state == 4 && decide (f.holder < 8) && !f.overdue) = some f →
    Does (.schHoldLimitExpiry slot) s fun t =>
      t.rd Obj.schHoldOver = min (s.rd Obj.schHoldOver + 1) 0xFFFFFFFF ∧ (t.rd Obj.schFaults).testBit 4 = true ∧ t.mem = s.mem ∧
      (2 ≤ f.holder → (s.rd Obj.supPolicy).testBit 1 = true → s.rd (Obj.coreState f.holder) ≠ 4 →
        (t.core f.holder).notice = true ∧ (t.core f.holder).grace = true ∧ (t.core f.holder).regs = (s.core f.holder).regs)) ∧
  (∀ (c : Fin 8) (s : State), s.tidy = true → awake s = true → (s.core c.val).grace = true →
    ((s.core c.val).node = none → s.rd (Obj.coreState c.val) = 2 →
      exec (.supGraceExpiry c) s = .next (s.setCore c.val { s.core c.val with grace := false })) ∧
    (2 ≤ c.val → (s.core c.val).node ≠ none → Does (.supGraceExpiry c) s fun t =>
      t.rd (Obj.coreState c.val) = 1 ∧ (t.core c.val).regs = { ({} : Regs) with pc := (iWord s c.val 0x20000).truncate 20 } ∧
      t.rd (Obj.coreResets c.val) = min (s.rd (Obj.coreResets c.val) + 1) 0xFFFFFFFF ∧
      t.rd Obj.supActions = min (s.rd Obj.supActions + 1) 0xFFFFFFFF ∧ t.mem = s.mem ∧
      ∀ f ∈ t.firings, f.holder = c.val → f.state = 2)) ∧
  (∀ (e : Fin 16) (s : State), s.tidy = true → (s.rd Obj.supPolicy).testBit 2 = true → (runningOn s (0x10 + e.val)).isSome = true →
    Does (.supEngineLimitExpiry (.cx e)) s fun t =>
      t.rd (Obj.cxState e.val) = 0 ∧ t.rd (Obj.cxResets e.val) = min (s.rd (Obj.cxResets e.val) + 1) 0xFFFFFFFF ∧
      t.rd Obj.supActions = min (s.rd Obj.supActions + 1) 0xFFFFFFFF ∧ (∀ f ∈ t.firings, f.holder = 0x10 + e.val → f.state = 2) ∧
      t.mem = s.mem) ∧
  (∀ (s : State), s.tidy = true → (s.rd Obj.supPolicy).testBit 2 = true → (runningOn s 0x20).isSome = true →
    Does (.supEngineLimitExpiry .asrc) s fun t =>
      t.rd Obj.asResets = min (s.rd Obj.asResets + 1) 0xFFFFFFFF ∧ (∀ f ∈ t.firings, f.holder = 0x20 → f.state = 2) ∧ t.mem = s.mem)

/-- R390: each action of SUP_CMD has its effect, writes SUP_RESULT 0 and counts; one whose target refuses answers 0x0800_0022 with its
status. -/
def Sys2Proof.Claims.SupervisorCommands : Prop :=
  ∀ (p : Path) (g : Fin 8) (ch : Fin 32) (c : Fin 8) (e : Engine) (n : Fin 64) (h : BitVec 16) (s : State), Ready s →
    let acts := min (s.rd Obj.supActions + 1) 0xFFFFFFFF
    (s.rd (Obj.pgState g.val) = 1 →
      Writes (.supRevokeClear p g) p s (fun t => t.rd (Obj.pgOwner g.val) = 0 ∧ t.rd (Obj.pgState g.val) = 2 ∧
        (t.pan g.val).newOwner = 0 ∧ (t.pan g.val).revoked = true ∧ t.rd Obj.supResult = 0 ∧ t.rd Obj.supActions = acts ∧
        ((s.pan g.val).compatNow = false → (t.pan g.val).thenClear = true) ∧ t.mem = s.mem) ∧
      Writes (.supRevokeKeep p g) p s (fun t => t.rd (Obj.pgOwner g.val) = 0x7F ∧ t.rd (Obj.pgState g.val) = 2 ∧
        (t.pan g.val).newOwner = 0x7F ∧ (t.pan g.val).thenClear = (s.pan g.val).thenClear ∧ t.rd Obj.supResult = 0 ∧
        t.rd Obj.supActions = acts ∧ t.mem = s.mem)) ∧
    (s.rd (Obj.dmaState ch.val) = dmaIdle → Writes (.supAbortDma p ch) p s fun t =>
      t.rd (Obj.dmaState ch.val) = dmaHalted ∧ t.rd (Obj.dmaLastStatus ch.val) = 0x7004 ∧
      (t.rd (Obj.dmaFaults ch.val)).testBit 3 = true ∧ t.rd Obj.supResult = 0 ∧ t.rd Obj.supActions = acts ∧ t.mem = s.mem) ∧
    (c.val < 2 → exec (.supResetCore p c) s = .next (denied p 0x3A01 5 0x08000022 (s.wr Obj.supResult 0xC021))) ∧
    (2 ≤ c.val → Writes (.supResetCore p c) p s fun t =>
      t.rd (Obj.coreState c.val) = 1 ∧ (t.core c.val).regs = { ({} : Regs) with pc := (iWord s c.val 0x20000).truncate 20 } ∧
      t.rd Obj.supResult = 0 ∧ t.rd Obj.supActions = acts ∧ t.mem = s.mem) ∧
    Writes (.supResetEngine p e) p s (fun t =>
      (∀ f ∈ t.firings, f.holder = holderOf e → f.state = 2) ∧ t.rd Obj.supResult = 0 ∧ t.rd Obj.supActions = acts ∧
      t.mem = s.mem) ∧
    (laneSt s n.val = laneArmed → Writes (.supForceSafe p n) p s fun t =>
      laneSt t n.val = laneSafe ∧ (t.lane n.val).ran = false ∧ (t.rd (Obj.laneFaults n.val)).testBit 8 = true ∧
      t.rd Obj.supResult = 0 ∧ t.rd Obj.supActions = acts ∧ t.mem = s.mem) ∧
    (laneSt s n.val = laneSafe → exec (.supReleaseSafe p n) s = .next (told p 0x3A01 5
      (((s.inc Obj.supActions).wr (Obj.laneState n.val) laneArmed).wr Obj.supResult 0))) ∧
    (handleValid h.toNat = true → findHandle s h.toNat = none → exec (.supCancelHandle p h) s =
      .next (denied p 0x3A01 5 0x08000022 (s.wr Obj.supResult 0xC022))) ∧
    (∀ k q src fmt, handleValid h.toNat = true → findHandle s h.toNat = some k → k.op = .irLoad q src fmt →
      Writes (.supCancelHandle p h) p s (fun t => Posted s t k 0xB103 0 s.slate ∧
        ((s.path q).on = false → t.rd (Obj.cpState q) = 0) ∧
        t.rd Obj.supResult = 0 ∧ t.rd Obj.supActions = acts ∧ t.mem = s.mem) ∧
      Writes (.handleCancelWrite p h) p s (fun t => Posted s t k 0xB102 0 s.slate ∧
        ((s.path q).on = false → t.rd (Obj.cpState q) = 0) ∧
        t.rd Obj.supActions = s.rd Obj.supActions ∧ t.mem = s.mem)) ∧
    (handleValid h.toNat = true → findHandle s h.toNat = none →
      exec (.handleCancelWrite p h) s = .next (denied p 0x5F00 5 0x08000022 s))

/-- R257 and R259 to R263: a pan group that is ON takes a new owner through a handover, and through a clear where it was revoked, whose
last rows are zero when it ends; a group in use keeps its power; a group powered up in native mode reads as zero. -/
def Obligations.PanGroups : Prop :=
  ∀ (p : Path) (g : Fin 8) (v : Byte) (s : State), s.tidy = true →
    let k := g.val
    let i := 0x3410 + k
    let x := s.pan k
    let st := s.rd (Obj.pgState k)
    (Ready s → ownerGood v.toNat = true → st = 1 → exec (.pgOwnerWrite p g v) s = .next (told p i 1
      (((s.wr (Obj.pgOwner k) v.toNat).setPan k { x with newOwner := v }).wr (Obj.pgState k) 2))) ∧
    (Ready s → ownerGood v.toNat = true → st = 2 ∨ st = 3 → exec (.pgOwnerWrite p g v) s = .next (denied p i 1 0x08000022 s)) ∧
    (Ready s → ownerGood v.toNat = false → exec (.pgOwnerWrite p g v) s = .next (denied p i 1 0x06090030 s)) ∧
    (awake s = true → st = 2 → x.thenClear = false → Does (.pgHandoverComplete g) s fun t =>
      t.rd (Obj.pgState k) = 1 ∧ (t.pan k).code = x.newOwner ∧ (t.pan k).revoked = false ∧
      t.rd (Obj.pgHandovers k) = min (s.rd (Obj.pgHandovers k) + 1) 0xFFFFFFFF ∧ t.mem = s.mem) ∧
    (awake s = true → st = 2 → x.thenClear = true → exec (.pgHandoverComplete g) s =
      .next ((s.setPan k { x with clearing := true, clearRow := 0 }).wr (Obj.pgState k) 3)) ∧
    (st = 3 → x.clearing = true → awake s = true → Does (.pgGroupClearComplete g) s fun t =>
      t.rd (Obj.pgState k) = 1 ∧ (t.pan k).code = x.newOwner ∧ (t.pan k).clearing = false ∧
      (∀ a, groupLo k + 32 * x.clearRow ≤ a → a < groupLo (k + 1) → readByte t.mem a = 0) ∧
      SameOutside s t (groupLo k + 32 * x.clearRow) (groupLo (k + 1))) ∧
    (Ready s → st = 1 → groupInUse s k = false → exec (.pgPowerOff p g) s = .next (told p i 3
      (((s.setPan k { x with compatNow := s.rd (Obj.pgCompat k) == 1, powering := true }).wr (Obj.pgPower k) 0).wr
        (Obj.pgState k) 0))) ∧
    (Ready s → st = 1 → groupInUse s k = true → exec (.pgPowerOff p g) s = .next (denied p i 3 0x08000022 s)) ∧
    (Ready s → st = 0 → s.rd (Obj.pgCompat k) = 0 → Writes (.pgPowerOn p g) p s fun t =>
      t.rd (Obj.pgPower k) = 1 ∧ t.rd (Obj.pgState k) = 3 ∧ (t.pan k).powering = true ∧ (t.pan k).compatNow = false ∧
      (∀ a, groupLo k ≤ a → a < groupLo (k + 1) → readByte t.mem a = 0) ∧ SameOutside s t (groupLo k) (groupLo (k + 1))) ∧
    (Ready s → s.rd (Obj.pgCompat k) = 0 → exec (.pgPowerRetention p g) s = .next (denied p i 3 0x06090030 s)) ∧
    (Ready s → st = 1 → s.rd (Obj.pgCompat k) = 1 → groupInUse s k = false → exec (.pgPowerRetention p g) s = .next (told p i 3
      (((s.setPan k { x with compatNow := true, powering := true }).wr (Obj.pgPower k) 2).wr (Obj.pgState k) 4))) ∧
    (x.powering = true → awake s = true → st = 3 → x.revoked = false → exec (.pgPowerTransitionComplete g) s =
      .next ((s.setPan k { x with powering := false }).wr (Obj.pgState k) 1)) ∧
    (Ready s → Writes (.pgClear p g) p s fun t =>
      let rs := [Obj.pgClashes k, Obj.pgRefused k, Obj.pgHandovers k]
      (∀ r ∈ rs, t.rd r = 0) ∧ RegsBut s t rs ∧ { t with od := s.od, answers := s.answers } = s)

/-- R273, R274, R283, R284 and R287: the enable of a DMA channel, its kick, restart, skip and abort, and its clears. -/
def Sys2Proof.Claims.DmaControls : Prop :=
  ∀ (p : Path) (ch : Fin 32) (s : State), Ready s →
    let k := ch.val
    let i := 0x3210 + k
    let x := s.dmaCh k
    let st := s.rd (Obj.dmaState k)
    let good := ringGood (s.rd (Obj.dmaRingBase k)) (s.rd (Obj.dmaRingSize k))
    (st = dmaOff → good = true → Writes (.dmaEnableWrite p ch 1) p s fun t =>
      t.rd (Obj.dmaState k) = dmaIdle ∧ t.rd (Obj.dmaHead k) = 0 ∧ t.rd (Obj.dmaBytes k) = 0 ∧ t.rd (Obj.dmaEnable k) = 1 ∧
      t.dmaCh k = {} ∧ t.mem = s.mem) ∧
    (st = dmaOff → good = false → exec (.dmaEnableWrite p ch 1) s =
      .next (denied p i 6 0x08000022 (s.wr (Obj.dmaLastStatus k) 0x7101))) ∧
    (st = dmaActive → exec (.dmaEnableWrite p ch 0) s = .next (denied p i 6 0x08000022 s)) ∧
    (st = dmaIdle ∨ st = dmaHalted → exec (.dmaEnableWrite p ch 0) s = .next (told p i 6
      (((s.setDma k {}).wr (Obj.dmaState k) dmaOff).wr (Obj.dmaEnable k) 0))) ∧
    (st = dmaIdle → x.waitRd = false → dmaRuns s = true → dmaCheck s k false (headAddr s k) = .ok →
      ((headDesc s k).headD 0).getLsbD 31 = true → descGood (headDesc s k) = true → Writes (.dmaKick p ch) p s fun t =>
        t.rd (Obj.dmaState k) = dmaActive ∧ (t.dmaCh k).desc = headDesc s k ∧ (t.dmaCh k).phase = 1 ∧ (t.dmaCh k).rd = 0 ∧
        (t.dmaCh k).wr = 0 ∧ t.mem = s.mem) ∧
    (st ≠ dmaIdle → exec (.dmaKick p ch) s = .next (told p i 7 s)) ∧
    (st = dmaIdle → Writes (.dmaAbort p ch) p s fun t =>
      t.rd (Obj.dmaState k) = dmaHalted ∧ t.rd (Obj.dmaLastStatus k) = 0x7005 ∧ t.rd (Obj.dmaFaults k) = s.rd (Obj.dmaFaults k) ∧
      t.mem = s.mem) ∧
    (st = dmaActive → x.aborting = false → x.phase = 1 → x.issSt = false → exec (.dmaAbort p ch) s = .next (told p i 7
      (s.setDma k { x with
        aborting := true, abortSup := false, buf := if x.issWr = true then x.buf else []
        issRd := false, waitRd := false, waitWr := false }))) ∧
    (st = dmaActive → x.aborting = false → x.issSt = true → exec (.dmaAbort p ch) s = .next (told p i 7
      (s.setDma k { x with aborting := true, abortSup := false }))) ∧
    (st = dmaHalted → exec (.dmaRestart p ch) s = .next (told p i 7 ((s.setDma k {}).wr (Obj.dmaState k) dmaIdle))) ∧
    (st ≠ dmaHalted → exec (.dmaRestart p ch) s = .next (denied p i 7 0x08000022 s) ∧
      exec (.dmaSkip p ch) s = .next (denied p i 7 0x08000022 s)) ∧
    (st = dmaHalted → dmaCheck s k true (headAddr s k) = .ok → Writes (.dmaSkip p ch) p s fun t =>
      t.rd (Obj.dmaState k) = dmaIdle ∧ t.rd (Obj.dmaHead k) = (s.rd (Obj.dmaHead k) + 1) % s.rd (Obj.dmaRingSize k) ∧
      readByte t.mem (headAddr s k + 3) = readByte s.mem (headAddr s k + 3) &&& 0x7F ∧
      SameOutside s t (headAddr s k + 3) (headAddr s k + 4)) ∧
    Writes (.dmaClearFaults p ch) p s (fun t => t.rd (Obj.dmaFaults k) = 0 ∧ t.dma = s.dma ∧ t.mem = s.mem ∧
      ∀ b, b < 4 → (s.rd (Obj.dmaFaults k)).testBit b = true →
        (∀ m, m < 32 → m ≠ k → (s.rd (Obj.dmaFaults m)).testBit b = false) → ∀ a ∈ t.active, a.1.toNat ≠ 0x7001 + b) ∧
    Writes (.dmaClearCounters p ch) p s (fun t =>
      let rs := [Obj.dmaDone k, Obj.dmaBytes k, Obj.dmaRetried k]
      (∀ r ∈ rs, t.rd r = 0) ∧ RegsBut s t rs ∧ { t with od := s.od, answers := s.answers } = s)

/-- R267, R272, R277, R278 and R280 to R283: a DMA channel that the arbiter serves takes an owned descriptor, moves bytes beat by beat to the addresses that the
descriptor gives and to no other, and ends with its status, OWN cleared and the head moved on; a channel of priority 3 goes before
the others. -/
def Sys2Proof.Claims.DmaTransfers : Prop :=
  ∀ (ch : Fin 32) (s : State), s.tidy = true →
    let k := ch.val
    let x := s.dmaCh k
    let a := headAddr s k
    (dmaTurn s 0 k = true → s.rd (Obj.dmaState k) = dmaIdle → x.waitRd = false → dmaCheck s k false a = .ok →
      (((headDesc s k).headD 0).getLsbD 31 = true → descGood (headDesc s k) = true → Does (.dmaHeadPoll ch) s fun t =>
        t.rd (Obj.dmaState k) = dmaActive ∧ (t.dmaCh k).desc = headDesc s k ∧ (t.dmaCh k).phase = 1 ∧ t.mem = s.mem) ∧
      (((headDesc s k).headD 0).getLsbD 31 = true → descGood (headDesc s k) = false → dmaCheck s k true a = .ok →
        Does (.dmaHeadPoll ch) s fun t =>
          t.rd (Obj.dmaState k) = dmaHalted ∧ t.rd (Obj.dmaLastStatus k) = 0x7002 ∧ (t.rd (Obj.dmaFaults k)).testBit 1 = true) ∧
      (((headDesc s k).headD 0).getLsbD 31 = false → exec (.dmaHeadPoll ch) s =
        .next ((arbTake 0 k s).setDma k { x with rdTries := 0, waitRd := false }))) ∧
    (ReadBeatDue s k → x.waitRd = false → dmaCheck s k false (readBeat s k).1 = .ok →
      readFails s [readBeat s k] = true → x.rdTries < s.rd (Obj.dmaRetries k) → Does (.dmaReadBeat ch) s fun t =>
        (t.dmaCh k).waitRd = true ∧ (t.dmaCh k).rd = x.rd ∧ t.mem = s.mem) ∧
    (ReadBeatDue s k → x.waitRd = false → dmaCheck s k false (readBeat s k).1 = .ok → dramHits s [readBeat s k] = [] →
      Does (.dmaReadBeat ch) s fun t =>
        t.dmaCh k = { x with
          buf := x.buf ++ [⟨x.rd, (List.range (readBeat s k).2).map fun j => readByte s.mem (physAddr s ((readBeat s k).1 + j))⟩]
          rd := x.rd + (readBeat s k).2, rdTries := 0, issRd := false } ∧
        { t with dma := s.dma, dmaArb := s.dmaArb } = s) ∧
    (dmaTurn s 0 k = false → exec (.dmaHeadPoll ch) s = .next s ∧ exec (.dmaReadBeat ch) s = .next s) ∧
    (dmaTurn s 1 k = false → exec (.dmaWriteBeat ch) s = .next s ∧ exec (.dmaStatusWriteback ch) s = .next s ∧
      exec (.dmaOwnClear ch) s = .next s) ∧
    (∀ e c, c < 32 → hasWork s e c = true → s.rd (Obj.dmaPrio c) = 3 → s.rd (Obj.dmaPrio k) ≠ 3 → dmaTurn s e k = false) ∧
    (WriteBeatGoes s k → x.waitWr = false → Does (.dmaWriteBeat ch) s fun t => BeatLanded s t k) ∧
    (WriteBeatGoes s k → x.waitWr = true → Does (.dmaBeatRetry ch) s fun t => BeatLanded s t k ∧ (t.dmaCh k).waitWr = false ∧
      t.rd (Obj.dmaRetried k) = min (s.rd (Obj.dmaRetried k) + 1) 0xFFFFFFFF) ∧
    (ReadBeatDue s k → x.waitRd = true → x.waitWr = false → dmaCheck s k false (readBeat s k).1 = .ok →
      readFails s [readBeat s k] = false →
      Does (.dmaBeatRetry ch) s fun t => (t.dmaCh k).rd = x.rd + (readBeat s k).2 ∧ (t.dmaCh k).waitRd = false ∧
        t.rd (Obj.dmaRetried k) = min (s.rd (Obj.dmaRetried k) + 1) 0xFFFFFFFF ∧ t.mem = s.mem) ∧
    (dmaIn s k 1 = true → dmaTurn s 1 k = true → x.aborting = false → x.waitWr = false → x.wr = dmaTotal x.desc → dmaCheck s k true a = .ok →
      Does (.dmaStatusWriteback ch) s fun t =>
        t.memWord (a + 4) = BitVec.ofNat 32 x.retryMax ∧ SameOutside s t (a + 4) (a + 8) ∧ (t.dmaCh k).phase = 2) ∧
    (dmaIn s k 4 = true → dmaTurn s 1 k = true → x.waitWr = false → dmaCheck s k true a = .ok →
      Does (.dmaStatusWriteback ch) s fun t =>
        t.memWord (a + 4) = BitVec.ofNat 32 ((0x7000 + x.halt.1) * 0x10000 + x.halt.2 * 8 + x.retryMax) ∧
        SameOutside s t (a + 4) (a + 8) ∧ t.rd (Obj.dmaState k) = dmaHalted ∧ t.rd (Obj.dmaLastStatus k) = 0x7000 + x.halt.1) ∧
    (dmaIn s k 2 = true → dmaTurn s 1 k = true → x.waitWr = false → dmaCheck s k true a = .ok → Does (.dmaOwnClear ch) s fun t =>
      readByte t.mem (a + 3) = readByte s.mem (a + 3) &&& 0x7F ∧ SameOutside s t (a + 3) (a + 4) ∧ (t.dmaCh k).phase = 3) ∧
    (dmaIn s k 3 = true → x.aborting = false → quiet s = false →
      let next := s.rd (Obj.dmaRingBase k) + 32 * ((s.rd (Obj.dmaHead k) + 1) % s.rd (Obj.dmaRingSize k))
      dmaCheck s k false next = .ok → (fabRead s next).getLsbD 31 = false → Does (.dmaHeadAdvance ch) s fun t =>
        t.rd (Obj.dmaHead k) = (s.rd (Obj.dmaHead k) + 1) % s.rd (Obj.dmaRingSize k) ∧ t.rd (Obj.dmaState k) = dmaIdle ∧
        t.rd (Obj.dmaDone k) = min (s.rd (Obj.dmaDone k) + 1) 0xFFFFFFFF ∧ t.rd (Obj.dmaLastStatus k) = 0 ∧ t.mem = s.mem ∧
        ((x.desc.headD 0).getLsbD 30 = true → ∀ c, c < 8 → (t.core c).ipend = (s.core c).ipend ||| 0x20)) ∧
    (dmaIn s k 1 = true → x.aborting = true → x.abortSup = false → x.issSt = false → x.issWr = false → ringWritable s k = true → Does (.dmaAbortSettle ch) s fun t =>
      t.memWord (a + 4) = BitVec.ofNat 32 (0x70050000 + x.retryMax) ∧ SameOutside s t (a + 4) (a + 8) ∧
      t.rd (Obj.dmaState k) = dmaHalted ∧ t.rd (Obj.dmaLastStatus k) = 0x7005)

/-! ## The field network, the stores, the handles and the codec port -/

namespace Sys2Proof.Claims

/-- The pending reset cause when cause `c` comes too: the lower number comes first. -/
def earlier (c : Nat) : Option Nat → Nat
  | none => c
  | some k => min k c

/-- The module has sent the messages `ms` since `s`. -/
def Sent (s t : State) (ms : List CanMsg) : Prop := t.can.sent = s.can.sent ++ ms

/-- TPDO `k` alone may be sent now: it is on, of type `ty`, not inhibited, its sample changes nothing, and no other TPDO is on. -/
def OnlyTpdo (s : State) (k : Nat) : Prop :=
  k < 15 ∧ pdoOn s false k = true ∧ (∀ j, j < 15 → j ≠ k → pdoOn s false j = false) ∧ s.rd (Obj.tpdoInhibit k) = 0 ∧
    s.can.tpdoBlock = [] ∧ (samplePdo (pdoMap s false k) s).2 = s

/-- The bytes that TPDO `k` samples now. -/
def sampleOf (s : State) (k : Nat) : List Byte := (samplePdo (pdoMap s false k) s).1

/-- A command of the process data completes; where PDOs do not run it changes nothing but the network's own state (R297). -/
def Ends (i : Instr) (s : State) : Prop :=
  Does i s fun t => canPdo s = false → t.mem = s.mem ∧ t.od = s.od ∧ t.lanes = s.lanes

/-- The identity of 0x1018 matches the arguments of an LSS service. -/
def IdentityIs (v p r n : Word) : Prop :=
  v.toNat = identityWord 1 ∧ p.toNat = identityWord 2 ∧ r.toNat = identityWord 3 ∧ n.toNat = identityWord 4

end Sys2Proof.Claims

/-- R240, R293 and R294: the controller pends source 2 on a frame; a segment that others follow is kept for its client; the last one
writes and is answered; an object that does not exist answers its abort code and changes nothing; a client beyond the four sessions
is answered BUSY. -/
def Obligations.UsdoAccess : Prop :=
  ∀ (client : Byte) (index : BitVec 16) (sub : Byte) (data : List Byte) (s : State), s.tidy = true → canServes s = true →
    let h := canHeard s
    let key := index.toNat * 256 + sub.toNat
    let bs := sessionBytes s client key ++ data
    ((∀ k, k < 8 → (h.core k).ipend.getLsbD 2 = true) ∧ { h with cores := s.cores } = s) ∧
    (sessionFree s client = true → Does (.usdoDownload client index sub data true) s fun t =>
      sessionBytes t client key = bs ∧ Sent s t [.usdo client 0 []] ∧ { t with can := s.can } = h) ∧
    (∀ u a, NoneWaits s → sessionFree s client = true →
      dictWrite (pathCode .field) index.toNat sub.toNat bs (endSession client h) = (u, a) →
      exec (.usdoDownload client index sub data false) s =
        .next (canSend (.usdo client (BitVec.ofNat 32 a) []) (answer (pathCode .field) key a [] u))) ∧
    (∀ a, NoneWaits s → sessionFree s client = true → lookup index.toNat sub.toNat = .error a →
      Does (.usdoDownload client index sub data false) s (fun t =>
        Sent s t [.usdo client (BitVec.ofNat 32 a) []] ∧ { t with can := s.can, answers := s.answers } = h) ∧
      Does (.usdoUpload client index sub) s (fun t =>
        Sent s t [.usdo client (BitVec.ofNat 32 a) []] ∧ { t with can := s.can, answers := s.answers } = h)) ∧
    (∀ r, NoneWaits s → sessionFree s client = true → lookup index.toNat sub.toNat = .ok r → r.acc ≠ .wo → index.toNat ≠ 0x3C60 →
      Does (.usdoUpload client index sub) s fun t =>
        Sent s t [.usdo client 0 (objBytes (endSession client h) (pathCode .field) (selected s (pathCode .field) index.toNat) r
          index.toNat sub.toNat)] ∧ { t with can := s.can, answers := s.answers } = h) ∧
    (sessionFree s client = false → ∀ more, Does (.usdoDownload client index sub data more) s fun t =>
      Sent s t [.usdo client 0x08000000 []] ∧ { t with can := s.can } = h) ∧
    (s.can.sessions.any (fun x => x.1 == client) = true → Does (.usdoIdleTimeout client) s fun t =>
      Sent s t [.usdo client 0x05040000 []] ∧ (∀ x ∈ t.can.sessions, x.1 ≠ client) ∧ { t with can := s.can } = s)

/-- R294, R296 and R310: a synchronous RPDO waits for the SYNC and then takes effect; an event-driven one takes effect whole where no
entry carries a reserved encoding, and one that is too short is discarded whole; a synchronous TPDO is sent at the SYNC, an
event-driven one when its value changes or its timer ends, and a held one after its inhibit time; a SYNC whose COB-ID is invalid is
neither taken nor produced. Each of these commands completes in every state. -/
def Obligations.ProcessData : Prop :=
  ∀ (k : Fin 16) (data : List Byte) (c : Option Byte) (s : State), s.tidy = true →
    let h := canHeard s
    let m := pdoMap h true k.val
    let es := splitPdo m data
    (Ends (.rpdoReceive k data) s ∧ Ends (.syncReceive c) s ∧ Ends .syncProduce s ∧ Ends .tpdoValueSample s ∧
      Ends (.tpdoEventTimer k) s ∧ Ends (.tpdoInhibitTimeExpiry k) s ∧ Ends .completionTpdoSend s) ∧
    (canPdo s = true → pdoOn s true k.val = true → s.rd (Obj.rpdoType k.val) ≤ 240 → exec (.rpdoReceive k data) s =
      .next { h with can := { s.can with heldRpdo := (s.can.heldRpdo.filter fun x => x.1 != k.val) ++ [(k.val, data)] } }) ∧
    (∀ u as, NoneWaits s → canPdo s = true → pdoOn s true k.val = true → 240 < s.rd (Obj.rpdoType k.val) →
      sumBy mapBits m ≤ 8 * data.length → applyPdo es h = (u, as) →
      (∀ a ∈ checkPdo es h ++ as, a ≠ abValue ∧ a ≠ abGuard) → exec (.rpdoReceive k data) s = .next u) ∧
    (NoneWaits s → canPdo s = true → pdoOn s true k.val = true → 240 < s.rd (Obj.rpdoType k.val) →
      8 * data.length < sumBy mapBits m → Does (.rpdoReceive k data) s fun t =>
        t.mem = s.mem ∧ t.lanes = s.lanes ∧ (0xB004, 0) ∈ t.onceKeys ∧ ∀ q : Reg, q.key / 256 ≠ 0x3A00 → t.rd q = s.rd q) ∧
    (∀ u as, NoneWaits s → canPdo s = true → syncValid s = true → syncGood s c = true → (∀ j, j < 15 → pdoOn s false j = false) →
      s.can.heldRpdo = [(k.val, data)] → sumBy mapBits m ≤ 8 * data.length →
      applyPdo es { h with can := { s.can with heldRpdo := [] } } = (u, as) →
      (∀ a ∈ checkPdo es { h with can := { s.can with heldRpdo := [] } } ++ as, a ≠ abValue ∧ a ≠ abGuard) →
      exec (.syncReceive c) s = .next u) ∧
    (s.can.nmt = nmtPreOp ∨ syncValid s = false ∨ syncGood s c = false → exec (.syncReceive c) s = .next h) ∧
    (let h1 : State := { h with can := { s.can with tpdoDirty := s.can.tpdoDirty.filter (· != k.val) } };
      canPdo s = true → syncValid s = true → syncGood s c = true → OnlyTpdo h1 k.val → s.rd (Obj.tpdoType k.val) = 1 →
      s.can.heldRpdo = [] → Does (.syncReceive c) s fun t =>
        Sent s t [.tpdo (k.val + 1) (sampleOf h1 k.val)] ∧ { t with can := s.can } = h) ∧
    (canServes s = true → syncValid s = true → s.can.nmt = nmtPreOp → (s.rd Obj.cobSync).testBit 30 = true →
      0 < s.rd Obj.syncPeriod → Does .syncProduce s fun t =>
        (s.rd Obj.syncOverflow = 0 → Sent s t [.sync none]) ∧
        (0 < s.rd Obj.syncOverflow → Sent s t [.sync (some (BitVec.ofNat 8 (s.can.syncCount % s.rd Obj.syncOverflow + 1)))] ∧
          t.can.syncCount = s.can.syncCount % s.rd Obj.syncOverflow + 1) ∧
        { t with can := s.can } = s) ∧
    (syncValid s = false → exec .syncProduce s = .next s) ∧
    (canPdo s = true → OnlyTpdo s k.val → 254 ≤ s.rd (Obj.tpdoType k.val) → lastSample s k.val ≠ some (sampleOf s k.val) →
      Does .tpdoValueSample s fun t => Sent s t [.tpdo (k.val + 1) (sampleOf s k.val)] ∧
        lastSample t k.val = some (sampleOf s k.val) ∧ { t with can := s.can } = s) ∧
    (canPdo s = true → OnlyTpdo s k.val → 254 ≤ s.rd (Obj.tpdoType k.val) → 0 < s.rd (Obj.tpdoEventTimer k.val) →
      Does (.tpdoEventTimer k) s fun t => Sent s t [.tpdo (k.val + 1) (sampleOf s k.val)] ∧ { t with can := s.can } = s) ∧
    (let b : State := { s with can := { s.can with tpdoBlock := s.can.tpdoBlock.filter (· != k.val) } };
      (s.can.tpdoHeld.contains k.val = false → exec (.tpdoInhibitTimeExpiry k) s = .next b) ∧
      (s.can.tpdoHeld.contains k.val = true → canPdo s = true → k.val < 15 → pdoOn s false k.val = true →
        254 ≤ s.rd (Obj.tpdoType k.val) → (samplePdo (pdoMap b false k.val) b).2 = b → Does (.tpdoInhibitTimeExpiry k) s fun t =>
          Sent s t [.tpdo (k.val + 1) (sampleOf b k.val)] ∧ t.can.tpdoHeld.contains k.val = false ∧ { t with can := s.can } = s)) ∧
    (∀ r rest, canPdo s = true → (cobValue s (Obj.tpdoCob 15)).testBit 31 = false → s.can.tpdoBlock.contains 15 = false →
      s.can.tpdo16 = r :: rest → Does .completionTpdoSend s fun t =>
        Sent s t [.tpdo 16 (recordBytes r)] ∧ t.can.tpdo16 = rest ∧ { t with can := s.can } = s)

/-- R297, R359 and R308: the NMT commands for this node or for all set its state; reset-node waits for the outputs to fade;
reset-communication returns the communication objects to their stored values and says so in RESET_CAUSE; a command for another node
does nothing. -/
def Sys2Proof.Claims.NmtCommands : Prop :=
  ∀ (node : Byte) (s : State), s.tidy = true →
    let h := canHeard s
    (nmtFor s node = true →
      exec (.nmtStartRemoteNode node) s = .next { h with can := { s.can with nmt := 5 } } ∧
      exec (.nmtStopRemoteNode node) s = .next { h with can := { s.can with nmt := 4 } } ∧
      exec (.nmtEnterPreOperational node) s = .next { h with can := { s.can with nmt := 127 } } ∧
      exec (.nmtResetNode node) s = .next { h with boot := { s.boot with pending := some (earlier 6 s.boot.pending) } }) ∧
    (nmtFor s node = false →
      exec (.nmtStartRemoteNode node) s = .next h ∧ exec (.nmtStopRemoteNode node) s = .next h ∧
      exec (.nmtEnterPreOperational node) s = .next h ∧ exec (.nmtResetNode node) s = .next h ∧
      exec (.nmtResetCommunication node) s = .next h) ∧
    (nmtFor s node = true → s.boot.pending = none → Does (.nmtResetCommunication node) s fun t =>
      t.rd Obj.resetCause = 7 ∧ t.can.sessions = [] ∧ t.can.heldRpdo = [] ∧ t.mem = s.mem ∧ t.lanes = s.lanes ∧ t.ports = s.ports ∧
      (currentSet s = [] → t.rd Obj.prodHeartbeat = 0 ∧ t.rd (Obj.rpdoMapCount 0) = 0))

/-- R298, R299 and R351: the LSS services. The command specifiers and error codes are those of CiA 305, which the model presumes. -/
def Obligations.LssServices : Prop :=
  ∀ (node table index cs mode : Byte) (delay : BitVec 16) (v p r n rl rh nl nh : Word) (s : State), s.tidy = true → canUp s = true →
    let h := canHeard s
    (mode.toNat ≤ 1 → exec (.lssSwitchStateGlobal mode) s = .next { h with can := { s.can with lssConfig := mode == 1 } }) ∧
    (IdentityIs v p r n → Does (.lssSwitchStateSelective v p r n) s fun t =>
      t.can.lssConfig = true ∧ Sent s t [.lss 0x44 []] ∧ { t with can := s.can } = h) ∧
    (¬ IdentityIs v p r n → exec (.lssSwitchStateSelective v p r n) s = .next h) ∧
    (s.can.lssConfig = false → exec (.lssConfigureNodeId node) s = .next h ∧ exec (.lssConfigureBitTiming table index) s = .next h ∧
      exec (.lssActivateBitTiming delay) s = .next h ∧ exec .lssStoreConfiguration s = .next h ∧
      exec (.lssInquireIdentity cs) s = .next h) ∧
    (s.can.lssConfig = true → nodeIdGood node.toNat = true → Does (.lssConfigureNodeId node) s fun t =>
      t.rd Obj.nodeId = guardOf node.toNat ∧ t.rd Obj.nodeIdActive = s.rd Obj.nodeIdActive ∧ Sent s t [.lss 0x11 [0, 0]]) ∧
    (s.can.lssConfig = true → nodeIdGood node.toNat = false → Does (.lssConfigureNodeId node) s fun t =>
      Sent s t [.lss 0x11 [1, 0]] ∧ { t with can := s.can } = h) ∧
    (∀ c, s.can.lssConfig = true → lssRateCode table index = some c → Does (.lssConfigureBitTiming table index) s fun t =>
      t.rd Obj.bitRate = guardOf (16 * c + guardVal (s.rd Obj.bitRate) % 16) ∧ t.can.rate = s.can.rate ∧
      Sent s t [.lss 0x13 [0, 0]]) ∧
    (s.can.lssConfig = true → lssRateCode table index = none → Does (.lssConfigureBitTiming table index) s fun t =>
      Sent s t [.lss 0x13 [1, 0]] ∧ { t with can := s.can } = h) ∧
    (s.can.lssConfig = true → guardGood (s.rd Obj.bitRate) = true → exec (.lssActivateBitTiming delay) s =
      .next { h with can := { s.can with rate := BitVec.ofNat 8 (guardVal (s.rd Obj.bitRate)) } }) ∧
    (s.can.lssConfig = true → guardGood (s.rd Obj.bitRate) = false → Does (.lssActivateBitTiming delay) s fun t =>
      t.can.silent = true ∧ t.can.rate = s.can.rate ∧ t.mem = s.mem ∧ ∃ a ∈ t.active, a.1 = 0x9001) ∧
    (s.can.lssConfig = true → s.rd Obj.holdSafe ≠ 1 → Does .lssStoreConfiguration s fun t =>
      Sent s t [.lss 0x17 [0, 0]] ∧ (currentSet t).get Obj.nodeId.dflt Obj.nodeId.key = s.rd Obj.nodeId ∧
      (currentSet t).get Obj.bitRate.dflt Obj.bitRate.key = s.rd Obj.bitRate ∧ t.od = s.od) ∧
    (s.can.lssConfig = true → s.rd Obj.holdSafe = 1 → Does .lssStoreConfiguration s fun t =>
      Sent s t [.lss 0x17 [2, 0]] ∧ { t with can := s.can } = h) ∧
    (s.can.lssConfig = true → 0x5A ≤ cs.toNat → cs.toNat ≤ 0x5D → Does (.lssInquireIdentity cs) s fun t =>
      Sent s t [.lss cs (leBytes 4 (identityWord (cs.toNat - 0x59)))] ∧ { t with can := s.can } = h) ∧
    (v.toNat = identityWord 1 → p.toNat = identityWord 2 → rl.toNat ≤ identityWord 3 → identityWord 3 ≤ rh.toNat →
      nl.toNat ≤ identityWord 4 → identityWord 4 ≤ nh.toNat → Does (.lssIdentifyRemoteSlave v p rl rh nl nh) s fun t =>
        Sent s t [.lss 0x4F []] ∧ { t with can := s.can } = h) ∧
    (activeNode s = 0xFF → Does .lssIdentifyNonConfiguredSlave s fun t => Sent s t [.lss 0x50 []] ∧ { t with can := s.can } = h) ∧
    (activeNode s ≠ 0xFF → exec .lssIdentifyNonConfiguredSlave s = .next h)

/-- R301, R302 and R314: the oldest EMCY message is sent first; a monitored node that falls silent and a bus-off take the behaviour
that 0x1029 selects; the error field is emptied by a write of 0. -/
def Sys2Proof.Claims.NetworkErrors : Prop :=
  ∀ (p : Path) (node : Byte) (i : Fin 4) (s : State), s.tidy = true →
    let after := if s.rd Obj.errBehaviour = 0 ∧ s.can.nmt = nmtOp then nmtPreOp
      else if s.rd Obj.errBehaviour = 2 ∧ s.can.nmt ≠ 0 then nmtStopped else s.can.nmt
    (∀ m ms, canServes s = true → s.can.emcy = m :: ms → s.can.emcyOwed = false → Does .emcyTransmit s fun t =>
      Sent s t [.emcy m] ∧ t.can.emcy = ms ∧ { t with can := s.can } = s) ∧
    (canUp s = true → s.can.nmt ≠ 0 → 0 < s.rd Obj.prodHeartbeat → Does .heartbeatProduce s fun t =>
      Sent s t [.heartbeat (BitVec.ofNat 8 (activeNode s)) s.can.nmt] ∧ { t with can := s.can } = s) ∧
    (canUp s = true → s.can.nmt ≠ 0 → consNode s i.val = node.toNat → consTime s i.val ≠ 0 → Does (.heartbeatReceive node) s fun t =>
      i.val ∈ t.can.monitored ∧ (∀ j ∈ s.can.monitored, j ∈ t.can.monitored) ∧ { t with can := s.can } = canHeard s) ∧
    (canUp s = true → i.val ∈ s.can.monitored → consTime s i.val ≠ 0 → Does (.heartbeatTimeout i) s fun t =>
      i.val ∉ t.can.monitored ∧ t.can.nmt = after ∧ t.mem = s.mem ∧
      ((0xB003, 0) ∉ s.onceKeys → t.rd Obj.fltLast = 0xB003 ∨ t.rd Obj.fltLast = 0xB005)) ∧
    (canUp s = true → Does .busOff s fun t => t.can.busOff = true ∧ t.can.nmt = after ∧ t.mem = s.mem) ∧
    (awake s = true → exec .busOffRecovery s = .next { s with can := { s.can with busOff := false } }) ∧
    (canUp s = true → (0xB002, 0) ∉ s.onceKeys → Does .errorPassive s fun t =>
      (0xB002, 0) ∈ t.onceKeys ∧ (∃ a ∈ t.active, a.1 = 0xB002) ∧ t.can.nmt = s.can.nmt ∧ t.mem = s.mem) ∧
    (Ready s → exec (.errorFieldClear p) s = .next (told p 0x1003 0 { s with can := { s.can with errors := [] } }))

/-- R303 to R312: HV_TAIL frees records up to the newest; a store and a restore are issued with a handle, refused while one runs, and
post their record when they end; a failed store leaves the set that was current; in hold-safe flash programming waits; a controller
that a mismatched node-ID or bit rate has silenced takes part again when a good pair is stored. -/
def Obligations.StoresAndRecords : Prop :=
  ∀ (p : Path) (v : Byte) (j : Fin 3) (s : State), s.tidy = true →
    let used := s.rd Obj.hvUsed
    let d := (v.toNat + 256 - s.rd Obj.hvTail) % 256
    let freed := if used = 256 ∧ d = 0 then 256 else d
    let sub : Byte := BitVec.ofNat 8 (j.val + 1)
    (Ready s → freed ≤ used → exec (.hvTailWrite p v) s = .next (told p 0x5F01 2
      ((s.wr Obj.hvTail v.toNat).wr Obj.hvUsed (used - freed)))) ∧
    (Ready s → used < freed → exec (.hvTailWrite p v) s = .next (denied p 0x5F01 2 0x06090030 s)) ∧
    (Ready s → storeRuns s = false → eraseRuns s = false → admits s = true →
      Writes (.storeParameters p sub) p s (fun t =>
        (∃ h, Issued s t (.store (j.val + 1)) p h) ∧ t.snapshot = s.od.filter (fun x => keyStored (j.val + 1) x.1) ∧
        t.flash = s.flash ∧ t.mem = s.mem) ∧
      Writes (.restoreDefaults p sub) p s (fun t =>
        (∃ h, Issued s t (.restore (j.val + 1)) p h) ∧ t.flash = s.flash ∧ t.mem = s.mem)) ∧
    (Ready s → storeRuns s = true → exec (.storeParameters p sub) s = .next (denied p 0x1010 (j.val + 1) 0x08000022 s) ∧
      exec (.restoreDefaults p sub) s = .next (denied p 0x1011 (j.val + 1) 0x08000022 s)) ∧
    (Ready s → storeRuns s = false → eraseRuns s = false → admits s = false → exec (.storeParameters p sub) s =
      .next (denied p 0x1010 (j.val + 1) 0x08000000 (s.inc Obj.handlesRefused))) ∧
    (∀ h k, handleOf (fun o => match o with
        | .store _ => true
        | _ => false) s = some h → h.op = .store k → awake s = true → s.rd Obj.holdSafe ≠ 1 →
      (s.can.silent = false → Does (.storeComplete true) s (fun t => Posted s t h 0 k s.slate ∧ currentSet t = storedSet s k ∧ t.flash.useB = !s.flash.useB ∧
        t.snapshot = [] ∧ t.mem = s.mem)) ∧
      Does (.storeComplete false) s (fun t => Posted s t h 0x8010 k s.slate ∧ t.flash = s.flash ∧ t.snapshot = [] ∧ t.mem = s.mem)) ∧
    (∀ h k, handleOf (fun o => match o with
        | .restore _ => true
        | _ => false) s = some h → h.op = .restore k → awake s = true → s.rd Obj.holdSafe ≠ 1 →
      Does .restoreComplete s fun t => Posted s t h 0 k s.slate ∧
        currentSet t = (currentSet s).filter (fun x => !keyStored k x.1) ∧ t.mem = s.mem) ∧
    (∀ ok, s.rd Obj.holdSafe = 1 ∨ awake s = false → exec (.storeComplete ok) s = .next s ∧ exec .restoreComplete s = .next s) ∧
    (∀ h k, handleOf (fun o => match o with
        | .store _ => true
        | _ => false) s = some h → h.op = .store k → awake s = true → s.rd Obj.holdSafe ≠ 1 → s.can.silent = true → s.boot.mode = 0 →
      let put (r : Reg) := (storedSet s k).get r.dflt r.key
      Does (.storeComplete true) s fun t =>
        (guardGood (put Obj.nodeId) = true → guardGood (put Obj.bitRate) = true → s.can.nmt ≠ 0 → t.can.silent = false) ∧
        (guardGood (put Obj.nodeId) = false ∨ guardGood (put Obj.bitRate) = false → t.can.silent = true))

/-- R335 to R338: an entry waits in the codec queue of 64; a word starts with the entry's selects and the transmit word as it stands;
the words go one by one, with CONT under the same selects, and the last completes the entry; a flush empties what it names once the
word in progress has ended; a read of the reply FIFO removes the words it returns. -/
def Sys2Proof.Claims.CodecPort : Prop :=
  ∀ (p : Path) (e : BitVec 64) (rest : List (BitVec 64)) (rx : Word) (s : State), s.tidy = true →
    let c := s.codec
    let q := rx.toNat % 2 ^ (cdcSize e + 1)
    let tx := fun i : Nat => BitVec.ofNat 32 (cdcTxWord s e i)
    let ended : Codec := { c with queue := rest, running := false, index := 0, word := false, sel := 0xFF, flush := false }
    (Ready s → 7 ≤ cdcSize e → c.queue.length < 64 → exec (.cdcEntryAppend p e) s =
      .next (told p 0x3C60 2 { s with codec := { c with queue := c.queue ++ [e] } })) ∧
    (Ready s → 7 ≤ cdcSize e → 64 ≤ c.queue.length → exec (.cdcEntryAppend p e) s =
      .next (denied p 0x3C60 2 0x08000022 (s.inc Obj.cdcRefused))) ∧
    (Ready s → cdcSize e < 7 → exec (.cdcEntryAppend p e) s = .next (denied p 0x3C60 2 0x06090030 s)) ∧
    (c.running = false → c.word = false → c.queue = e :: rest → s.rd Obj.pwrState = 0 → exec .codecEntryStart s =
      .next { s with codec := { c with running := true, index := 0, word := true, tx := tx 0, sel := ~~~(cdcSel e) } }) ∧
    (c.running = true → c.word = false → c.queue = e :: rest → s.rd Obj.pwrState = 0 → exec .codecEntryStart s =
      .next { s with codec := { c with word := true, tx := tx c.index, sel := ~~~(cdcSel e) } }) ∧
    (c.queue = [] ∨ s.rd Obj.pwrState ≠ 0 → exec .codecEntryStart s = .next s) ∧
    (awake s = true → c.word = true → c.running = true → c.queue = e :: rest →
      (c.index < cdcCount e → c.flush = false → cdcRx e = true → c.rx.length < 1024 →
        (cdcCont e = false ∨ s.rd Obj.pwrState ≠ 0 → exec (.codecWordComplete rx) s = .next { s with codec := { c with
          index := c.index + 1, word := false, sel := 0xFF, rx := c.rx ++ [BitVec.ofNat 32 q] } }) ∧
        (cdcCont e = true → s.rd Obj.pwrState = 0 → exec (.codecWordComplete rx) s = .next { s with codec := { c with
          index := c.index + 1, tx := tx (c.index + 1), sel := ~~~(cdcSel e), rx := c.rx ++ [BitVec.ofNat 32 q] } })) ∧
      (c.index < cdcCount e → c.flush = true → cdcRx e = false → exec (.codecWordComplete rx) s = .next { s with codec := ended }) ∧
      (cdcCount e ≤ c.index → cdcRx e = false → Does (.codecWordComplete rx) s fun t =>
        t.codec = ended ∧ t.rd Obj.cdcDone = min (s.rd Obj.cdcDone + 1) 0xFFFFFFFF ∧ t.rd Obj.cdcDoneTag = cdcTag e ∧ t.mem = s.mem ∧
        (cdcIrq e = true → t.link.irqPend.getLsbD 4 = true ∧ ∀ k, k < 8 → (t.core k).ipend.getLsbD 4 = true) ∧
        (cdcIrq e = false → t.cores = s.cores ∧ t.link = s.link)) ∧
      (1024 ≤ c.rx.length → cdcRx e = true → Does (.codecWordComplete rx) s fun t =>
        t.codec.rx = c.rx ∧ t.rd Obj.cdcRxLost = min (s.rd Obj.cdcRxLost + 1) 0xFFFFFFFF ∧ t.mem = s.mem)) ∧
    (Ready s → c.word = false → exec (.cdcFlushQueue p) s = .next (told p 0x3C60 11 { s with codec := { c with
        queue := [], running := false, index := 0, sel := 0xFF } }) ∧
      exec (.cdcFlushBoth p) s = .next (told p 0x3C60 11 { s with codec := { c with
        queue := [], running := false, index := 0, sel := 0xFF, rx := [] } })) ∧
    (Ready s → c.word = true → exec (.cdcFlushQueue p) s =
      .next (told p 0x3C60 11 { s with codec := { c with queue := c.queue.take 1, flush := true } })) ∧
    (Ready s → exec (.cdcEmptyReply p) s = .next (told p 0x3C60 11 { s with codec := { c with rx := [] } })) ∧
    (∀ w ws, Ready s → c.rx = w :: ws → exec (.cdcRxWordRead p) s =
      .next (answer (pathCode p) 0x3C6007 0 (leBytes 4 w.toNat) { s with codec := { c with rx := ws } })) ∧
    (Ready s → c.rx = [] → exec (.cdcRxWordRead p) s = .next (answer (pathCode p) 0x3C6007 0 [0, 0, 0, 0] s)) ∧
    (Ready s → exec (.cdcRxBlockRead p) s = .next (answer (pathCode p) 0x3C6008 0
      ((c.rx.take 256).flatMap fun w => leBytes 4 w.toNat) { s with codec := { c with rx := c.rx.drop 256 } }))

/-! ## The dictionary and the link -/

namespace Sys2Proof.Claims

/-- A fault was raised in `s`: its record stands in the fault log, and its code is active (R377, R380). -/
def Raised (s t : State) (code unit info extra : Nat) : Prop :=
  logRecord t (s.rd Obj.fltLogHead) =
    ⟨BitVec.ofNat 16 code, 0, BitVec.ofNat 8 unit, BitVec.ofNat 16 info, BitVec.ofNat 64 extra, s.slate⟩ ∧
    ∃ a ∈ t.active, a.1 = BitVec.ofNat 16 code

/-- A row that writes an object: length and, for a GUARD32, guard are right, and the value lies in the domain. -/
def ValueIn (r : ObjRow) (idx sub : Nat) (data : List Byte) : Prop :=
  r.acc ≠ .ro ∧ r.acc ≠ .const ∧ lengthAbort r idx sub data = 0 ∧
    (r.type = .guard32 → guardGood (ofLe data) = true ∨ (idx = 0x2800 ∧ sub = 4)) ∧ domGood r (ofLe data) = true

/-- A refused write leaves every register but those of the fault log, all memory and every unit as it was. -/
def OnlyReports (s t : State) : Prop :=
  (∀ q : Reg, q.key / 256 ≠ 0x3A00 → t.rd q = s.rd q) ∧ t.mem = s.mem ∧ t.lanes = s.lanes ∧ t.ports = s.ports ∧
    t.handles = s.handles ∧ t.records = s.records

/-- The link rows: command code and frame. -/
def linkOp : Instr → Option (Nat × Frame)
  | .readWin f => some (1, f)
  | .writeWin f => some (2, f)
  | .readMem f => some (3, f)
  | .writeMem f => some (4, f)
  | .odRead f => some (5, f)
  | .odWrite f => some (6, f)
  | .odFetch f => some (7, f)
  | .harvest f => some (8, f)
  | .status f => some (9, f)
  | .writeGuarded f => some (10, f)
  | .reservedCommandFrame cmd f => some (cmd.toNat, f)
  | _ => none

/-- The link executes commands: the firmware or the recovery ROM runs. -/
def LinkUp (s : State) : Prop :=
  s.tidy = true ∧ s.boot.inReset = false ∧ s.power.supplied = true ∧ (served s = true ∨ recovering s = true)

/-- The frame has the length its header implies and its CRC. -/
def FrameWhole (s : State) (cmd : Nat) (f : Frame) : Prop := f.bits = impliedBits s f ∧ f.crc = crc32c (frameBytes s cmd f)

/-- The frame passes every check of R322. -/
def FrameGoes (s : State) (cmd : Nat) (f : Frame) : Prop :=
  FrameWhole s cmd f ∧ s.link.alive ≠ some f.alive ∧ commandGood s cmd f = true ∧ frameAccepted s cmd f = true ∧
    linkBusy s cmd = false

/-- The reply of a frame with the data words `ws`. -/
def Replied (s t : State) (f : Frame) (ws : List Word) : Prop :=
  t.link.reply = frameReply (capturedS0 s) (capturedS1 s) (headBits s) f ws

/-- The frame was refused, with bit `bit` in S0 of the next one: nothing but counts, flags and reports changed. -/
def FrameRefused (s t : State) (cmd : Nat) (f : Frame) (bit : Nat) : Prop :=
  t.link.s0 = (frameId cmd f ||| BitVec.ofNat 32 (2 ^ bit)) ∧ t.link.rejected = countUp s.link.rejected ∧
    t.link.alive = s.link.alive ∧ t.link.frames = s.link.frames ∧ t.link.irqPend.getLsbD 5 = true ∧ t.link.bg = s.link.bg ∧
    t.link.reqState = s.link.reqState ∧ t.link.cfg = s.link.cfg ∧ t.link.memBase = s.link.memBase ∧
    t.rd Obj.hvTail = s.rd Obj.hvTail ∧ t.rd Obj.hvUsed = s.rd Obj.hvUsed ∧ t.mem = s.mem ∧ t.lanes = s.lanes

/-- Data word `k` of a frame. -/
def dataWord (f : Frame) (k : Nat) : Word := (frameData f).getD k 0

end Sys2Proof.Claims

/-- R289 to R293: a write of an object that does not exist, may not be written, has another length, fails its guard or lies outside
its domain answers its abort code and changes nothing; the value of a plain register that its conditions allow is stored; a write
that is a command does what the command does. -/
def Obligations.ObjectWrites : Prop :=
  ∀ (p : Path) (index : BitVec 16) (sub : Byte) (data : List Byte) (s : State), Ready s →
    let i := index.toNat
    let b := sub.toNat
    let q := pathCode p
    let item := selected s q i
    let c : Instr := .objectWrite p index sub data
    (∀ a, lookup i b = .error a → exec c s = .next (denied p i b a s)) ∧
    (∀ r, lookup i b = .ok r → r.acc = .ro ∨ r.acc = .const → exec c s = .next (denied p i b 0x06010002 s)) ∧
    (∀ r, lookup i b = .ok r → r.acc ≠ .ro → r.acc ≠ .const → lengthAbort r i b data ≠ 0 →
      exec c s = .next (denied p i b (lengthAbort r i b data) s)) ∧
    (∀ r, lookup i b = .ok r → r.acc ≠ .ro → r.acc ≠ .const → lengthAbort r i b data = 0 → r.type = .guard32 →
      guardGood (ofLe data) = false → ¬ (i = 0x2800 ∧ b = 4) →
      ((p = .field ∨ p = .link) → Does c s fun t =>
        (t.answers.get {} q).abort = 0x08000020 ∧ Raised s t 0x9001 q i b ∧ OnlyReports s t) ∧
      (p ≠ .field → p ≠ .link → exec c s = .next (denied p i b 0x08000020 s))) ∧
    (∀ r, lookup i b = .ok r → r.acc ≠ .ro → r.acc ≠ .const → lengthAbort r i b data = 0 →
      (r.type = .guard32 → guardGood (ofLe data) = true ∨ (i = 0x2800 ∧ b = 4)) → domGood r (ofLe data) = false →
      exec c s = .next (denied p i b 0x06090030 s)) ∧
    (∀ r, lookup i b = .ok r → ValueIn r i b data →
      let v := dropReserved r i b (ofLe data)
      let reg := objReg r q item i b
      (∀ t a, command q item i b v data s = some (t, a) →
        exec c s = .next (denied p i b a t)) ∧
      (command q item i b v data s = none → mapPdo i = none → valueGood (s.wr reg v) i b v = true →
        (isCob i b = true → cobGood (cobValue s reg) v = true) →
        (stateGood s (s.wr reg v) item i b = true → exec c s = .next (told p i b (afterWrite i b v (s.wr reg v)))) ∧
        (stateGood s (s.wr reg v) item i b = false → exec c s = .next (denied p i b 0x08000022 s))) ∧
      (command q item i b v data s = none → valueGood (s.wr reg v) i b v = false → exec c s = .next (denied p i b 0x06090030 s)))

/-- R320 to R333: a frame that passes every check is counted, is the last accepted, and is answered with the status words and the
words it reads; a write of memory goes to the link buffer, a dictionary request is posted, HARVEST releases the records it
acknowledges. -/
def Obligations.FramesExecuted : Prop :=
  ∀ (c : Instr) (cmd : Nat) (f : Frame) (s : State), linkOp c = some (cmd, f) → LinkUp s → FrameGoes s cmd f →
    let n := f.len.toNat
    let gap := ∃ a, s.link.alive = some a ∧ f.alive ≠ a + 1
    let rej := cmd = 7 ∧ s.link.reqState = 2 ∧ s.link.reqAbort ≠ 0
    Does c s fun t =>
      t.link.frames = countUp s.link.frames ∧ t.link.alive = some f.alive ∧ t.link.rejected = s.link.rejected ∧
      t.link.crcErrs = s.link.crcErrs ∧ t.mem = s.mem ∧ t.lanes = s.lanes ∧ t.link.s0.getLsbD 3 = true ∧
      (t.link.s0.getLsbD 12 = true ↔ gap) ∧ (t.link.s0.getLsbD 10 = true ↔ rej) ∧
      (∀ k, k < 8 → (t.core k).ipend.getLsbD 1 = true) ∧
      (gap → (0xA002, 0) ∉ s.onceKeys → ∃ a ∈ t.active, a.1 = 0xA002) ∧
      (cmd = 1 → Replied s t f ((List.range n).map fun k => winRead s (winAddr s f k))) ∧
      (cmd = 2 → Replied s t f [] ∧
        (∀ k, k < n → winAddr s f k = 1 → t.link.cfg = dataWord f k &&& 0xBF) ∧
        (∀ k, k < n → winAddr s f k = 2 → t.link.memBase = dataWord f k &&& 0xFFFF) ∧
        (∀ k, k < n → winAddr s f k = 4 → t.link.irqEn = (dataWord f k).setWidth 6) ∧
        ((∀ k, k < n → winAddr s f k ≠ 1) → t.link.cfg = s.link.cfg) ∧
        ((∀ k, k < n → winAddr s f k ≠ 2) → t.link.memBase = s.link.memBase) ∧
        (¬ gap → ∀ k, k < n → winAddr s f k = 3 → t.link.irqPend = s.link.irqPend &&& ~~~((dataWord f k).setWidth 6))) ∧
      (cmd = 3 → n = 1 → 1 ≤ f.ready → hostCheck false (wordAddr s f 0) s = .ok →
        readFails s [(wordAddr s f 0, 4)] = true →
        Replied s t f [fabRead s (wordAddr s f 0)] ∧ t.link.flags.getLsbD 3 = true) ∧
      (cmd = 3 → n ≤ f.ready → (∀ k, k < n → hostCheck false (wordAddr s f k) s = .ok) →
        dramHits s ((List.range n).map fun k => (wordAddr s f k, 4)) = [] →
        Replied s t f ((List.range n).map fun k => fabRead s (wordAddr s f k))) ∧
      (cmd = 4 → Replied s t f [] ∧ t.link.bg = some ⟨false, memWraps s f n,
        (List.range n).map fun k => (wordAddr s f k, dataWord f k)⟩) ∧
      (cmd = 5 → Replied s t f [] ∧ t.link.reqState = 1 ∧ t.link.reqKey.toNat = frameAddr s f ∧ t.link.reqWrite = none) ∧
      (cmd = 6 → Replied s t f [] ∧ t.link.reqState = 1 ∧ t.link.reqKey.toNat = frameAddr s f ∧
        t.link.reqWrite = some (odValue f)) ∧
      (cmd = 7 → Replied s t f (fetchWords s f) ∧ t.link.reqState = s.link.reqState) ∧
      (cmd = 8 → Replied s t f (harvestWords s f) ∧ t.rd Obj.hvTail = (s.rd Obj.hvTail + frameAddr s f) % 256 ∧
        t.rd Obj.hvUsed = s.rd Obj.hvUsed - frameAddr s f) ∧
      (cmd = 9 → Replied s t f [] ∧ t.link.bg = s.link.bg ∧ t.link.reqState = s.link.reqState) ∧
      (cmd = 10 → Replied s t f [] ∧ t.link.bg = some ⟨true, memWraps s f n,
        (List.range n).map fun k => (wordAddr s f k, dataWord f k)⟩)

/-- R322 to R326 and R366: the checks come in order: length, CRC, ALIVE, command, content, busy; the first that fails refuses the
frame under its bit of S0. A frame before the link is ready finds BUSY, in NAP and DORMANT too, which it ends where HSEL_N is an armed
wake source (R325, R347, R349); in another reset the link does not answer. -/
def Obligations.FramesRefused : Prop :=
  ∀ (c : Instr) (cmd : Nat) (f : Frame) (s : State), linkOp c = some (cmd, f) →
    let w := wakeBy 1 s
    let quietReset := s.boot.inReset = true ∧ s.rd Obj.resetCause ≠ 8
    (quietReset ∨ s.power.supplied = false → exec c s = .next s) ∧
    (s.tidy = true → ¬ quietReset → s.power.supplied = true → served w = false → recovering w = false → Does c s fun t =>
      FrameRefused w t cmd f 9 ∧ t.link.flags = 0 ∧ t.link.reply = frameReply 0x200 0 (headBits w) f [] ∧
        { t with link := s.link } = { w with link := s.link }) ∧
    (s.rd Obj.pwrState = 2 → armedSources s % 2 = 1 → s.power.supplied = true → ¬ quietReset → recovering s = false → Does c s fun t =>
      t.rd Obj.pwrState = 3 ∧ t.rd Obj.wakeCause = 1 ∧ t.link.s0 = (frameId cmd f ||| 0x200)) ∧
    (LinkUp s →
      (f.bits ≠ impliedBits s f → Does c s fun t => FrameRefused s t cmd f 14 ∧ t.link.crcErrs = s.link.crcErrs ∧
        ((0xA001, 0) ∉ s.onceKeys → ∃ a ∈ t.active, a.1 = 0xA001)) ∧
      (f.bits = impliedBits s f → f.crc ≠ crc32c (frameBytes s cmd f) → Does c s fun t =>
        FrameRefused s t cmd f 15 ∧ t.link.crcErrs = countUp s.link.crcErrs ∧
        ((0xA001, 0) ∉ s.onceKeys → ∃ a ∈ t.active, a.1 = 0xA001)) ∧
      (FrameWhole s cmd f →
        (s.link.alive = some f.alive → Does c s fun t => FrameRefused s t cmd f 11 ∧ t.active = s.active) ∧
        (s.link.alive ≠ some f.alive →
          (commandGood s cmd f = false → Does c s fun t => FrameRefused s t cmd f 13 ∧
            ((0xA001, 0) ∉ s.onceKeys → ∃ a ∈ t.active, a.1 = 0xA001)) ∧
          (commandGood s cmd f = true →
            (frameAccepted s cmd f = false → Does c s fun t => FrameRefused s t cmd f 10 ∧
              (cmd = 10 → ∃ a ∈ t.active, a.1 = 0x9002)) ∧
            (frameAccepted s cmd f = true → linkBusy s cmd = true → Does c s fun t =>
              FrameRefused s t cmd f 9 ∧ t.active = s.active)))))

/-- R289, R324, R329, R330 and R333: a background write lands word after word in DRAM and ends; a request that the link has posted is
served before any later access, and the server's answer stands for OD_FETCH and pends its interrupt; a write of 1 clears pending bits;
HIRQ_N is asserted while an enabled bit pends, never in reset or in DORMANT. -/
def Sys2Proof.Claims.LinkServer : Prop :=
  ∀ (p : Path) (index : BitVec 16) (sub : Byte) (data : List Byte) (s : State), s.tidy = true →
    let answered := fun (a : Nat) (b : List Byte) => { s.link with
      reqState := 2, reqAbort := BitVec.ofNat 32 a, reqValue := b, reqWrite := none, irqPend := s.link.irqPend ||| 1, odServed := false }
    (∀ w, s.link.bg = some w → served s = true ∨ recovering s = true →
      (∀ x ∈ w.writes, (∃ o, regionOf x.1 = .dram o) ∧ hostCheck true x.1 s = .ok) → (w.guarded = true → w.writes.length % 2 = 0) →
      Does .uaminWriteLanded s fun t =>
        t.mem = w.writes.foldl (fun m x => writeWord m x.1 x.2) s.mem ∧
        t.link = { s.link with bg := none, flags := s.link.flags ||| (if w.wrap then 2 else 0) } ∧
        { t with mem := s.mem, link := s.link } = s) ∧
    (s.link.bg = none → exec .uaminWriteLanded s = .next s) ∧
    (∀ b u a, served s = true → s.link.reqState = 1 → s.link.odServed = false → s.link.reqWrite = none →
      dictRead 1 (s.link.reqKey.toNat / 256) (s.link.reqKey.toNat % 256) s = (b, u, a) →
      Does .odRequestComplete s fun t => t.link = answered a b ∧ t.mem = s.mem ∧ t.od = u.od ∧ t.codec = u.codec) ∧
    (∀ d u a, served s = true → s.link.reqState = 1 → s.link.odServed = false → s.link.reqWrite = some d →
      dictWrite 1 (s.link.reqKey.toNat / 256) (s.link.reqKey.toNat % 256) d s = (u, a) → u.link.reqState = 1 →
      Does .odRequestComplete s fun t =>
        t.link.reqState = 2 ∧ t.link.reqAbort = BitVec.ofNat 32 a ∧ t.link.reqValue = [] ∧ t.link.reqWrite = none ∧
        t.link.irqPend.getLsbD 0 = true ∧ t.mem = u.mem ∧ t.od = u.od ∧ t.lanes = u.lanes) ∧
    (served s = true → s.link.reqState = 1 → s.link.odServed = true → exec .odRequestComplete s =
      .next { s with link := { s.link with reqState := 2, irqPend := s.link.irqPend ||| 1, odServed := false } }) ∧
    (s.link.reqState ≠ 1 → exec .odRequestComplete s = .next s) ∧
    (served s = true → ¬ NoneWaits s → NoneWaits (serveLink s) ∧ (served (serveLink s) = true →
      exec (.objectWrite p index sub data) s = exec (.objectWrite p index sub data) (serveLink s))) ∧
    (∀ w : Word, served s = true ∨ recovering s = true → exec (.ulIrqPendClear w) s =
      .next { s with link := { s.link with irqPend := s.link.irqPend &&& ~~~(w.setWidth 6) } }) ∧
    (s.rd Obj.pwrState ≠ 2 → s.rd Obj.pwrState ≠ 3 → (hirq s = true ↔ s.rd Obj.pwrState ≠ 5 ∧ s.boot.inReset = false ∧
      s.power.supplied = true ∧ ∃ k, k < 6 ∧ s.link.irqPend.getLsbD k = true ∧ s.link.irqEn.getLsbD k = true))

/-- R300: the value 0x7465_7372 written to RESET_CMD starts a SOFT reset once the write has been answered; another value of 32 bits is
refused as reserved; RESET_CMD is write-only and 32 bits wide; sub-index 00 reads as 1. -/
def Obligations.SoftResetCommand : Prop :=
  ∀ (p : Path) (v : Word) (data : List Byte) (client : Byte) (s : State), Ready s →
    exec (.softResetCommand p) s = .next (told p 0x2010 1 { s with boot := { s.boot with pending := some (earlier 5 s.boot.pending) } }) ∧
    exec (.objectWrite p 0x2010 1 (leBytes 4 0x74657372)) s = exec (.softResetCommand p) s ∧
    (v ≠ 0x74657372 → exec (.objectWrite p 0x2010 1 (leBytes 4 v.toNat)) s = .next (denied p 0x2010 1 0x06090030 s)) ∧
    (data.length < 4 → exec (.objectWrite p 0x2010 1 data) s = .next (denied p 0x2010 1 0x06070013 s)) ∧
    (4 < data.length → exec (.objectWrite p 0x2010 1 data) s = .next (denied p 0x2010 1 0x06070012 s)) ∧
    exec (.objectWrite p 0x2010 0 data) s = .next (denied p 0x2010 0 0x06010002 s) ∧
    (canServes s = true → sessionFree s client = true →
      Does (.usdoUpload client 0x2010 0) s (fun t => Sent s t [.usdo client 0 [1]] ∧
        { t with can := s.can, answers := s.answers } = canHeard s) ∧
      Does (.usdoUpload client 0x2010 1) s (fun t => Sent s t [.usdo client 0x06010001 []] ∧
        { t with can := s.can, answers := s.answers } = canHeard s))

/-! ## Power, resets, boot and recovery -/

namespace Sys2Proof.Claims

/-- The warning comparators run and act at once, and no built-in test runs. -/
def Watching (s : State) : Prop := s.tidy = true ∧ comparators s = true ∧ awake s = true ∧ s.service.bist = none

/-- A supply event has put the module into hold-safe: where it was not, the entry is counted, and HOLD and source 25 pend (R333, R351). -/
def Held (s t : State) : Prop :=
  t.rd Obj.holdSafe = 1 ∧ t.power.waiting = false ∧ t.mem = s.mem ∧ t.lanes = s.lanes ∧
    (s.rd Obj.holdSafe = 0 → t.rd Obj.holdCount = min (s.rd Obj.holdCount + 1) 0xFFFFFFFF ∧
      t.link.irqPend.getLsbD 3 = true ∧ ∀ c, c < 8 → (t.core c).ipend.getLsbD 25 = true) ∧
    (s.rd Obj.holdSafe = 1 → t.rd Obj.holdCount = s.rd Obj.holdCount)

/-- A supply warning of a rail (R351). -/
def Warned (s t : State) (code unit : Nat) (mv : BitVec 16) : Prop :=
  Held s t ∧ Raised s t code unit mv.toNat 0 ∧
    (s.rd Obj.holdSafe = 0 → t.rd Obj.brownEvents = min (s.rd Obj.brownEvents + 1) 0xFFFFFFFF) ∧
    (s.rd Obj.holdSafe = 1 → t.rd Obj.brownEvents = s.rd Obj.brownEvents)

/-- The system counter stands at an alignment point (R342). -/
def Aligned (t : State) : Prop := ((t.slate.extractLsb' 0 56).toNat + t.power.phase) % 3125 = 0

/-- No clear of a pan group runs (R260). -/
def NoClear (s : State) : Prop := ∀ g, g < 8 → (s.pan g).clearing = false

/-- What BOOT pins select (R361): 0 normal, 1 safe, 2 recovery. -/
def modeOf (pins : BitVec 2) : Nat := if pins = 0 then 0 else if pins = 2 then 2 else 1

/-- No erase and no background write of the link is under way. -/
def Quiet (s : State) : Prop := s.tidy = true ∧ s.link.bg = none ∧ s.handles = []

/-- The reset proper has ended with the BOOT pins sampled. -/
def Sampled (t : State) (pins : BitVec 2) : Prop :=
  t.boot.inReset = false ∧ t.boot.mode = modeOf pins ∧ t.rd Obj.bootPins = pins.toNat ∧ t.rd Obj.bootMode = modeOf pins ∧
    t.boot.booted = false ∧ t.boot.meterE = true

/-- What a POR or BOR leaves (R367): nothing but the flash and the keys. -/
def Cleared (s t : State) : Prop :=
  t.mem = [] ∧ t.slate = 0 ∧ t.lanes = [] ∧ t.cores = [] ∧ t.ports = [] ∧ t.records = [] ∧ t.faultLog = [] ∧ t.gens = [] ∧
    t.active = [] ∧ t.link = {} ∧ t.rd Obj.warmResets = 0 ∧ t.rd Obj.wdtResets = 0 ∧ t.flash = s.flash ∧ t.pending = s.pending ∧
    (∀ k, k < 4 → t.rd (Obj.custKey k) = s.rd (Obj.custKey k)) ∧ t.rd Obj.showQuorum = s.rd Obj.showQuorum

/-- What a warm reset leaves (R367): the AON domain, the flash, the slate, and DRAM outside the firmware area; every lane is
unloaded, every port in OFF, every core at its reset state. -/
def Warm (s t : State) : Prop :=
  t.slate = s.slate ∧ t.lanes = [] ∧ t.cores = [] ∧ t.ports = [] ∧ t.gens = s.gens ∧ t.active = [] ∧ t.link = {} ∧ t.flash = s.flash ∧
    t.pending = s.pending ∧ t.rd Obj.warmResets = min (s.rd Obj.warmResets + 1) 0xFFFFFFFF ∧
    (∀ n, n < 64 → t.rd (Obj.laneState n) = 0) ∧ (∀ g, g < 6 → t.rd (Obj.portState g) = portOff) ∧
    (∀ a, 0x104000000 ≤ a → a < 0x300000000 → readByte t.mem a = readByte s.mem a) ∧
    (∀ a, a < 0x1000000 → readByte t.mem a = 0) ∧
    ∀ k, k < 4 → t.rd (Obj.custKey k) = s.rd (Obj.custKey k)

end Sys2Proof.Claims

/-- R341, R350 to R352, R354 and R355: a rail or a PLL that fails enters hold-safe, with its reports and its fault; hold-safe ends
when no cause is left and the recovery wait has run. -/
def Sys2Proof.Claims.HoldSafe : Prop :=
  ∀ (mv : BitVec 16) (i : Fin 3) (p : Path) (s : State), s.tidy = true →
    let lowest := min (s.rd Obj.vinMinMv) mv.toNat
    (Watching s →
      Does (.vinWarning mv) s (fun t => Warned s t 0x1001 0 mv ∧ t.power.vinMv = mv ∧ t.power.vinLow = true ∧
        t.rd Obj.vinMinMv = lowest) ∧
      Does (.coreRailWarning mv) s (fun t => Warned s t 0x1002 1 mv ∧ t.power.coreMv = mv ∧ t.power.coreLow = true)) ∧
    (comparators s = true → awake s = false → exec (.vinWarning mv) s =
      .next ({ s with power := { s.power with vinMv := mv, vinLow := true } }.wr Obj.vinMinMv lowest)) ∧
    (comparators s = false → exec (.vinWarning mv) s = .next s ∧ exec (.coreRailWarning mv) s = .next s ∧
      exec (.vinRecovery mv) s = .next s ∧ exec (.coreRailRecovery mv) s = .next s ∧ exec (.vinHigh mv) s = .next s) ∧
    (comparators s = true → s.rd Obj.holdSafe = 1 → s.power.unlocked = 0 →
      (s.power.coreLow = false → Does (.vinRecovery mv) s fun t =>
        t.power.vinLow = false ∧ t.power.waiting = true ∧ t.rd Obj.holdSafe = 1 ∧ t.power.vinMv = mv ∧ t.mem = s.mem) ∧
      (s.power.coreLow = true → Does (.vinRecovery mv) s fun t =>
        t.power.vinLow = false ∧ t.power.waiting = s.power.waiting ∧ t.rd Obj.holdSafe = 1 ∧ t.mem = s.mem) ∧
      (s.power.vinLow = false → Does (.coreRailRecovery mv) s fun t =>
        t.power.coreLow = false ∧ t.power.waiting = true ∧ t.rd Obj.holdSafe = 1 ∧ t.power.coreMv = mv ∧ t.mem = s.mem)) ∧
    (comparators s = true → Does (.vinHigh mv) s fun t => Raised s t 0x1003 0 mv.toNat 0 ∧ t.rd Obj.holdSafe = s.rd Obj.holdSafe ∧
      t.power = { s.power with vinMv := mv } ∧ t.mem = s.mem) ∧
    (s.power.waiting = true → s.rd Obj.holdSafe = 1 → holdCause s = false → Does .holdSafeEnd s fun t =>
      t.rd Obj.holdSafe = 0 ∧ t.power = { s.power with waiting := false } ∧ t.mem = s.mem ∧
      (s.rd Obj.hvUsed + s.handles.length < 256 → ringRecord t (s.rd Obj.hvHead) = ⟨0, 0, 0x10, s.slate⟩)) ∧
    (holdCause s = true → exec .holdSafeEnd s = .next s) ∧
    (awake s = true → s.boot.inReset = false → s.power.supplied = true → s.service.bist = none → Does (.pllUnlock i) s fun t =>
      Held s t ∧ Raised s t 0x2003 i.val 0 0 ∧ t.power.unlocked.getLsbD i.val = true ∧
      (t.rd Obj.pllLock).testBit i.val = false ∧ (t.rd Obj.pllLock).testBit 3 = false ∧
      t.rd Obj.pllUnlocks = min (s.rd Obj.pllUnlocks + 1) 0xFFFFFFFF) ∧
    (s.power.unlocked.getLsbD i.val = true → Does (.pllLockHeld i) s fun t =>
      t.power.unlocked.getLsbD i.val = false ∧ (t.rd Obj.pllLock).testBit i.val = true ∧ t.rd Obj.holdSafe = s.rd Obj.holdSafe ∧
      ((t.rd Obj.pllLock) % 8 = 7 → (t.rd Obj.pllLock).testBit 3 = true) ∧ t.mem = s.mem ∧
      (s.rd Obj.holdSafe = 1 → holdCause t = false → t.power.waiting = true)) ∧
    (Ready s → exec (.vinMinReset p) s = .next (told p 0x2103 6 (s.wr Obj.vinMinMv 0xFFFF)) ∧
      exec (.holdCountClear p) s = .next (told p 0x2103 6 ((s.wr Obj.holdCount 0).wr Obj.pllUnlocks 0)))

/-- R342, R343, R430 and R431: the count of the slate wraps into the next epoch; a level that registers on a pin is read in GP_IN and
marks an edge where its configuration asks for one, which ends NAP where the pin is armed for that. -/
def Sys2Proof.Claims.CounterAndPins : Prop :=
  ∀ (p : Path) (k : Fin 16) (level : Bool) (w : BitVec 16) (s : State), s.tidy = true →
    let was := (s.rd Obj.gpIn).testBit k.val
    let new := pinLevel s k.val level
    let marks := (s.rd (Obj.gpCfg k.val)).testBit (if new then 4 else 5)
    (counterRuns s = true → exec .counterWrap s =
      .next { s with slate := (s.slate.extractLsb' 56 8 + 1) ++ (0 : BitVec 56), houseEdge := 0
                     power := { s.power with phase := (s.power.phase + 2 ^ 56) % 3125 } }) ∧
    (counterRuns s = false → exec .counterWrap s = .next s) ∧
    (new = was → exec (.gpEdge k level) s = .next s) ∧
    (new ≠ was → marks = false → exec (.gpEdge k level) s = .next (s.putBit Obj.gpIn k.val new)) ∧
    (new ≠ was → marks = true → (gpWake s k.val = false ∨ s.rd Obj.pwrState = 0) → Does (.gpEdge k level) s fun t =>
      (t.rd Obj.gpIn).testBit k.val = new ∧ (∀ j, j ≠ k.val → (t.rd Obj.gpIn).testBit j = (s.rd Obj.gpIn).testBit j) ∧
      (t.rd Obj.gpEdge).testBit k.val = true ∧ (∀ c, 2 ≤ c → c < 8 → (t.core c).ipend.getLsbD 24 = true) ∧
      t.core 0 = s.core 0 ∧ t.core 1 = s.core 1 ∧ t.mem = s.mem) ∧
    (new ≠ was → marks = true → gpWake s k.val = true → s.rd Obj.pwrState = 2 → (s.rd Obj.wakeEn).testBit 4 = true →
      Does (.gpEdge k level) s fun t => t.rd Obj.pwrState = 3 ∧ t.rd Obj.wakeCause = 0x10 ∧
        (t.rd Obj.gpEdge).testBit k.val = true ∧ t.mem = s.mem) ∧
    (Ready s → exec (.gpEdgeClr p w) s = .next (told p 0x2030 20
      (s.wr Obj.gpEdge (s.rd Obj.gpEdge &&& (0xFFFF - w.toNat)))))

/-- R342 and R344 to R349: a request for NAP or DORMANT is refused with its status or starts the entry; the entry ends, at an
alignment point, when every unit has stopped; a wake that is armed ends NAP and DORMANT, and is held while an entry runs; another in
the AON cycle of the wake sets its bit too; while the fast clocks stand still their logic keeps its state;
from NAP the module returns to RUN at an alignment point. -/
def Obligations.PowerStates : Prop :=
  ∀ (p : Path) (src : Byte) (s : State), s.tidy = true →
    let r := powerRefusal s
    let en := s.rd Obj.wakeEn
    let m := src.toNat &&& 0x17 &&& armedSources s
    let held := s.power.wakeHeld.toNat &&& armedSources s
    let pw := s.rd Obj.pwrState
    let waking (k : Nat) (s : State) : State :=
      (({ s with power := { s.power with wakeAt := s.slate } } : State).wr Obj.wakeCause k).wr Obj.pwrState 3
    (Ready s → r = 0 →
      Writes (.pwrRequestNap p) p s (fun t => t.rd Obj.pwrState = 1 ∧ t.rd Obj.pwrResult = 0 ∧ t.mem = s.mem ∧ t.lanes = s.lanes) ∧
      Writes (.pwrRequestDormant p) p s (fun t => t.rd Obj.pwrState = 4 ∧ t.rd Obj.pwrResult = 0 ∧ t.mem = s.mem ∧
        t.lanes = s.lanes)) ∧
    (Ready s → r ≠ 0 → exec (.pwrRequestNap p) s = .next (denied p 0x2100 2 0x08000022 (s.wr Obj.pwrResult r)) ∧
      exec (.pwrRequestDormant p) s = .next (denied p 0x2100 2 0x08000022 (s.wr Obj.pwrResult r))) ∧
    (pw = 1 → unitsStopped s = true → NoClear s → Does .napEntryComplete s fun t =>
      t.rd Obj.napCount = min (s.rd Obj.napCount + 1) 0xFFFFFFFF ∧ t.rd Obj.holdSafe = 0 ∧ t.mem = s.mem ∧
      t.lanes = s.lanes ∧ Aligned t ∧ t.link.irqHeld = hirq s ∧ t.power.refAcc = 0 ∧
      (held = 0 → t.rd Obj.pwrState = 2) ∧ (held ≠ 0 → t.rd Obj.pwrState = 3 ∧ t.rd Obj.wakeCause = held)) ∧
    (pw = 4 → unitsStopped s = true → held = 0 → Does .napEntryComplete s fun t =>
      t.rd Obj.pwrState = 5 ∧ t.rd Obj.dormantCount = min (s.rd Obj.dormantCount + 1) 0xFFFFFFFF ∧ t.mem = [] ∧ t.pans = [] ∧
      Aligned t) ∧
    (unitsStopped s = false → exec .napEntryComplete s = .next s) ∧
    (awake s = false → ∀ c ∈ [Instr.fullEraseComplete, .attestationComplete, .vfyComplete, .irLoadComplete, .storeComplete true,
      .restoreComplete, .bistComplete none, .levelUpdate, .showSlotWriteComplete, .showLoadComplete, .busOffRecovery] ++
        (List.finRange 64).map Instr.laneLoadComplete ++ (List.finRange 64).map Instr.spliceCopyWord ++
        (List.finRange 16).map Instr.asrcLocked ++ (List.finRange 8).map Instr.timerCompare ++
        (List.finRange 8).map Instr.pgHandoverComplete, exec c s = .next s) ∧
    (m = 0 → pw ≠ 3 → s.boot.inReset = false → exec (.wakeEvent src) s = .next s) ∧
    (pw = 0 → s.boot.inReset = false → exec (.wakeEvent src) s = .next s ∧ exec .wakeTimerExpiry s = .next s) ∧
    (pw = 2 → m ≠ 0 → exec (.wakeEvent src) s = .next (waking m s)) ∧
    (pw = 3 → exec (.wakeEvent src) s = .next (if s.slate.toNat ≤ s.power.wakeAt.toNat + 3051 then
      s.wr Obj.wakeCause (s.rd Obj.wakeCause ||| m) else s)) ∧
    (pw = 1 ∨ pw = 4 → exec (.wakeEvent src) s =
      .next { s with power := { s.power with wakeHeld := s.power.wakeHeld ||| BitVec.ofNat 8 m } }) ∧
    (Quiet s → pw = 5 → m ≠ 0 → Does (.wakeEvent src) s fun t =>
      t.rd Obj.resetCause = 8 ∧ t.rd Obj.wakeCause = m ∧ t.rd Obj.pwrState = 0 ∧ t.boot.inReset = true ∧ t.mem = [] ∧
      t.slate = (s.slate.extractLsb' 56 8 + 1) ++ (0 : BitVec 56) ∧ t.rd Obj.wakeSlate = t.slate.toNat ∧ t.lanes = [] ∧
      counterRuns t = false) ∧
    (pw = 2 → s.rd Obj.wakeTimer ≠ 0 → en.testBit 5 = true → exec .wakeTimerExpiry s = .next (waking 0x20 s)) ∧
    (pw = 2 → s.rd Obj.wakeTimer = 0 → exec .wakeTimerExpiry s = .next s) ∧
    (pw = 2 → en.testBit 3 = true → exec .serviceNHoldWake s =
      .next (waking 8 { s with service := { s.service with serviceN := false } })) ∧
    (pw = 3 → s.power.vinLow = false → s.power.coreLow = false → Does .wakeComplete s fun t =>
      t.rd Obj.pwrState = 0 ∧ Aligned t ∧ t.rd Obj.wakeSlate = t.slate.toNat ∧ t.wdtSlate = t.slate ∧
      t.wdtFrom = s.rd Obj.wdtPeriod ∧ t.mem = s.mem ∧ t.lanes = s.lanes ∧
      ∀ g, g < 6 → s.rd (Obj.portEnable g) = 1 → portSt s g = portOff → s.boot.mode = 0 → s.boot.meterE = false →
        portSt t g = portWait) ∧
    (pw = 3 → s.power.vinLow = true → s.power.coreLow = false → s.service.bist = none → Does .wakeComplete s fun t =>
      t.rd Obj.pwrState = 0 ∧ t.rd Obj.holdSafe = 1 ∧ Raised { s with slate := t.slate } t 0x1001 0 s.power.vinMv.toNat 0) ∧
    (pw ≠ 3 → exec .wakeComplete s = .next s)

/-- R357 to R361, R367, R388, R436 and R449: each reset writes its cause and leaves what its kind leaves; a pin reset is held while
the pin is low; a reset that was asked for acts when it may. -/
def Obligations.Resets : Prop :=
  ∀ (pins : BitVec 2) (s : State), Quiet s →
    let booting := s.boot.inReset || s.boot.meterE
    let cause (c : Nat) : Nat := if booting then min c (s.rd Obj.resetCause) else c
    (s.boot.pinLow = false → Does (.por pins) s fun t => Cleared s t ∧ Sampled t pins ∧ t.rd Obj.resetCause = cause 1) ∧
    (s.boot.pinLow = true → Does (.por pins) s fun t => Cleared s t ∧ t.boot.inReset = true ∧ t.rd Obj.resetCause = cause 1) ∧
    Does .bor s (fun t => Cleared s t ∧ t.boot.inReset = true ∧ t.rd Obj.resetCause = cause 2) ∧
    Does .pinReset s (fun t => Warm s t ∧ t.boot.inReset = true ∧ t.boot.pinLow = true ∧ t.rd Obj.resetCause = cause 3 ∧
      t.records = s.records ∧ t.faultLog = s.faultLog ∧ t.rd Obj.hvUsed = s.rd Obj.hvUsed ∧ t.rd Obj.wdtResets = s.rd Obj.wdtResets) ∧
    (s.boot.pinLow = true → s.power.supplied = true → Does (.pinResetRelease pins) s fun t =>
      t.boot.inReset = false ∧ t.boot.pinLow = false ∧ t.boot.mode = modeOf pins ∧ t.rd Obj.bootPins = pins.toNat ∧
      t.rd Obj.bootMode = modeOf pins ∧ t.mem = s.mem ∧ t.lanes = s.lanes) ∧
    (s.boot.pinLow = false → exec (.pinResetRelease pins) s = .next s) ∧
    (∀ c, s.boot.pending = some c → c = 5 ∨ c = 6 → Does (.resetProper pins) s fun t =>
      Warm s t ∧ Sampled t pins ∧ t.rd Obj.resetCause = cause c) ∧
    (s.boot.pending = none → s.boot.inReset = false → exec (.resetProper pins) s = .next s) ∧
    (s.boot.pending = none → s.boot.inReset = true → s.boot.pinLow = false → s.power.supplied = true →
      Does (.resetProper pins) s fun t =>
        t.boot.inReset = false ∧ t.boot.mode = modeOf pins ∧ t.rd Obj.bootPins = pins.toNat ∧ t.mem = s.mem) ∧
    (s.boot.inReset = false → s.boot.mode ≠ 2 → awake s = true → Does .watchdogExpiry s fun t =>
      Warm s t ∧ t.boot.inReset = true ∧ t.rd Obj.resetCause = cause 4 ∧
      t.rd Obj.wdtResets = min (s.rd Obj.wdtResets + 1) 0xFFFFFFFF ∧
      logRecord t (s.rd Obj.fltLogHead) = ⟨0x5023, 0, 0, 0, 0, s.slate⟩) ∧
    (s.boot.inReset = true ∨ awake s = false → exec .watchdogExpiry s = .next s) ∧
    (s.boot.booted = true → awake s = true → exec .watchdogRestart s =
      .next { s with wdtSlate := s.slate, wdtFrom := s.rd Obj.wdtPeriod }) ∧
    Does .currentLimit s (fun t => Cleared s t ∧ t.power.supplied = false ∧ t.boot.inReset = true) ∧
    (s.power.supplied = false → s.boot.pinLow = false → Does (.powerStageRestart pins) s fun t =>
      Cleared s t ∧ Sampled t pins ∧ t.power.supplied = true ∧ t.rd Obj.resetCause = cause 1) ∧
    (s.power.supplied = true → exec (.powerStageRestart pins) s = .next s)

/-- R362 to R366 and R368: the firmware starts from the slot of the highest version that passes its checks, and says which; with none
the module enters recovery mode, whose ROM takes commands from the control block and programs an image that passes. -/
def Obligations.BootAndRecovery : Prop :=
  ∀ (time : Word) (pins : BitVec 2) (s : State), s.tidy = true →
    let w := s.memWord 0x104000000
    let starts := s.boot.booted = false ∧ s.boot.inReset = false ∧ s.power.supplied = true ∧ s.boot.meterE = true ∧
      s.rd Obj.pwrState ≠ 5
    let image := rcvImage s
    let good := image.size ≠ 0 ∧ image.size ≤ 16777216 ∧ imageStatus s 1 image = 0
    (∀ k, starts → s.boot.mode ≤ 1 → bootSlot s = some k → currentSet s = [] → s.boot.deferred = [] →
      s.rd Obj.showSelect = 0xFF →
      Does (.bootFirmwareStart time) s fun t =>
        t.boot.booted = true ∧ t.boot.meterE = false ∧ t.rd Obj.fwSlot = k ∧ t.rd Obj.bootTime = time.toNat ∧
        t.rd Obj.fwFallback = (if k = firstSlot s then 0 else 1) ∧ t.rd (Obj.coreState 0) = 1 ∧ t.rd (Obj.coreState 1) = 1 ∧
        (k ≠ firstSlot s → logRecord t (s.rd Obj.fltLogHead) = ⟨0xC001, 0, BitVec.ofNat 8 (firstSlot s), 0, 0, s.slate⟩) ∧
        (s.boot.mode = 1 → t.can.silent = true)) ∧
    (starts → s.boot.mode ≠ 2 → bootSlot s = none → Does (.bootFirmwareStart time) s fun t =>
      t.boot.mode = 2 ∧ t.boot.meterE = false ∧ t.rd Obj.bootMode = 2 ∧ t.boot.booted = false ∧ Raised s t 0xC002 0 0 0 ∧
      t.mem = s.mem) ∧
    (starts → s.boot.mode = 2 → Does (.bootFirmwareStart time) s fun t =>
      t.boot.mode = 2 ∧ t.boot.meterE = false ∧ t.boot.booted = false ∧ t.mem = s.mem) ∧
    (s.boot.booted = true → exec (.bootFirmwareStart time) s = .next s) ∧
    (s.boot.inReset = false → s.power.supplied = true → exec .dramClearComplete s = .next { s with dramClean := true }) ∧
    (recovering s = true → s.boot.rcvBusy = none → s.boot.rcvCmd = 0 →
      (w = 0 → exec .recoveryPoll s = .next s) ∧
      (w ≠ 0 → Does .recoveryPoll s fun t =>
        t.memWord 0x104000000 = 0 ∧ t.memWord 0x10400000C = s.memWord 0x10400000C + 1 ∧
        t.memWord 0x104000004 = s.memWord 0x104000004 ∧ SameOutside s t 0x104000000 0x104000010 ∧
        (w = 1 → t.memWord 0x104000008 = 0x10000 ∧ t.boot = { s.boot with rcvCmd := 1 }) ∧
        (w = 2 → t.memWord 0x104000008 = s.memWord 0x104000008 ∧ t.boot = { s.boot with rcvCmd := 2 }) ∧
        (w ≠ 1 → w ≠ 2 → t.memWord 0x104000008 = 0x2C012 ∧ t.boot = s.boot))) ∧
    (recovering s = true → s.boot.rcvCmd = 1 → ¬ good → Does .rcvProgram s fun t =>
      t.memWord 0x104000008 = 0x2C011 ∧ t.boot = { s.boot with rcvCmd := 0 } ∧ t.flash = s.flash ∧
      SameOutside s t 0x104000008 0x10400000C) ∧
    (recovering s = true → s.boot.rcvCmd = 1 → good → Does .rcvProgram s fun t =>
      t.boot = { s.boot with rcvCmd := 0, rcvBusy := some (rcvSlot s) } ∧
      t.slotImages.get [] 0 = image.read 0 (imgTotal image) ∧ t.flash.shows = s.flash.shows ∧ t.mem = s.mem ∧
      (∀ j, j ≠ rcvSlot s → t.flash.fw.get [] j = s.flash.fw.get [] j)) ∧
    (s.rd Obj.holdSafe = 1 → exec .rcvProgramComplete s = .next s) ∧
    (∀ k, s.boot.rcvBusy = some k → s.rd Obj.holdSafe ≠ 1 → Does .rcvProgramComplete s fun t =>
      t.flash.fw.get [] k = s.slotImages.get [] 0 ∧ (∀ j, j ≠ k → t.flash.fw.get [] j = s.flash.fw.get [] j) ∧
      t.boot = { s.boot with rcvBusy := none } ∧ t.memWord 0x104000008 = 0x20000 ∧ SameOutside s t 0x104000008 0x10400000C) ∧
    (Quiet s → recovering s = true → s.boot.rcvCmd = 2 → Does (.rcvEnd pins) s fun t =>
      Warm s t ∧ Sampled t pins ∧ t.rd Obj.resetCause = 3) ∧
    (s.boot.rcvCmd ≠ 2 → exec (.rcvEnd pins) s = .next s)

/-! ## Shows, faults, identity, service and the console -/

namespace Sys2Proof.Claims

/-- The commands that load a show, with their paths and the source they name. -/
def loadOf : Instr → Option (Path × Nat)
  | .showLoadSlot p i => some (p, i.val)
  | .showLoadSource p => some (p, 0x10)
  | _ => none

/-- The commands that start a built-in test. -/
def testOf : Instr → Option (Path × Nat)
  | .bistPanMarch p => some (p, 1)
  | .bistDram p => some (p, 2)
  | .bistLaneSelfTest p => some (p, 3)
  | .bistCrystallizerAsrc p => some (p, 4)
  | .bistPortInternalLoopback p => some (p, 5)
  | .bistPortExternalLoopback p => some (p, 6)
  | .bistCanLoopback p => some (p, 7)
  | .bistRefSteeringRange p => some (p, 8)
  | .bistTemperatureSensors p => some (p, 9)
  | _ => none

/-- METER stands at `mv` millivolts. -/
def Metered (s : State) (mv : Nat) : Prop :=
  exec .meterUpdate s = .next { s with service := { s.service with meterMv := mv } }

/-- METER follows METER_MODE (R409). -/
def Metering (s : State) : Prop :=
  s.power.supplied = true ∧ s.rd Obj.pwrState ≠ 2 ∧ s.rd Obj.pwrState ≠ 5 ∧ s.boot.inReset = false ∧ s.boot.meterE = false ∧
    s.boot.pending = none ∧ s.boot.mode = 0

/-- The words of the watched channel in the last 100 ms (R419). -/
def watchedWords (s : State) : List Word :=
  (s.service.levels.filter fun x => decide (s.slate.toNat ≤ x.1.toNat + 10000000)).map (·.2)

/-- The largest magnitude among words. -/
def peakOf (ws : List Word) : Nat := ws.foldl (fun m w => max m w.toInt.natAbs) 0

/-- `v` is 2000 log10 (a / full scale) rounded, from -12,000 to 0: 10^(2v - 1) is at most (a / full scale)^4000, and
10^(2v + 1) is more. -/
def IsLevel (a : Nat) (v : Int) : Prop :=
  -12000 ≤ v ∧ v ≤ 0 ∧
    (-12000 < v → 0x7FFFFFFF ^ 4000 ≤ a ^ 4000 * 10 ^ (1 - 2 * v).toNat) ∧
    (v < 0 → a ^ 4000 * 10 ^ (-1 - 2 * v).toNat < 0x7FFFFFFF ^ 4000)

/-- The console is free to execute a line. -/
def ConReady (s : State) : Prop := s.tidy = true ∧ conFree s = true ∧ s.service.bist = none ∧ NoneWaits s

/-- The state from which a load of the image `x` of source `v` is checked: reads of SHOW_SOURCE report the errors they meet (R267). -/
def imageRead (s : State) (v : Nat) (x : Source) : State := if v < 4 then s else noteImage (s.rd Obj.showSource) x s

/-- The console has printed `o` and its prompt, and has taken the line; it counted it where it executed it (R411). -/
def Printed (s t : State) (o : ConOut) (counted : Bool) : Prop :=
  t.service.conOut = s.service.conOut ++ [o, .prompt] ∧ t.service.conBuf = takeLine s.service.conBuf ∧
    t.rd Obj.conLines = (if counted then min (s.rd Obj.conLines + 1) 0xFFFFFFFF else s.rd Obj.conLines)

/-- A console command was refused: `err`, and nothing else (R413). -/
def Gated (c : Instr) (s : State) : Prop :=
  Does c s fun t => Printed s t (.err 0x08000022) false ∧ { t with service := s.service } = s

end Sys2Proof.Claims

/-- R304, R370 and R395 to R397: a show load is answered BUSY where no handle is free, fails with the status of the first check that
refuses the image and applies none of it, and applies an image that passes; it completes with its result. A slot write erases its
slot, writes it and completes, but not in hold-safe (R351). -/
def Obligations.Shows : Prop :=
  (∀ (c : Instr) (p : Path) (v : Nat) (s : State), loadOf c = some (p, v) → Ready s →
    let x := loadImage s v
    let o := imageRead s v x
    let r := imageStatus o 2 x
    let ss := Config.showSections (imgBody x)
    let u := applySections (pathCode p) ss o
    (admits s = false → exec c s = .next (denied p 0x2020 2 0x08000000 ((s.wr Obj.showResult 0xB101).inc Obj.handlesRefused))) ∧
    (admits s = true → r ≠ 0 → Writes c p s fun t => ∃ h : Handle,
      t.handles = s.handles ++ [h] ∧ h.op = .show v [] [] false ∧ h.status = r ∧ t.rd Obj.showHandle = h.word ∧
      t.lanes = s.lanes ∧ t.mem = s.mem ∧ ∀ n, n < 64 → laneSt t n = laneSt s n) ∧
    (admits s = true → r = 0 → u.2 ≠ 0 → Writes c p s fun t => ∃ h : Handle,
      t.handles = u.1.handles ++ [h] ∧ h.op = .show v [] [] false ∧ h.status = u.2 ∧ t.lanes = s.lanes ∧ t.mem = s.mem) ∧
    (admits s = true → r = 0 → u.2 = 0 → Writes c p s fun t => ∃ h : Handle,
      t.handles = u.1.handles ++ [h] ∧ h.op = .show v (showTargets ss) (showLocks ss) false ∧ h.status = 0 ∧
      t.rd Obj.showHandle = h.word ∧ t.lanes = u.1.lanes ∧ t.mem = u.1.mem ∧ t.service.showDigest = imgDigest x)) ∧
  (∀ (p : Path) (i : Fin 4) (s : State), Ready s →
    let x := sourceImage s
    let r := imageStatus (imageRead s 0x10 x) 2 x
    (s.handles.any (fun h => h.op == .verify (0x10 + i.val)) = true → exec (.showSlotWrite p i) s =
      .next (denied p 0x2020 2 0x08000022 (s.wr Obj.showResult 0xC037))) ∧
    (s.handles.any (fun h => h.op == .verify (0x10 + i.val)) = false → eraseRuns s = false → admits s = true →
      Writes (.showSlotWrite p i) p s fun t => (∃ h : Handle,
        t.handles = s.handles ++ [h] ∧ h.op = .slotWrite i.val ∧ h.status = r ∧ t.rd Obj.showHandle = h.word ∧
        (r = 0 → t.slotImages.get [] h.slot = x.read 0 (imgTotal x))) ∧
        (r = 0 → t.flash.shows.get [] i.val = []) ∧ (∀ j, j ≠ i.val → t.flash.shows.get [] j = s.flash.shows.get [] j) ∧
        (r ≠ 0 → t.flash = s.flash) ∧ t.flash.fw = s.flash.fw ∧ t.mem = s.mem)) ∧
  (∀ (s : State) (h : Handle) (v : Nat) (ts ls : List Nat), s.tidy = true → awake s = true → s.boot.loading = false →
    handleOf (fun o => match o with
      | .show _ _ _ _ => true
      | _ => false) s = some h → h.op = .show v ts ls false →
    Does .showLoadComplete s fun t =>
      Posted s t h h.status h.detail s.slate ∧ t.rd Obj.showResult = h.status ∧
      t.rd Obj.showActive = (if h.status = 0 then v else s.rd Obj.showActive) ∧ t.mem = s.mem ∧
      ∀ n, n < 64 → n ∈ ts → laneSt t n ≠ laneLoading) ∧
  (∀ (s : State) (h : Handle) (k : Nat), s.tidy = true →
    handleOf (fun o => match o with
      | .slotWrite _ => true
      | _ => false) s = some h → h.op = .slotWrite k → awake s = true →
    (h.status = 0 → s.rd Obj.holdSafe = 1 → exec .showSlotWriteComplete s = .next s) ∧
    (h.status ≠ 0 ∨ s.rd Obj.holdSafe ≠ 1 → Does .showSlotWriteComplete s fun t =>
      Posted s t h h.status 0 s.slate ∧ t.rd Obj.showResult = h.status ∧
      (h.status = 0 → t.flash.shows.get [] k = s.slotImages.get [] h.slot) ∧ (h.status ≠ 0 → t.flash = s.flash) ∧
      t.flash.fw = s.flash.fw ∧ t.mem = s.mem))

/-- R380 to R383: FLT_CLEAR clears the active flags and the sticky bits of the codes it names and no other; the temperature sensors
raise their faults once each time the junction becomes hot. -/
def Obligations.FaultsAndHeat : Prop :=
  ∀ (p : Path) (code : BitVec 16) (t0 t1 : BitVec 16) (s : State), s.tidy = true →
    let names := fltNames code.toNat
    let hot := 1000 ≤ t0.toInt ∨ 1000 ≤ t1.toInt
    let temps : State := { s with service := { s.service with temp0 := t0, temp1 := t1 } }
    (Ready s → fltClearGood code.toNat = false → exec (.fltClearWrite p code) s = .next (denied p 0x3A00 6 0x06090030 s)) ∧
    (Ready s → fltClearGood code.toNat = true → Writes (.fltClearWrite p code) p s fun t =>
      (∀ a ∈ t.active, names a.1.toNat = false ∨ a.1 = 0xB005) ∧ (∀ a ∈ s.active, names a.1.toNat = false → a ∈ t.active) ∧
      (∀ n k, n < 64 → k < 9 → (t.rd (Obj.laneFaults n)).testBit k =
        ((s.rd (Obj.laneFaults n)).testBit k && !names (0x4001 + k))) ∧
      (∀ g k, g < 6 → k < 7 → (t.rd (Obj.portFaults g)).testBit k =
        ((s.rd (Obj.portFaults g)).testBit k && !names (0x3001 + k))) ∧
      (∀ ch k, ch < 32 → k < 4 → (t.rd (Obj.dmaFaults ch)).testBit k =
        ((s.rd (Obj.dmaFaults ch)).testBit k && !names (0x7001 + k))) ∧
      t.mem = s.mem ∧ t.lanes = s.lanes ∧ t.handles = s.handles) ∧
    (s.service.hot = false → hot → Does (.junctionWarning t0 t1) s fun t =>
      t.service.hot = true ∧ t.service.temp0 = t0 ∧ t.service.temp1 = t1 ∧ t.mem = s.mem ∧
      (1000 ≤ t0.toInt → Raised s t 0xD001 0 t0.toNat 0) ∧ (t0.toInt < 1000 → Raised s t 0xD001 1 t1.toNat 0) ∧
      ∀ c, c < 8 → (t.core c).ipend.getLsbD 26 = true) ∧
    (s.service.hot = true ∨ ¬ hot → exec (.junctionWarning t0 t1) s = .next temps) ∧
    (t0.toInt < 950 → t1.toInt < 950 → exec (.junctionCooled t0 t1) s =
      .next { temps with service := { temps.service with hot := false } }) ∧
    (950 ≤ t0.toInt ∨ 950 ≤ t1.toInt → exec (.junctionCooled t0 t1) s = .next temps) ∧
    (100 < t0.toInt - t1.toInt ∨ 100 < t1.toInt - t0.toInt → Does (.sensorImplausible t0 t1) s fun t =>
      Raised s t 0xD002 0 t0.toNat 0 ∧ t.service = temps.service ∧ t.mem = s.mem) ∧
    (t0.toInt - t1.toInt ≤ 100 → t1.toInt - t0.toInt ≤ 100 → exec (.sensorImplausible t0 t1) s = .next temps)

/-- R397 to R400 and R404: a key and a quorum are written once, with SERVICE_N low; a full erase empties the show slots, the stored
sets and the keys, and leaves the firmware; attestation signs its message; a verify reports the status of the image. -/
def Obligations.Identity : Prop :=
  ∀ (p : Path) (i : Fin 4) (key : BitVec 256) (v : Byte) (s : State), s.tidy = true →
    let low := s.service.serviceN = false
    let kept := ([1, 2, 3, 4].filter (provisioned s)).length
    (Ready s →
      (key = 0 → exec (.custKeyWrite p i key) s = .next (denied p 0x3E01 (1 + i.val) 0x06090030 s)) ∧
      (key ≠ 0 → low → s.rd (Obj.custKey i.val) = 0 → exec (.custKeyWrite p i key) s =
        .next (told p 0x3E01 (1 + i.val) (s.wr (Obj.custKey i.val) key.toNat))) ∧
      (key ≠ 0 → ¬ low ∨ s.rd (Obj.custKey i.val) ≠ 0 → exec (.custKeyWrite p i key) s =
        .next (denied p 0x3E01 (1 + i.val) 0x08000022 s)) ∧
      (1 ≤ v.toNat → v.toNat ≤ 4 → v.toNat ≤ kept → low → s.rd Obj.showQuorum = 0 → exec (.showQuorumWrite p v) s =
        .next (told p 0x3E01 5 (s.wr Obj.showQuorum v.toNat))) ∧
      (1 ≤ v.toNat → v.toNat ≤ 4 → v.toNat ≤ kept → ¬ low ∨ s.rd Obj.showQuorum ≠ 0 → exec (.showQuorumWrite p v) s =
        .next (denied p 0x3E01 5 0x08000022 s)) ∧
      (v.toNat = 0 ∨ 4 < v.toNat ∨ kept < v.toNat → exec (.showQuorumWrite p v) s = .next (denied p 0x3E01 5 0x06090030 s)) ∧
      (low → s.handles.any (fun h => eraseBlocks h.op) = false → admits s = true → Writes (.fullErase p) p s fun t =>
        (∃ h, Issued s t .erase p h) ∧ t.flash = s.flash ∧ t.mem = s.mem) ∧
      (¬ low ∨ s.handles.any (fun h => eraseBlocks h.op) = true → exec (.fullErase p) s =
        .next (denied p 0x3E05 1 0x08000022 s)) ∧
      (s.rd Obj.attState ≠ 1 → exec (.attNonceWrite p key) s = .next (told p 0x3E02 1
        ({ s with service := { s.service with attMsg := leBytes 32 key.toNat } }.wr Obj.attState 1))) ∧
      (s.rd Obj.attState = 1 → exec (.attNonceWrite p key) s = .next (denied p 0x3E02 1 0x08000022 s)) ∧
      (s.rd Obj.vfyTarget < 0x10 ∨ 0x14 ≤ s.rd Obj.vfyTarget ∨
          s.handles.any (fun h => h.op == .slotWrite (s.rd Obj.vfyTarget - 0x10)) = false →
        eraseRuns s = false → admits s = true → Writes (.vfyStart p) p s fun t =>
          (∃ h, Issued s t (.verify (s.rd Obj.vfyTarget)) p h ∧ t.rd Obj.vfyHandle = h.word) ∧ t.flash = s.flash ∧ t.mem = s.mem)) ∧
    (s.rd Obj.holdSafe = 1 ∨ awake s = false → exec .fullEraseComplete s = .next s) ∧
    (∀ h, handleOf (fun o => o == .erase) s = some h → awake s = true → s.rd Obj.holdSafe ≠ 1 → Does .fullEraseComplete s fun t =>
      Posted s t h 0 0 s.slate ∧ (∀ k, k < 4 → t.flash.shows.get [] k = []) ∧ t.flash.setA = [] ∧ t.flash.setB = [] ∧
      t.flash.fw = s.flash.fw ∧ (∀ k, k < 4 → t.rd (Obj.custKey k) = 0) ∧ t.rd Obj.showQuorum = 0 ∧ t.mem = s.mem) ∧
    (awake s = true → s.rd Obj.attState = 1 → Does .attestationComplete s fun t =>
      t.rd Obj.attState = 2 ∧ t.service.attReport.length = 192 ∧ t.service.attReport.take 128 = attestMessage s ∧
      t.service.attReport.take 32 = fitBytes 32 s.service.attMsg ∧ t.service.attReport.drop 112 =
        attestText ++ fitBytes 64 (Config.unitSign (attestMessage s)) ∧ t.mem = s.mem) ∧
    (∀ h k, handleOf (fun o => match o with
        | .verify _ => true
        | _ => false) s = some h → h.op = .verify k → awake s = true → Does .vfyComplete s fun t =>
      let x := verifySource s k
      let r := imageStatus (imageRead s (if k < 0x20 then 0 else 0x10) x.1) x.2 x.1
      Posted s t h r (if r = 0 then imgVersion x.1 else 0) s.slate ∧ t.rd Obj.vfyResult = r ∧ t.flash = s.flash ∧ t.mem = s.mem)

/-- R401 to R403 and R448: a token that passes opens its scope and raises 0xC006, another raises 0xC005; a lock closes it. The TAP
takes an instruction that its scope allows, and BYPASS in place of another; one that a new scope does not allow turns into BYPASS. -/
def Obligations.DebugAccess : Prop :=
  ∀ (p : Path) (token : List Byte) (code : Byte) (s : State), s.tidy = true →
    let ir (k : Byte) : State := { s with service := { s.service with tapIr := k } }
    let scope (k : Nat) : Bool := (s.rd Obj.dbgScope).testBit k
    let r := tokenStatus s token
    (Ready s → s.service.serviceN = true → exec (.dbgTokenWrite p token) s = .next (denied p 0x3E03 2 0x08000022 s)) ∧
    (Ready s → s.service.serviceN = false → r = 0 → Writes (.dbgTokenWrite p token) p s fun t =>
      t.rd Obj.dbgScope = ofLe ((token.drop 64).take 4) ∧ t.rd Obj.dbgResult = 0 ∧ Raised s t 0xC006 0 0 0 ∧
      t.service.challenge = s.fresh ∧ t.fresh = s.fresh + 1 ∧ t.mem = s.mem ∧
      t.service.tapIr = tapUnder (ofLe ((token.drop 64).take 4)) s.service.tapIr) ∧
    (Ready s → s.service.serviceN = false → r ≠ 0 → Does (.dbgTokenWrite p token) s fun t =>
      (t.answers.get {} (pathCode p)).abort = 0x08000022 ∧ t.rd Obj.dbgScope = s.rd Obj.dbgScope ∧ t.rd Obj.dbgResult = r ∧
      Raised s t 0xC005 0 0 0 ∧ t.service.badTokens = min (s.service.badTokens + 1) 8 ∧ t.service.challenge = s.fresh ∧
      t.mem = s.mem) ∧
    (Ready s → Writes (.dbgLockWrite p) p s fun t => t.rd Obj.dbgScope = 0 ∧ t.mem = s.mem ∧ t.service.tapIr =
      (if 0x20 ≤ s.service.tapIr.toNat ∧ s.service.tapIr.toNat ≤ 0x22 then 0xFF else s.service.tapIr)) ∧
    exec .extest s = .next (ir 0x00) ∧ exec .samplePreload s = .next (ir 0x01) ∧ exec .idcode s = .next (ir 0x02) ∧
    exec .tapReset s = .next (ir 0x02) ∧
    (code.toNat ∉ [0x00, 0x01, 0x02, 0x20, 0x21, 0x22] → exec (.bypass code) s = .next (ir 0xFF)) ∧
    (scope 0 = true → exec .dbgCore s = .next (ir 0x20)) ∧ (scope 0 = false → exec .dbgCore s = .next (ir 0xFF)) ∧
    (scope 1 = true → exec .dbgFabric s = .next (ir 0x21)) ∧ (scope 1 = false → exec .dbgFabric s = .next (ir 0xFF)) ∧
    (scope 2 = true → exec .dbgTrace s = .next (ir 0x22)) ∧ (scope 2 = false → exec .dbgTrace s = .next (ir 0xFF))

/-- R407 to R410 and R419: the millivolts of METER in each state and mode; LEVEL_PEAK is the level of the largest word of the last
100 ms, -120 dB where the channel is masked off or silent. -/
def Sys2Proof.Claims.MeterAndLevel : Prop :=
  (∀ (s : State), s.power.supplied = false → Metered s 0) ∧
  (∀ (s : State), s.power.supplied = true → s.rd Obj.pwrState = 2 ∨ s.rd Obj.pwrState = 5 → Metered s 150) ∧
  (∀ (s : State), s.power.supplied = true → s.rd Obj.pwrState ≠ 2 → s.rd Obj.pwrState ≠ 5 →
    (booting s = true → Metered s 2250) ∧ (booting s = false → s.boot.mode ≠ 0 → Metered s 2400)) ∧
  (∀ (s : State), Metering s →
    (s.rd Obj.meterMode = 0 → s.active = [] → Metered s 150) ∧
    (∀ a, s.rd Obj.meterMode = 0 → s.active = [a] → Metered s (150 * (a.1.toNat / 0x1000 + 1))) ∧
    (∀ a b, s.rd Obj.meterMode = 0 → s.active = [a, b] → b.2.toNat < a.2.toNat ∨ (b.2 = a.2 ∧ b.1.toNat < a.1.toNat) →
      Metered s (150 * (b.1.toNat / 0x1000 + 1))) ∧
    (s.rd Obj.meterMode = 1 → Metered s (min (s.power.vinMv.toNat / 10) 2500)) ∧
    (s.rd Obj.meterMode = 2 → Metered s (min (500 + (s.service.temp0.toInt + s.service.temp1.toInt) / 2).toNat 2500)) ∧
    (s.rd Obj.meterMode = 3 → Metered s (min (2400 + toSigned 16 (s.rd Obj.levelPeak) / 5).toNat 2500)) ∧
    (s.rd Obj.meterMode = 4 → Metered s (min (1250 + (toSigned 32 (s.rd Obj.steerOffset) + 5) / 10).toNat 2500))) ∧
  (∀ (s : State), awake s = true → (levelMasked s = false ∨ watchedWords s = [] → exec .levelUpdate s =
      .next ((s.wr Obj.levelPeak 53536).wr Obj.levelRms 53536)) ∧
    (levelMasked s = true → Does .levelUpdate s fun t =>
      IsLevel (peakOf (watchedWords s)) (toSigned 16 (t.rd Obj.levelPeak)) ∧
      -12000 ≤ toSigned 16 (t.rd Obj.levelRms) ∧ toSigned 16 (t.rd Obj.levelRms) ≤ 0 ∧ t.mem = s.mem))

/-- R413 and R418: the tone moves with SERVICE_N low; the old and the new channel fade out before it switches, with phase 0; it goes
off when SERVICE_N rises. -/
def Sys2Proof.Claims.Tone : Prop :=
  ∀ (p : Path) (v : Byte) (s : State), s.tidy = true →
    let old := s.service.toneNow
    let silent (c : Nat) : Bool := decide (96 ≤ c) || (s.outchan c).p == 0 || portSt s (chanGroup c) != portRun
    (Ready s → v.toNat < 96 ∨ v = 0xFF → toneFits s v.toNat (s.rd Obj.toneFreq) = true → s.service.serviceN = true →
      exec (.toneChannelWrite p v) s = .next (denied p 0x3C40 1 0x08000022 s)) ∧
    (Ready s → ¬ (v.toNat < 96 ∨ v = 0xFF) ∨ toneFits s v.toNat (s.rd Obj.toneFreq) = false →
      exec (.toneChannelWrite p v) s = .next (denied p 0x3C40 1 0x06090030 s)) ∧
    (Ready s → v.toNat < 96 ∨ v = 0xFF → toneFits s v.toNat (s.rd Obj.toneFreq) = true → s.service.serviceN = false →
      old ≠ v.toNat → Writes (.toneChannelWrite p v) p s fun t =>
        t.rd Obj.toneChannel = v.toNat ∧ t.service.toneNext = some v.toNat ∧ t.service.toneNow = old ∧ t.mem = s.mem ∧
        (old < 96 → (t.outchan old).causes.tone = true) ∧ (v.toNat < 96 → (t.outchan v.toNat).causes.tone = true)) ∧
    (∀ k, s.service.toneNext = some k → silent old = true → silent k = true → Does .toneSwitch s fun t =>
      t.service.toneNow = k ∧ t.service.toneNext = none ∧ t.service.tonePhase = 0 ∧ t.service.toneHz = s.rd Obj.toneFreq ∧
      t.service.toneDb = s.rd Obj.toneLevel ∧ t.mem = s.mem ∧ (old < 96 → (t.outchan old).causes.tone = false) ∧
      (k < 96 → (t.outchan k).causes.tone = false)) ∧
    (∀ k, s.service.toneNext = some k → silent old = false ∨ silent k = false → exec .toneSwitch s = .next s) ∧
    (s.service.toneNext = none → exec .toneSwitch s = .next s) ∧
    (s.service.bist = none → s.rd Obj.toneChannel = 0xFF → exec .serviceNRise s =
      .next { s with service := { s.service with serviceN := true } }) ∧
    (s.service.bist = none → s.rd Obj.toneChannel ≠ 0xFF → old ≠ 0xFF → Does .serviceNRise s fun t =>
      t.service.serviceN = true ∧ t.rd Obj.toneChannel = 0xFF ∧ t.service.toneNext = some 0xFF ∧ t.service.toneNow = old ∧
      t.mem = s.mem ∧ (old < 96 → (t.outchan old).causes.tone = true)) ∧
    (∀ a h, s.service.bist = some (6, a) → handleOf (fun o => match o with
        | .bist _ => true
        | _ => false) s = some h → s.rd Obj.toneChannel = 0xFF → Does .serviceNRise s fun t =>
      t.service.serviceN = true ∧ t.service.bist = none ∧ t.rd Obj.bistResult = 0xC052 ∧ Posted s t h 0xC052 0 s.slate)

/-- R414 to R416: a test is refused while another runs, while its prerequisites are not met, while SERVICE_N gates it and with an
argument it does not take; else it starts under a handle. It ends with its status, and the memory it tested is cleared. -/
def Obligations.BuiltInTests : Prop :=
  (∀ (c : Instr) (p : Path) (test : Nat) (s : State), testOf c = some (p, test) →
    let arg := s.rd Obj.bistArg
    let fits := arg &&& bistMask test = arg
    let shut := bistGated test = true ∧ s.service.serviceN = true
    (s.rd Obj.bistSelect ≠ test → exec c s = .next s) ∧
    (served s = true → NoneWaits s → s.rd Obj.bistSelect = test →
      (¬ fits → exec c s = .next (denied p 0x3C20 3 0x06090030 s)) ∧
      (fits → shut → exec c s = .next (denied p 0x3C20 3 0x08000022 (s.wr Obj.bistResult 0xC051))) ∧
      (fits → ¬ shut → s.service.bist ≠ none → exec c s =
        .next (denied p 0x3C20 3 0x08000022 (if test = 9 then s else s.wr Obj.bistResult (bistNotReady test)))) ∧
      (fits → ¬ shut → s.service.bist = none →
        (bistReady s test arg = false → exec c s = .next (denied p 0x3C20 3 0x08000022 (s.wr Obj.bistResult (bistNotReady test)))) ∧
        (bistReady s test arg = true → admits s = false → exec c s =
          .next (denied p 0x3C20 3 0x08000000 ((s.wr Obj.bistResult 0xB101).inc Obj.handlesRefused))) ∧
        (s.tidy = true → bistReady s test arg = true → admits s = true → Writes c p s fun t =>
          (∃ h, Issued s t (.bist test) p h ∧ t.rd Obj.bistHandle = h.word) ∧ t.rd Obj.bistState = 1 ∧
          t.service.bist = some (test, BitVec.ofNat 64 arg) ∧ t.mem = s.mem ∧ t.lanes = s.lanes ∧
          (test = 5 → ∀ g, g < 6 → t.rd (Obj.portTest g) = (if arg.testBit g then 1 else s.rd (Obj.portTest g))) ∧
          (test ≠ 5 → t.ports = s.ports))))) ∧
  (∀ (fail : Option Word) (s : State) (test : Nat) (a : BitVec 64) (h : Handle), s.tidy = true → awake s = true → s.service.bist = some (test, a) →
    handleOf (fun o => match o with
      | .bist _ => true
      | _ => false) s = some h →
    Does (.bistComplete fail) s fun t =>
      t.service.bist = none ∧ t.rd Obj.bistState = 0 ∧
      (fail = none → Posted s t h 0 0 s.slate ∧ t.rd Obj.bistResult = 0) ∧
      (∀ d, fail = some d → Posted s t h (bistFail test) d.toNat s.slate ∧ t.rd Obj.bistResult = bistFail test) ∧
      (test = 1 → ∀ g, g < 8 → a.getLsbD g = true → ∀ x, 0x1000000 + g * 0x200000 ≤ x → x < 0x1000000 + (g + 1) * 0x200000 →
        readByte t.mem x = 0) ∧
      (test = 2 → (∀ x, 0x104000000 ≤ x → x < 0x100000000 + dramSize → readByte t.mem x = 0) ∧
        SameOutside s t 0x104000000 (0x100000000 + dramSize)) ∧
      (test ≠ 1 → test ≠ 2 → t.mem = s.mem) ∧
      t.service.conOut = s.service.conOut ++ (match h.op, s.service.conBist with
        | .bist _, true => [.result (ringRecord t (s.rd Obj.hvHead))]
        | _, _ => [])) ∧
  (∀ (fail : Option Word) (s : State), s.service.bist = none → exec (.bistComplete fail) s = .next s)

/-- R411 to R413 and R419: the commands of the console that report: what each prints; a line that is no command prints its error; a
character is echoed and kept and pends source 3; one that comes while the console is off is lost, and its edge is a wake source. -/
def Sys2Proof.Claims.ConsoleReports : Prop :=
  ∀ (index : BitVec 16) (sub ch : Byte) (n : Nat) (long : Bool) (s : State), ConReady s →
    let i := index.toNat
    let b := sub.toNat
    Does .conInfo s (fun t => Printed s t (.ok [identityWord 2, identityWord 3, identityWord 4, ofLe Config.swVersion,
      s.rd Obj.bootMode, s.rd Obj.fwSlot, s.rd Obj.resetCause]) true ∧ { t with service := s.service, od := s.od } = s) ∧
    Does .conSt s (fun t => Printed s t (.ok ([s.rd Obj.pwrState, s.rd Obj.holdSafe, s.power.vinMv.toNat,
      ofSigned 16 (junction s), activeClasses s, s.rd Obj.steerState] ++ (List.range 6).map fun g => s.rd (Obj.portState g))) true ∧
      { t with service := s.service, od := s.od } = s) ∧
    (∀ a, lookup i b = .error a → Does (.conRd index sub) s fun t => Printed s t (.err (BitVec.ofNat 32 a)) true ∧ t.mem = s.mem) ∧
    (∀ r, lookup i b = .ok r → r.acc = .wo → Does (.conRd index sub) s fun t => Printed s t (.err 0x06010001) true ∧ t.mem = s.mem) ∧
    (∀ r, lookup i b = .ok r → r.acc ≠ .wo → i ≠ 0x3C60 → Does (.conRd index sub) s fun t =>
      Printed s t (printValue i b (objBytes (lineDone s) 2 (selected s 2 i) r i b)) true ∧ t.mem = s.mem) ∧
    (1 ≤ n → n ≤ 64 → Does (.conLog n) s fun t => Printed s t (.records (newestFaults n s)) true ∧
      { t with service := s.service, od := s.od } = s) ∧
    (n = 0 ∨ 64 < n → Does (.conLog n) s fun t => Printed s t .errSyntax false ∧ { t with service := s.service } = s) ∧
    Does .conBistQuery s (fun t => Printed s t (.ok [s.rd Obj.bistState, 0, s.rd Obj.bistResult]) true ∧ t.mem = s.mem) ∧
    Does (.conBadLine long) s (fun t => Printed s t (if long then .errLine else .errSyntax) false ∧ { t with service := s.service } = s) ∧
    (s.rd Obj.conEcho = 1 → s.service.conBuf.any isEol = false → s.service.conBuf.length ≤ 128 ∨ isEol ch = true →
      exec (.consoleCharacter ch) s = .next { pendAll 3 s with service := { s.service with
        conOut := s.service.conOut ++ [.echo ch], conBuf := s.service.conBuf ++ [ch] } }) ∧
    (s.rd Obj.conEcho ≠ 1 → s.service.conBuf.any isEol = true → (behindLine s.service.conBuf).length < 256 →
      exec (.consoleCharacter ch) s = .next { pendAll 3 s with service := { s.service with conBuf := s.service.conBuf ++ [ch] } }) ∧
    (s.rd Obj.conEcho ≠ 1 → s.service.conBuf.any isEol = true → 256 ≤ (behindLine s.service.conBuf).length →
      exec (.consoleCharacter ch) s = .next ((pendAll 3 s).inc Obj.conOverruns)) ∧
    ∀ u : State, conUp u = false → exec (.consoleCharacter ch) u = .next (wakeBy 4 u)

/-- R412, R413 and R418: the commands of the console that write: each is one or several writes on the console's path, whose first
abort code it prints; those of the gate are refused and change nothing while SERVICE_N is high. -/
def Sys2Proof.Claims.ConsoleWrites : Prop :=
  ∀ (index code hz dbfs : BitVec 16) (sub mode ch : Byte) (value : Nat) (arg : BitVec 64) (s : State), ConReady s →
    let q := min (s.rd Obj.conLines + 1) 0xFFFFFFFF
    let shut := s.service.serviceN = true ∧ s.boot.mode = 0
    (shut → Gated (.conWr index sub value) s ∧ Gated (.conClr code) s ∧ Gated .conReset s) ∧
    (s.service.serviceN = true → Gated (.conTone ch hz dbfs) s ∧ Gated .conToneOff s) ∧
    (∀ a, ¬ shut → lookup index.toNat sub.toNat = .error a → Does (.conWr index sub value) s fun t =>
      Printed s t (.err (BitVec.ofNat 32 a)) true ∧ t.mem = s.mem ∧ t.lanes = s.lanes) ∧
    (value ≤ 4 → ¬ shut → Does (.conWr 0x3C00 1 value) s fun t => Printed s t (.ok []) true ∧ t.rd Obj.meterMode = value ∧
      t.mem = s.mem ∧ t.lanes = s.lanes) ∧
    (¬ shut → fltClearGood code.toNat = true → Does (.conClr code) s fun t => Printed s t (.ok []) true ∧ t.mem = s.mem ∧
      ∀ a ∈ t.active, fltNames code.toNat a.1.toNat = false ∨ a.1 = 0xB005) ∧
    (¬ shut → fltClearGood code.toNat = false → Does (.conClr code) s fun t => Printed s t (.err 0x06090030) true ∧
      t.active = s.active) ∧
    (¬ shut → Does .conReset s fun t => Printed s t (.ok []) true ∧ t.boot = { s.boot with pending := some (earlier 5 s.boot.pending) } ∧
      t.mem = s.mem) ∧
    (mode.toNat ≤ 4 → Does (.conMeter mode none) s fun t => Printed s t (.ok []) true ∧ t.rd Obj.meterMode = mode.toNat ∧
      t.rd Obj.meterChannel = s.rd Obj.meterChannel) ∧
    (mode.toNat ≤ 4 → channelGood ch.toNat = true → Does (.conMeter mode (some ch)) s fun t => Printed s t (.ok []) true ∧
      t.rd Obj.meterMode = mode.toNat ∧ t.rd Obj.meterChannel = ch.toNat ∧ t.rd Obj.levelChannel = ch.toNat) ∧
    (4 < mode.toNat → Does (.conMeter mode none) s fun t => Printed s t (.err 0x06090030) true ∧
      t.rd Obj.meterMode = s.rd Obj.meterMode) ∧
    (channelGood ch.toNat = true → Does (.conLvl ch) s fun t => t.service.lvlDue = true ∧ t.service.conOut = s.service.conOut ∧
      t.rd Obj.levelChannel = ch.toNat ∧ t.rd Obj.conLines = q ∧ t.service.levels = []) ∧
    (channelGood ch.toNat = false → Does (.conLvl ch) s fun t => Printed s t (.err 0x06090030) true ∧ t.service.lvlDue = false ∧
      t.rd Obj.levelChannel = s.rd Obj.levelChannel) ∧
    (Does .conLvlReport { s with service := { s.service with lvlDue := true } } fun t =>
      t.service.lvlDue = false ∧ t.service.conOut = s.service.conOut ++ [.ok [s.rd Obj.levelPeak, s.rd Obj.levelRms], .prompt] ∧ t.od = s.od) ∧
    exec .conLvlReport s = .next s ∧
    (s.service.serviceN = false → 20 ≤ hz.toNat → hz.toNat ≤ 20000 → -12000 ≤ dbfs.toInt → dbfs.toInt ≤ 0 → ch.toNat < 96 →
      toneFits s (s.rd Obj.toneChannel) hz.toNat = true → toneFits s ch.toNat hz.toNat = true →
      Does (.conTone ch hz dbfs) s fun t => Printed s t (.ok []) true ∧ t.rd Obj.toneFreq = hz.toNat ∧
        t.rd Obj.toneLevel = dbfs.toNat ∧ t.rd Obj.toneChannel = ch.toNat) ∧
    (s.service.serviceN = false → Does .conToneOff s fun t => Printed s t (.ok []) true ∧ t.rd Obj.toneChannel = 0xFF) ∧
    (∀ test : Byte, 1 ≤ test.toNat → test.toNat ≤ 9 → arg.toNat &&& bistMask test.toNat = arg.toNat →
      (test = 6 → s.service.serviceN = false) → bistReady s test.toNat arg.toNat = true → admits s = true →
      Does (.conBist test arg) s fun t =>
        (∃ h, Issued s t (.bist test.toNat) .console h ∧ Printed s t (.ok [h.word]) true) ∧ t.service.conBist = true ∧
        t.service.bist = some (test.toNat, arg) ∧ t.rd Obj.bistState = 1) ∧
    (∀ test : Byte, 1 ≤ test.toNat → test.toNat ≤ 9 → arg.toNat &&& bistMask test.toNat ≠ arg.toNat → Does (.conBist test arg) s fun t =>
      Printed s t (.err 0x06090030) true ∧ t.service.bist = none ∧ t.service.conBist = s.service.conBist)

/-! ## Statements of two parts -/

/-- R96, R100, R101, R97 on a control core: ADD, SUB, AND, OR, XOR and DIV with every operand form, guarded or not: A takes the
result, the index register of the operand steps, F follows the instruction, and nothing else changes. A division by zero under
the trap enable of F is in `TrapsAndFaults`. R96, R100, R101, R97 on a lane: as on a core; DIV takes 17 slots. -/
def Obligations.Arithmetic : Prop := Sys2Proof.Claims.AluOnCore ∧ Sys2Proof.Claims.AluOnLane

/-- R96, R100, R102, R103: NEG, ABS, RND, SATA, the shifts and rotate of A, BFX, BFI, CLZ and PERM on a core and on a lane. R95
and R96: CMP writes flags only, and no SV but that of its read of A; NOP changes nothing but PC. R81 and R89: under REP an
operation on A runs its count plus one times, each on what the one before left, in as many slots on a lane; TAP under REP on a
lane runs down two arrays of its reel pan. -/
def Obligations.AccumulatorOps : Prop := Sys2Proof.Claims.OwnOps ∧ Sys2Proof.Claims.CompareAndNop ∧ Sys2Proof.Claims.Repetitions

/-- R12, R67, R88, R241 and R243: an undefined instruction takes vector 2 on a core, with its reason and length in ESR, and
passes in one slot on a lane, which sets UD, counts it and notes its first slot; an interrupt entry takes the vector that is
due, at the next instruction, and clears its pending bit. R12, R67, R74, R84, R88, R101 and R243: a form that R84 finds
undefined acts as an undefined opcode with its reason and length; on a core an operand that faults takes vector 3 before
anything is written, an access that the fabric holds back waits, and a division by zero with the trap enabled takes vector 4
after its result. -/
def Obligations.TrapsAndFaults : Prop := Sys2Proof.Claims.TrapsAndInterrupts ∧ Sys2Proof.Claims.UndefinedFormsAndFaults

/-- R78, R91, R95 and R127 on a control core: STA, STX and STY write the word at the operand's address, and its complement where
guarded; then the index register steps. R91 and R95 on a lane: STA, STX and STY without GUARD write the word through the lane's
D space, unless STA's address is far. -/
def Obligations.Stores : Prop := Sys2Proof.Claims.StoresOnCore ∧ Sys2Proof.Claims.StoresOnLane

/-- R34, R82 and R104: a branch whose condition holds on F as it stood goes to the next instruction's address plus the
displacement; on a lane it goes to that instruction's start slot. Otherwise the next instruction follows. R104 and R245 on a
core: BSR pushes the next address and jumps; RET pops PC; LOOP sets LS, LE and LC of its level. None changes F. -/
def Obligations.ControlFlow : Prop := Sys2Proof.Claims.Branches ∧ Sys2Proof.Claims.CallsAndLoops

/-- R54: a safe request takes a lane in ARMED or TAKE to SAFE and waits in the other states; a release takes it from SAFE to
ARMED and withdraws a request that waits. R54: LANE_ENABLE at 0 stops a lane, from SAFE with its request kept; at 1 a stopped
lane is armed, or enters SAFE where a request of the host waits. R54: the end of a program load does the same by the enable. -/
def Obligations.LaneStates : Prop := Sys2Proof.Claims.LaneSafeRequests ∧ Sys2Proof.Claims.LaneEnables

/-- R109, R110 and R113: a splice request that no check refuses waits on every lane of the path's mask; flip-and-copy issues a
handle; a refused request answers 0x0800_0022 with its status and is counted. R110, R117, R120 and R128: a cancel removes the
lanes of the mask from the requests they wait in; a step of a copy takes the word of the live side into the other side, unless
that was written since the flip, and no other byte. -/
def Obligations.Splices : Prop := Sys2Proof.Claims.SpliceRequests ∧ Sys2Proof.Claims.SpliceCancelAndCopy

/-- R152, R154 and R155: in RUN an input word takes the raised-cosine gain one step further in; in HOLD its last word fades out
one step further. R20, R50, R152 and R169: an output word in plain play is the source word under trim, mute, ceiling, fade and
rounding. -/
def Obligations.PortWords : Prop := Sys2Proof.Claims.InputWords ∧ Sys2Proof.Claims.OutputWords

/-- R157, R158, R160 and R161: a WS edge does nothing to a group in OFF, takes a group in HOLD to WAIT with silent inputs,
counts a frame in WAIT, and counts a glitch where a half has a wrong number of BCLK edges; a third one in 16 frames is a glitch
run, at once unless the frame's own end may still bring a rate change, which goes first. R157, R158, R159, R160 and R162: the
timed moves of a group between its states; a relocked group's output stream realigns at the frame start that ends its 64th
frame. -/
def Obligations.PortTiming : Prop := Sys2Proof.Claims.PortClockEdges ∧ Sys2Proof.Claims.PortStates

/-- R215, R217 and R219: the first firing of the highest priority of a node that has not failed goes to an engine of its kind,
running where the engine is free and staged behind its firing elsewhere, void where its return block has moved on; no other
firing moves and no memory changes. R218 and R246: a firing of a software node is handed to the core that has waited longest,
with its words in the core's mailbox; the core runs again. -/
def Obligations.Handovers : Prop := Sys2Proof.Claims.EngineDispatch ∧ Sys2Proof.Claims.CoreHandover

/-- R183 to R185, R212 and R267: an operation on a crystallizer ends with status 0 where its block is good and its accesses are
allowed, and leaves the words of `opResult` at its destination; a read of DRAM that cannot be corrected fails it with 0x8003; a
bad block fails with 0x5003 under any row. R189, R198, R200 and R250: TAIL of a convolution path and a block of a converter end
with status 0 where all their accesses are allowed. A path's return block has the words of `returnWords`, a converter's block
those of `convWords`, under a header that gives its length and channels, silent in ACQUIRE. -/
def Obligations.EngineOps : Prop := Sys2Proof.Claims.CrystallizerOps ∧ Sys2Proof.Claims.PathsAndBlocks

/-- R196, R220 and R221: a firing of a graph's node that has ended completes; with status 0 its node counts it, with another it
enters FAULTED, counts the failure and raises 0x6001. R218, R225 and R229: a core completes the firing it holds, posts a token
on an edge whose producer is software, on a return ring by the block's position and credit, and takes the oldest token of an
edge whose consumer is software; a write that names none of these is refused with its status and counted. -/
def Obligations.Firings : Prop := Sys2Proof.Claims.FiringsComplete ∧ Sys2Proof.Claims.SchedulerWrites

/-- R194, R195, R204, R225 and R234: a ring pair, a convolution path and a converter are enabled where no check refuses them and
refused with their status elsewhere; a ring pair starts with K valid return blocks of zeros. R195 and R200: a load of an impulse
response is admitted with a handle, answered BUSY where none is free, and ends with its status in a record, 0x5111 for an
enabled path; a converter whose loop has held 16 blocks locks and takes the measured ratio. -/
def Obligations.EngineSetup : Prop := Sys2Proof.Claims.EngineEnables ∧ Sys2Proof.Claims.LoadsAndLocks

/-- R237 and R238: cores 2 to 7 are held in reset and released to vector 0; cores 0 and 1 refuse; a release needs the core in
reset. R239: RING pends source 16 + c on the cores of its mask, ICLR clears pending bits, TCMP arms the timer, which pends
source 0 once when the slate has reached it. -/
def Obligations.CoreControls : Prop := Sys2Proof.Claims.CoreCommands ∧ Sys2Proof.Claims.InterruptWrites

/-- R273, R274, R283, R284 and R287: the enable of a DMA channel, its kick, restart, skip and abort, and its clears. R267, R272,
R277, R278 and R280 to R283: a DMA channel that the arbiter serves takes an owned descriptor, moves bytes beat by beat to the
addresses that the descriptor gives and to no other, and ends with its status, OWN cleared and the head moved on; a channel of
priority 3 goes before the others. -/
def Obligations.DmaChannels : Prop := Sys2Proof.Claims.DmaControls ∧ Sys2Proof.Claims.DmaTransfers

/-- R297, R359 and R308: the NMT commands for this node or for all set its state; reset-node waits for the outputs to fade;
reset-communication returns the communication objects to their stored values and says so in RESET_CAUSE; a command for another
node does nothing. R301, R302 and R314: the oldest EMCY message is sent first; a monitored node that falls silent and a bus-off
take the behaviour that 0x1029 selects; the error field is emptied by a write of 0. -/
def Obligations.NetworkStates : Prop := Sys2Proof.Claims.NmtCommands ∧ Sys2Proof.Claims.NetworkErrors

/-- R411 to R413 and R419: the commands of the console that report: what each prints; a line that is no command prints its
error; a character is echoed and kept and pends source 3; one that comes while the console is off is lost, and its edge is a
wake source. R412, R413 and R418: the commands of the console that write: each is one or several writes on the console's path,
whose first abort code it prints; those of the gate are refused and change nothing while SERVICE_N is high. -/
def Obligations.ConsoleLines : Prop := Sys2Proof.Claims.ConsoleReports ∧ Sys2Proof.Claims.ConsoleWrites

/-- R407 to R410 and R419: the millivolts of METER in each state and mode; LEVEL_PEAK is the level of the largest word of the
last 100 ms, -120 dB where the channel is masked off or silent. R413 and R418: the tone moves with SERVICE_N low; the old and
the new channel fade out before it switches, with phase 0; it goes off when SERVICE_N rises. -/
def Obligations.MeterLevelTone : Prop := Sys2Proof.Claims.MeterAndLevel ∧ Sys2Proof.Claims.Tone

/-- R289, R324, R329, R330 and R333: a background write lands word after word in DRAM and ends; a request that the link has
posted is served before any later access, and the server's answer stands for OD_FETCH and pends its interrupt; a write of 1
clears pending bits; HIRQ_N is asserted while an enabled bit pends, never in reset or in DORMANT. R335 to R338: an entry waits
in the codec queue of 64; a word starts with the entry's selects and the transmit word as it stands; the words go one by one,
with CONT under the same selects, and the last completes the entry; a flush empties what it names once the word in progress has
ended; a read of the reply FIFO removes the words it returns. -/
def Obligations.LinkAndCodec : Prop := Sys2Proof.Claims.LinkServer ∧ Sys2Proof.Claims.CodecPort

/-- R341, R350 to R352, R354 and R355: a rail or a PLL that fails enters hold-safe, with its reports and its fault; hold-safe
ends when no cause is left and the recovery wait has run. R342, R343, R430 and R431: the count of the slate wraps into the next
epoch; a level that registers on a pin is read in GP_IN and marks an edge where its configuration asks for one, which ends NAP
where the pin is armed for that. -/
def Obligations.Supplies : Prop := Sys2Proof.Claims.HoldSafe ∧ Sys2Proof.Claims.CounterAndPins

/-- R228, R384 to R386 and R389: a firing held too long is counted and gives its core notice and grace; a core that answers in
time goes on, another is reset; an engine past its limit is reset and its firings run again. R390: each action of SUP_CMD has
its effect, writes SUP_RESULT 0 and counts; one whose target refuses answers 0x0800_0022 with its status. -/
def Obligations.Supervisor : Prop := Sys2Proof.Claims.SupervisorCauses ∧ Sys2Proof.Claims.SupervisorCommands

/-! ## The whole machine -/

namespace Sys2Proof.Claims

/-- One byte of a CRC taken with the polynomial 0x1EDC_6F41, most significant bit first, of the reflected byte (R319). -/
def crcStep (c : Word) (b : Byte) : Word :=
  (List.range 8).foldl (fun c _ => if c.msb then (c <<< 1) ^^^ 0x1EDC6F41 else c <<< 1) (c ^^^ (b.reverse.setWidth 32 <<< 24))

end Sys2Proof.Claims

/-- R319: every field goes out most significant bit first, a data word as bits 31:24 first, which are the byte at a + 3. The CRC is
the CRC-32C of the polynomial 0x1EDC_6F41 from 0xFFFF_FFFF, with reflected input and output and final XOR 0xFFFF_FFFF; that of
"123456789" is 0xE306_9283. -/
def Obligations.FrameCrc : Prop :=
  (∀ bs : List Byte, crc32c bs = (bs.foldl crcStep 0xFFFFFFFF).reverse ^^^ 0xFFFFFFFF) ∧
  crc32c [0x31, 0x32, 0x33, 0x34, 0x35, 0x36, 0x37, 0x38, 0x39] = 0xE3069283 ∧
  (∀ w : Word, wireBytes [w] = [w.extractLsb' 24 8, w.extractLsb' 16 8, w.extractLsb' 8 8, w.extractLsb' 0 8]) ∧
  (∀ (s : State) (a : Nat),
    wireBytes [s.memWord a] = [readByte s.mem (a + 3), readByte s.mem (a + 2), readByte s.mem (a + 1), readByte s.mem a]) ∧
  (∀ n v : Nat, (beBytes n v).length = n ∧ (beBytes n v).foldl (fun a b => 256 * a + b.toNat) 0 = v % 256 ^ n) ∧
  ∀ (s : State) (cmd : Nat) (f : Frame), addrWidth s = 32 → dummyWidth s = 32 →
    frameBytes s cmd f = wireBytes ([BitVec.ofNat 8 cmd ++ f.alive ++ f.len, f.addr, BitVec.ofNat 32 f.dummy] ++ frameData f)

/-- A step takes the command at the front of the queue and is exec of it on the state with the queue's rest. On an empty queue time
passes (the model's choice for a block without a tick row): the system counter counts by a tick, in NAP by the ticks of a REF edge
(R342); a clear of a pan group goes on (R260); and beside these only the codec port and the network may go on. -/
def Obligations.StepTakesFront : Prop :=
  (∀ (c : Instr) (rest : List Instr) (s : State), s.pending = c :: rest → step s = exec c { s with pending := rest }) ∧
  ∀ s : State, s.tidy = true → s.pending = [] → ∃ t, step s = .next t ∧
    (counterRuns s = false → { t with codec := s.codec, can := s.can } = s) ∧
    (counterRuns s = true → awake s = true →
      (∀ g, g < 8 → (s.pan g).clearing = true → (t.pan g).clearRow = min ((s.pan g).clearRow + 2) 65536 ∧
        (t.pan g).clearing = true ∧ ∀ a, groupLo g + 32 * (s.pan g).clearRow ≤ a →
          a < groupLo g + 32 * min ((s.pan g).clearRow + 2) 65536 → readByte t.mem a = 0) ∧
      ((s.slate.extractLsb' 0 56).toNat + 1 < 2 ^ 56 → t.slate = s.slate + 1 ∧
        (NoClear s → { t with slate := s.slate, busy := s.busy, panLog := s.panLog, codec := s.codec, can := s.can } = s)) ∧
      ((s.slate.extractLsb' 0 56).toNat + 1 = 2 ^ 56 → t.slate = (s.slate.extractLsb' 56 8 + 1) ++ (0 : BitVec 56) ∧
        t.houseEdge = 0)) ∧
    (counterRuns s = true → awake s = false → (s.slate.extractLsb' 0 56).toNat + 8 < 2 ^ 56 → s.power.refAcc < 768 →
      t.slate = s.slate + BitVec.ofNat 64 ((s.power.refAcc + 3125) / 768) ∧ t.power.refAcc = (s.power.refAcc + 3125) % 768 ∧
      t.mem = s.mem ∧ t.od = s.od)

/-- R53, R157, R228, R344, R367: right after reset the invariant holds; no command waits; memory reads as zero; every lane is
UNLOADED, every port group in OFF, every core held; the module is in RUN, its slate at 0; nothing is outstanding. -/
def Obligations.ResetState : Prop :=
  let s := State.reset
  Inv s ∧ s.pending = [] ∧ (∀ a, readByte s.mem a = 0) ∧ s.slate = 0 ∧
    (∀ n, n < 64 → laneSt s n = laneUnloaded ∧ (s.lane n).regs = {}) ∧ (∀ g, g < 6 → portSt s g = portOff) ∧
    (∀ c, c < 8 → s.rd (Obj.coreState c) = 0 ∧ (s.core c).regs = {}) ∧ s.rd Obj.pwrState = 0 ∧ s.rd Obj.holdSafe = 0 ∧
    s.handles = [] ∧ s.rd Obj.hvUsed = 0 ∧ s.rd Obj.fltLogCount = 0 ∧ s.active = [] ∧ s.firings = [] ∧ s.splices = [] ∧
    s.link.cfg = 0xA0 ∧ s.link.alive = none ∧ s.rd Obj.showActive = 0xFF ∧ s.rd Obj.leader = 0xFF

/-- The invariant is kept by every step: the memory and every map keep their canonical form, and the queue holds commands that the
outside can send. -/
def Obligations.StepKeepsInv : Prop := ∀ s t : State, Inv s → step s = .next t → Inv t

/-- The machine never stops: from every state a step answers a next state, and takes from the queue its front and nothing else. -/
def Obligations.StepGoesOn : Prop := ∀ s : State, ∃ t, step s = .next t ∧ t.pending = s.pending.tail

/-- Only recovery mode programs a firmware slot: no other command changes one. -/
def Obligations.FirmwareKept : Prop :=
  ∀ (c : Instr) (s t : State), exec c s = .next t → c ≠ .rcvProgram → c ≠ .rcvProgramComplete → t.flash.fw = s.flash.fw
end

