-- ==== Sys2Proof/Laws/Map.lean ====
section
/-! SUPPORT. Laws of the sparse maps: what a read after a write gives, that every write keeps the canonical form, and that a map in
this form is settled by what it reads as. -/

namespace Sys2Proof

variable {α : Type}

@[simp] theorem Map.get_nil (d : α) (k : Nat) : Map.get d [] k = d := rfl

theorem Map.get_insert_self (d : α) (m : Map α) (k : Nat) (v : α) : (m.insert k v).get d k = v := by
  induction m with
  | nil => simp [Map.insert, Map.get]
  | cons x m ih =>
    obtain ⟨j, w⟩ := x
    unfold Map.insert
    split
    · simp [Map.get]
    · split
      · simp [Map.get]
      · rename_i h; simp [Map.get, Ne.symm h, ih]

theorem Map.get_insert_ne (d : α) (m : Map α) {k i : Nat} (v : α) (h : i ≠ k) : (m.insert k v).get d i = m.get d i := by
  induction m with
  | nil => simp [Map.insert, Map.get, Ne.symm h]
  | cons x m ih =>
    obtain ⟨j, w⟩ := x
    unfold Map.insert
    split
    · simp [Map.get, Ne.symm h]
    · split
      · rename_i e; subst e; simp [Map.get, Ne.symm h]
      · simp [Map.get, ih]

/-- Every key of a map lies above `lo`, and keys rise. -/
def Map.above (lo : Option Nat) : Map α → Prop
  | [] => True
  | (j, _) :: m => (∀ l, lo = some l → l < j) ∧ Map.above (some j) m

theorem Map.above_mono {m : Map α} {a b : Nat} (h : m.above (some b)) (l : a ≤ b) : m.above (some a) := by
  cases m with
  | nil => trivial
  | cons x m => exact ⟨fun c e => by cases e; have := h.1 b rfl; omega, h.2⟩

theorem Map.get_of_above (d : α) {m : Map α} {a k : Nat} (h : m.above (some a)) (l : k ≤ a) : m.get d k = d := by
  induction m generalizing a with
  | nil => rfl
  | cons x m ih =>
    obtain ⟨j, w⟩ := x
    have := h.1 a rfl
    simp only [Map.get, if_neg (show j ≠ k by omega)]
    exact ih h.2 (by omega)

theorem Map.get_erase_ne (d : α) (m : Map α) {k i : Nat} (h : i ≠ k) : (m.erase k).get d i = m.get d i := by
  induction m with
  | nil => rfl
  | cons x m ih =>
    obtain ⟨j, w⟩ := x
    unfold Map.erase
    split
    · rename_i e; subst e; simp [Map.get, Ne.symm h]
    · simp [Map.get, ih]

theorem Map.get_erase_self {d : α} {m : Map α} {lo : Option Nat} (k : Nat) (h : m.above lo) : (m.erase k).get d k = d := by
  induction m generalizing lo with
  | nil => rfl
  | cons x m ih =>
    obtain ⟨j, w⟩ := x
    unfold Map.erase
    split
    · rename_i e; subst e; exact Map.get_of_above d h.2 (Nat.le_refl _)
    · rename_i e; simp only [Map.get, if_neg e]; exact ih h.2

theorem Map.above_insert {lo : Option Nat} {m : Map α} (k : Nat) (v : α) (h : m.above lo) (hk : ∀ l, lo = some l → l < k) :
    (m.insert k v).above lo := by
  induction m generalizing lo with
  | nil => exact ⟨hk, trivial⟩
  | cons x m ih =>
    obtain ⟨j, w⟩ := x
    unfold Map.insert
    split
    · rename_i l; exact ⟨hk, fun i e => by cases e; exact l, h.2⟩
    · split
      · rename_i e; subst e; exact ⟨hk, h.2⟩
      · exact ⟨h.1, ih h.2 fun i e => by cases e; omega⟩

theorem Map.above_weaken {m : Map α} {a : Nat} {lo : Option Nat} (h : m.above (some a)) (l : ∀ i, lo = some i → i ≤ a) :
    m.above lo := by
  cases m with
  | nil => trivial
  | cons x m => exact ⟨fun i e => by have := l i e; have := h.1 a rfl; omega, h.2⟩

theorem Map.above_erase {lo : Option Nat} {m : Map α} (k : Nat) (h : m.above lo) : (m.erase k).above lo := by
  induction m generalizing lo with
  | nil => trivial
  | cons x m ih =>
    obtain ⟨j, w⟩ := x
    unfold Map.erase
    split
    · exact Map.above_weaken h.2 fun i e => by have := h.1 i e; omega
    · exact ⟨h.1, ih h.2⟩

theorem Map.above_filter {lo : Option Nat} {m : Map α} (p : Nat × α → Bool) (h : m.above lo) : Map.above lo (m.filter p) := by
  induction m generalizing lo with
  | nil => trivial
  | cons x m ih =>
    rw [List.filter_cons]
    split
    · exact ⟨h.1, ih h.2⟩
    · exact ih (Map.above_weaken h.2 fun i e => by have := h.1 i e; omega)

section
variable [DecidableEq α]

theorem Map.above_of_wfFrom {d : α} {lo : Option Nat} {m : Map α} (h : Map.wfFrom d lo m = true) : m.above lo := by
  induction m generalizing lo with
  | nil => trivial
  | cons x m ih =>
    obtain ⟨j, w⟩ := x
    simp only [Map.wfFrom, Bool.and_eq_true] at h
    refine ⟨fun l e => ?_, ih h.2⟩
    subst e
    simpa using h.1.1

theorem Map.wfFrom_cons {d : α} {lo : Option Nat} {j : Nat} {w : α} {m : Map α} :
    Map.wfFrom d lo ((j, w) :: m) = true ↔ (∀ l, lo = some l → l < j) ∧ w ≠ d ∧ Map.wfFrom d (some j) m = true := by
  cases lo <;> simp [Map.wfFrom, and_assoc]

theorem Map.wfFrom_insert {d : α} {lo : Option Nat} {m : Map α} (k : Nat) (v : α) (h : Map.wfFrom d lo m = true)
    (hk : ∀ l, lo = some l → l < k) (hv : v ≠ d) : Map.wfFrom d lo (m.insert k v) = true := by
  induction m generalizing lo with
  | nil => exact Map.wfFrom_cons.2 ⟨hk, hv, rfl⟩
  | cons x m ih =>
    obtain ⟨j, w⟩ := x
    obtain ⟨a, b, c⟩ := Map.wfFrom_cons.1 h
    unfold Map.insert
    split
    · rename_i l
      exact Map.wfFrom_cons.2 ⟨hk, hv, Map.wfFrom_cons.2 ⟨fun i e => by cases e; exact l, b, c⟩⟩
    · split
      · rename_i e; subst e; exact Map.wfFrom_cons.2 ⟨hk, hv, c⟩
      · exact Map.wfFrom_cons.2 ⟨a, b, ih c fun i e => by cases e; omega⟩

theorem Map.wfFrom_weaken {d : α} {m : Map α} {a : Nat} {lo : Option Nat} (h : Map.wfFrom d (some a) m = true)
    (l : ∀ i, lo = some i → i ≤ a) : Map.wfFrom d lo m = true := by
  cases m with
  | nil => rfl
  | cons x m =>
    obtain ⟨p, q, r⟩ := Map.wfFrom_cons.1 h
    exact Map.wfFrom_cons.2 ⟨fun i e => by have := l i e; have := p a rfl; omega, q, r⟩

theorem Map.wfFrom_erase {d : α} {lo : Option Nat} {m : Map α} (k : Nat) (h : Map.wfFrom d lo m = true) :
    Map.wfFrom d lo (m.erase k) = true := by
  induction m generalizing lo with
  | nil => rfl
  | cons x m ih =>
    obtain ⟨j, w⟩ := x
    obtain ⟨a, b, c⟩ := Map.wfFrom_cons.1 h
    unfold Map.erase
    split
    · exact Map.wfFrom_weaken c fun i e => by have := a i e; omega
    · exact Map.wfFrom_cons.2 ⟨a, b, ih c⟩

/-- A write keeps the canonical form. -/
theorem Map.wf_set {d : α} {m : Map α} (k : Nat) (v : α) (h : Map.wf d m = true) : Map.wf d (m.set d k v) = true := by
  unfold Map.set
  split
  · exact Map.wfFrom_erase k h
  · rename_i e; exact Map.wfFrom_insert k v h (fun _ e => nomatch e) e

theorem Map.wf_insert {d : α} {m : Map α} (k : Nat) (v : α) (h : Map.wf d m = true) (hv : v ≠ d) :
    Map.wf d (m.insert k v) = true := Map.wfFrom_insert k v h (fun _ e => nomatch e) hv

theorem Map.wf_erase {d : α} {m : Map α} (k : Nat) (h : Map.wf d m = true) : Map.wf d (m.erase k) = true := Map.wfFrom_erase k h

/-- A filter keeps the canonical form. -/
theorem Map.wf_filter {d : α} {m : Map α} (p : Nat × α → Bool) (h : Map.wf d m = true) : Map.wf d (m.filter p) = true := by
  suffices ∀ lo, Map.wfFrom d lo m = true → Map.wfFrom d lo (m.filter p) = true from this none h
  clear h
  induction m with
  | nil => exact fun _ _ => rfl
  | cons x m ih =>
    obtain ⟨j, w⟩ := x
    intro lo h
    obtain ⟨a, b, c⟩ := Map.wfFrom_cons.1 h
    rw [List.filter_cons]
    split
    · exact Map.wfFrom_cons.2 ⟨a, b, ih _ c⟩
    · exact ih _ (Map.wfFrom_weaken c fun i e => by have := a i e; omega)

/-- A read after a write at the same key gives the value written. -/
theorem Map.get_set_self {d : α} {m : Map α} (k : Nat) (v : α) (h : Map.wf d m = true) : (m.set d k v).get d k = v := by
  unfold Map.set
  split
  · rename_i e; subst e; exact Map.get_erase_self k (Map.above_of_wfFrom h)
  · exact Map.get_insert_self d m k v

/-- A write leaves every other key alone. -/
@[simp] theorem Map.get_set_ne {d : α} {m : Map α} {k i : Nat} (v : α) (h : i ≠ k) : (m.set d k v).get d i = m.get d i := by
  unfold Map.set
  split
  · exact Map.get_erase_ne d m h
  · exact Map.get_insert_ne d m v h

/-- Two maps in canonical form that read alike are equal. -/
theorem Map.ext_get {d : α} {m n : Map α} (hm : Map.wf d m = true) (hn : Map.wf d n = true) (e : ∀ k, m.get d k = n.get d k) :
    m = n := by
  suffices ∀ (m n : Map α) (a b : Option Nat), Map.wfFrom d a m = true → Map.wfFrom d b n = true → (∀ k, m.get d k = n.get d k) →
      m = n from this m n none none hm hn e
  clear hm hn e m n
  intro m
  induction m with
  | nil =>
    intro n a b _ h e
    cases n with
    | nil => rfl
    | cons y n =>
      obtain ⟨j, w⟩ := y
      have := e j
      simp only [Map.get, if_true] at this
      exact absurd this.symm (Map.wfFrom_cons.1 h).2.1
  | cons x m ih =>
    obtain ⟨i, v⟩ := x
    intro n a b h k e
    obtain ⟨_, hv, hm⟩ := Map.wfFrom_cons.1 h
    cases n with
    | nil =>
      have := e i
      simp only [Map.get, if_true] at this
      exact absurd this hv
    | cons y n =>
      obtain ⟨j, w⟩ := y
      obtain ⟨_, hw, hn⟩ := Map.wfFrom_cons.1 k
      have am := Map.above_of_wfFrom hm
      have an := Map.above_of_wfFrom hn
      have ij : i = j := by
        rcases Nat.lt_trichotomy i j with l | l | l
        · have := e i
          simp only [Map.get, if_true, if_neg (show j ≠ i by omega)] at this
          rw [Map.get_of_above d an (by omega)] at this
          exact absurd this hv
        · exact l
        · have := e j
          simp only [Map.get, if_true, if_neg (show i ≠ j by omega)] at this
          rw [Map.get_of_above d am (by omega)] at this
          exact absurd this.symm hw
      subst ij
      have vw : v = w := by have := e i; simpa only [Map.get, if_true] using this
      subst vw
      rw [ih n _ _ hm hn fun q => ?_]
      by_cases qi : i = q
      · subst qi; rw [Map.get_of_above d am (Nat.le_refl _), Map.get_of_above d an (Nat.le_refl _)]
      · have := e q; simpa only [Map.get, if_neg qi] using this

/-- Writing back what a key reads as changes nothing. -/
theorem Map.set_get {d : α} {m : Map α} (k : Nat) (h : Map.wf d m = true) : m.set d k (m.get d k) = m := by
  refine Map.ext_get (Map.wf_set k _ h) h fun i => ?_
  by_cases e : i = k
  · subst e; exact Map.get_set_self i _ h
  · exact Map.get_set_ne _ e

/-- The last write of a key stands. -/
theorem Map.set_set {d : α} {m : Map α} (k : Nat) (v w : α) (h : Map.wf d m = true) : (m.set d k v).set d k w = m.set d k w := by
  have h' := Map.wf_set (d := d) k v h
  refine Map.ext_get (Map.wf_set k w h') (Map.wf_set k w h) fun i => ?_
  by_cases e : i = k
  · subst e; rw [Map.get_set_self i w h', Map.get_set_self i w h]
  · rw [Map.get_set_ne w e, Map.get_set_ne v e, Map.get_set_ne w e]

/-- Writes of different keys commute. -/
theorem Map.set_comm {d : α} {m : Map α} {k i : Nat} (v w : α) (e : i ≠ k) (h : Map.wf d m = true) :
    (m.set d k v).set d i w = (m.set d i w).set d k v := by
  have hk := Map.wf_set (d := d) k v h
  have hi := Map.wf_set (d := d) i w h
  refine Map.ext_get (Map.wf_set i w hk) (Map.wf_set k v hi) fun q => ?_
  by_cases qk : q = k
  · subst qk; rw [Map.get_set_ne w (Ne.symm e), Map.get_set_self q v h, Map.get_set_self q v hi]
  · by_cases qi : q = i
    · subst qi; rw [Map.get_set_self q w hk, Map.get_set_ne v qk, Map.get_set_self q w h]
    · rw [Map.get_set_ne w qi, Map.get_set_ne v qk, Map.get_set_ne v qk, Map.get_set_ne w qi]

end

namespace Machine

theorem rising_iff {m : Map α} : rising m = true ↔ m.above none := by
  induction m with
  | nil => simp [rising, Map.above]
  | cons x m ih =>
    cases m with
    | nil => simp [rising, Map.above]
    | cons y m =>
      simp only [rising, Bool.and_eq_true, decide_eq_true_eq, ih]
      exact ⟨fun h => ⟨(fun _ e => nomatch e), (fun l e => by cases e; exact h.1), h.2.2⟩,
        fun h => ⟨h.2.1 x.1 rfl, (fun _ e => nomatch e), h.2.2⟩⟩

theorem rising_insert {m : Map α} (k : Nat) (v : α) (h : rising m = true) : rising (m.insert k v) = true :=
  rising_iff.2 (Map.above_insert k v (rising_iff.1 h) fun _ e => nomatch e)

theorem rising_erase {m : Map α} (k : Nat) (h : rising m = true) : rising (m.erase k) = true :=
  rising_iff.2 (Map.above_erase k (rising_iff.1 h))

theorem rising_filter {m : Map α} (p : Nat × α → Bool) (h : rising m = true) : rising (m.filter p) = true :=
  rising_iff.2 (Map.above_filter p (rising_iff.1 h))

theorem rising_set [DecidableEq α] {m : Map α} (d : α) (k : Nat) (v : α) (h : rising m = true) : rising (m.set d k v) = true := by
  unfold Map.set
  split
  · exact rising_erase k h
  · exact rising_insert k v h

/-- In a map whose default depends on the key, a read after a write gives the value written. -/
theorem get_set_rising [DecidableEq α] {m : Map α} (d : α) (k : Nat) (v : α) (h : rising m = true) : (m.set d k v).get d k = v := by
  unfold Map.set
  split
  · rename_i e; subst e; exact Map.get_erase_self k (rising_iff.1 h)
  · exact Map.get_insert_self d m k v

/-- There a write leaves every other key alone, whatever the default of that key is. -/
theorem get_set_ne_any [DecidableEq α] (m : Map α) (d d' : α) {k i : Nat} (v : α) (h : i ≠ k) :
    (m.set d k v).get d' i = m.get d' i := by
  unfold Map.set
  split
  · exact Map.get_erase_ne d' m h
  · exact Map.get_insert_ne d' m v h

end Machine

end Sys2Proof
end

