-- ==== Sys2Proof/Laws/Memory.lean ====
section
/-! SUPPORT. Laws of the memory: what a read after a write gives, for bytes, words and runs of bytes; every operation keeps the
canonical form. -/

namespace Sys2Proof.Machine

theorem readByte_writeByte_self {m : List Host.Cell} (a : Nat) (b : Byte) (h : Memory.wf m = true) :
    readByte (writeByte m a b) a = b := Map.get_set_self a b h

@[simp] theorem readByte_writeByte_ne (m : List Host.Cell) {a c : Nat} (b : Byte) (h : c ≠ a) :
    readByte (writeByte m a b) c = readByte m c := Map.get_set_ne b h

theorem writeByte_wf {m : List Host.Cell} (a : Nat) (b : Byte) (h : Memory.wf m = true) : Memory.wf (writeByte m a b) = true :=
  Map.wf_set a b h

theorem writeWord_wf {m : List Host.Cell} (a : Nat) (w : Word) (h : Memory.wf m = true) : Memory.wf (writeWord m a w) = true :=
  writeByte_wf _ _ (writeByte_wf _ _ (writeByte_wf _ _ (writeByte_wf _ _ h)))

theorem writeBytes_wf {m : List Host.Cell} (a : Nat) (bs : List Byte) (h : Memory.wf m = true) :
    Memory.wf (writeBytes m a bs) = true := by
  induction bs generalizing m a with
  | nil => exact h
  | cons b bs ih => exact ih (a + 1) (writeByte_wf a b h)

theorem clearMem_wf {m : List Host.Cell} (lo hi : Nat) (h : Memory.wf m = true) : Memory.wf (clearMem m lo hi) = true :=
  Map.wf_filter _ h

/-- A write of a word leaves every other byte. -/
theorem readByte_writeWord_outside (m : List Host.Cell) {a c : Nat} (w : Word) (h : c < a ∨ a + 4 ≤ c) :
    readByte (writeWord m a w) c = readByte m c := by
  unfold writeWord
  rw [readByte_writeByte_ne _ _ (by omega), readByte_writeByte_ne _ _ (by omega), readByte_writeByte_ne _ _ (by omega),
    readByte_writeByte_ne _ _ (by omega)]

/-- A write of a run of bytes leaves every other byte. -/
theorem readByte_writeBytes_outside (m : List Host.Cell) {a c : Nat} (bs : List Byte) (h : c < a ∨ a + bs.length ≤ c) :
    readByte (writeBytes m a bs) c = readByte m c := by
  induction bs generalizing m a with
  | nil => rfl
  | cons b bs ih =>
    simp only [List.length_cons] at h
    show readByte (writeBytes (writeByte m a b) (a + 1) bs) c = _
    rw [ih _ (by omega), readByte_writeByte_ne _ _ (by omega)]

theorem or_byte (x y : Nat) (h : y < 2 ^ 8) : x * 2 ^ 8 ||| y = x * 2 ^ 8 + y := by
  rw [Nat.mul_comm, ← Nat.two_pow_add_eq_or_of_lt h]

theorem word_of_bytes (w : Word) :
    w.extractLsb' 24 8 ++ w.extractLsb' 16 8 ++ w.extractLsb' 8 8 ++ w.extractLsb' 0 8 = w := by
  apply BitVec.eq_of_toNat_eq
  simp only [BitVec.toNat_append, BitVec.extractLsb'_toNat, Nat.shiftRight_eq_div_pow, Nat.shiftLeft_eq]
  have h := w.isLt
  rw [or_byte _ _ (by omega), or_byte _ _ (by omega), or_byte _ _ (by omega)]
  omega

/-- A word read back after a write. -/
theorem readWord_writeWord_self {m : List Host.Cell} (a : Nat) (w : Word) (h : Memory.wf m = true) :
    readWord (writeWord m a w) a = w := by
  have h0 := writeByte_wf a (w.extractLsb' 0 8) h
  have h1 := writeByte_wf (a + 1) (w.extractLsb' 8 8) h0
  have h2 := writeByte_wf (a + 2) (w.extractLsb' 16 8) h1
  unfold readWord writeWord
  rw [readByte_writeByte_self (a + 3) _ h2, readByte_writeByte_ne _ _ (by omega), readByte_writeByte_self (a + 2) _ h1,
    readByte_writeByte_ne _ _ (by omega), readByte_writeByte_ne _ _ (by omega), readByte_writeByte_self (a + 1) _ h0,
    readByte_writeByte_ne _ _ (by omega), readByte_writeByte_ne _ _ (by omega), readByte_writeByte_ne _ _ (by omega),
    readByte_writeByte_self a _ h, word_of_bytes]

/-- A word elsewhere is as before. -/
theorem readWord_writeWord_apart (m : List Host.Cell) {a c : Nat} (w : Word) (h : c + 4 ≤ a ∨ a + 4 ≤ c) :
    readWord (writeWord m a w) c = readWord m c := by
  unfold readWord
  rw [readByte_writeWord_outside m w (by omega), readByte_writeWord_outside m w (by omega),
    readByte_writeWord_outside m w (by omega), readByte_writeWord_outside m w (by omega)]

/-- A word that a run of bytes does not touch is as before. -/
theorem readWord_writeBytes_apart (m : List Host.Cell) {a c : Nat} (bs : List Byte) (h : c + 4 ≤ a ∨ a + bs.length ≤ c) :
    readWord (writeBytes m a bs) c = readWord m c := by
  unfold readWord
  rw [readByte_writeBytes_outside m bs (by omega), readByte_writeBytes_outside m bs (by omega),
    readByte_writeBytes_outside m bs (by omega), readByte_writeBytes_outside m bs (by omega)]

theorem memWord_setMemWord_self {s : State} (a : Nat) (w : Word) (h : Memory.wf s.mem = true) :
    (s.setMemWord a w).memWord a = w := readWord_writeWord_self a w h

theorem memWord_setMemWord_apart (s : State) {a c : Nat} (w : Word) (h : c + 4 ≤ a ∨ a + 4 ≤ c) :
    (s.setMemWord a w).memWord c = s.memWord c := readWord_writeWord_apart s.mem w h

/-- After a clear the bytes of the range read as zero, and the others as before. -/
theorem readByte_clearMem {m : List Host.Cell} (lo hi c : Nat) (h : Memory.wf m = true) :
    readByte (clearMem m lo hi) c = if lo ≤ c ∧ c < hi then 0 else readByte m c := by
  suffices ∀ (m : List Host.Cell) (l : Option Nat), Map.above l m →
      Map.get (0 : Byte) (m.filter fun x => x.1 < lo || hi ≤ x.1) c = if lo ≤ c ∧ c < hi then 0 else Map.get 0 m c from
    this m none (Map.above_of_wfFrom h)
  clear h m
  intro m
  induction m with
  | nil => intro _ _; simp
  | cons x m ih =>
    obtain ⟨j, w⟩ := x
    intro l h
    have := ih _ h.2
    rw [List.filter_cons]
    split
    · rename_i k
      simp only [Bool.or_eq_true, decide_eq_true_eq] at k
      simp only [Map.get, this]
      split
      · rename_i e; rw [if_neg (by omega)]
      · rfl
    · rename_i k
      simp only [Bool.or_eq_true, decide_eq_true_eq] at k
      rw [this]
      split
      · rfl
      · rename_i q; simp only [Map.get, if_neg (show j ≠ c by omega)]

end Sys2Proof.Machine
end

