-- ==== Sys2Proof/Laws/State.lean ====
section
/-! SUPPORT. Each named update of State beside each field and each accessor it leaves as it was, true by rfl; what an accessor reads
after the update of its own field; and that every update keeps the maps in canonical form. -/

namespace Sys2Proof.Machine

variable (s : State)


/-! ## wr -/

@[simp] theorem State.wr_pending (r : Reg) (v : Nat) : (s.wr r v).pending = s.pending := rfl
@[simp] theorem State.wr_answers (r : Reg) (v : Nat) : (s.wr r v).answers = s.answers := rfl
@[simp] theorem State.wr_mem (r : Reg) (v : Nat) : (s.wr r v).mem = s.mem := rfl
@[simp] theorem State.wr_slate (r : Reg) (v : Nat) : (s.wr r v).slate = s.slate := rfl
@[simp] theorem State.wr_lanes (r : Reg) (v : Nat) : (s.wr r v).lanes = s.lanes := rfl
@[simp] theorem State.wr_cores (r : Reg) (v : Nat) : (s.wr r v).cores = s.cores := rfl
@[simp] theorem State.wr_xch (r : Reg) (v : Nat) : (s.wr r v).xch = s.xch := rfl
@[simp] theorem State.wr_oc (r : Reg) (v : Nat) : (s.wr r v).oc = s.oc := rfl
@[simp] theorem State.wr_inCh (r : Reg) (v : Nat) : (s.wr r v).inCh = s.inCh := rfl
@[simp] theorem State.wr_outCh (r : Reg) (v : Nat) : (s.wr r v).outCh = s.outCh := rfl
@[simp] theorem State.wr_ports (r : Reg) (v : Nat) : (s.wr r v).ports = s.ports := rfl
@[simp] theorem State.wr_steer (r : Reg) (v : Nat) : (s.wr r v).steer = s.steer := rfl
@[simp] theorem State.wr_houseEdge (r : Reg) (v : Nat) : (s.wr r v).houseEdge = s.houseEdge := rfl
@[simp] theorem State.wr_splices (r : Reg) (v : Nat) : (s.wr r v).splices = s.splices := rfl
@[simp] theorem State.wr_spliceIds (r : Reg) (v : Nat) : (s.wr r v).spliceIds = s.spliceIds := rfl
@[simp] theorem State.wr_nodes (r : Reg) (v : Nat) : (s.wr r v).nodes = s.nodes := rfl
@[simp] theorem State.wr_edges (r : Reg) (v : Nat) : (s.wr r v).edges = s.edges := rfl
@[simp] theorem State.wr_firings (r : Reg) (v : Nat) : (s.wr r v).firings = s.firings := rfl
@[simp] theorem State.wr_fireSeq (r : Reg) (v : Nat) : (s.wr r v).fireSeq = s.fireSeq := rfl
@[simp] theorem State.wr_waitSeq (r : Reg) (v : Nat) : (s.wr r v).waitSeq = s.waitSeq := rfl
@[simp] theorem State.wr_rings (r : Reg) (v : Nat) : (s.wr r v).rings = s.rings := rfl
@[simp] theorem State.wr_paths (r : Reg) (v : Nat) : (s.wr r v).paths = s.paths := rfl
@[simp] theorem State.wr_convs (r : Reg) (v : Nat) : (s.wr r v).convs = s.convs := rfl
@[simp] theorem State.wr_pans (r : Reg) (v : Nat) : (s.wr r v).pans = s.pans := rfl
@[simp] theorem State.wr_panLog (r : Reg) (v : Nat) : (s.wr r v).panLog = s.panLog := rfl
@[simp] theorem State.wr_busy (r : Reg) (v : Nat) : (s.wr r v).busy = s.busy := rfl
@[simp] theorem State.wr_dma (r : Reg) (v : Nat) : (s.wr r v).dma = s.dma := rfl
@[simp] theorem State.wr_dmaArb (r : Reg) (v : Nat) : (s.wr r v).dmaArb = s.dmaArb := rfl
@[simp] theorem State.wr_dramClean (r : Reg) (v : Nat) : (s.wr r v).dramClean = s.dramClean := rfl
@[simp] theorem State.wr_dramErr (r : Reg) (v : Nat) : (s.wr r v).dramErr = s.dramErr := rfl
@[simp] theorem State.wr_handles (r : Reg) (v : Nat) : (s.wr r v).handles = s.handles := rfl
@[simp] theorem State.wr_gens (r : Reg) (v : Nat) : (s.wr r v).gens = s.gens := rfl
@[simp] theorem State.wr_records (r : Reg) (v : Nat) : (s.wr r v).records = s.records := rfl
@[simp] theorem State.wr_faultLog (r : Reg) (v : Nat) : (s.wr r v).faultLog = s.faultLog := rfl
@[simp] theorem State.wr_active (r : Reg) (v : Nat) : (s.wr r v).active = s.active := rfl
@[simp] theorem State.wr_onceKeys (r : Reg) (v : Nat) : (s.wr r v).onceKeys = s.onceKeys := rfl
@[simp] theorem State.wr_link (r : Reg) (v : Nat) : (s.wr r v).link = s.link := rfl
@[simp] theorem State.wr_codec (r : Reg) (v : Nat) : (s.wr r v).codec = s.codec := rfl
@[simp] theorem State.wr_can (r : Reg) (v : Nat) : (s.wr r v).can = s.can := rfl
@[simp] theorem State.wr_power (r : Reg) (v : Nat) : (s.wr r v).power = s.power := rfl
@[simp] theorem State.wr_boot (r : Reg) (v : Nat) : (s.wr r v).boot = s.boot := rfl
@[simp] theorem State.wr_flash (r : Reg) (v : Nat) : (s.wr r v).flash = s.flash := rfl
@[simp] theorem State.wr_snapshot (r : Reg) (v : Nat) : (s.wr r v).snapshot = s.snapshot := rfl
@[simp] theorem State.wr_slotImages (r : Reg) (v : Nat) : (s.wr r v).slotImages = s.slotImages := rfl
@[simp] theorem State.wr_service (r : Reg) (v : Nat) : (s.wr r v).service = s.service := rfl
@[simp] theorem State.wr_wdtSlate (r : Reg) (v : Nat) : (s.wr r v).wdtSlate = s.wdtSlate := rfl
@[simp] theorem State.wr_wdtFrom (r : Reg) (v : Nat) : (s.wr r v).wdtFrom = s.wdtFrom := rfl
@[simp] theorem State.wr_fresh (r : Reg) (v : Nat) : (s.wr r v).fresh = s.fresh := rfl
@[simp] theorem State.wr_lane (r : Reg) (v : Nat) (k : Nat) : (s.wr r v).lane k = s.lane k := rfl
@[simp] theorem State.wr_core (r : Reg) (v : Nat) (k : Nat) : (s.wr r v).core k = s.core k := rfl
@[simp] theorem State.wr_inchan (r : Reg) (v : Nat) (k : Nat) : (s.wr r v).inchan k = s.inchan k := rfl
@[simp] theorem State.wr_outchan (r : Reg) (v : Nat) (k : Nat) : (s.wr r v).outchan k = s.outchan k := rfl
@[simp] theorem State.wr_port (r : Reg) (v : Nat) (k : Nat) : (s.wr r v).port k = s.port k := rfl
@[simp] theorem State.wr_node (r : Reg) (v : Nat) (k : Nat) : (s.wr r v).node k = s.node k := rfl
@[simp] theorem State.wr_edge (r : Reg) (v : Nat) (k : Nat) : (s.wr r v).edge k = s.edge k := rfl
@[simp] theorem State.wr_ring (r : Reg) (v : Nat) (k : Nat) : (s.wr r v).ring k = s.ring k := rfl
@[simp] theorem State.wr_path (r : Reg) (v : Nat) (k : Nat) : (s.wr r v).path k = s.path k := rfl
@[simp] theorem State.wr_conv (r : Reg) (v : Nat) (k : Nat) : (s.wr r v).conv k = s.conv k := rfl
@[simp] theorem State.wr_pan (r : Reg) (v : Nat) (k : Nat) : (s.wr r v).pan k = s.pan k := rfl
@[simp] theorem State.wr_dmaCh (r : Reg) (v : Nat) (k : Nat) : (s.wr r v).dmaCh k = s.dmaCh k := rfl
@[simp] theorem State.wr_memWord (r : Reg) (v : Nat) (k : Nat) : (s.wr r v).memWord k = s.memWord k := rfl

/-! ## setLane -/

@[simp] theorem State.setLane_pending (n : Nat) (l : Lane) : (s.setLane n l).pending = s.pending := rfl
@[simp] theorem State.setLane_od (n : Nat) (l : Lane) : (s.setLane n l).od = s.od := rfl
@[simp] theorem State.setLane_answers (n : Nat) (l : Lane) : (s.setLane n l).answers = s.answers := rfl
@[simp] theorem State.setLane_mem (n : Nat) (l : Lane) : (s.setLane n l).mem = s.mem := rfl
@[simp] theorem State.setLane_slate (n : Nat) (l : Lane) : (s.setLane n l).slate = s.slate := rfl
@[simp] theorem State.setLane_cores (n : Nat) (l : Lane) : (s.setLane n l).cores = s.cores := rfl
@[simp] theorem State.setLane_xch (n : Nat) (l : Lane) : (s.setLane n l).xch = s.xch := rfl
@[simp] theorem State.setLane_oc (n : Nat) (l : Lane) : (s.setLane n l).oc = s.oc := rfl
@[simp] theorem State.setLane_inCh (n : Nat) (l : Lane) : (s.setLane n l).inCh = s.inCh := rfl
@[simp] theorem State.setLane_outCh (n : Nat) (l : Lane) : (s.setLane n l).outCh = s.outCh := rfl
@[simp] theorem State.setLane_ports (n : Nat) (l : Lane) : (s.setLane n l).ports = s.ports := rfl
@[simp] theorem State.setLane_steer (n : Nat) (l : Lane) : (s.setLane n l).steer = s.steer := rfl
@[simp] theorem State.setLane_houseEdge (n : Nat) (l : Lane) : (s.setLane n l).houseEdge = s.houseEdge := rfl
@[simp] theorem State.setLane_splices (n : Nat) (l : Lane) : (s.setLane n l).splices = s.splices := rfl
@[simp] theorem State.setLane_spliceIds (n : Nat) (l : Lane) : (s.setLane n l).spliceIds = s.spliceIds := rfl
@[simp] theorem State.setLane_nodes (n : Nat) (l : Lane) : (s.setLane n l).nodes = s.nodes := rfl
@[simp] theorem State.setLane_edges (n : Nat) (l : Lane) : (s.setLane n l).edges = s.edges := rfl
@[simp] theorem State.setLane_firings (n : Nat) (l : Lane) : (s.setLane n l).firings = s.firings := rfl
@[simp] theorem State.setLane_fireSeq (n : Nat) (l : Lane) : (s.setLane n l).fireSeq = s.fireSeq := rfl
@[simp] theorem State.setLane_waitSeq (n : Nat) (l : Lane) : (s.setLane n l).waitSeq = s.waitSeq := rfl
@[simp] theorem State.setLane_rings (n : Nat) (l : Lane) : (s.setLane n l).rings = s.rings := rfl
@[simp] theorem State.setLane_paths (n : Nat) (l : Lane) : (s.setLane n l).paths = s.paths := rfl
@[simp] theorem State.setLane_convs (n : Nat) (l : Lane) : (s.setLane n l).convs = s.convs := rfl
@[simp] theorem State.setLane_pans (n : Nat) (l : Lane) : (s.setLane n l).pans = s.pans := rfl
@[simp] theorem State.setLane_panLog (n : Nat) (l : Lane) : (s.setLane n l).panLog = s.panLog := rfl
@[simp] theorem State.setLane_busy (n : Nat) (l : Lane) : (s.setLane n l).busy = s.busy := rfl
@[simp] theorem State.setLane_dma (n : Nat) (l : Lane) : (s.setLane n l).dma = s.dma := rfl
@[simp] theorem State.setLane_dmaArb (n : Nat) (l : Lane) : (s.setLane n l).dmaArb = s.dmaArb := rfl
@[simp] theorem State.setLane_dramClean (n : Nat) (l : Lane) : (s.setLane n l).dramClean = s.dramClean := rfl
@[simp] theorem State.setLane_dramErr (n : Nat) (l : Lane) : (s.setLane n l).dramErr = s.dramErr := rfl
@[simp] theorem State.setLane_handles (n : Nat) (l : Lane) : (s.setLane n l).handles = s.handles := rfl
@[simp] theorem State.setLane_gens (n : Nat) (l : Lane) : (s.setLane n l).gens = s.gens := rfl
@[simp] theorem State.setLane_records (n : Nat) (l : Lane) : (s.setLane n l).records = s.records := rfl
@[simp] theorem State.setLane_faultLog (n : Nat) (l : Lane) : (s.setLane n l).faultLog = s.faultLog := rfl
@[simp] theorem State.setLane_active (n : Nat) (l : Lane) : (s.setLane n l).active = s.active := rfl
@[simp] theorem State.setLane_onceKeys (n : Nat) (l : Lane) : (s.setLane n l).onceKeys = s.onceKeys := rfl
@[simp] theorem State.setLane_link (n : Nat) (l : Lane) : (s.setLane n l).link = s.link := rfl
@[simp] theorem State.setLane_codec (n : Nat) (l : Lane) : (s.setLane n l).codec = s.codec := rfl
@[simp] theorem State.setLane_can (n : Nat) (l : Lane) : (s.setLane n l).can = s.can := rfl
@[simp] theorem State.setLane_power (n : Nat) (l : Lane) : (s.setLane n l).power = s.power := rfl
@[simp] theorem State.setLane_boot (n : Nat) (l : Lane) : (s.setLane n l).boot = s.boot := rfl
@[simp] theorem State.setLane_flash (n : Nat) (l : Lane) : (s.setLane n l).flash = s.flash := rfl
@[simp] theorem State.setLane_snapshot (n : Nat) (l : Lane) : (s.setLane n l).snapshot = s.snapshot := rfl
@[simp] theorem State.setLane_slotImages (n : Nat) (l : Lane) : (s.setLane n l).slotImages = s.slotImages := rfl
@[simp] theorem State.setLane_service (n : Nat) (l : Lane) : (s.setLane n l).service = s.service := rfl
@[simp] theorem State.setLane_wdtSlate (n : Nat) (l : Lane) : (s.setLane n l).wdtSlate = s.wdtSlate := rfl
@[simp] theorem State.setLane_wdtFrom (n : Nat) (l : Lane) : (s.setLane n l).wdtFrom = s.wdtFrom := rfl
@[simp] theorem State.setLane_fresh (n : Nat) (l : Lane) : (s.setLane n l).fresh = s.fresh := rfl
@[simp] theorem State.setLane_rd (n : Nat) (l : Lane) (reg : Reg) : (s.setLane n l).rd reg = s.rd reg := rfl
@[simp] theorem State.setLane_core (n : Nat) (l : Lane) (k : Nat) : (s.setLane n l).core k = s.core k := rfl
@[simp] theorem State.setLane_inchan (n : Nat) (l : Lane) (k : Nat) : (s.setLane n l).inchan k = s.inchan k := rfl
@[simp] theorem State.setLane_outchan (n : Nat) (l : Lane) (k : Nat) : (s.setLane n l).outchan k = s.outchan k := rfl
@[simp] theorem State.setLane_port (n : Nat) (l : Lane) (k : Nat) : (s.setLane n l).port k = s.port k := rfl
@[simp] theorem State.setLane_node (n : Nat) (l : Lane) (k : Nat) : (s.setLane n l).node k = s.node k := rfl
@[simp] theorem State.setLane_edge (n : Nat) (l : Lane) (k : Nat) : (s.setLane n l).edge k = s.edge k := rfl
@[simp] theorem State.setLane_ring (n : Nat) (l : Lane) (k : Nat) : (s.setLane n l).ring k = s.ring k := rfl
@[simp] theorem State.setLane_path (n : Nat) (l : Lane) (k : Nat) : (s.setLane n l).path k = s.path k := rfl
@[simp] theorem State.setLane_conv (n : Nat) (l : Lane) (k : Nat) : (s.setLane n l).conv k = s.conv k := rfl
@[simp] theorem State.setLane_pan (n : Nat) (l : Lane) (k : Nat) : (s.setLane n l).pan k = s.pan k := rfl
@[simp] theorem State.setLane_dmaCh (n : Nat) (l : Lane) (k : Nat) : (s.setLane n l).dmaCh k = s.dmaCh k := rfl
@[simp] theorem State.setLane_memWord (n : Nat) (l : Lane) (k : Nat) : (s.setLane n l).memWord k = s.memWord k := rfl

/-! ## setCore -/

@[simp] theorem State.setCore_pending (c : Nat) (x : Core) : (s.setCore c x).pending = s.pending := rfl
@[simp] theorem State.setCore_od (c : Nat) (x : Core) : (s.setCore c x).od = s.od := rfl
@[simp] theorem State.setCore_answers (c : Nat) (x : Core) : (s.setCore c x).answers = s.answers := rfl
@[simp] theorem State.setCore_mem (c : Nat) (x : Core) : (s.setCore c x).mem = s.mem := rfl
@[simp] theorem State.setCore_slate (c : Nat) (x : Core) : (s.setCore c x).slate = s.slate := rfl
@[simp] theorem State.setCore_lanes (c : Nat) (x : Core) : (s.setCore c x).lanes = s.lanes := rfl
@[simp] theorem State.setCore_xch (c : Nat) (x : Core) : (s.setCore c x).xch = s.xch := rfl
@[simp] theorem State.setCore_oc (c : Nat) (x : Core) : (s.setCore c x).oc = s.oc := rfl
@[simp] theorem State.setCore_inCh (c : Nat) (x : Core) : (s.setCore c x).inCh = s.inCh := rfl
@[simp] theorem State.setCore_outCh (c : Nat) (x : Core) : (s.setCore c x).outCh = s.outCh := rfl
@[simp] theorem State.setCore_ports (c : Nat) (x : Core) : (s.setCore c x).ports = s.ports := rfl
@[simp] theorem State.setCore_steer (c : Nat) (x : Core) : (s.setCore c x).steer = s.steer := rfl
@[simp] theorem State.setCore_houseEdge (c : Nat) (x : Core) : (s.setCore c x).houseEdge = s.houseEdge := rfl
@[simp] theorem State.setCore_splices (c : Nat) (x : Core) : (s.setCore c x).splices = s.splices := rfl
@[simp] theorem State.setCore_spliceIds (c : Nat) (x : Core) : (s.setCore c x).spliceIds = s.spliceIds := rfl
@[simp] theorem State.setCore_nodes (c : Nat) (x : Core) : (s.setCore c x).nodes = s.nodes := rfl
@[simp] theorem State.setCore_edges (c : Nat) (x : Core) : (s.setCore c x).edges = s.edges := rfl
@[simp] theorem State.setCore_firings (c : Nat) (x : Core) : (s.setCore c x).firings = s.firings := rfl
@[simp] theorem State.setCore_fireSeq (c : Nat) (x : Core) : (s.setCore c x).fireSeq = s.fireSeq := rfl
@[simp] theorem State.setCore_waitSeq (c : Nat) (x : Core) : (s.setCore c x).waitSeq = s.waitSeq := rfl
@[simp] theorem State.setCore_rings (c : Nat) (x : Core) : (s.setCore c x).rings = s.rings := rfl
@[simp] theorem State.setCore_paths (c : Nat) (x : Core) : (s.setCore c x).paths = s.paths := rfl
@[simp] theorem State.setCore_convs (c : Nat) (x : Core) : (s.setCore c x).convs = s.convs := rfl
@[simp] theorem State.setCore_pans (c : Nat) (x : Core) : (s.setCore c x).pans = s.pans := rfl
@[simp] theorem State.setCore_panLog (c : Nat) (x : Core) : (s.setCore c x).panLog = s.panLog := rfl
@[simp] theorem State.setCore_busy (c : Nat) (x : Core) : (s.setCore c x).busy = s.busy := rfl
@[simp] theorem State.setCore_dma (c : Nat) (x : Core) : (s.setCore c x).dma = s.dma := rfl
@[simp] theorem State.setCore_dmaArb (c : Nat) (x : Core) : (s.setCore c x).dmaArb = s.dmaArb := rfl
@[simp] theorem State.setCore_dramClean (c : Nat) (x : Core) : (s.setCore c x).dramClean = s.dramClean := rfl
@[simp] theorem State.setCore_dramErr (c : Nat) (x : Core) : (s.setCore c x).dramErr = s.dramErr := rfl
@[simp] theorem State.setCore_handles (c : Nat) (x : Core) : (s.setCore c x).handles = s.handles := rfl
@[simp] theorem State.setCore_gens (c : Nat) (x : Core) : (s.setCore c x).gens = s.gens := rfl
@[simp] theorem State.setCore_records (c : Nat) (x : Core) : (s.setCore c x).records = s.records := rfl
@[simp] theorem State.setCore_faultLog (c : Nat) (x : Core) : (s.setCore c x).faultLog = s.faultLog := rfl
@[simp] theorem State.setCore_active (c : Nat) (x : Core) : (s.setCore c x).active = s.active := rfl
@[simp] theorem State.setCore_onceKeys (c : Nat) (x : Core) : (s.setCore c x).onceKeys = s.onceKeys := rfl
@[simp] theorem State.setCore_link (c : Nat) (x : Core) : (s.setCore c x).link = s.link := rfl
@[simp] theorem State.setCore_codec (c : Nat) (x : Core) : (s.setCore c x).codec = s.codec := rfl
@[simp] theorem State.setCore_can (c : Nat) (x : Core) : (s.setCore c x).can = s.can := rfl
@[simp] theorem State.setCore_power (c : Nat) (x : Core) : (s.setCore c x).power = s.power := rfl
@[simp] theorem State.setCore_boot (c : Nat) (x : Core) : (s.setCore c x).boot = s.boot := rfl
@[simp] theorem State.setCore_flash (c : Nat) (x : Core) : (s.setCore c x).flash = s.flash := rfl
@[simp] theorem State.setCore_snapshot (c : Nat) (x : Core) : (s.setCore c x).snapshot = s.snapshot := rfl
@[simp] theorem State.setCore_slotImages (c : Nat) (x : Core) : (s.setCore c x).slotImages = s.slotImages := rfl
@[simp] theorem State.setCore_service (c : Nat) (x : Core) : (s.setCore c x).service = s.service := rfl
@[simp] theorem State.setCore_wdtSlate (c : Nat) (x : Core) : (s.setCore c x).wdtSlate = s.wdtSlate := rfl
@[simp] theorem State.setCore_wdtFrom (c : Nat) (x : Core) : (s.setCore c x).wdtFrom = s.wdtFrom := rfl
@[simp] theorem State.setCore_fresh (c : Nat) (x : Core) : (s.setCore c x).fresh = s.fresh := rfl
@[simp] theorem State.setCore_rd (c : Nat) (x : Core) (reg : Reg) : (s.setCore c x).rd reg = s.rd reg := rfl
@[simp] theorem State.setCore_lane (c : Nat) (x : Core) (k : Nat) : (s.setCore c x).lane k = s.lane k := rfl
@[simp] theorem State.setCore_inchan (c : Nat) (x : Core) (k : Nat) : (s.setCore c x).inchan k = s.inchan k := rfl
@[simp] theorem State.setCore_outchan (c : Nat) (x : Core) (k : Nat) : (s.setCore c x).outchan k = s.outchan k := rfl
@[simp] theorem State.setCore_port (c : Nat) (x : Core) (k : Nat) : (s.setCore c x).port k = s.port k := rfl
@[simp] theorem State.setCore_node (c : Nat) (x : Core) (k : Nat) : (s.setCore c x).node k = s.node k := rfl
@[simp] theorem State.setCore_edge (c : Nat) (x : Core) (k : Nat) : (s.setCore c x).edge k = s.edge k := rfl
@[simp] theorem State.setCore_ring (c : Nat) (x : Core) (k : Nat) : (s.setCore c x).ring k = s.ring k := rfl
@[simp] theorem State.setCore_path (c : Nat) (x : Core) (k : Nat) : (s.setCore c x).path k = s.path k := rfl
@[simp] theorem State.setCore_conv (c : Nat) (x : Core) (k : Nat) : (s.setCore c x).conv k = s.conv k := rfl
@[simp] theorem State.setCore_pan (c : Nat) (x : Core) (k : Nat) : (s.setCore c x).pan k = s.pan k := rfl
@[simp] theorem State.setCore_dmaCh (c : Nat) (x : Core) (k : Nat) : (s.setCore c x).dmaCh k = s.dmaCh k := rfl
@[simp] theorem State.setCore_memWord (c : Nat) (x : Core) (k : Nat) : (s.setCore c x).memWord k = s.memWord k := rfl

/-! ## setInchan -/

@[simp] theorem State.setInchan_pending (c : Nat) (x : InChan) : (s.setInchan c x).pending = s.pending := rfl
@[simp] theorem State.setInchan_od (c : Nat) (x : InChan) : (s.setInchan c x).od = s.od := rfl
@[simp] theorem State.setInchan_answers (c : Nat) (x : InChan) : (s.setInchan c x).answers = s.answers := rfl
@[simp] theorem State.setInchan_mem (c : Nat) (x : InChan) : (s.setInchan c x).mem = s.mem := rfl
@[simp] theorem State.setInchan_slate (c : Nat) (x : InChan) : (s.setInchan c x).slate = s.slate := rfl
@[simp] theorem State.setInchan_lanes (c : Nat) (x : InChan) : (s.setInchan c x).lanes = s.lanes := rfl
@[simp] theorem State.setInchan_cores (c : Nat) (x : InChan) : (s.setInchan c x).cores = s.cores := rfl
@[simp] theorem State.setInchan_xch (c : Nat) (x : InChan) : (s.setInchan c x).xch = s.xch := rfl
@[simp] theorem State.setInchan_oc (c : Nat) (x : InChan) : (s.setInchan c x).oc = s.oc := rfl
@[simp] theorem State.setInchan_outCh (c : Nat) (x : InChan) : (s.setInchan c x).outCh = s.outCh := rfl
@[simp] theorem State.setInchan_ports (c : Nat) (x : InChan) : (s.setInchan c x).ports = s.ports := rfl
@[simp] theorem State.setInchan_steer (c : Nat) (x : InChan) : (s.setInchan c x).steer = s.steer := rfl
@[simp] theorem State.setInchan_houseEdge (c : Nat) (x : InChan) : (s.setInchan c x).houseEdge = s.houseEdge := rfl
@[simp] theorem State.setInchan_splices (c : Nat) (x : InChan) : (s.setInchan c x).splices = s.splices := rfl
@[simp] theorem State.setInchan_spliceIds (c : Nat) (x : InChan) : (s.setInchan c x).spliceIds = s.spliceIds := rfl
@[simp] theorem State.setInchan_nodes (c : Nat) (x : InChan) : (s.setInchan c x).nodes = s.nodes := rfl
@[simp] theorem State.setInchan_edges (c : Nat) (x : InChan) : (s.setInchan c x).edges = s.edges := rfl
@[simp] theorem State.setInchan_firings (c : Nat) (x : InChan) : (s.setInchan c x).firings = s.firings := rfl
@[simp] theorem State.setInchan_fireSeq (c : Nat) (x : InChan) : (s.setInchan c x).fireSeq = s.fireSeq := rfl
@[simp] theorem State.setInchan_waitSeq (c : Nat) (x : InChan) : (s.setInchan c x).waitSeq = s.waitSeq := rfl
@[simp] theorem State.setInchan_rings (c : Nat) (x : InChan) : (s.setInchan c x).rings = s.rings := rfl
@[simp] theorem State.setInchan_paths (c : Nat) (x : InChan) : (s.setInchan c x).paths = s.paths := rfl
@[simp] theorem State.setInchan_convs (c : Nat) (x : InChan) : (s.setInchan c x).convs = s.convs := rfl
@[simp] theorem State.setInchan_pans (c : Nat) (x : InChan) : (s.setInchan c x).pans = s.pans := rfl
@[simp] theorem State.setInchan_panLog (c : Nat) (x : InChan) : (s.setInchan c x).panLog = s.panLog := rfl
@[simp] theorem State.setInchan_busy (c : Nat) (x : InChan) : (s.setInchan c x).busy = s.busy := rfl
@[simp] theorem State.setInchan_dma (c : Nat) (x : InChan) : (s.setInchan c x).dma = s.dma := rfl
@[simp] theorem State.setInchan_dmaArb (c : Nat) (x : InChan) : (s.setInchan c x).dmaArb = s.dmaArb := rfl
@[simp] theorem State.setInchan_dramClean (c : Nat) (x : InChan) : (s.setInchan c x).dramClean = s.dramClean := rfl
@[simp] theorem State.setInchan_dramErr (c : Nat) (x : InChan) : (s.setInchan c x).dramErr = s.dramErr := rfl
@[simp] theorem State.setInchan_handles (c : Nat) (x : InChan) : (s.setInchan c x).handles = s.handles := rfl
@[simp] theorem State.setInchan_gens (c : Nat) (x : InChan) : (s.setInchan c x).gens = s.gens := rfl
@[simp] theorem State.setInchan_records (c : Nat) (x : InChan) : (s.setInchan c x).records = s.records := rfl
@[simp] theorem State.setInchan_faultLog (c : Nat) (x : InChan) : (s.setInchan c x).faultLog = s.faultLog := rfl
@[simp] theorem State.setInchan_active (c : Nat) (x : InChan) : (s.setInchan c x).active = s.active := rfl
@[simp] theorem State.setInchan_onceKeys (c : Nat) (x : InChan) : (s.setInchan c x).onceKeys = s.onceKeys := rfl
@[simp] theorem State.setInchan_link (c : Nat) (x : InChan) : (s.setInchan c x).link = s.link := rfl
@[simp] theorem State.setInchan_codec (c : Nat) (x : InChan) : (s.setInchan c x).codec = s.codec := rfl
@[simp] theorem State.setInchan_can (c : Nat) (x : InChan) : (s.setInchan c x).can = s.can := rfl
@[simp] theorem State.setInchan_power (c : Nat) (x : InChan) : (s.setInchan c x).power = s.power := rfl
@[simp] theorem State.setInchan_boot (c : Nat) (x : InChan) : (s.setInchan c x).boot = s.boot := rfl
@[simp] theorem State.setInchan_flash (c : Nat) (x : InChan) : (s.setInchan c x).flash = s.flash := rfl
@[simp] theorem State.setInchan_snapshot (c : Nat) (x : InChan) : (s.setInchan c x).snapshot = s.snapshot := rfl
@[simp] theorem State.setInchan_slotImages (c : Nat) (x : InChan) : (s.setInchan c x).slotImages = s.slotImages := rfl
@[simp] theorem State.setInchan_service (c : Nat) (x : InChan) : (s.setInchan c x).service = s.service := rfl
@[simp] theorem State.setInchan_wdtSlate (c : Nat) (x : InChan) : (s.setInchan c x).wdtSlate = s.wdtSlate := rfl
@[simp] theorem State.setInchan_wdtFrom (c : Nat) (x : InChan) : (s.setInchan c x).wdtFrom = s.wdtFrom := rfl
@[simp] theorem State.setInchan_fresh (c : Nat) (x : InChan) : (s.setInchan c x).fresh = s.fresh := rfl
@[simp] theorem State.setInchan_rd (c : Nat) (x : InChan) (reg : Reg) : (s.setInchan c x).rd reg = s.rd reg := rfl
@[simp] theorem State.setInchan_lane (c : Nat) (x : InChan) (k : Nat) : (s.setInchan c x).lane k = s.lane k := rfl
@[simp] theorem State.setInchan_core (c : Nat) (x : InChan) (k : Nat) : (s.setInchan c x).core k = s.core k := rfl
@[simp] theorem State.setInchan_outchan (c : Nat) (x : InChan) (k : Nat) : (s.setInchan c x).outchan k = s.outchan k := rfl
@[simp] theorem State.setInchan_port (c : Nat) (x : InChan) (k : Nat) : (s.setInchan c x).port k = s.port k := rfl
@[simp] theorem State.setInchan_node (c : Nat) (x : InChan) (k : Nat) : (s.setInchan c x).node k = s.node k := rfl
@[simp] theorem State.setInchan_edge (c : Nat) (x : InChan) (k : Nat) : (s.setInchan c x).edge k = s.edge k := rfl
@[simp] theorem State.setInchan_ring (c : Nat) (x : InChan) (k : Nat) : (s.setInchan c x).ring k = s.ring k := rfl
@[simp] theorem State.setInchan_path (c : Nat) (x : InChan) (k : Nat) : (s.setInchan c x).path k = s.path k := rfl
@[simp] theorem State.setInchan_conv (c : Nat) (x : InChan) (k : Nat) : (s.setInchan c x).conv k = s.conv k := rfl
@[simp] theorem State.setInchan_pan (c : Nat) (x : InChan) (k : Nat) : (s.setInchan c x).pan k = s.pan k := rfl
@[simp] theorem State.setInchan_dmaCh (c : Nat) (x : InChan) (k : Nat) : (s.setInchan c x).dmaCh k = s.dmaCh k := rfl
@[simp] theorem State.setInchan_memWord (c : Nat) (x : InChan) (k : Nat) : (s.setInchan c x).memWord k = s.memWord k := rfl

/-! ## setOutchan -/

@[simp] theorem State.setOutchan_pending (c : Nat) (x : OutChan) : (s.setOutchan c x).pending = s.pending := rfl
@[simp] theorem State.setOutchan_od (c : Nat) (x : OutChan) : (s.setOutchan c x).od = s.od := rfl
@[simp] theorem State.setOutchan_answers (c : Nat) (x : OutChan) : (s.setOutchan c x).answers = s.answers := rfl
@[simp] theorem State.setOutchan_mem (c : Nat) (x : OutChan) : (s.setOutchan c x).mem = s.mem := rfl
@[simp] theorem State.setOutchan_slate (c : Nat) (x : OutChan) : (s.setOutchan c x).slate = s.slate := rfl
@[simp] theorem State.setOutchan_lanes (c : Nat) (x : OutChan) : (s.setOutchan c x).lanes = s.lanes := rfl
@[simp] theorem State.setOutchan_cores (c : Nat) (x : OutChan) : (s.setOutchan c x).cores = s.cores := rfl
@[simp] theorem State.setOutchan_xch (c : Nat) (x : OutChan) : (s.setOutchan c x).xch = s.xch := rfl
@[simp] theorem State.setOutchan_oc (c : Nat) (x : OutChan) : (s.setOutchan c x).oc = s.oc := rfl
@[simp] theorem State.setOutchan_inCh (c : Nat) (x : OutChan) : (s.setOutchan c x).inCh = s.inCh := rfl
@[simp] theorem State.setOutchan_ports (c : Nat) (x : OutChan) : (s.setOutchan c x).ports = s.ports := rfl
@[simp] theorem State.setOutchan_steer (c : Nat) (x : OutChan) : (s.setOutchan c x).steer = s.steer := rfl
@[simp] theorem State.setOutchan_houseEdge (c : Nat) (x : OutChan) : (s.setOutchan c x).houseEdge = s.houseEdge := rfl
@[simp] theorem State.setOutchan_splices (c : Nat) (x : OutChan) : (s.setOutchan c x).splices = s.splices := rfl
@[simp] theorem State.setOutchan_spliceIds (c : Nat) (x : OutChan) : (s.setOutchan c x).spliceIds = s.spliceIds := rfl
@[simp] theorem State.setOutchan_nodes (c : Nat) (x : OutChan) : (s.setOutchan c x).nodes = s.nodes := rfl
@[simp] theorem State.setOutchan_edges (c : Nat) (x : OutChan) : (s.setOutchan c x).edges = s.edges := rfl
@[simp] theorem State.setOutchan_firings (c : Nat) (x : OutChan) : (s.setOutchan c x).firings = s.firings := rfl
@[simp] theorem State.setOutchan_fireSeq (c : Nat) (x : OutChan) : (s.setOutchan c x).fireSeq = s.fireSeq := rfl
@[simp] theorem State.setOutchan_waitSeq (c : Nat) (x : OutChan) : (s.setOutchan c x).waitSeq = s.waitSeq := rfl
@[simp] theorem State.setOutchan_rings (c : Nat) (x : OutChan) : (s.setOutchan c x).rings = s.rings := rfl
@[simp] theorem State.setOutchan_paths (c : Nat) (x : OutChan) : (s.setOutchan c x).paths = s.paths := rfl
@[simp] theorem State.setOutchan_convs (c : Nat) (x : OutChan) : (s.setOutchan c x).convs = s.convs := rfl
@[simp] theorem State.setOutchan_pans (c : Nat) (x : OutChan) : (s.setOutchan c x).pans = s.pans := rfl
@[simp] theorem State.setOutchan_panLog (c : Nat) (x : OutChan) : (s.setOutchan c x).panLog = s.panLog := rfl
@[simp] theorem State.setOutchan_busy (c : Nat) (x : OutChan) : (s.setOutchan c x).busy = s.busy := rfl
@[simp] theorem State.setOutchan_dma (c : Nat) (x : OutChan) : (s.setOutchan c x).dma = s.dma := rfl
@[simp] theorem State.setOutchan_dmaArb (c : Nat) (x : OutChan) : (s.setOutchan c x).dmaArb = s.dmaArb := rfl
@[simp] theorem State.setOutchan_dramClean (c : Nat) (x : OutChan) : (s.setOutchan c x).dramClean = s.dramClean := rfl
@[simp] theorem State.setOutchan_dramErr (c : Nat) (x : OutChan) : (s.setOutchan c x).dramErr = s.dramErr := rfl
@[simp] theorem State.setOutchan_handles (c : Nat) (x : OutChan) : (s.setOutchan c x).handles = s.handles := rfl
@[simp] theorem State.setOutchan_gens (c : Nat) (x : OutChan) : (s.setOutchan c x).gens = s.gens := rfl
@[simp] theorem State.setOutchan_records (c : Nat) (x : OutChan) : (s.setOutchan c x).records = s.records := rfl
@[simp] theorem State.setOutchan_faultLog (c : Nat) (x : OutChan) : (s.setOutchan c x).faultLog = s.faultLog := rfl
@[simp] theorem State.setOutchan_active (c : Nat) (x : OutChan) : (s.setOutchan c x).active = s.active := rfl
@[simp] theorem State.setOutchan_onceKeys (c : Nat) (x : OutChan) : (s.setOutchan c x).onceKeys = s.onceKeys := rfl
@[simp] theorem State.setOutchan_link (c : Nat) (x : OutChan) : (s.setOutchan c x).link = s.link := rfl
@[simp] theorem State.setOutchan_codec (c : Nat) (x : OutChan) : (s.setOutchan c x).codec = s.codec := rfl
@[simp] theorem State.setOutchan_can (c : Nat) (x : OutChan) : (s.setOutchan c x).can = s.can := rfl
@[simp] theorem State.setOutchan_power (c : Nat) (x : OutChan) : (s.setOutchan c x).power = s.power := rfl
@[simp] theorem State.setOutchan_boot (c : Nat) (x : OutChan) : (s.setOutchan c x).boot = s.boot := rfl
@[simp] theorem State.setOutchan_flash (c : Nat) (x : OutChan) : (s.setOutchan c x).flash = s.flash := rfl
@[simp] theorem State.setOutchan_snapshot (c : Nat) (x : OutChan) : (s.setOutchan c x).snapshot = s.snapshot := rfl
@[simp] theorem State.setOutchan_slotImages (c : Nat) (x : OutChan) : (s.setOutchan c x).slotImages = s.slotImages := rfl
@[simp] theorem State.setOutchan_service (c : Nat) (x : OutChan) : (s.setOutchan c x).service = s.service := rfl
@[simp] theorem State.setOutchan_wdtSlate (c : Nat) (x : OutChan) : (s.setOutchan c x).wdtSlate = s.wdtSlate := rfl
@[simp] theorem State.setOutchan_wdtFrom (c : Nat) (x : OutChan) : (s.setOutchan c x).wdtFrom = s.wdtFrom := rfl
@[simp] theorem State.setOutchan_fresh (c : Nat) (x : OutChan) : (s.setOutchan c x).fresh = s.fresh := rfl
@[simp] theorem State.setOutchan_rd (c : Nat) (x : OutChan) (reg : Reg) : (s.setOutchan c x).rd reg = s.rd reg := rfl
@[simp] theorem State.setOutchan_lane (c : Nat) (x : OutChan) (k : Nat) : (s.setOutchan c x).lane k = s.lane k := rfl
@[simp] theorem State.setOutchan_core (c : Nat) (x : OutChan) (k : Nat) : (s.setOutchan c x).core k = s.core k := rfl
@[simp] theorem State.setOutchan_inchan (c : Nat) (x : OutChan) (k : Nat) : (s.setOutchan c x).inchan k = s.inchan k := rfl
@[simp] theorem State.setOutchan_port (c : Nat) (x : OutChan) (k : Nat) : (s.setOutchan c x).port k = s.port k := rfl
@[simp] theorem State.setOutchan_node (c : Nat) (x : OutChan) (k : Nat) : (s.setOutchan c x).node k = s.node k := rfl
@[simp] theorem State.setOutchan_edge (c : Nat) (x : OutChan) (k : Nat) : (s.setOutchan c x).edge k = s.edge k := rfl
@[simp] theorem State.setOutchan_ring (c : Nat) (x : OutChan) (k : Nat) : (s.setOutchan c x).ring k = s.ring k := rfl
@[simp] theorem State.setOutchan_path (c : Nat) (x : OutChan) (k : Nat) : (s.setOutchan c x).path k = s.path k := rfl
@[simp] theorem State.setOutchan_conv (c : Nat) (x : OutChan) (k : Nat) : (s.setOutchan c x).conv k = s.conv k := rfl
@[simp] theorem State.setOutchan_pan (c : Nat) (x : OutChan) (k : Nat) : (s.setOutchan c x).pan k = s.pan k := rfl
@[simp] theorem State.setOutchan_dmaCh (c : Nat) (x : OutChan) (k : Nat) : (s.setOutchan c x).dmaCh k = s.dmaCh k := rfl
@[simp] theorem State.setOutchan_memWord (c : Nat) (x : OutChan) (k : Nat) : (s.setOutchan c x).memWord k = s.memWord k := rfl

/-! ## setPort -/

@[simp] theorem State.setPort_pending (g : Nat) (x : Port) : (s.setPort g x).pending = s.pending := rfl
@[simp] theorem State.setPort_od (g : Nat) (x : Port) : (s.setPort g x).od = s.od := rfl
@[simp] theorem State.setPort_answers (g : Nat) (x : Port) : (s.setPort g x).answers = s.answers := rfl
@[simp] theorem State.setPort_mem (g : Nat) (x : Port) : (s.setPort g x).mem = s.mem := rfl
@[simp] theorem State.setPort_slate (g : Nat) (x : Port) : (s.setPort g x).slate = s.slate := rfl
@[simp] theorem State.setPort_lanes (g : Nat) (x : Port) : (s.setPort g x).lanes = s.lanes := rfl
@[simp] theorem State.setPort_cores (g : Nat) (x : Port) : (s.setPort g x).cores = s.cores := rfl
@[simp] theorem State.setPort_xch (g : Nat) (x : Port) : (s.setPort g x).xch = s.xch := rfl
@[simp] theorem State.setPort_oc (g : Nat) (x : Port) : (s.setPort g x).oc = s.oc := rfl
@[simp] theorem State.setPort_inCh (g : Nat) (x : Port) : (s.setPort g x).inCh = s.inCh := rfl
@[simp] theorem State.setPort_outCh (g : Nat) (x : Port) : (s.setPort g x).outCh = s.outCh := rfl
@[simp] theorem State.setPort_steer (g : Nat) (x : Port) : (s.setPort g x).steer = s.steer := rfl
@[simp] theorem State.setPort_houseEdge (g : Nat) (x : Port) : (s.setPort g x).houseEdge = s.houseEdge := rfl
@[simp] theorem State.setPort_splices (g : Nat) (x : Port) : (s.setPort g x).splices = s.splices := rfl
@[simp] theorem State.setPort_spliceIds (g : Nat) (x : Port) : (s.setPort g x).spliceIds = s.spliceIds := rfl
@[simp] theorem State.setPort_nodes (g : Nat) (x : Port) : (s.setPort g x).nodes = s.nodes := rfl
@[simp] theorem State.setPort_edges (g : Nat) (x : Port) : (s.setPort g x).edges = s.edges := rfl
@[simp] theorem State.setPort_firings (g : Nat) (x : Port) : (s.setPort g x).firings = s.firings := rfl
@[simp] theorem State.setPort_fireSeq (g : Nat) (x : Port) : (s.setPort g x).fireSeq = s.fireSeq := rfl
@[simp] theorem State.setPort_waitSeq (g : Nat) (x : Port) : (s.setPort g x).waitSeq = s.waitSeq := rfl
@[simp] theorem State.setPort_rings (g : Nat) (x : Port) : (s.setPort g x).rings = s.rings := rfl
@[simp] theorem State.setPort_paths (g : Nat) (x : Port) : (s.setPort g x).paths = s.paths := rfl
@[simp] theorem State.setPort_convs (g : Nat) (x : Port) : (s.setPort g x).convs = s.convs := rfl
@[simp] theorem State.setPort_pans (g : Nat) (x : Port) : (s.setPort g x).pans = s.pans := rfl
@[simp] theorem State.setPort_panLog (g : Nat) (x : Port) : (s.setPort g x).panLog = s.panLog := rfl
@[simp] theorem State.setPort_busy (g : Nat) (x : Port) : (s.setPort g x).busy = s.busy := rfl
@[simp] theorem State.setPort_dma (g : Nat) (x : Port) : (s.setPort g x).dma = s.dma := rfl
@[simp] theorem State.setPort_dmaArb (g : Nat) (x : Port) : (s.setPort g x).dmaArb = s.dmaArb := rfl
@[simp] theorem State.setPort_dramClean (g : Nat) (x : Port) : (s.setPort g x).dramClean = s.dramClean := rfl
@[simp] theorem State.setPort_dramErr (g : Nat) (x : Port) : (s.setPort g x).dramErr = s.dramErr := rfl
@[simp] theorem State.setPort_handles (g : Nat) (x : Port) : (s.setPort g x).handles = s.handles := rfl
@[simp] theorem State.setPort_gens (g : Nat) (x : Port) : (s.setPort g x).gens = s.gens := rfl
@[simp] theorem State.setPort_records (g : Nat) (x : Port) : (s.setPort g x).records = s.records := rfl
@[simp] theorem State.setPort_faultLog (g : Nat) (x : Port) : (s.setPort g x).faultLog = s.faultLog := rfl
@[simp] theorem State.setPort_active (g : Nat) (x : Port) : (s.setPort g x).active = s.active := rfl
@[simp] theorem State.setPort_onceKeys (g : Nat) (x : Port) : (s.setPort g x).onceKeys = s.onceKeys := rfl
@[simp] theorem State.setPort_link (g : Nat) (x : Port) : (s.setPort g x).link = s.link := rfl
@[simp] theorem State.setPort_codec (g : Nat) (x : Port) : (s.setPort g x).codec = s.codec := rfl
@[simp] theorem State.setPort_can (g : Nat) (x : Port) : (s.setPort g x).can = s.can := rfl
@[simp] theorem State.setPort_power (g : Nat) (x : Port) : (s.setPort g x).power = s.power := rfl
@[simp] theorem State.setPort_boot (g : Nat) (x : Port) : (s.setPort g x).boot = s.boot := rfl
@[simp] theorem State.setPort_flash (g : Nat) (x : Port) : (s.setPort g x).flash = s.flash := rfl
@[simp] theorem State.setPort_snapshot (g : Nat) (x : Port) : (s.setPort g x).snapshot = s.snapshot := rfl
@[simp] theorem State.setPort_slotImages (g : Nat) (x : Port) : (s.setPort g x).slotImages = s.slotImages := rfl
@[simp] theorem State.setPort_service (g : Nat) (x : Port) : (s.setPort g x).service = s.service := rfl
@[simp] theorem State.setPort_wdtSlate (g : Nat) (x : Port) : (s.setPort g x).wdtSlate = s.wdtSlate := rfl
@[simp] theorem State.setPort_wdtFrom (g : Nat) (x : Port) : (s.setPort g x).wdtFrom = s.wdtFrom := rfl
@[simp] theorem State.setPort_fresh (g : Nat) (x : Port) : (s.setPort g x).fresh = s.fresh := rfl
@[simp] theorem State.setPort_rd (g : Nat) (x : Port) (reg : Reg) : (s.setPort g x).rd reg = s.rd reg := rfl
@[simp] theorem State.setPort_lane (g : Nat) (x : Port) (k : Nat) : (s.setPort g x).lane k = s.lane k := rfl
@[simp] theorem State.setPort_core (g : Nat) (x : Port) (k : Nat) : (s.setPort g x).core k = s.core k := rfl
@[simp] theorem State.setPort_inchan (g : Nat) (x : Port) (k : Nat) : (s.setPort g x).inchan k = s.inchan k := rfl
@[simp] theorem State.setPort_outchan (g : Nat) (x : Port) (k : Nat) : (s.setPort g x).outchan k = s.outchan k := rfl
@[simp] theorem State.setPort_node (g : Nat) (x : Port) (k : Nat) : (s.setPort g x).node k = s.node k := rfl
@[simp] theorem State.setPort_edge (g : Nat) (x : Port) (k : Nat) : (s.setPort g x).edge k = s.edge k := rfl
@[simp] theorem State.setPort_ring (g : Nat) (x : Port) (k : Nat) : (s.setPort g x).ring k = s.ring k := rfl
@[simp] theorem State.setPort_path (g : Nat) (x : Port) (k : Nat) : (s.setPort g x).path k = s.path k := rfl
@[simp] theorem State.setPort_conv (g : Nat) (x : Port) (k : Nat) : (s.setPort g x).conv k = s.conv k := rfl
@[simp] theorem State.setPort_pan (g : Nat) (x : Port) (k : Nat) : (s.setPort g x).pan k = s.pan k := rfl
@[simp] theorem State.setPort_dmaCh (g : Nat) (x : Port) (k : Nat) : (s.setPort g x).dmaCh k = s.dmaCh k := rfl
@[simp] theorem State.setPort_memWord (g : Nat) (x : Port) (k : Nat) : (s.setPort g x).memWord k = s.memWord k := rfl

/-! ## setNode -/

@[simp] theorem State.setNode_pending (i : Nat) (x : Node) : (s.setNode i x).pending = s.pending := rfl
@[simp] theorem State.setNode_od (i : Nat) (x : Node) : (s.setNode i x).od = s.od := rfl
@[simp] theorem State.setNode_answers (i : Nat) (x : Node) : (s.setNode i x).answers = s.answers := rfl
@[simp] theorem State.setNode_mem (i : Nat) (x : Node) : (s.setNode i x).mem = s.mem := rfl
@[simp] theorem State.setNode_slate (i : Nat) (x : Node) : (s.setNode i x).slate = s.slate := rfl
@[simp] theorem State.setNode_lanes (i : Nat) (x : Node) : (s.setNode i x).lanes = s.lanes := rfl
@[simp] theorem State.setNode_cores (i : Nat) (x : Node) : (s.setNode i x).cores = s.cores := rfl
@[simp] theorem State.setNode_xch (i : Nat) (x : Node) : (s.setNode i x).xch = s.xch := rfl
@[simp] theorem State.setNode_oc (i : Nat) (x : Node) : (s.setNode i x).oc = s.oc := rfl
@[simp] theorem State.setNode_inCh (i : Nat) (x : Node) : (s.setNode i x).inCh = s.inCh := rfl
@[simp] theorem State.setNode_outCh (i : Nat) (x : Node) : (s.setNode i x).outCh = s.outCh := rfl
@[simp] theorem State.setNode_ports (i : Nat) (x : Node) : (s.setNode i x).ports = s.ports := rfl
@[simp] theorem State.setNode_steer (i : Nat) (x : Node) : (s.setNode i x).steer = s.steer := rfl
@[simp] theorem State.setNode_houseEdge (i : Nat) (x : Node) : (s.setNode i x).houseEdge = s.houseEdge := rfl
@[simp] theorem State.setNode_splices (i : Nat) (x : Node) : (s.setNode i x).splices = s.splices := rfl
@[simp] theorem State.setNode_spliceIds (i : Nat) (x : Node) : (s.setNode i x).spliceIds = s.spliceIds := rfl
@[simp] theorem State.setNode_edges (i : Nat) (x : Node) : (s.setNode i x).edges = s.edges := rfl
@[simp] theorem State.setNode_firings (i : Nat) (x : Node) : (s.setNode i x).firings = s.firings := rfl
@[simp] theorem State.setNode_fireSeq (i : Nat) (x : Node) : (s.setNode i x).fireSeq = s.fireSeq := rfl
@[simp] theorem State.setNode_waitSeq (i : Nat) (x : Node) : (s.setNode i x).waitSeq = s.waitSeq := rfl
@[simp] theorem State.setNode_rings (i : Nat) (x : Node) : (s.setNode i x).rings = s.rings := rfl
@[simp] theorem State.setNode_paths (i : Nat) (x : Node) : (s.setNode i x).paths = s.paths := rfl
@[simp] theorem State.setNode_convs (i : Nat) (x : Node) : (s.setNode i x).convs = s.convs := rfl
@[simp] theorem State.setNode_pans (i : Nat) (x : Node) : (s.setNode i x).pans = s.pans := rfl
@[simp] theorem State.setNode_panLog (i : Nat) (x : Node) : (s.setNode i x).panLog = s.panLog := rfl
@[simp] theorem State.setNode_busy (i : Nat) (x : Node) : (s.setNode i x).busy = s.busy := rfl
@[simp] theorem State.setNode_dma (i : Nat) (x : Node) : (s.setNode i x).dma = s.dma := rfl
@[simp] theorem State.setNode_dmaArb (i : Nat) (x : Node) : (s.setNode i x).dmaArb = s.dmaArb := rfl
@[simp] theorem State.setNode_dramClean (i : Nat) (x : Node) : (s.setNode i x).dramClean = s.dramClean := rfl
@[simp] theorem State.setNode_dramErr (i : Nat) (x : Node) : (s.setNode i x).dramErr = s.dramErr := rfl
@[simp] theorem State.setNode_handles (i : Nat) (x : Node) : (s.setNode i x).handles = s.handles := rfl
@[simp] theorem State.setNode_gens (i : Nat) (x : Node) : (s.setNode i x).gens = s.gens := rfl
@[simp] theorem State.setNode_records (i : Nat) (x : Node) : (s.setNode i x).records = s.records := rfl
@[simp] theorem State.setNode_faultLog (i : Nat) (x : Node) : (s.setNode i x).faultLog = s.faultLog := rfl
@[simp] theorem State.setNode_active (i : Nat) (x : Node) : (s.setNode i x).active = s.active := rfl
@[simp] theorem State.setNode_onceKeys (i : Nat) (x : Node) : (s.setNode i x).onceKeys = s.onceKeys := rfl
@[simp] theorem State.setNode_link (i : Nat) (x : Node) : (s.setNode i x).link = s.link := rfl
@[simp] theorem State.setNode_codec (i : Nat) (x : Node) : (s.setNode i x).codec = s.codec := rfl
@[simp] theorem State.setNode_can (i : Nat) (x : Node) : (s.setNode i x).can = s.can := rfl
@[simp] theorem State.setNode_power (i : Nat) (x : Node) : (s.setNode i x).power = s.power := rfl
@[simp] theorem State.setNode_boot (i : Nat) (x : Node) : (s.setNode i x).boot = s.boot := rfl
@[simp] theorem State.setNode_flash (i : Nat) (x : Node) : (s.setNode i x).flash = s.flash := rfl
@[simp] theorem State.setNode_snapshot (i : Nat) (x : Node) : (s.setNode i x).snapshot = s.snapshot := rfl
@[simp] theorem State.setNode_slotImages (i : Nat) (x : Node) : (s.setNode i x).slotImages = s.slotImages := rfl
@[simp] theorem State.setNode_service (i : Nat) (x : Node) : (s.setNode i x).service = s.service := rfl
@[simp] theorem State.setNode_wdtSlate (i : Nat) (x : Node) : (s.setNode i x).wdtSlate = s.wdtSlate := rfl
@[simp] theorem State.setNode_wdtFrom (i : Nat) (x : Node) : (s.setNode i x).wdtFrom = s.wdtFrom := rfl
@[simp] theorem State.setNode_fresh (i : Nat) (x : Node) : (s.setNode i x).fresh = s.fresh := rfl
@[simp] theorem State.setNode_rd (i : Nat) (x : Node) (reg : Reg) : (s.setNode i x).rd reg = s.rd reg := rfl
@[simp] theorem State.setNode_lane (i : Nat) (x : Node) (k : Nat) : (s.setNode i x).lane k = s.lane k := rfl
@[simp] theorem State.setNode_core (i : Nat) (x : Node) (k : Nat) : (s.setNode i x).core k = s.core k := rfl
@[simp] theorem State.setNode_inchan (i : Nat) (x : Node) (k : Nat) : (s.setNode i x).inchan k = s.inchan k := rfl
@[simp] theorem State.setNode_outchan (i : Nat) (x : Node) (k : Nat) : (s.setNode i x).outchan k = s.outchan k := rfl
@[simp] theorem State.setNode_port (i : Nat) (x : Node) (k : Nat) : (s.setNode i x).port k = s.port k := rfl
@[simp] theorem State.setNode_edge (i : Nat) (x : Node) (k : Nat) : (s.setNode i x).edge k = s.edge k := rfl
@[simp] theorem State.setNode_ring (i : Nat) (x : Node) (k : Nat) : (s.setNode i x).ring k = s.ring k := rfl
@[simp] theorem State.setNode_path (i : Nat) (x : Node) (k : Nat) : (s.setNode i x).path k = s.path k := rfl
@[simp] theorem State.setNode_conv (i : Nat) (x : Node) (k : Nat) : (s.setNode i x).conv k = s.conv k := rfl
@[simp] theorem State.setNode_pan (i : Nat) (x : Node) (k : Nat) : (s.setNode i x).pan k = s.pan k := rfl
@[simp] theorem State.setNode_dmaCh (i : Nat) (x : Node) (k : Nat) : (s.setNode i x).dmaCh k = s.dmaCh k := rfl
@[simp] theorem State.setNode_memWord (i : Nat) (x : Node) (k : Nat) : (s.setNode i x).memWord k = s.memWord k := rfl

/-! ## setEdge -/

@[simp] theorem State.setEdge_pending (e : Nat) (x : Edge) : (s.setEdge e x).pending = s.pending := rfl
@[simp] theorem State.setEdge_od (e : Nat) (x : Edge) : (s.setEdge e x).od = s.od := rfl
@[simp] theorem State.setEdge_answers (e : Nat) (x : Edge) : (s.setEdge e x).answers = s.answers := rfl
@[simp] theorem State.setEdge_mem (e : Nat) (x : Edge) : (s.setEdge e x).mem = s.mem := rfl
@[simp] theorem State.setEdge_slate (e : Nat) (x : Edge) : (s.setEdge e x).slate = s.slate := rfl
@[simp] theorem State.setEdge_lanes (e : Nat) (x : Edge) : (s.setEdge e x).lanes = s.lanes := rfl
@[simp] theorem State.setEdge_cores (e : Nat) (x : Edge) : (s.setEdge e x).cores = s.cores := rfl
@[simp] theorem State.setEdge_xch (e : Nat) (x : Edge) : (s.setEdge e x).xch = s.xch := rfl
@[simp] theorem State.setEdge_oc (e : Nat) (x : Edge) : (s.setEdge e x).oc = s.oc := rfl
@[simp] theorem State.setEdge_inCh (e : Nat) (x : Edge) : (s.setEdge e x).inCh = s.inCh := rfl
@[simp] theorem State.setEdge_outCh (e : Nat) (x : Edge) : (s.setEdge e x).outCh = s.outCh := rfl
@[simp] theorem State.setEdge_ports (e : Nat) (x : Edge) : (s.setEdge e x).ports = s.ports := rfl
@[simp] theorem State.setEdge_steer (e : Nat) (x : Edge) : (s.setEdge e x).steer = s.steer := rfl
@[simp] theorem State.setEdge_houseEdge (e : Nat) (x : Edge) : (s.setEdge e x).houseEdge = s.houseEdge := rfl
@[simp] theorem State.setEdge_splices (e : Nat) (x : Edge) : (s.setEdge e x).splices = s.splices := rfl
@[simp] theorem State.setEdge_spliceIds (e : Nat) (x : Edge) : (s.setEdge e x).spliceIds = s.spliceIds := rfl
@[simp] theorem State.setEdge_nodes (e : Nat) (x : Edge) : (s.setEdge e x).nodes = s.nodes := rfl
@[simp] theorem State.setEdge_firings (e : Nat) (x : Edge) : (s.setEdge e x).firings = s.firings := rfl
@[simp] theorem State.setEdge_fireSeq (e : Nat) (x : Edge) : (s.setEdge e x).fireSeq = s.fireSeq := rfl
@[simp] theorem State.setEdge_waitSeq (e : Nat) (x : Edge) : (s.setEdge e x).waitSeq = s.waitSeq := rfl
@[simp] theorem State.setEdge_rings (e : Nat) (x : Edge) : (s.setEdge e x).rings = s.rings := rfl
@[simp] theorem State.setEdge_paths (e : Nat) (x : Edge) : (s.setEdge e x).paths = s.paths := rfl
@[simp] theorem State.setEdge_convs (e : Nat) (x : Edge) : (s.setEdge e x).convs = s.convs := rfl
@[simp] theorem State.setEdge_pans (e : Nat) (x : Edge) : (s.setEdge e x).pans = s.pans := rfl
@[simp] theorem State.setEdge_panLog (e : Nat) (x : Edge) : (s.setEdge e x).panLog = s.panLog := rfl
@[simp] theorem State.setEdge_busy (e : Nat) (x : Edge) : (s.setEdge e x).busy = s.busy := rfl
@[simp] theorem State.setEdge_dma (e : Nat) (x : Edge) : (s.setEdge e x).dma = s.dma := rfl
@[simp] theorem State.setEdge_dmaArb (e : Nat) (x : Edge) : (s.setEdge e x).dmaArb = s.dmaArb := rfl
@[simp] theorem State.setEdge_dramClean (e : Nat) (x : Edge) : (s.setEdge e x).dramClean = s.dramClean := rfl
@[simp] theorem State.setEdge_dramErr (e : Nat) (x : Edge) : (s.setEdge e x).dramErr = s.dramErr := rfl
@[simp] theorem State.setEdge_handles (e : Nat) (x : Edge) : (s.setEdge e x).handles = s.handles := rfl
@[simp] theorem State.setEdge_gens (e : Nat) (x : Edge) : (s.setEdge e x).gens = s.gens := rfl
@[simp] theorem State.setEdge_records (e : Nat) (x : Edge) : (s.setEdge e x).records = s.records := rfl
@[simp] theorem State.setEdge_faultLog (e : Nat) (x : Edge) : (s.setEdge e x).faultLog = s.faultLog := rfl
@[simp] theorem State.setEdge_active (e : Nat) (x : Edge) : (s.setEdge e x).active = s.active := rfl
@[simp] theorem State.setEdge_onceKeys (e : Nat) (x : Edge) : (s.setEdge e x).onceKeys = s.onceKeys := rfl
@[simp] theorem State.setEdge_link (e : Nat) (x : Edge) : (s.setEdge e x).link = s.link := rfl
@[simp] theorem State.setEdge_codec (e : Nat) (x : Edge) : (s.setEdge e x).codec = s.codec := rfl
@[simp] theorem State.setEdge_can (e : Nat) (x : Edge) : (s.setEdge e x).can = s.can := rfl
@[simp] theorem State.setEdge_power (e : Nat) (x : Edge) : (s.setEdge e x).power = s.power := rfl
@[simp] theorem State.setEdge_boot (e : Nat) (x : Edge) : (s.setEdge e x).boot = s.boot := rfl
@[simp] theorem State.setEdge_flash (e : Nat) (x : Edge) : (s.setEdge e x).flash = s.flash := rfl
@[simp] theorem State.setEdge_snapshot (e : Nat) (x : Edge) : (s.setEdge e x).snapshot = s.snapshot := rfl
@[simp] theorem State.setEdge_slotImages (e : Nat) (x : Edge) : (s.setEdge e x).slotImages = s.slotImages := rfl
@[simp] theorem State.setEdge_service (e : Nat) (x : Edge) : (s.setEdge e x).service = s.service := rfl
@[simp] theorem State.setEdge_wdtSlate (e : Nat) (x : Edge) : (s.setEdge e x).wdtSlate = s.wdtSlate := rfl
@[simp] theorem State.setEdge_wdtFrom (e : Nat) (x : Edge) : (s.setEdge e x).wdtFrom = s.wdtFrom := rfl
@[simp] theorem State.setEdge_fresh (e : Nat) (x : Edge) : (s.setEdge e x).fresh = s.fresh := rfl
@[simp] theorem State.setEdge_rd (e : Nat) (x : Edge) (reg : Reg) : (s.setEdge e x).rd reg = s.rd reg := rfl
@[simp] theorem State.setEdge_lane (e : Nat) (x : Edge) (k : Nat) : (s.setEdge e x).lane k = s.lane k := rfl
@[simp] theorem State.setEdge_core (e : Nat) (x : Edge) (k : Nat) : (s.setEdge e x).core k = s.core k := rfl
@[simp] theorem State.setEdge_inchan (e : Nat) (x : Edge) (k : Nat) : (s.setEdge e x).inchan k = s.inchan k := rfl
@[simp] theorem State.setEdge_outchan (e : Nat) (x : Edge) (k : Nat) : (s.setEdge e x).outchan k = s.outchan k := rfl
@[simp] theorem State.setEdge_port (e : Nat) (x : Edge) (k : Nat) : (s.setEdge e x).port k = s.port k := rfl
@[simp] theorem State.setEdge_node (e : Nat) (x : Edge) (k : Nat) : (s.setEdge e x).node k = s.node k := rfl
@[simp] theorem State.setEdge_ring (e : Nat) (x : Edge) (k : Nat) : (s.setEdge e x).ring k = s.ring k := rfl
@[simp] theorem State.setEdge_path (e : Nat) (x : Edge) (k : Nat) : (s.setEdge e x).path k = s.path k := rfl
@[simp] theorem State.setEdge_conv (e : Nat) (x : Edge) (k : Nat) : (s.setEdge e x).conv k = s.conv k := rfl
@[simp] theorem State.setEdge_pan (e : Nat) (x : Edge) (k : Nat) : (s.setEdge e x).pan k = s.pan k := rfl
@[simp] theorem State.setEdge_dmaCh (e : Nat) (x : Edge) (k : Nat) : (s.setEdge e x).dmaCh k = s.dmaCh k := rfl
@[simp] theorem State.setEdge_memWord (e : Nat) (x : Edge) (k : Nat) : (s.setEdge e x).memWord k = s.memWord k := rfl

/-! ## setRing -/

@[simp] theorem State.setRing_pending (r : Nat) (x : RingPair) : (s.setRing r x).pending = s.pending := rfl
@[simp] theorem State.setRing_od (r : Nat) (x : RingPair) : (s.setRing r x).od = s.od := rfl
@[simp] theorem State.setRing_answers (r : Nat) (x : RingPair) : (s.setRing r x).answers = s.answers := rfl
@[simp] theorem State.setRing_mem (r : Nat) (x : RingPair) : (s.setRing r x).mem = s.mem := rfl
@[simp] theorem State.setRing_slate (r : Nat) (x : RingPair) : (s.setRing r x).slate = s.slate := rfl
@[simp] theorem State.setRing_lanes (r : Nat) (x : RingPair) : (s.setRing r x).lanes = s.lanes := rfl
@[simp] theorem State.setRing_cores (r : Nat) (x : RingPair) : (s.setRing r x).cores = s.cores := rfl
@[simp] theorem State.setRing_xch (r : Nat) (x : RingPair) : (s.setRing r x).xch = s.xch := rfl
@[simp] theorem State.setRing_oc (r : Nat) (x : RingPair) : (s.setRing r x).oc = s.oc := rfl
@[simp] theorem State.setRing_inCh (r : Nat) (x : RingPair) : (s.setRing r x).inCh = s.inCh := rfl
@[simp] theorem State.setRing_outCh (r : Nat) (x : RingPair) : (s.setRing r x).outCh = s.outCh := rfl
@[simp] theorem State.setRing_ports (r : Nat) (x : RingPair) : (s.setRing r x).ports = s.ports := rfl
@[simp] theorem State.setRing_steer (r : Nat) (x : RingPair) : (s.setRing r x).steer = s.steer := rfl
@[simp] theorem State.setRing_houseEdge (r : Nat) (x : RingPair) : (s.setRing r x).houseEdge = s.houseEdge := rfl
@[simp] theorem State.setRing_splices (r : Nat) (x : RingPair) : (s.setRing r x).splices = s.splices := rfl
@[simp] theorem State.setRing_spliceIds (r : Nat) (x : RingPair) : (s.setRing r x).spliceIds = s.spliceIds := rfl
@[simp] theorem State.setRing_nodes (r : Nat) (x : RingPair) : (s.setRing r x).nodes = s.nodes := rfl
@[simp] theorem State.setRing_edges (r : Nat) (x : RingPair) : (s.setRing r x).edges = s.edges := rfl
@[simp] theorem State.setRing_firings (r : Nat) (x : RingPair) : (s.setRing r x).firings = s.firings := rfl
@[simp] theorem State.setRing_fireSeq (r : Nat) (x : RingPair) : (s.setRing r x).fireSeq = s.fireSeq := rfl
@[simp] theorem State.setRing_waitSeq (r : Nat) (x : RingPair) : (s.setRing r x).waitSeq = s.waitSeq := rfl
@[simp] theorem State.setRing_paths (r : Nat) (x : RingPair) : (s.setRing r x).paths = s.paths := rfl
@[simp] theorem State.setRing_convs (r : Nat) (x : RingPair) : (s.setRing r x).convs = s.convs := rfl
@[simp] theorem State.setRing_pans (r : Nat) (x : RingPair) : (s.setRing r x).pans = s.pans := rfl
@[simp] theorem State.setRing_panLog (r : Nat) (x : RingPair) : (s.setRing r x).panLog = s.panLog := rfl
@[simp] theorem State.setRing_busy (r : Nat) (x : RingPair) : (s.setRing r x).busy = s.busy := rfl
@[simp] theorem State.setRing_dma (r : Nat) (x : RingPair) : (s.setRing r x).dma = s.dma := rfl
@[simp] theorem State.setRing_dmaArb (r : Nat) (x : RingPair) : (s.setRing r x).dmaArb = s.dmaArb := rfl
@[simp] theorem State.setRing_dramClean (r : Nat) (x : RingPair) : (s.setRing r x).dramClean = s.dramClean := rfl
@[simp] theorem State.setRing_dramErr (r : Nat) (x : RingPair) : (s.setRing r x).dramErr = s.dramErr := rfl
@[simp] theorem State.setRing_handles (r : Nat) (x : RingPair) : (s.setRing r x).handles = s.handles := rfl
@[simp] theorem State.setRing_gens (r : Nat) (x : RingPair) : (s.setRing r x).gens = s.gens := rfl
@[simp] theorem State.setRing_records (r : Nat) (x : RingPair) : (s.setRing r x).records = s.records := rfl
@[simp] theorem State.setRing_faultLog (r : Nat) (x : RingPair) : (s.setRing r x).faultLog = s.faultLog := rfl
@[simp] theorem State.setRing_active (r : Nat) (x : RingPair) : (s.setRing r x).active = s.active := rfl
@[simp] theorem State.setRing_onceKeys (r : Nat) (x : RingPair) : (s.setRing r x).onceKeys = s.onceKeys := rfl
@[simp] theorem State.setRing_link (r : Nat) (x : RingPair) : (s.setRing r x).link = s.link := rfl
@[simp] theorem State.setRing_codec (r : Nat) (x : RingPair) : (s.setRing r x).codec = s.codec := rfl
@[simp] theorem State.setRing_can (r : Nat) (x : RingPair) : (s.setRing r x).can = s.can := rfl
@[simp] theorem State.setRing_power (r : Nat) (x : RingPair) : (s.setRing r x).power = s.power := rfl
@[simp] theorem State.setRing_boot (r : Nat) (x : RingPair) : (s.setRing r x).boot = s.boot := rfl
@[simp] theorem State.setRing_flash (r : Nat) (x : RingPair) : (s.setRing r x).flash = s.flash := rfl
@[simp] theorem State.setRing_snapshot (r : Nat) (x : RingPair) : (s.setRing r x).snapshot = s.snapshot := rfl
@[simp] theorem State.setRing_slotImages (r : Nat) (x : RingPair) : (s.setRing r x).slotImages = s.slotImages := rfl
@[simp] theorem State.setRing_service (r : Nat) (x : RingPair) : (s.setRing r x).service = s.service := rfl
@[simp] theorem State.setRing_wdtSlate (r : Nat) (x : RingPair) : (s.setRing r x).wdtSlate = s.wdtSlate := rfl
@[simp] theorem State.setRing_wdtFrom (r : Nat) (x : RingPair) : (s.setRing r x).wdtFrom = s.wdtFrom := rfl
@[simp] theorem State.setRing_fresh (r : Nat) (x : RingPair) : (s.setRing r x).fresh = s.fresh := rfl
@[simp] theorem State.setRing_rd (r : Nat) (x : RingPair) (reg : Reg) : (s.setRing r x).rd reg = s.rd reg := rfl
@[simp] theorem State.setRing_lane (r : Nat) (x : RingPair) (k : Nat) : (s.setRing r x).lane k = s.lane k := rfl
@[simp] theorem State.setRing_core (r : Nat) (x : RingPair) (k : Nat) : (s.setRing r x).core k = s.core k := rfl
@[simp] theorem State.setRing_inchan (r : Nat) (x : RingPair) (k : Nat) : (s.setRing r x).inchan k = s.inchan k := rfl
@[simp] theorem State.setRing_outchan (r : Nat) (x : RingPair) (k : Nat) : (s.setRing r x).outchan k = s.outchan k := rfl
@[simp] theorem State.setRing_port (r : Nat) (x : RingPair) (k : Nat) : (s.setRing r x).port k = s.port k := rfl
@[simp] theorem State.setRing_node (r : Nat) (x : RingPair) (k : Nat) : (s.setRing r x).node k = s.node k := rfl
@[simp] theorem State.setRing_edge (r : Nat) (x : RingPair) (k : Nat) : (s.setRing r x).edge k = s.edge k := rfl
@[simp] theorem State.setRing_path (r : Nat) (x : RingPair) (k : Nat) : (s.setRing r x).path k = s.path k := rfl
@[simp] theorem State.setRing_conv (r : Nat) (x : RingPair) (k : Nat) : (s.setRing r x).conv k = s.conv k := rfl
@[simp] theorem State.setRing_pan (r : Nat) (x : RingPair) (k : Nat) : (s.setRing r x).pan k = s.pan k := rfl
@[simp] theorem State.setRing_dmaCh (r : Nat) (x : RingPair) (k : Nat) : (s.setRing r x).dmaCh k = s.dmaCh k := rfl
@[simp] theorem State.setRing_memWord (r : Nat) (x : RingPair) (k : Nat) : (s.setRing r x).memWord k = s.memWord k := rfl

/-! ## setPath -/

@[simp] theorem State.setPath_pending (q : Nat) (x : ConvPath) : (s.setPath q x).pending = s.pending := rfl
@[simp] theorem State.setPath_od (q : Nat) (x : ConvPath) : (s.setPath q x).od = s.od := rfl
@[simp] theorem State.setPath_answers (q : Nat) (x : ConvPath) : (s.setPath q x).answers = s.answers := rfl
@[simp] theorem State.setPath_mem (q : Nat) (x : ConvPath) : (s.setPath q x).mem = s.mem := rfl
@[simp] theorem State.setPath_slate (q : Nat) (x : ConvPath) : (s.setPath q x).slate = s.slate := rfl
@[simp] theorem State.setPath_lanes (q : Nat) (x : ConvPath) : (s.setPath q x).lanes = s.lanes := rfl
@[simp] theorem State.setPath_cores (q : Nat) (x : ConvPath) : (s.setPath q x).cores = s.cores := rfl
@[simp] theorem State.setPath_xch (q : Nat) (x : ConvPath) : (s.setPath q x).xch = s.xch := rfl
@[simp] theorem State.setPath_oc (q : Nat) (x : ConvPath) : (s.setPath q x).oc = s.oc := rfl
@[simp] theorem State.setPath_inCh (q : Nat) (x : ConvPath) : (s.setPath q x).inCh = s.inCh := rfl
@[simp] theorem State.setPath_outCh (q : Nat) (x : ConvPath) : (s.setPath q x).outCh = s.outCh := rfl
@[simp] theorem State.setPath_ports (q : Nat) (x : ConvPath) : (s.setPath q x).ports = s.ports := rfl
@[simp] theorem State.setPath_steer (q : Nat) (x : ConvPath) : (s.setPath q x).steer = s.steer := rfl
@[simp] theorem State.setPath_houseEdge (q : Nat) (x : ConvPath) : (s.setPath q x).houseEdge = s.houseEdge := rfl
@[simp] theorem State.setPath_splices (q : Nat) (x : ConvPath) : (s.setPath q x).splices = s.splices := rfl
@[simp] theorem State.setPath_spliceIds (q : Nat) (x : ConvPath) : (s.setPath q x).spliceIds = s.spliceIds := rfl
@[simp] theorem State.setPath_nodes (q : Nat) (x : ConvPath) : (s.setPath q x).nodes = s.nodes := rfl
@[simp] theorem State.setPath_edges (q : Nat) (x : ConvPath) : (s.setPath q x).edges = s.edges := rfl
@[simp] theorem State.setPath_firings (q : Nat) (x : ConvPath) : (s.setPath q x).firings = s.firings := rfl
@[simp] theorem State.setPath_fireSeq (q : Nat) (x : ConvPath) : (s.setPath q x).fireSeq = s.fireSeq := rfl
@[simp] theorem State.setPath_waitSeq (q : Nat) (x : ConvPath) : (s.setPath q x).waitSeq = s.waitSeq := rfl
@[simp] theorem State.setPath_rings (q : Nat) (x : ConvPath) : (s.setPath q x).rings = s.rings := rfl
@[simp] theorem State.setPath_convs (q : Nat) (x : ConvPath) : (s.setPath q x).convs = s.convs := rfl
@[simp] theorem State.setPath_pans (q : Nat) (x : ConvPath) : (s.setPath q x).pans = s.pans := rfl
@[simp] theorem State.setPath_panLog (q : Nat) (x : ConvPath) : (s.setPath q x).panLog = s.panLog := rfl
@[simp] theorem State.setPath_busy (q : Nat) (x : ConvPath) : (s.setPath q x).busy = s.busy := rfl
@[simp] theorem State.setPath_dma (q : Nat) (x : ConvPath) : (s.setPath q x).dma = s.dma := rfl
@[simp] theorem State.setPath_dmaArb (q : Nat) (x : ConvPath) : (s.setPath q x).dmaArb = s.dmaArb := rfl
@[simp] theorem State.setPath_dramClean (q : Nat) (x : ConvPath) : (s.setPath q x).dramClean = s.dramClean := rfl
@[simp] theorem State.setPath_dramErr (q : Nat) (x : ConvPath) : (s.setPath q x).dramErr = s.dramErr := rfl
@[simp] theorem State.setPath_handles (q : Nat) (x : ConvPath) : (s.setPath q x).handles = s.handles := rfl
@[simp] theorem State.setPath_gens (q : Nat) (x : ConvPath) : (s.setPath q x).gens = s.gens := rfl
@[simp] theorem State.setPath_records (q : Nat) (x : ConvPath) : (s.setPath q x).records = s.records := rfl
@[simp] theorem State.setPath_faultLog (q : Nat) (x : ConvPath) : (s.setPath q x).faultLog = s.faultLog := rfl
@[simp] theorem State.setPath_active (q : Nat) (x : ConvPath) : (s.setPath q x).active = s.active := rfl
@[simp] theorem State.setPath_onceKeys (q : Nat) (x : ConvPath) : (s.setPath q x).onceKeys = s.onceKeys := rfl
@[simp] theorem State.setPath_link (q : Nat) (x : ConvPath) : (s.setPath q x).link = s.link := rfl
@[simp] theorem State.setPath_codec (q : Nat) (x : ConvPath) : (s.setPath q x).codec = s.codec := rfl
@[simp] theorem State.setPath_can (q : Nat) (x : ConvPath) : (s.setPath q x).can = s.can := rfl
@[simp] theorem State.setPath_power (q : Nat) (x : ConvPath) : (s.setPath q x).power = s.power := rfl
@[simp] theorem State.setPath_boot (q : Nat) (x : ConvPath) : (s.setPath q x).boot = s.boot := rfl
@[simp] theorem State.setPath_flash (q : Nat) (x : ConvPath) : (s.setPath q x).flash = s.flash := rfl
@[simp] theorem State.setPath_snapshot (q : Nat) (x : ConvPath) : (s.setPath q x).snapshot = s.snapshot := rfl
@[simp] theorem State.setPath_slotImages (q : Nat) (x : ConvPath) : (s.setPath q x).slotImages = s.slotImages := rfl
@[simp] theorem State.setPath_service (q : Nat) (x : ConvPath) : (s.setPath q x).service = s.service := rfl
@[simp] theorem State.setPath_wdtSlate (q : Nat) (x : ConvPath) : (s.setPath q x).wdtSlate = s.wdtSlate := rfl
@[simp] theorem State.setPath_wdtFrom (q : Nat) (x : ConvPath) : (s.setPath q x).wdtFrom = s.wdtFrom := rfl
@[simp] theorem State.setPath_fresh (q : Nat) (x : ConvPath) : (s.setPath q x).fresh = s.fresh := rfl
@[simp] theorem State.setPath_rd (q : Nat) (x : ConvPath) (reg : Reg) : (s.setPath q x).rd reg = s.rd reg := rfl
@[simp] theorem State.setPath_lane (q : Nat) (x : ConvPath) (k : Nat) : (s.setPath q x).lane k = s.lane k := rfl
@[simp] theorem State.setPath_core (q : Nat) (x : ConvPath) (k : Nat) : (s.setPath q x).core k = s.core k := rfl
@[simp] theorem State.setPath_inchan (q : Nat) (x : ConvPath) (k : Nat) : (s.setPath q x).inchan k = s.inchan k := rfl
@[simp] theorem State.setPath_outchan (q : Nat) (x : ConvPath) (k : Nat) : (s.setPath q x).outchan k = s.outchan k := rfl
@[simp] theorem State.setPath_port (q : Nat) (x : ConvPath) (k : Nat) : (s.setPath q x).port k = s.port k := rfl
@[simp] theorem State.setPath_node (q : Nat) (x : ConvPath) (k : Nat) : (s.setPath q x).node k = s.node k := rfl
@[simp] theorem State.setPath_edge (q : Nat) (x : ConvPath) (k : Nat) : (s.setPath q x).edge k = s.edge k := rfl
@[simp] theorem State.setPath_ring (q : Nat) (x : ConvPath) (k : Nat) : (s.setPath q x).ring k = s.ring k := rfl
@[simp] theorem State.setPath_conv (q : Nat) (x : ConvPath) (k : Nat) : (s.setPath q x).conv k = s.conv k := rfl
@[simp] theorem State.setPath_pan (q : Nat) (x : ConvPath) (k : Nat) : (s.setPath q x).pan k = s.pan k := rfl
@[simp] theorem State.setPath_dmaCh (q : Nat) (x : ConvPath) (k : Nat) : (s.setPath q x).dmaCh k = s.dmaCh k := rfl
@[simp] theorem State.setPath_memWord (q : Nat) (x : ConvPath) (k : Nat) : (s.setPath q x).memWord k = s.memWord k := rfl

/-! ## setConv -/

@[simp] theorem State.setConv_pending (v : Nat) (x : Converter) : (s.setConv v x).pending = s.pending := rfl
@[simp] theorem State.setConv_od (v : Nat) (x : Converter) : (s.setConv v x).od = s.od := rfl
@[simp] theorem State.setConv_answers (v : Nat) (x : Converter) : (s.setConv v x).answers = s.answers := rfl
@[simp] theorem State.setConv_mem (v : Nat) (x : Converter) : (s.setConv v x).mem = s.mem := rfl
@[simp] theorem State.setConv_slate (v : Nat) (x : Converter) : (s.setConv v x).slate = s.slate := rfl
@[simp] theorem State.setConv_lanes (v : Nat) (x : Converter) : (s.setConv v x).lanes = s.lanes := rfl
@[simp] theorem State.setConv_cores (v : Nat) (x : Converter) : (s.setConv v x).cores = s.cores := rfl
@[simp] theorem State.setConv_xch (v : Nat) (x : Converter) : (s.setConv v x).xch = s.xch := rfl
@[simp] theorem State.setConv_oc (v : Nat) (x : Converter) : (s.setConv v x).oc = s.oc := rfl
@[simp] theorem State.setConv_inCh (v : Nat) (x : Converter) : (s.setConv v x).inCh = s.inCh := rfl
@[simp] theorem State.setConv_outCh (v : Nat) (x : Converter) : (s.setConv v x).outCh = s.outCh := rfl
@[simp] theorem State.setConv_ports (v : Nat) (x : Converter) : (s.setConv v x).ports = s.ports := rfl
@[simp] theorem State.setConv_steer (v : Nat) (x : Converter) : (s.setConv v x).steer = s.steer := rfl
@[simp] theorem State.setConv_houseEdge (v : Nat) (x : Converter) : (s.setConv v x).houseEdge = s.houseEdge := rfl
@[simp] theorem State.setConv_splices (v : Nat) (x : Converter) : (s.setConv v x).splices = s.splices := rfl
@[simp] theorem State.setConv_spliceIds (v : Nat) (x : Converter) : (s.setConv v x).spliceIds = s.spliceIds := rfl
@[simp] theorem State.setConv_nodes (v : Nat) (x : Converter) : (s.setConv v x).nodes = s.nodes := rfl
@[simp] theorem State.setConv_edges (v : Nat) (x : Converter) : (s.setConv v x).edges = s.edges := rfl
@[simp] theorem State.setConv_firings (v : Nat) (x : Converter) : (s.setConv v x).firings = s.firings := rfl
@[simp] theorem State.setConv_fireSeq (v : Nat) (x : Converter) : (s.setConv v x).fireSeq = s.fireSeq := rfl
@[simp] theorem State.setConv_waitSeq (v : Nat) (x : Converter) : (s.setConv v x).waitSeq = s.waitSeq := rfl
@[simp] theorem State.setConv_rings (v : Nat) (x : Converter) : (s.setConv v x).rings = s.rings := rfl
@[simp] theorem State.setConv_paths (v : Nat) (x : Converter) : (s.setConv v x).paths = s.paths := rfl
@[simp] theorem State.setConv_pans (v : Nat) (x : Converter) : (s.setConv v x).pans = s.pans := rfl
@[simp] theorem State.setConv_panLog (v : Nat) (x : Converter) : (s.setConv v x).panLog = s.panLog := rfl
@[simp] theorem State.setConv_busy (v : Nat) (x : Converter) : (s.setConv v x).busy = s.busy := rfl
@[simp] theorem State.setConv_dma (v : Nat) (x : Converter) : (s.setConv v x).dma = s.dma := rfl
@[simp] theorem State.setConv_dmaArb (v : Nat) (x : Converter) : (s.setConv v x).dmaArb = s.dmaArb := rfl
@[simp] theorem State.setConv_dramClean (v : Nat) (x : Converter) : (s.setConv v x).dramClean = s.dramClean := rfl
@[simp] theorem State.setConv_dramErr (v : Nat) (x : Converter) : (s.setConv v x).dramErr = s.dramErr := rfl
@[simp] theorem State.setConv_handles (v : Nat) (x : Converter) : (s.setConv v x).handles = s.handles := rfl
@[simp] theorem State.setConv_gens (v : Nat) (x : Converter) : (s.setConv v x).gens = s.gens := rfl
@[simp] theorem State.setConv_records (v : Nat) (x : Converter) : (s.setConv v x).records = s.records := rfl
@[simp] theorem State.setConv_faultLog (v : Nat) (x : Converter) : (s.setConv v x).faultLog = s.faultLog := rfl
@[simp] theorem State.setConv_active (v : Nat) (x : Converter) : (s.setConv v x).active = s.active := rfl
@[simp] theorem State.setConv_onceKeys (v : Nat) (x : Converter) : (s.setConv v x).onceKeys = s.onceKeys := rfl
@[simp] theorem State.setConv_link (v : Nat) (x : Converter) : (s.setConv v x).link = s.link := rfl
@[simp] theorem State.setConv_codec (v : Nat) (x : Converter) : (s.setConv v x).codec = s.codec := rfl
@[simp] theorem State.setConv_can (v : Nat) (x : Converter) : (s.setConv v x).can = s.can := rfl
@[simp] theorem State.setConv_power (v : Nat) (x : Converter) : (s.setConv v x).power = s.power := rfl
@[simp] theorem State.setConv_boot (v : Nat) (x : Converter) : (s.setConv v x).boot = s.boot := rfl
@[simp] theorem State.setConv_flash (v : Nat) (x : Converter) : (s.setConv v x).flash = s.flash := rfl
@[simp] theorem State.setConv_snapshot (v : Nat) (x : Converter) : (s.setConv v x).snapshot = s.snapshot := rfl
@[simp] theorem State.setConv_slotImages (v : Nat) (x : Converter) : (s.setConv v x).slotImages = s.slotImages := rfl
@[simp] theorem State.setConv_service (v : Nat) (x : Converter) : (s.setConv v x).service = s.service := rfl
@[simp] theorem State.setConv_wdtSlate (v : Nat) (x : Converter) : (s.setConv v x).wdtSlate = s.wdtSlate := rfl
@[simp] theorem State.setConv_wdtFrom (v : Nat) (x : Converter) : (s.setConv v x).wdtFrom = s.wdtFrom := rfl
@[simp] theorem State.setConv_fresh (v : Nat) (x : Converter) : (s.setConv v x).fresh = s.fresh := rfl
@[simp] theorem State.setConv_rd (v : Nat) (x : Converter) (reg : Reg) : (s.setConv v x).rd reg = s.rd reg := rfl
@[simp] theorem State.setConv_lane (v : Nat) (x : Converter) (k : Nat) : (s.setConv v x).lane k = s.lane k := rfl
@[simp] theorem State.setConv_core (v : Nat) (x : Converter) (k : Nat) : (s.setConv v x).core k = s.core k := rfl
@[simp] theorem State.setConv_inchan (v : Nat) (x : Converter) (k : Nat) : (s.setConv v x).inchan k = s.inchan k := rfl
@[simp] theorem State.setConv_outchan (v : Nat) (x : Converter) (k : Nat) : (s.setConv v x).outchan k = s.outchan k := rfl
@[simp] theorem State.setConv_port (v : Nat) (x : Converter) (k : Nat) : (s.setConv v x).port k = s.port k := rfl
@[simp] theorem State.setConv_node (v : Nat) (x : Converter) (k : Nat) : (s.setConv v x).node k = s.node k := rfl
@[simp] theorem State.setConv_edge (v : Nat) (x : Converter) (k : Nat) : (s.setConv v x).edge k = s.edge k := rfl
@[simp] theorem State.setConv_ring (v : Nat) (x : Converter) (k : Nat) : (s.setConv v x).ring k = s.ring k := rfl
@[simp] theorem State.setConv_path (v : Nat) (x : Converter) (k : Nat) : (s.setConv v x).path k = s.path k := rfl
@[simp] theorem State.setConv_pan (v : Nat) (x : Converter) (k : Nat) : (s.setConv v x).pan k = s.pan k := rfl
@[simp] theorem State.setConv_dmaCh (v : Nat) (x : Converter) (k : Nat) : (s.setConv v x).dmaCh k = s.dmaCh k := rfl
@[simp] theorem State.setConv_memWord (v : Nat) (x : Converter) (k : Nat) : (s.setConv v x).memWord k = s.memWord k := rfl

/-! ## setPan -/

@[simp] theorem State.setPan_pending (g : Nat) (x : PanGroup) : (s.setPan g x).pending = s.pending := rfl
@[simp] theorem State.setPan_od (g : Nat) (x : PanGroup) : (s.setPan g x).od = s.od := rfl
@[simp] theorem State.setPan_answers (g : Nat) (x : PanGroup) : (s.setPan g x).answers = s.answers := rfl
@[simp] theorem State.setPan_mem (g : Nat) (x : PanGroup) : (s.setPan g x).mem = s.mem := rfl
@[simp] theorem State.setPan_slate (g : Nat) (x : PanGroup) : (s.setPan g x).slate = s.slate := rfl
@[simp] theorem State.setPan_lanes (g : Nat) (x : PanGroup) : (s.setPan g x).lanes = s.lanes := rfl
@[simp] theorem State.setPan_cores (g : Nat) (x : PanGroup) : (s.setPan g x).cores = s.cores := rfl
@[simp] theorem State.setPan_xch (g : Nat) (x : PanGroup) : (s.setPan g x).xch = s.xch := rfl
@[simp] theorem State.setPan_oc (g : Nat) (x : PanGroup) : (s.setPan g x).oc = s.oc := rfl
@[simp] theorem State.setPan_inCh (g : Nat) (x : PanGroup) : (s.setPan g x).inCh = s.inCh := rfl
@[simp] theorem State.setPan_outCh (g : Nat) (x : PanGroup) : (s.setPan g x).outCh = s.outCh := rfl
@[simp] theorem State.setPan_ports (g : Nat) (x : PanGroup) : (s.setPan g x).ports = s.ports := rfl
@[simp] theorem State.setPan_steer (g : Nat) (x : PanGroup) : (s.setPan g x).steer = s.steer := rfl
@[simp] theorem State.setPan_houseEdge (g : Nat) (x : PanGroup) : (s.setPan g x).houseEdge = s.houseEdge := rfl
@[simp] theorem State.setPan_splices (g : Nat) (x : PanGroup) : (s.setPan g x).splices = s.splices := rfl
@[simp] theorem State.setPan_spliceIds (g : Nat) (x : PanGroup) : (s.setPan g x).spliceIds = s.spliceIds := rfl
@[simp] theorem State.setPan_nodes (g : Nat) (x : PanGroup) : (s.setPan g x).nodes = s.nodes := rfl
@[simp] theorem State.setPan_edges (g : Nat) (x : PanGroup) : (s.setPan g x).edges = s.edges := rfl
@[simp] theorem State.setPan_firings (g : Nat) (x : PanGroup) : (s.setPan g x).firings = s.firings := rfl
@[simp] theorem State.setPan_fireSeq (g : Nat) (x : PanGroup) : (s.setPan g x).fireSeq = s.fireSeq := rfl
@[simp] theorem State.setPan_waitSeq (g : Nat) (x : PanGroup) : (s.setPan g x).waitSeq = s.waitSeq := rfl
@[simp] theorem State.setPan_rings (g : Nat) (x : PanGroup) : (s.setPan g x).rings = s.rings := rfl
@[simp] theorem State.setPan_paths (g : Nat) (x : PanGroup) : (s.setPan g x).paths = s.paths := rfl
@[simp] theorem State.setPan_convs (g : Nat) (x : PanGroup) : (s.setPan g x).convs = s.convs := rfl
@[simp] theorem State.setPan_panLog (g : Nat) (x : PanGroup) : (s.setPan g x).panLog = s.panLog := rfl
@[simp] theorem State.setPan_busy (g : Nat) (x : PanGroup) : (s.setPan g x).busy = s.busy := rfl
@[simp] theorem State.setPan_dma (g : Nat) (x : PanGroup) : (s.setPan g x).dma = s.dma := rfl
@[simp] theorem State.setPan_dmaArb (g : Nat) (x : PanGroup) : (s.setPan g x).dmaArb = s.dmaArb := rfl
@[simp] theorem State.setPan_dramClean (g : Nat) (x : PanGroup) : (s.setPan g x).dramClean = s.dramClean := rfl
@[simp] theorem State.setPan_dramErr (g : Nat) (x : PanGroup) : (s.setPan g x).dramErr = s.dramErr := rfl
@[simp] theorem State.setPan_handles (g : Nat) (x : PanGroup) : (s.setPan g x).handles = s.handles := rfl
@[simp] theorem State.setPan_gens (g : Nat) (x : PanGroup) : (s.setPan g x).gens = s.gens := rfl
@[simp] theorem State.setPan_records (g : Nat) (x : PanGroup) : (s.setPan g x).records = s.records := rfl
@[simp] theorem State.setPan_faultLog (g : Nat) (x : PanGroup) : (s.setPan g x).faultLog = s.faultLog := rfl
@[simp] theorem State.setPan_active (g : Nat) (x : PanGroup) : (s.setPan g x).active = s.active := rfl
@[simp] theorem State.setPan_onceKeys (g : Nat) (x : PanGroup) : (s.setPan g x).onceKeys = s.onceKeys := rfl
@[simp] theorem State.setPan_link (g : Nat) (x : PanGroup) : (s.setPan g x).link = s.link := rfl
@[simp] theorem State.setPan_codec (g : Nat) (x : PanGroup) : (s.setPan g x).codec = s.codec := rfl
@[simp] theorem State.setPan_can (g : Nat) (x : PanGroup) : (s.setPan g x).can = s.can := rfl
@[simp] theorem State.setPan_power (g : Nat) (x : PanGroup) : (s.setPan g x).power = s.power := rfl
@[simp] theorem State.setPan_boot (g : Nat) (x : PanGroup) : (s.setPan g x).boot = s.boot := rfl
@[simp] theorem State.setPan_flash (g : Nat) (x : PanGroup) : (s.setPan g x).flash = s.flash := rfl
@[simp] theorem State.setPan_snapshot (g : Nat) (x : PanGroup) : (s.setPan g x).snapshot = s.snapshot := rfl
@[simp] theorem State.setPan_slotImages (g : Nat) (x : PanGroup) : (s.setPan g x).slotImages = s.slotImages := rfl
@[simp] theorem State.setPan_service (g : Nat) (x : PanGroup) : (s.setPan g x).service = s.service := rfl
@[simp] theorem State.setPan_wdtSlate (g : Nat) (x : PanGroup) : (s.setPan g x).wdtSlate = s.wdtSlate := rfl
@[simp] theorem State.setPan_wdtFrom (g : Nat) (x : PanGroup) : (s.setPan g x).wdtFrom = s.wdtFrom := rfl
@[simp] theorem State.setPan_fresh (g : Nat) (x : PanGroup) : (s.setPan g x).fresh = s.fresh := rfl
@[simp] theorem State.setPan_rd (g : Nat) (x : PanGroup) (reg : Reg) : (s.setPan g x).rd reg = s.rd reg := rfl
@[simp] theorem State.setPan_lane (g : Nat) (x : PanGroup) (k : Nat) : (s.setPan g x).lane k = s.lane k := rfl
@[simp] theorem State.setPan_core (g : Nat) (x : PanGroup) (k : Nat) : (s.setPan g x).core k = s.core k := rfl
@[simp] theorem State.setPan_inchan (g : Nat) (x : PanGroup) (k : Nat) : (s.setPan g x).inchan k = s.inchan k := rfl
@[simp] theorem State.setPan_outchan (g : Nat) (x : PanGroup) (k : Nat) : (s.setPan g x).outchan k = s.outchan k := rfl
@[simp] theorem State.setPan_port (g : Nat) (x : PanGroup) (k : Nat) : (s.setPan g x).port k = s.port k := rfl
@[simp] theorem State.setPan_node (g : Nat) (x : PanGroup) (k : Nat) : (s.setPan g x).node k = s.node k := rfl
@[simp] theorem State.setPan_edge (g : Nat) (x : PanGroup) (k : Nat) : (s.setPan g x).edge k = s.edge k := rfl
@[simp] theorem State.setPan_ring (g : Nat) (x : PanGroup) (k : Nat) : (s.setPan g x).ring k = s.ring k := rfl
@[simp] theorem State.setPan_path (g : Nat) (x : PanGroup) (k : Nat) : (s.setPan g x).path k = s.path k := rfl
@[simp] theorem State.setPan_conv (g : Nat) (x : PanGroup) (k : Nat) : (s.setPan g x).conv k = s.conv k := rfl
@[simp] theorem State.setPan_dmaCh (g : Nat) (x : PanGroup) (k : Nat) : (s.setPan g x).dmaCh k = s.dmaCh k := rfl
@[simp] theorem State.setPan_memWord (g : Nat) (x : PanGroup) (k : Nat) : (s.setPan g x).memWord k = s.memWord k := rfl

/-! ## setDma -/

@[simp] theorem State.setDma_pending (ch : Nat) (x : DmaChan) : (s.setDma ch x).pending = s.pending := rfl
@[simp] theorem State.setDma_od (ch : Nat) (x : DmaChan) : (s.setDma ch x).od = s.od := rfl
@[simp] theorem State.setDma_answers (ch : Nat) (x : DmaChan) : (s.setDma ch x).answers = s.answers := rfl
@[simp] theorem State.setDma_mem (ch : Nat) (x : DmaChan) : (s.setDma ch x).mem = s.mem := rfl
@[simp] theorem State.setDma_slate (ch : Nat) (x : DmaChan) : (s.setDma ch x).slate = s.slate := rfl
@[simp] theorem State.setDma_lanes (ch : Nat) (x : DmaChan) : (s.setDma ch x).lanes = s.lanes := rfl
@[simp] theorem State.setDma_cores (ch : Nat) (x : DmaChan) : (s.setDma ch x).cores = s.cores := rfl
@[simp] theorem State.setDma_xch (ch : Nat) (x : DmaChan) : (s.setDma ch x).xch = s.xch := rfl
@[simp] theorem State.setDma_oc (ch : Nat) (x : DmaChan) : (s.setDma ch x).oc = s.oc := rfl
@[simp] theorem State.setDma_inCh (ch : Nat) (x : DmaChan) : (s.setDma ch x).inCh = s.inCh := rfl
@[simp] theorem State.setDma_outCh (ch : Nat) (x : DmaChan) : (s.setDma ch x).outCh = s.outCh := rfl
@[simp] theorem State.setDma_ports (ch : Nat) (x : DmaChan) : (s.setDma ch x).ports = s.ports := rfl
@[simp] theorem State.setDma_steer (ch : Nat) (x : DmaChan) : (s.setDma ch x).steer = s.steer := rfl
@[simp] theorem State.setDma_houseEdge (ch : Nat) (x : DmaChan) : (s.setDma ch x).houseEdge = s.houseEdge := rfl
@[simp] theorem State.setDma_splices (ch : Nat) (x : DmaChan) : (s.setDma ch x).splices = s.splices := rfl
@[simp] theorem State.setDma_spliceIds (ch : Nat) (x : DmaChan) : (s.setDma ch x).spliceIds = s.spliceIds := rfl
@[simp] theorem State.setDma_nodes (ch : Nat) (x : DmaChan) : (s.setDma ch x).nodes = s.nodes := rfl
@[simp] theorem State.setDma_edges (ch : Nat) (x : DmaChan) : (s.setDma ch x).edges = s.edges := rfl
@[simp] theorem State.setDma_firings (ch : Nat) (x : DmaChan) : (s.setDma ch x).firings = s.firings := rfl
@[simp] theorem State.setDma_fireSeq (ch : Nat) (x : DmaChan) : (s.setDma ch x).fireSeq = s.fireSeq := rfl
@[simp] theorem State.setDma_waitSeq (ch : Nat) (x : DmaChan) : (s.setDma ch x).waitSeq = s.waitSeq := rfl
@[simp] theorem State.setDma_rings (ch : Nat) (x : DmaChan) : (s.setDma ch x).rings = s.rings := rfl
@[simp] theorem State.setDma_paths (ch : Nat) (x : DmaChan) : (s.setDma ch x).paths = s.paths := rfl
@[simp] theorem State.setDma_convs (ch : Nat) (x : DmaChan) : (s.setDma ch x).convs = s.convs := rfl
@[simp] theorem State.setDma_pans (ch : Nat) (x : DmaChan) : (s.setDma ch x).pans = s.pans := rfl
@[simp] theorem State.setDma_panLog (ch : Nat) (x : DmaChan) : (s.setDma ch x).panLog = s.panLog := rfl
@[simp] theorem State.setDma_busy (ch : Nat) (x : DmaChan) : (s.setDma ch x).busy = s.busy := rfl
@[simp] theorem State.setDma_dmaArb (ch : Nat) (x : DmaChan) : (s.setDma ch x).dmaArb = s.dmaArb := rfl
@[simp] theorem State.setDma_dramClean (ch : Nat) (x : DmaChan) : (s.setDma ch x).dramClean = s.dramClean := rfl
@[simp] theorem State.setDma_dramErr (ch : Nat) (x : DmaChan) : (s.setDma ch x).dramErr = s.dramErr := rfl
@[simp] theorem State.setDma_handles (ch : Nat) (x : DmaChan) : (s.setDma ch x).handles = s.handles := rfl
@[simp] theorem State.setDma_gens (ch : Nat) (x : DmaChan) : (s.setDma ch x).gens = s.gens := rfl
@[simp] theorem State.setDma_records (ch : Nat) (x : DmaChan) : (s.setDma ch x).records = s.records := rfl
@[simp] theorem State.setDma_faultLog (ch : Nat) (x : DmaChan) : (s.setDma ch x).faultLog = s.faultLog := rfl
@[simp] theorem State.setDma_active (ch : Nat) (x : DmaChan) : (s.setDma ch x).active = s.active := rfl
@[simp] theorem State.setDma_onceKeys (ch : Nat) (x : DmaChan) : (s.setDma ch x).onceKeys = s.onceKeys := rfl
@[simp] theorem State.setDma_link (ch : Nat) (x : DmaChan) : (s.setDma ch x).link = s.link := rfl
@[simp] theorem State.setDma_codec (ch : Nat) (x : DmaChan) : (s.setDma ch x).codec = s.codec := rfl
@[simp] theorem State.setDma_can (ch : Nat) (x : DmaChan) : (s.setDma ch x).can = s.can := rfl
@[simp] theorem State.setDma_power (ch : Nat) (x : DmaChan) : (s.setDma ch x).power = s.power := rfl
@[simp] theorem State.setDma_boot (ch : Nat) (x : DmaChan) : (s.setDma ch x).boot = s.boot := rfl
@[simp] theorem State.setDma_flash (ch : Nat) (x : DmaChan) : (s.setDma ch x).flash = s.flash := rfl
@[simp] theorem State.setDma_snapshot (ch : Nat) (x : DmaChan) : (s.setDma ch x).snapshot = s.snapshot := rfl
@[simp] theorem State.setDma_slotImages (ch : Nat) (x : DmaChan) : (s.setDma ch x).slotImages = s.slotImages := rfl
@[simp] theorem State.setDma_service (ch : Nat) (x : DmaChan) : (s.setDma ch x).service = s.service := rfl
@[simp] theorem State.setDma_wdtSlate (ch : Nat) (x : DmaChan) : (s.setDma ch x).wdtSlate = s.wdtSlate := rfl
@[simp] theorem State.setDma_wdtFrom (ch : Nat) (x : DmaChan) : (s.setDma ch x).wdtFrom = s.wdtFrom := rfl
@[simp] theorem State.setDma_fresh (ch : Nat) (x : DmaChan) : (s.setDma ch x).fresh = s.fresh := rfl
@[simp] theorem State.setDma_rd (ch : Nat) (x : DmaChan) (reg : Reg) : (s.setDma ch x).rd reg = s.rd reg := rfl
@[simp] theorem State.setDma_lane (ch : Nat) (x : DmaChan) (k : Nat) : (s.setDma ch x).lane k = s.lane k := rfl
@[simp] theorem State.setDma_core (ch : Nat) (x : DmaChan) (k : Nat) : (s.setDma ch x).core k = s.core k := rfl
@[simp] theorem State.setDma_inchan (ch : Nat) (x : DmaChan) (k : Nat) : (s.setDma ch x).inchan k = s.inchan k := rfl
@[simp] theorem State.setDma_outchan (ch : Nat) (x : DmaChan) (k : Nat) : (s.setDma ch x).outchan k = s.outchan k := rfl
@[simp] theorem State.setDma_port (ch : Nat) (x : DmaChan) (k : Nat) : (s.setDma ch x).port k = s.port k := rfl
@[simp] theorem State.setDma_node (ch : Nat) (x : DmaChan) (k : Nat) : (s.setDma ch x).node k = s.node k := rfl
@[simp] theorem State.setDma_edge (ch : Nat) (x : DmaChan) (k : Nat) : (s.setDma ch x).edge k = s.edge k := rfl
@[simp] theorem State.setDma_ring (ch : Nat) (x : DmaChan) (k : Nat) : (s.setDma ch x).ring k = s.ring k := rfl
@[simp] theorem State.setDma_path (ch : Nat) (x : DmaChan) (k : Nat) : (s.setDma ch x).path k = s.path k := rfl
@[simp] theorem State.setDma_conv (ch : Nat) (x : DmaChan) (k : Nat) : (s.setDma ch x).conv k = s.conv k := rfl
@[simp] theorem State.setDma_pan (ch : Nat) (x : DmaChan) (k : Nat) : (s.setDma ch x).pan k = s.pan k := rfl
@[simp] theorem State.setDma_memWord (ch : Nat) (x : DmaChan) (k : Nat) : (s.setDma ch x).memWord k = s.memWord k := rfl

/-! ## setMemWord -/

@[simp] theorem State.setMemWord_pending (a : Nat) (w : Word) : (s.setMemWord a w).pending = s.pending := rfl
@[simp] theorem State.setMemWord_od (a : Nat) (w : Word) : (s.setMemWord a w).od = s.od := rfl
@[simp] theorem State.setMemWord_answers (a : Nat) (w : Word) : (s.setMemWord a w).answers = s.answers := rfl
@[simp] theorem State.setMemWord_slate (a : Nat) (w : Word) : (s.setMemWord a w).slate = s.slate := rfl
@[simp] theorem State.setMemWord_lanes (a : Nat) (w : Word) : (s.setMemWord a w).lanes = s.lanes := rfl
@[simp] theorem State.setMemWord_cores (a : Nat) (w : Word) : (s.setMemWord a w).cores = s.cores := rfl
@[simp] theorem State.setMemWord_xch (a : Nat) (w : Word) : (s.setMemWord a w).xch = s.xch := rfl
@[simp] theorem State.setMemWord_oc (a : Nat) (w : Word) : (s.setMemWord a w).oc = s.oc := rfl
@[simp] theorem State.setMemWord_inCh (a : Nat) (w : Word) : (s.setMemWord a w).inCh = s.inCh := rfl
@[simp] theorem State.setMemWord_outCh (a : Nat) (w : Word) : (s.setMemWord a w).outCh = s.outCh := rfl
@[simp] theorem State.setMemWord_ports (a : Nat) (w : Word) : (s.setMemWord a w).ports = s.ports := rfl
@[simp] theorem State.setMemWord_steer (a : Nat) (w : Word) : (s.setMemWord a w).steer = s.steer := rfl
@[simp] theorem State.setMemWord_houseEdge (a : Nat) (w : Word) : (s.setMemWord a w).houseEdge = s.houseEdge := rfl
@[simp] theorem State.setMemWord_splices (a : Nat) (w : Word) : (s.setMemWord a w).splices = s.splices := rfl
@[simp] theorem State.setMemWord_spliceIds (a : Nat) (w : Word) : (s.setMemWord a w).spliceIds = s.spliceIds := rfl
@[simp] theorem State.setMemWord_nodes (a : Nat) (w : Word) : (s.setMemWord a w).nodes = s.nodes := rfl
@[simp] theorem State.setMemWord_edges (a : Nat) (w : Word) : (s.setMemWord a w).edges = s.edges := rfl
@[simp] theorem State.setMemWord_firings (a : Nat) (w : Word) : (s.setMemWord a w).firings = s.firings := rfl
@[simp] theorem State.setMemWord_fireSeq (a : Nat) (w : Word) : (s.setMemWord a w).fireSeq = s.fireSeq := rfl
@[simp] theorem State.setMemWord_waitSeq (a : Nat) (w : Word) : (s.setMemWord a w).waitSeq = s.waitSeq := rfl
@[simp] theorem State.setMemWord_rings (a : Nat) (w : Word) : (s.setMemWord a w).rings = s.rings := rfl
@[simp] theorem State.setMemWord_paths (a : Nat) (w : Word) : (s.setMemWord a w).paths = s.paths := rfl
@[simp] theorem State.setMemWord_convs (a : Nat) (w : Word) : (s.setMemWord a w).convs = s.convs := rfl
@[simp] theorem State.setMemWord_pans (a : Nat) (w : Word) : (s.setMemWord a w).pans = s.pans := rfl
@[simp] theorem State.setMemWord_panLog (a : Nat) (w : Word) : (s.setMemWord a w).panLog = s.panLog := rfl
@[simp] theorem State.setMemWord_busy (a : Nat) (w : Word) : (s.setMemWord a w).busy = s.busy := rfl
@[simp] theorem State.setMemWord_dma (a : Nat) (w : Word) : (s.setMemWord a w).dma = s.dma := rfl
@[simp] theorem State.setMemWord_dmaArb (a : Nat) (w : Word) : (s.setMemWord a w).dmaArb = s.dmaArb := rfl
@[simp] theorem State.setMemWord_dramClean (a : Nat) (w : Word) : (s.setMemWord a w).dramClean = s.dramClean := rfl
@[simp] theorem State.setMemWord_dramErr (a : Nat) (w : Word) : (s.setMemWord a w).dramErr = s.dramErr := rfl
@[simp] theorem State.setMemWord_handles (a : Nat) (w : Word) : (s.setMemWord a w).handles = s.handles := rfl
@[simp] theorem State.setMemWord_gens (a : Nat) (w : Word) : (s.setMemWord a w).gens = s.gens := rfl
@[simp] theorem State.setMemWord_records (a : Nat) (w : Word) : (s.setMemWord a w).records = s.records := rfl
@[simp] theorem State.setMemWord_faultLog (a : Nat) (w : Word) : (s.setMemWord a w).faultLog = s.faultLog := rfl
@[simp] theorem State.setMemWord_active (a : Nat) (w : Word) : (s.setMemWord a w).active = s.active := rfl
@[simp] theorem State.setMemWord_onceKeys (a : Nat) (w : Word) : (s.setMemWord a w).onceKeys = s.onceKeys := rfl
@[simp] theorem State.setMemWord_link (a : Nat) (w : Word) : (s.setMemWord a w).link = s.link := rfl
@[simp] theorem State.setMemWord_codec (a : Nat) (w : Word) : (s.setMemWord a w).codec = s.codec := rfl
@[simp] theorem State.setMemWord_can (a : Nat) (w : Word) : (s.setMemWord a w).can = s.can := rfl
@[simp] theorem State.setMemWord_power (a : Nat) (w : Word) : (s.setMemWord a w).power = s.power := rfl
@[simp] theorem State.setMemWord_boot (a : Nat) (w : Word) : (s.setMemWord a w).boot = s.boot := rfl
@[simp] theorem State.setMemWord_flash (a : Nat) (w : Word) : (s.setMemWord a w).flash = s.flash := rfl
@[simp] theorem State.setMemWord_snapshot (a : Nat) (w : Word) : (s.setMemWord a w).snapshot = s.snapshot := rfl
@[simp] theorem State.setMemWord_slotImages (a : Nat) (w : Word) : (s.setMemWord a w).slotImages = s.slotImages := rfl
@[simp] theorem State.setMemWord_service (a : Nat) (w : Word) : (s.setMemWord a w).service = s.service := rfl
@[simp] theorem State.setMemWord_wdtSlate (a : Nat) (w : Word) : (s.setMemWord a w).wdtSlate = s.wdtSlate := rfl
@[simp] theorem State.setMemWord_wdtFrom (a : Nat) (w : Word) : (s.setMemWord a w).wdtFrom = s.wdtFrom := rfl
@[simp] theorem State.setMemWord_fresh (a : Nat) (w : Word) : (s.setMemWord a w).fresh = s.fresh := rfl
@[simp] theorem State.setMemWord_rd (a : Nat) (w : Word) (reg : Reg) : (s.setMemWord a w).rd reg = s.rd reg := rfl
@[simp] theorem State.setMemWord_lane (a : Nat) (w : Word) (k : Nat) : (s.setMemWord a w).lane k = s.lane k := rfl
@[simp] theorem State.setMemWord_core (a : Nat) (w : Word) (k : Nat) : (s.setMemWord a w).core k = s.core k := rfl
@[simp] theorem State.setMemWord_inchan (a : Nat) (w : Word) (k : Nat) : (s.setMemWord a w).inchan k = s.inchan k := rfl
@[simp] theorem State.setMemWord_outchan (a : Nat) (w : Word) (k : Nat) : (s.setMemWord a w).outchan k = s.outchan k := rfl
@[simp] theorem State.setMemWord_port (a : Nat) (w : Word) (k : Nat) : (s.setMemWord a w).port k = s.port k := rfl
@[simp] theorem State.setMemWord_node (a : Nat) (w : Word) (k : Nat) : (s.setMemWord a w).node k = s.node k := rfl
@[simp] theorem State.setMemWord_edge (a : Nat) (w : Word) (k : Nat) : (s.setMemWord a w).edge k = s.edge k := rfl
@[simp] theorem State.setMemWord_ring (a : Nat) (w : Word) (k : Nat) : (s.setMemWord a w).ring k = s.ring k := rfl
@[simp] theorem State.setMemWord_path (a : Nat) (w : Word) (k : Nat) : (s.setMemWord a w).path k = s.path k := rfl
@[simp] theorem State.setMemWord_conv (a : Nat) (w : Word) (k : Nat) : (s.setMemWord a w).conv k = s.conv k := rfl
@[simp] theorem State.setMemWord_pan (a : Nat) (w : Word) (k : Nat) : (s.setMemWord a w).pan k = s.pan k := rfl
@[simp] theorem State.setMemWord_dmaCh (a : Nat) (w : Word) (k : Nat) : (s.setMemWord a w).dmaCh k = s.dmaCh k := rfl

/-! ## The field that an update writes -/

theorem State.rd_wr_self {s : State} (r : Reg) (v : Nat) (h : rising s.od = true) : (s.wr r v).rd r = v :=
  get_set_rising r.dflt r.key v h

theorem State.rd_wr_ne (s : State) {r q : Reg} (v : Nat) (h : q.key ≠ r.key) : (s.wr r v).rd q = s.rd q :=
  get_set_ne_any s.od r.dflt q.dflt v h

theorem State.lane_setLane_self {s : State} (n : Nat) (l : Lane) (h : Map.wf {} s.lanes = true) : (s.setLane n l).lane n = l :=
  Map.get_set_self n l h

@[simp] theorem State.lane_setLane_ne (s : State) {n k : Nat} (l : Lane) (h : k ≠ n) : (s.setLane n l).lane k = s.lane k :=
  Map.get_set_ne l h

theorem State.lane_setLane_get {s : State} (n : Nat) (h : Map.wf {} s.lanes = true) : s.setLane n (s.lane n) = s := by
  unfold State.setLane State.lane; rw [Map.set_get n h]

theorem State.setLane_lane_twice {s : State} (n : Nat) (l z : Lane) (h : Map.wf {} s.lanes = true) :
    (s.setLane n l).setLane n z = s.setLane n z := by
  unfold State.setLane; simp only [Map.set_set n l z h]

theorem State.core_setCore_self {s : State} (c : Nat) (x : Core) (h : Map.wf {} s.cores = true) : (s.setCore c x).core c = x :=
  Map.get_set_self c x h

@[simp] theorem State.core_setCore_ne (s : State) {c k : Nat} (x : Core) (h : k ≠ c) : (s.setCore c x).core k = s.core k :=
  Map.get_set_ne x h

theorem State.core_setCore_get {s : State} (c : Nat) (h : Map.wf {} s.cores = true) : s.setCore c (s.core c) = s := by
  unfold State.setCore State.core; rw [Map.set_get c h]

theorem State.setCore_core_twice {s : State} (c : Nat) (x z : Core) (h : Map.wf {} s.cores = true) :
    (s.setCore c x).setCore c z = s.setCore c z := by
  unfold State.setCore; simp only [Map.set_set c x z h]

theorem State.inchan_setInchan_self {s : State} (c : Nat) (x : InChan) (h : Map.wf {} s.inCh = true) : (s.setInchan c x).inchan c = x :=
  Map.get_set_self c x h

@[simp] theorem State.inchan_setInchan_ne (s : State) {c k : Nat} (x : InChan) (h : k ≠ c) : (s.setInchan c x).inchan k = s.inchan k :=
  Map.get_set_ne x h

theorem State.inchan_setInchan_get {s : State} (c : Nat) (h : Map.wf {} s.inCh = true) : s.setInchan c (s.inchan c) = s := by
  unfold State.setInchan State.inchan; rw [Map.set_get c h]

theorem State.setInchan_inchan_twice {s : State} (c : Nat) (x z : InChan) (h : Map.wf {} s.inCh = true) :
    (s.setInchan c x).setInchan c z = s.setInchan c z := by
  unfold State.setInchan; simp only [Map.set_set c x z h]

theorem State.outchan_setOutchan_self {s : State} (c : Nat) (x : OutChan) (h : rising s.outCh = true) : (s.setOutchan c x).outchan c = x :=
  get_set_rising (outDefault c) c x h

@[simp] theorem State.outchan_setOutchan_ne (s : State) {c k : Nat} (x : OutChan) (h : k ≠ c) : (s.setOutchan c x).outchan k = s.outchan k :=
  get_set_ne_any s.outCh (outDefault c) (outDefault k) x h

theorem State.port_setPort_self {s : State} (g : Nat) (x : Port) (h : Map.wf {} s.ports = true) : (s.setPort g x).port g = x :=
  Map.get_set_self g x h

@[simp] theorem State.port_setPort_ne (s : State) {g k : Nat} (x : Port) (h : k ≠ g) : (s.setPort g x).port k = s.port k :=
  Map.get_set_ne x h

theorem State.port_setPort_get {s : State} (g : Nat) (h : Map.wf {} s.ports = true) : s.setPort g (s.port g) = s := by
  unfold State.setPort State.port; rw [Map.set_get g h]

theorem State.setPort_port_twice {s : State} (g : Nat) (x z : Port) (h : Map.wf {} s.ports = true) :
    (s.setPort g x).setPort g z = s.setPort g z := by
  unfold State.setPort; simp only [Map.set_set g x z h]

theorem State.node_setNode_self {s : State} (i : Nat) (x : Node) (h : Map.wf {} s.nodes = true) : (s.setNode i x).node i = x :=
  Map.get_set_self i x h

@[simp] theorem State.node_setNode_ne (s : State) {i k : Nat} (x : Node) (h : k ≠ i) : (s.setNode i x).node k = s.node k :=
  Map.get_set_ne x h

theorem State.node_setNode_get {s : State} (i : Nat) (h : Map.wf {} s.nodes = true) : s.setNode i (s.node i) = s := by
  unfold State.setNode State.node; rw [Map.set_get i h]

theorem State.setNode_node_twice {s : State} (i : Nat) (x z : Node) (h : Map.wf {} s.nodes = true) :
    (s.setNode i x).setNode i z = s.setNode i z := by
  unfold State.setNode; simp only [Map.set_set i x z h]

theorem State.edge_setEdge_self {s : State} (e : Nat) (x : Edge) (h : Map.wf {} s.edges = true) : (s.setEdge e x).edge e = x :=
  Map.get_set_self e x h

@[simp] theorem State.edge_setEdge_ne (s : State) {e k : Nat} (x : Edge) (h : k ≠ e) : (s.setEdge e x).edge k = s.edge k :=
  Map.get_set_ne x h

theorem State.edge_setEdge_get {s : State} (e : Nat) (h : Map.wf {} s.edges = true) : s.setEdge e (s.edge e) = s := by
  unfold State.setEdge State.edge; rw [Map.set_get e h]

theorem State.setEdge_edge_twice {s : State} (e : Nat) (x z : Edge) (h : Map.wf {} s.edges = true) :
    (s.setEdge e x).setEdge e z = s.setEdge e z := by
  unfold State.setEdge; simp only [Map.set_set e x z h]

theorem State.ring_setRing_self {s : State} (r : Nat) (x : RingPair) (h : Map.wf {} s.rings = true) : (s.setRing r x).ring r = x :=
  Map.get_set_self r x h

@[simp] theorem State.ring_setRing_ne (s : State) {r k : Nat} (x : RingPair) (h : k ≠ r) : (s.setRing r x).ring k = s.ring k :=
  Map.get_set_ne x h

theorem State.ring_setRing_get {s : State} (r : Nat) (h : Map.wf {} s.rings = true) : s.setRing r (s.ring r) = s := by
  unfold State.setRing State.ring; rw [Map.set_get r h]

theorem State.setRing_ring_twice {s : State} (r : Nat) (x z : RingPair) (h : Map.wf {} s.rings = true) :
    (s.setRing r x).setRing r z = s.setRing r z := by
  unfold State.setRing; simp only [Map.set_set r x z h]

theorem State.path_setPath_self {s : State} (q : Nat) (x : ConvPath) (h : Map.wf {} s.paths = true) : (s.setPath q x).path q = x :=
  Map.get_set_self q x h

@[simp] theorem State.path_setPath_ne (s : State) {q k : Nat} (x : ConvPath) (h : k ≠ q) : (s.setPath q x).path k = s.path k :=
  Map.get_set_ne x h

theorem State.path_setPath_get {s : State} (q : Nat) (h : Map.wf {} s.paths = true) : s.setPath q (s.path q) = s := by
  unfold State.setPath State.path; rw [Map.set_get q h]

theorem State.setPath_path_twice {s : State} (q : Nat) (x z : ConvPath) (h : Map.wf {} s.paths = true) :
    (s.setPath q x).setPath q z = s.setPath q z := by
  unfold State.setPath; simp only [Map.set_set q x z h]

theorem State.conv_setConv_self {s : State} (v : Nat) (x : Converter) (h : Map.wf {} s.convs = true) : (s.setConv v x).conv v = x :=
  Map.get_set_self v x h

@[simp] theorem State.conv_setConv_ne (s : State) {v k : Nat} (x : Converter) (h : k ≠ v) : (s.setConv v x).conv k = s.conv k :=
  Map.get_set_ne x h

theorem State.conv_setConv_get {s : State} (v : Nat) (h : Map.wf {} s.convs = true) : s.setConv v (s.conv v) = s := by
  unfold State.setConv State.conv; rw [Map.set_get v h]

theorem State.setConv_conv_twice {s : State} (v : Nat) (x z : Converter) (h : Map.wf {} s.convs = true) :
    (s.setConv v x).setConv v z = s.setConv v z := by
  unfold State.setConv; simp only [Map.set_set v x z h]

theorem State.pan_setPan_self {s : State} (g : Nat) (x : PanGroup) (h : Map.wf {} s.pans = true) : (s.setPan g x).pan g = x :=
  Map.get_set_self g x h

@[simp] theorem State.pan_setPan_ne (s : State) {g k : Nat} (x : PanGroup) (h : k ≠ g) : (s.setPan g x).pan k = s.pan k :=
  Map.get_set_ne x h

theorem State.pan_setPan_get {s : State} (g : Nat) (h : Map.wf {} s.pans = true) : s.setPan g (s.pan g) = s := by
  unfold State.setPan State.pan; rw [Map.set_get g h]

theorem State.setPan_pan_twice {s : State} (g : Nat) (x z : PanGroup) (h : Map.wf {} s.pans = true) :
    (s.setPan g x).setPan g z = s.setPan g z := by
  unfold State.setPan; simp only [Map.set_set g x z h]

theorem State.dmaCh_setDma_self {s : State} (ch : Nat) (x : DmaChan) (h : Map.wf {} s.dma = true) : (s.setDma ch x).dmaCh ch = x :=
  Map.get_set_self ch x h

@[simp] theorem State.dmaCh_setDma_ne (s : State) {ch k : Nat} (x : DmaChan) (h : k ≠ ch) : (s.setDma ch x).dmaCh k = s.dmaCh k :=
  Map.get_set_ne x h

theorem State.dmaCh_setDma_get {s : State} (ch : Nat) (h : Map.wf {} s.dma = true) : s.setDma ch (s.dmaCh ch) = s := by
  unfold State.setDma State.dmaCh; rw [Map.set_get ch h]

theorem State.setDma_dmaCh_twice {s : State} (ch : Nat) (x z : DmaChan) (h : Map.wf {} s.dma = true) :
    (s.setDma ch x).setDma ch z = s.setDma ch z := by
  unfold State.setDma; simp only [Map.set_set ch x z h]

end Sys2Proof.Machine
end

