-- ==== Sys2Proof/Laws/Tidy.lean ====
section
/-! SUPPORT. The canonical form of the whole state (Safety.lean) through each named update and each shared operation. -/

namespace Sys2Proof.Machine

/-- The canonical form, part by part. -/
structure Tidy (s : State) : Prop where

  mem : Memory.wf s.mem = true
  od : rising s.od = true
  answers : Map.wf {} s.answers = true
  lanes : Map.wf {} s.lanes = true
  cores : Map.wf {} s.cores = true
  oc : Map.wf 0 s.oc = true
  inCh : Map.wf {} s.inCh = true
  outCh : rising s.outCh = true
  ports : Map.wf {} s.ports = true
  nodes : Map.wf {} s.nodes = true
  edges : Map.wf {} s.edges = true
  paths : Map.wf {} s.paths = true
  convs : Map.wf {} s.convs = true
  pans : Map.wf {} s.pans = true
  dma : Map.wf {} s.dma = true
  gens : Map.wf 0 s.gens = true
  records : rising s.records = true
  faultLog : rising s.faultLog = true
  rings : Map.wf {} s.rings = true
  fw : rising s.flash.fw = true
  shows : rising s.flash.shows = true
  flashA : rising s.flash.setA = true
  flashB : rising s.flash.setB = true
  snapshot : rising s.snapshot = true
  slotImages : rising s.slotImages = true
  dramErr : Map.wf 0 s.dramErr = true

theorem tidy_iff (s : State) : s.tidy = true ↔ Tidy s := by
  simp only [State.tidy, Bool.and_eq_true]
  refine ⟨fun h => ?_, fun h => ?_⟩
  · obtain ⟨⟨⟨⟨⟨⟨⟨⟨⟨⟨⟨⟨⟨⟨⟨⟨⟨⟨⟨⟨⟨⟨⟨⟨⟨h0, h1⟩, h2⟩, h3⟩, h4⟩, h5⟩, h6⟩, h7⟩, h8⟩, h9⟩, h10⟩, h11⟩, h12⟩, h13⟩, h14⟩, h15⟩, h16⟩, h17⟩, h18⟩, h19⟩, h20⟩, h21⟩, h22⟩, h23⟩, h24⟩, h25⟩ := h
    exact ⟨h0, h1, h2, h3, h4, h5, h6, h7, h8, h9, h10, h11, h12, h13, h14, h15, h16, h17, h18, h19, h20, h21, h22, h23, h24, h25⟩
  · exact ⟨⟨⟨⟨⟨⟨⟨⟨⟨⟨⟨⟨⟨⟨⟨⟨⟨⟨⟨⟨⟨⟨⟨⟨⟨h.mem, h.od⟩, h.answers⟩, h.lanes⟩, h.cores⟩, h.oc⟩, h.inCh⟩, h.outCh⟩, h.ports⟩, h.nodes⟩, h.edges⟩, h.paths⟩, h.convs⟩, h.pans⟩, h.dma⟩, h.gens⟩, h.records⟩, h.faultLog⟩, h.rings⟩, h.fw⟩, h.shows⟩, h.flashA⟩, h.flashB⟩, h.snapshot⟩, h.slotImages⟩, h.dramErr⟩

theorem tidy_wr {s : State} (r : Reg) (v : Nat) (h : s.tidy = true) : (s.wr r v).tidy = true :=
  (tidy_iff _).2 { (tidy_iff _).1 h with od := rising_set _ _ _ ((tidy_iff _).1 h).od }

theorem tidy_setLane {s : State} (n : Nat) (l : Lane) (h : s.tidy = true) : (s.setLane n l).tidy = true :=
  (tidy_iff _).2 { (tidy_iff _).1 h with lanes := Map.wf_set _ _ ((tidy_iff _).1 h).lanes }

theorem tidy_setCore {s : State} (c : Nat) (x : Core) (h : s.tidy = true) : (s.setCore c x).tidy = true :=
  (tidy_iff _).2 { (tidy_iff _).1 h with cores := Map.wf_set _ _ ((tidy_iff _).1 h).cores }

theorem tidy_setInchan {s : State} (c : Nat) (x : InChan) (h : s.tidy = true) : (s.setInchan c x).tidy = true :=
  (tidy_iff _).2 { (tidy_iff _).1 h with inCh := Map.wf_set _ _ ((tidy_iff _).1 h).inCh }

theorem tidy_setOutchan {s : State} (c : Nat) (x : OutChan) (h : s.tidy = true) : (s.setOutchan c x).tidy = true :=
  (tidy_iff _).2 { (tidy_iff _).1 h with outCh := rising_set _ _ _ ((tidy_iff _).1 h).outCh }

theorem tidy_setPort {s : State} (g : Nat) (x : Port) (h : s.tidy = true) : (s.setPort g x).tidy = true :=
  (tidy_iff _).2 { (tidy_iff _).1 h with ports := Map.wf_set _ _ ((tidy_iff _).1 h).ports }

theorem tidy_setNode {s : State} (i : Nat) (x : Node) (h : s.tidy = true) : (s.setNode i x).tidy = true :=
  (tidy_iff _).2 { (tidy_iff _).1 h with nodes := Map.wf_set _ _ ((tidy_iff _).1 h).nodes }

theorem tidy_setEdge {s : State} (e : Nat) (x : Edge) (h : s.tidy = true) : (s.setEdge e x).tidy = true :=
  (tidy_iff _).2 { (tidy_iff _).1 h with edges := Map.wf_set _ _ ((tidy_iff _).1 h).edges }

theorem tidy_setRing {s : State} (r : Nat) (x : RingPair) (h : s.tidy = true) : (s.setRing r x).tidy = true :=
  (tidy_iff _).2 { (tidy_iff _).1 h with rings := Map.wf_set _ _ ((tidy_iff _).1 h).rings }

theorem tidy_setPath {s : State} (q : Nat) (x : ConvPath) (h : s.tidy = true) : (s.setPath q x).tidy = true :=
  (tidy_iff _).2 { (tidy_iff _).1 h with paths := Map.wf_set _ _ ((tidy_iff _).1 h).paths }

theorem tidy_setConv {s : State} (v : Nat) (x : Converter) (h : s.tidy = true) : (s.setConv v x).tidy = true :=
  (tidy_iff _).2 { (tidy_iff _).1 h with convs := Map.wf_set _ _ ((tidy_iff _).1 h).convs }

theorem tidy_setPan {s : State} (g : Nat) (x : PanGroup) (h : s.tidy = true) : (s.setPan g x).tidy = true :=
  (tidy_iff _).2 { (tidy_iff _).1 h with pans := Map.wf_set _ _ ((tidy_iff _).1 h).pans }

theorem tidy_setDma {s : State} (ch : Nat) (x : DmaChan) (h : s.tidy = true) : (s.setDma ch x).tidy = true :=
  (tidy_iff _).2 { (tidy_iff _).1 h with dma := Map.wf_set _ _ ((tidy_iff _).1 h).dma }

theorem tidy_setMemWord {s : State} (a : Nat) (w : Word) (h : s.tidy = true) : (s.setMemWord a w).tidy = true :=
  (tidy_iff _).2 { (tidy_iff _).1 h with mem := writeWord_wf _ _ ((tidy_iff _).1 h).mem }

end Sys2Proof.Machine
end

