-- ==== Sys2Proof/Laws/Ops.lean ====
section
/-! SUPPORT. What the shared operations on registers, faults and interrupts can do, said once: a fault touches the object store, the
fault log with its flags and keys, the interrupt bits of the link and of the cores, and the CAN queue, and nothing else. -/

namespace Sys2Proof.Machine

/-! ## Repetition over lists and ranges -/

/-- What each change of a list keeps, all of them keep. -/
theorem forList_keep {α : Type} (P : State → Prop) (l : List α) (f : α → State → State) (h : ∀ x ∈ l, ∀ s, P s → P (f x s)) (s : State)
    (hs : P s) : P (forList l f s) := by
  induction l generalizing s with
  | nil => exact hs
  | cons x l ih => exact ih (fun y hy => h y (List.mem_cons_of_mem x hy)) (f x s) (h x List.mem_cons_self s hs)

theorem forUpto_keep (P : State → Prop) (n : Nat) (f : Nat → State → State) (h : ∀ k, k < n → ∀ s, P s → P (f k s)) (s : State)
    (hs : P s) : P (forUpto n f s) :=
  forList_keep P (List.range n) f (fun k hk => h k (List.mem_range.1 hk)) s hs

@[simp] theorem forList_nil {α : Type} (f : α → State → State) (s : State) : forList [] f s = s := rfl
@[simp] theorem forList_cons {α : Type} (x : α) (l : List α) (f : α → State → State) (s : State) :
    forList (x :: l) f s = forList l f (f x s) := rfl

/-! ## Events of clocked logic -/

/-- An event of the fast clocks' logic has its effect where that logic runs, and otherwise leaves the state as it is. -/
theorem clocked_next {f : State → State} {s t : State} (h : clocked f s = .next t) :
    (awake s = true ∧ t = f s) ∨ (awake s = false ∧ t = s) := by
  unfold clocked at h
  cases a : awake s <;> simp [a] at h <;> simp [h]

/-! ## The reach of a fault -/

/-- `t` differs from `s` at most where a fault may write. -/
def FaultOnly (s t : State) : Prop :=
  { t with od := s.od, faultLog := s.faultLog, active := s.active, onceKeys := s.onceKeys, link := s.link, cores := s.cores,
           can := s.can } = s

theorem FaultOnly.refl (s : State) : FaultOnly s s := rfl

theorem FaultOnly.trans {s t u : State} (h : FaultOnly s t) (k : FaultOnly t u) : FaultOnly s u := by
  unfold FaultOnly at *
  rw [← k] at h
  exact h

/-- What every state of a chain of faults keeps. -/
theorem FaultOnly.mem {s t : State} (h : FaultOnly s t) : t.mem = s.mem :=
  (congrArg State.mem h :)
theorem FaultOnly.lanes {s t : State} (h : FaultOnly s t) : t.lanes = s.lanes :=
  (congrArg State.lanes h :)
theorem FaultOnly.slate {s t : State} (h : FaultOnly s t) : t.slate = s.slate :=
  (congrArg State.slate h :)
theorem FaultOnly.pending {s t : State} (h : FaultOnly s t) : t.pending = s.pending :=
  (congrArg State.pending h :)
theorem FaultOnly.handles {s t : State} (h : FaultOnly s t) : t.handles = s.handles :=
  (congrArg State.handles h :)
theorem FaultOnly.power {s t : State} (h : FaultOnly s t) : t.power = s.power :=
  (congrArg State.power h :)
theorem FaultOnly.boot {s t : State} (h : FaultOnly s t) : t.boot = s.boot :=
  (congrArg State.boot h :)
theorem FaultOnly.flash {s t : State} (h : FaultOnly s t) : t.flash = s.flash :=
  (congrArg State.flash h :)

theorem FaultOnly.wr (s : State) (r : Reg) (v : Nat) : FaultOnly s (s.wr r v) := rfl
theorem FaultOnly.inc (s : State) (r : Reg) : FaultOnly s (s.inc r) := rfl
theorem FaultOnly.setBit (s : State) (r : Reg) (k : Nat) : FaultOnly s (s.setBit r k) := rfl
theorem FaultOnly.setCore (s : State) (c : Nat) (x : Core) : FaultOnly s (s.setCore c x) := rfl
theorem FaultOnly.ulIrq (k : Nat) (s : State) : FaultOnly s (ulIrq k s) := rfl
theorem FaultOnly.pendCore (c k : Nat) (s : State) : FaultOnly s (pendCore c k s) := rfl

theorem FaultOnly.pendAll (k : Nat) (s : State) : FaultOnly s (pendAll k s) :=
  forUpto_keep (FaultOnly s) 8 _ (fun c _ t h => h.trans (FaultOnly.pendCore c k t)) s (FaultOnly.refl s)

theorem FaultOnly.bumpRepeat (p : FaultRec → Bool) (s : State) : FaultOnly s (bumpRepeat p s) := by
  unfold Machine.bumpRepeat
  dsimp only
  split
  · exact FaultOnly.refl s
  · rfl

theorem FaultOnly.repeatFault (code unit info : Nat) (s : State) : FaultOnly s (repeatFault code unit info s) :=
  FaultOnly.bumpRepeat _ s

/-- The parts of `logFault` in their order: the record, the count, the head and the totals, the active flag, the interrupt sources. -/
def logPut (k : Nat) (r : FaultRec) (s : State) : State := { s with faultLog := s.faultLog.insert k r }
def logCount (s : State) : State :=
  if s.rd Obj.fltLogCount = 64 then s.inc Obj.fltLost else s.wr Obj.fltLogCount (s.rd Obj.fltLogCount + 1)
def logTotals (k code : Nat) (s : State) : State :=
  ((s.wr Obj.fltLogHead ((k + 1) % 64)).inc Obj.fltTotal).wr Obj.fltLast code
def logActive (c : BitVec 16) (s : State) : State :=
  if s.active.any fun a => a.1 == c then s else { s with active := s.active ++ [(c, s.slate)] }
def logSources (code : Nat) (s : State) : State :=
  match classSource (faultClass code) with
  | some k => pendAll k s
  | none => s

theorem logFault_eq (code unit info extra : Nat) (s : State) :
    logFault code unit info extra s =
      logSources code (Machine.ulIrq 2 (logActive (BitVec.ofNat 16 code) (logTotals (s.rd Obj.fltLogHead) code (logCount
        (logPut (s.rd Obj.fltLogHead)
          ⟨BitVec.ofNat 16 code, 0, BitVec.ofNat 8 unit, BitVec.ofNat 16 info, BitVec.ofNat 64 extra, s.slate⟩ s))))) := rfl

theorem FaultOnly.logPut (k : Nat) (r : FaultRec) (s : State) : FaultOnly s (logPut k r s) := rfl
theorem FaultOnly.logCount (s : State) : FaultOnly s (logCount s) := by
  unfold Machine.logCount
  split
  · exact FaultOnly.inc s _
  · exact FaultOnly.wr s _ _
theorem FaultOnly.logTotals (k code : Nat) (s : State) : FaultOnly s (logTotals k code s) :=
  ((FaultOnly.wr s _ _).trans (FaultOnly.inc _ _)).trans (FaultOnly.wr _ _ _)
theorem FaultOnly.logActive (c : BitVec 16) (s : State) : FaultOnly s (logActive c s) := by
  unfold Machine.logActive
  split
  · exact FaultOnly.refl s
  · rfl
theorem FaultOnly.logSources (code : Nat) (s : State) : FaultOnly s (logSources code s) := by
  unfold Machine.logSources
  split
  · exact FaultOnly.pendAll _ s
  · exact FaultOnly.refl s

theorem FaultOnly.logFault (code unit info extra : Nat) (s : State) : FaultOnly s (logFault code unit info extra s) := by
  rw [logFault_eq]
  exact (((((FaultOnly.logPut _ _ s).trans (FaultOnly.logCount _)).trans (FaultOnly.logTotals _ _ _)).trans
    (FaultOnly.logActive _ _)).trans (FaultOnly.ulIrq 2 _)).trans (FaultOnly.logSources _ _)

theorem FaultOnly.queueEmcy (err code detail : Nat) (s : State) : FaultOnly s (queueEmcy err code detail s) := by
  unfold Machine.queueEmcy
  split
  · exact FaultOnly.refl s
  · split
    · rfl
    · split
      · exact FaultOnly.repeatFault _ _ _ s
      · dsimp only
        split
        · refine FaultOnly.trans ?_ (FaultOnly.repeatFault _ _ _ _); rfl
        · refine FaultOnly.trans ?_ (FaultOnly.logFault _ _ _ _ _); rfl

/-- A fault writes no more than `FaultOnly` says. -/
theorem FaultOnly.raise (code unit info extra : Nat) (s : State) : FaultOnly s (raise code unit info extra s) :=
  (FaultOnly.logFault code unit info extra s).trans (FaultOnly.queueEmcy _ _ _ _)

theorem FaultOnly.raiseOnce (key code unit info extra : Nat) (s : State) : FaultOnly s (raiseOnce key code unit info extra s) := by
  unfold Machine.raiseOnce
  split
  · exact FaultOnly.repeatFault _ _ _ s
  · refine FaultOnly.trans ?_ (FaultOnly.raise _ _ _ _ _); rfl

theorem FaultOnly.raiseSticky (r : Reg) (bit code unit info extra : Nat) (s : State) :
    FaultOnly s (raiseSticky r bit code unit info extra s) := by
  unfold Machine.raiseSticky
  split
  · exact FaultOnly.repeatFault _ _ _ s
  · exact (FaultOnly.setBit s r bit).trans (FaultOnly.raise _ _ _ _ _)

theorem FaultOnly.fabReport (code unit info a : Nat) (s : State) : FaultOnly s (fabReport code unit info a s) := by
  unfold Machine.fabReport
  refine FaultOnly.trans ?_ (FaultOnly.raiseOnce _ _ _ _ _ _)
  split
  · split
    · exact FaultOnly.inc s _
    · exact FaultOnly.refl s
  · split
    · exact FaultOnly.inc s _
    · exact FaultOnly.inc s _
  · exact FaultOnly.refl s

theorem FaultOnly.noteReads (unit : Nat) (rs : List (Nat × Nat)) (s : State) : FaultOnly s (noteReads unit rs s) := by
  refine forList_keep (FaultOnly s) _ _ (fun x _ t h => h.trans ?_) s (FaultOnly.refl s)
  split
  · exact FaultOnly.inc t _
  · exact FaultOnly.fabReport _ _ _ _ t

/-- Reads that meet no error change nothing. -/
theorem noteReads_none {s : State} {rs : List (Nat × Nat)} (unit : Nat) (h : dramHits s rs = []) : noteReads unit rs s = s := by
  unfold noteReads
  rw [h]
  rfl

theorem readFails_none {s : State} {rs : List (Nat × Nat)} (h : dramHits s rs = []) : readFails s rs = false := by
  unfold readFails
  rw [h]
  rfl

/-! ## The canonical form through these operations -/

theorem tidy_inc {s : State} (r : Reg) (h : s.tidy = true) : (s.inc r).tidy = true := tidy_wr r _ h
theorem tidy_setBit {s : State} (r : Reg) (k : Nat) (h : s.tidy = true) : (s.setBit r k).tidy = true := tidy_wr r _ h
theorem tidy_clrBit {s : State} (r : Reg) (k : Nat) (h : s.tidy = true) : (s.clrBit r k).tidy = true := tidy_wr r _ h
theorem tidy_ulIrq {s : State} (k : Nat) (h : s.tidy = true) : (ulIrq k s).tidy = true := h
theorem tidy_pendCore {s : State} (c k : Nat) (h : s.tidy = true) : (pendCore c k s).tidy = true := tidy_setCore c _ h
theorem tidy_pendAll {s : State} (k : Nat) (h : s.tidy = true) : (pendAll k s).tidy = true :=
  forUpto_keep (fun s => s.tidy = true) 8 _ (fun c _ _ h => tidy_pendCore c k h) s h

theorem tidy_faultLog {s : State} (k : Nat) (r : FaultRec) (h : s.tidy = true) :
    State.tidy { s with faultLog := s.faultLog.insert k r } = true :=
  (tidy_iff _).2 { (tidy_iff _).1 h with faultLog := rising_insert _ _ ((tidy_iff _).1 h).faultLog }

theorem tidy_repeatFault {s : State} (code unit info : Nat) (h : s.tidy = true) : (repeatFault code unit info s).tidy = true := by
  unfold repeatFault bumpRepeat
  dsimp only
  split
  · exact h
  · exact tidy_faultLog _ _ h

theorem tidy_logCount {s : State} (h : s.tidy = true) : (logCount s).tidy = true := by
  unfold logCount
  split
  · exact tidy_inc _ h
  · exact tidy_wr _ _ h
theorem tidy_logTotals {s : State} (k code : Nat) (h : s.tidy = true) : (logTotals k code s).tidy = true :=
  tidy_wr _ _ (tidy_inc _ (tidy_wr _ _ h))
theorem tidy_logActive {s : State} (c : BitVec 16) (h : s.tidy = true) : (logActive c s).tidy = true := by
  unfold logActive
  split <;> exact h
theorem tidy_logSources {s : State} (code : Nat) (h : s.tidy = true) : (logSources code s).tidy = true := by
  unfold logSources
  split
  · exact tidy_pendAll _ h
  · exact h

theorem tidy_logFault {s : State} (code unit info extra : Nat) (h : s.tidy = true) :
    (logFault code unit info extra s).tidy = true := by
  rw [logFault_eq]
  exact tidy_logSources _ (tidy_ulIrq 2 (tidy_logActive _ (tidy_logTotals _ _ (tidy_logCount (tidy_faultLog _ _ h)))))

theorem tidy_queueEmcy {s : State} (err code detail : Nat) (h : s.tidy = true) : (queueEmcy err code detail s).tidy = true := by
  unfold queueEmcy
  split
  · exact h
  · split
    · exact h
    · split
      · exact tidy_repeatFault _ _ _ h
      · dsimp only
        split
        · exact tidy_repeatFault _ _ _ h
        · exact tidy_logFault _ _ _ _ h

theorem tidy_raise {s : State} (code unit info extra : Nat) (h : s.tidy = true) : (raise code unit info extra s).tidy = true :=
  tidy_queueEmcy _ _ _ (tidy_logFault _ _ _ _ h)

theorem tidy_raiseOnce {s : State} (key code unit info extra : Nat) (h : s.tidy = true) :
    (raiseOnce key code unit info extra s).tidy = true := by
  unfold raiseOnce
  split
  · exact tidy_repeatFault _ _ _ h
  · exact tidy_raise _ _ _ _ h

theorem tidy_raiseSticky {s : State} (r : Reg) (bit code unit info extra : Nat) (h : s.tidy = true) :
    (raiseSticky r bit code unit info extra s).tidy = true := by
  unfold raiseSticky
  split
  · exact tidy_repeatFault _ _ _ h
  · exact tidy_raise _ _ _ _ (tidy_setBit r bit h)

theorem tidy_fabReport {s : State} (code unit info a : Nat) (h : s.tidy = true) : (fabReport code unit info a s).tidy = true := by
  unfold fabReport
  refine tidy_raiseOnce _ _ _ _ _ ?_
  split
  · split
    · exact tidy_inc _ h
    · exact h
  · split
    · exact tidy_inc _ h
    · exact tidy_inc _ h
  · exact h

theorem tidy_noteReads {s : State} (unit : Nat) (rs : List (Nat × Nat)) (h : s.tidy = true) : (noteReads unit rs s).tidy = true := by
  refine forList_keep (fun s => s.tidy = true) _ _ (fun x _ t h => ?_) s h
  split
  · exact tidy_inc _ h
  · exact tidy_fabReport _ _ _ _ h

end Sys2Proof.Machine
end

