-- ==== Sys2Proof/Tests/Slice0.lean ====
section
/-! SUPPORT. Small tests. The expected values are the worked examples and tables of spec/, named at each test. -/

namespace Sys2Proof.Tests

open Sys2Proof.Machine

set_option maxRecDepth 100000
set_option Elab.async false

/-! ## Ill-formed commands are refused -/

theorem test_wf_immediate_too_wide : (Instr.lda (.lane 0) {} (.imm .b8 false 0x100)).wellFormed = false := by decide +kernel
theorem test_wf_short_address : (Instr.sta (.lane 0) {} (.dir false 0x10000)).wellFormed = false := by decide +kernel
theorem test_wf_wide_immediate : (Instr.add (.lane 0) { wide := true } (.imm .b8 false 0x12345678)).wellFormed = true := by
  decide +kernel
theorem test_wf_displacement : (Instr.bra (.core 0) {} 0x00008000).wellFormed = false := by decide +kernel
theorem test_wf_user_operand : (Instr.userOpcode (.lane 0) {} 0 (.desc (.imm .b16 false 0x10000))).wellFormed = false := by
  decide +kernel
theorem test_wf_undefined_reason : (Instr.undefinedOpcode (.lane 0) 0x0F 1).wellFormed = false := by decide +kernel
theorem test_wf_undefined_length : (Instr.undefinedOpcode (.lane 0) 1 0).wellFormed = false := by decide +kernel
theorem test_wf_latch_words : (Instr.inputWordLatch 0 false [1, 2, 3]).wellFormed = false := by decide +kernel
theorem test_wf_rpdo_length : (Instr.rpdoReceive 0 (List.replicate 65 0)).wellFormed = false := by decide +kernel
theorem test_wf_usdo_client : (Instr.usdoUpload 128 0x1000 0).wellFormed = false := by decide +kernel
theorem test_wf_sync_counter : (Instr.syncReceive (some 241)).wellFormed = false := by decide +kernel
theorem test_wf_nmt_node : (Instr.nmtStartRemoteNode 128).wellFormed = false := by decide +kernel
theorem test_wf_heartbeat_node : (Instr.heartbeatReceive 0).wellFormed = false := by decide +kernel
theorem test_wf_frame_data : (Instr.readMem ⟨1, 2, 0, 0, [5], 0, 0, 128⟩).wellFormed = false := by decide +kernel
theorem test_wf_reserved_command : (Instr.reservedCommandFrame 5 ⟨1, 0, 0, 0, [], 0, 0, 128⟩).wellFormed = false := by
  decide +kernel
theorem test_wf_log_lines : (Instr.conLog 65).wellFormed = false := by decide +kernel

/-! ## States -/

/-- A module that has booted. -/
def up : State := { boot := { booted := true, meterE := false } }

/-- `up` with registers written. -/
def withRegs (rs : List (Reg × Nat)) (s : State := up) : State := rs.foldl (fun s x => s.wr x.1 x.2) s

/-- Lane 12 in a take, with its registers. -/
def lane12 (r : Regs) : State :=
  (withRegs [(Obj.laneState 12, laneTake), (Obj.tgLength 0, 4000), (Obj.triggerGroup 12, 0)]).setLane 12
    { ran := true, busy := true, regs := r }

/-- Control core 3 in execution at 0x2_0100, with its registers. -/
def core3 (r : Regs) : State := (withRegs [(Obj.coreState 3, 1)]).setCore 3 { regs := { r with pc := 0x20100 }, vbase := 0x20000 }

/-- Whether a command answers a next state in which `p` holds. -/
def gives (c : Instr) (s : State) (p : State → Bool) : Bool :=
  match exec c s with
  | .next t => p t
  | _ => false

def laneRegs (s : State) : Regs := (s.lane 12).regs
def coreRegs (s : State) : Regs := (s.core 3).regs

/-! ## Chapter 3: instruction lengths (the table of R83) and addressing -/

theorem test_length_tap : decodedLen {} { len := 1 } = 1 := by decide
theorem test_length_lda_half : decodedLen {} (shapeD (.lane 0) {} true true true (.imm .b16 true 0x4000)) = 4 := by decide
theorem test_length_lda_far : decodedLen {} (shapeD (.lane 0) {} true true true (.dir true 0x400200)) = 5 := by decide
theorem test_length_wide_lda :
    decodedLen { wide := true } (shapeD (.lane 0) { wide := true } true true true (.imm .b8 false 0x12345678)) = 7 := by decide
theorem test_length_loop : decodedLen {} (Claims.loopShape {} (.imm .b8 false 0x64) 0x0C) = 5 := by decide

/-- The ring example after R77. -/
theorem test_ring_step : stepIndex 0x1BB6 0x1000 3000 3 = 0x1001 := by decide
theorem test_ring_displacement : stepIndex 0x1002 0x1000 3000 (-5) = 0x1BB5 := by decide

/-- The load-delay example after R85: the ADD in the slot after the load reads the old A. -/
theorem test_load_delay :
    gives (.add (.lane 12) {} (.imm .b16 true 0x4000))
      ((lane12 { a := extAcc 0x20000000 }).setLane 12
        { (lane12 { a := extAcc 0x20000000 }).lane 12 with delayed := some ⟨0, 0x10000000⟩ })
      (fun t => accH (laneRegs t).a == 0x60000000) = true := by decide +kernel

/-! ## Chapter 4: arithmetic -/

/-- MUL of -1 and -1 gives +1.0 exactly; its word saturates (the example after R97). -/
theorem test_mul_minus_one : aluMac true 0 1 0x80000000 0x80000000 = (0x008000000000000000,
    { z := some false, n := some false, c := some false, v := some false, sv := false }) := by decide +kernel
theorem test_word_of_plus_one : wordView true 0x008000000000000000 = (0x7FFFFFFF, true) := by decide +kernel
theorem test_mac_half : (aluMac true (0x008000000000000000 : Acc).toInt 1 0x40000000 0x80000000).1 = 0x004000000000000000 := by
  decide +kernel

/-- MUL 3 with D[X] = 5, then ASR A by 1, leaves 15 in A.L. -/
theorem test_integer_product : accL (shiftA .asr 1 (aluMac false 0 1 3 5).1).1 = 15 := by decide +kernel

/-- MUL on a lane, with D[X] in the reel pan. -/
theorem test_mul_lane :
    gives (.mul (.lane 12) {} (.imm .b16 true 0x8000)) ((lane12 { x := 0x20 }).setMemWord (12 * 0x40000 + 0x80) 0x80000000)
      (fun t => (laneRegs t).a == 0x008000000000000000) = true := by decide +kernel

/-- STA after it stores 0x7FFF_FFFF and sets V and SV. -/
theorem test_sta_saturates :
    gives (.sta (.lane 12) {} (.dir false 0x10)) (lane12 { a := 0x008000000000000000 })
      (fun t => t.memWord (12 * 0x40000 + 0x40) == 0x7FFFFFFF && (laneRegs t).f == 0x18) = true := by decide +kernel

/-- The first slot of the filter example after R99: h0 x(n) is added, X and Y step, and x(n) is owed to 0x0101. -/
theorem test_tapm_slot :
    gives (.tapm (.lane 12) {})
      (((lane12 { x := 0x8000, y := 0x100, ox := 1, oy := 1 }).setMemWord (sideBase 12 0) 0x40000000).setMemWord
        (12 * 0x40000 + 0x400) 0x20000000)
      (fun t => accH (laneRegs t).a == 0x10000000 && (laneRegs t).x == 0x8001 && (laneRegs t).y == 0x101 &&
        (t.lane 12).moves == [⟨1, 0x101, 0x20000000⟩]) = true := by decide +kernel

/-- DIV: the quotient is truncated toward zero; a division by zero gives the largest word of the sign and sets DZ (R101). -/
theorem test_div_truncates : (aluDiv false (BitVec.ofInt 32 (-7)) 2).1 = BitVec.ofInt 32 (-3) := by decide +kernel
theorem test_div_by_zero : (aluDiv false 5 0).1 = 0x7FFFFFFF ∧ (aluDiv false 5 0).2.dz = true := by decide +kernel

/-- BFX of 12 bits at bit 8; CLZ of 0 is 32 (R102). -/
theorem test_bfx : bfxWord 0x12345678 8 12 = 0x456 := by decide +kernel
theorem test_clz_zero : clzWord 0 = 32 := by decide +kernel

/-- A shift left by more than the width of a word gives 0 (R103). -/
theorem test_shift_past_width : (shiftBits .lsl (0x80000001 : Word) 33).1 = 0 := by decide +kernel

/-- BNE 40 bytes ahead on a core: the next instruction is at PC + 3 + 40 (R83). -/
theorem test_bne_taken : gives (.bne (.core 3) {} 40) (core3 {}) (fun t => (coreRegs t).pc == 0x20100 + 43) = true := by
  decide +kernel
theorem test_bne_not_taken : gives (.bne (.core 3) {} 40) (core3 { f := 1 }) (fun t => (coreRegs t).pc == 0x20103) = true := by
  decide +kernel

/-- The LOOP of the example of chapter 10: LS0 0x2_0105, LE0 0x2_010B, LC0 3. -/
theorem test_loop_level_0 :
    gives (.loop (.core 3) {} 0 (.imm .b8 false 3) 6) (core3 {})
      (fun t => (coreRegs t).ls[0] == 0x20105 && (coreRegs t).le[0] == 0x2010B && (coreRegs t).lc[0] == 3) =
      true := by decide +kernel

/-- There the first completion of ADD loops back by level 1, and the second by level 0 (R245). -/
theorem test_loop_end_inner :
    (loopEnd 0x2010B 4 { pc := 0x2010E, ls := #v[0x20105, 0x2010A, 0, 0], le := #v[0x2010B, 0x2010B, 0, 0], lc := #v[3, 2, 0, 0] }).pc =
      0x2010A := by decide +kernel
theorem test_loop_end_outer :
    (loopEnd 0x2010B 4 { pc := 0x2010E, ls := #v[0x20105, 0x2010A, 0, 0], le := #v[0x2010B, 0x2010B, 0, 0], lc := #v[3, 1, 0, 0] }).pc =
      0x20105 := by decide +kernel

/-! ## Chapters 2 and 5: house ticks, channels and glides -/

/-- At 44.1 kHz house ticks fall at REF edges 558, 1,115 and 1,672 (R29). -/
theorem test_house_ticks :
    let s := withRegs [(Obj.tgSource 3, 0x4000), (Obj.tgHouseM 3, 147), (Obj.tgHouseN 3, 81920)]
    tickAt s 558 3 = true ∧ tickAt s 1115 3 = true ∧ tickAt s 1672 3 = true ∧ tickAt s 557 3 = false ∧ tickAt s 1116 3 = false := by
  decide +kernel

/-- The glide example after R125. -/
theorem test_glide_first : glideValue ⟨0x10, 0x10000000, 0x30000000, 4, 1, 0⟩ = 0x18000000 := by decide +kernel
theorem test_glide_turned : glideValue ⟨0x10, 0x20000000, 0, 4, 3, 0⟩ = 0x08000000 := by decide +kernel

/-! ## Chapter 6: the peak follower -/

/-- Its entry, from the 20 bytes of the example. -/
def peak : Nat := ofLe [0x04, 0x00, 0x0F, 0x94, 0x00, 0x18, 0x00, 0x15, 0x00, 0x40, 0x00, 0x0C, 0x00, 0x78, 0x00, 0x25, 0x00, 0xB4,
  0x00, 0x3C]

theorem test_peak_entry : dtEntryGood peak = true ∧ dtForm peak = 1 ∧ dtCost peak = 5 ∧ dtNuop peak = 8 := by decide +kernel

/-- Lane 12 with the state word at 0x200, x at D[X] and d at D[Y]. -/
def peakState (state x : Word) : State :=
  ((((lane12 { x := 0x20, y := 0x8000 }).wr (dtOf (.lane 12) 0) peak).setMemWord (12 * 0x40000 + 0x800) state).setMemWord
    (12 * 0x40000 + 0x80) x).setMemWord (sideBase 12 0) 0x70000000

theorem test_peak_rises :
    gives (.userOpcode (.lane 12) {} 0 (.desc (.dir false 0x200))) (peakState 0x40000000 0xC0000000)
      (fun t => t.memWord (12 * 0x40000 + 0x800) == 0x40000000 && accH (laneRegs t).a == 0x38000000 && (laneRegs t).pc == 5) = true := by
  decide +kernel
theorem test_peak_decays :
    gives (.userOpcode (.lane 12) {} 0 (.desc (.dir false 0x200))) (peakState 0x40000000 0x10000000)
      (fun t => t.memWord (12 * 0x40000 + 0x800) == 0x38000000) = true := by decide +kernel

/-! ## Chapters 7 to 14: ports, engines, pans, DMA, handles and frames -/

/-- Half-way through a fade the gain is one half (R154). -/
theorem test_fade_half : raisedCosine 16 32 = 2 ^ 30 := by decide +kernel
theorem test_fade_ends : raisedCosine 0 32 = 0 ∧ raisedCosine 32 32 = 2 ^ 31 := by decide +kernel

/-- The four rungs of the alignment example after R192. -/
theorem test_rungs :
    (buildRungs (withRegs [(Obj.cpRing 9, 4), (Obj.cpHead 9, 128), (Obj.cpLength 9, 131072), (Obj.rpBlock 4, 3), (Obj.rpDepth 4, 2)]) 9).map
      (fun r => (r.size, r.start, r.stop, r.parts)) =
      [(64, 128, 512, 6), (256, 512, 2048, 6), (1024, 2048, 8192, 6), (4096, 8192, 131072, 30)] := by decide +kernel

/-- Far-window word 0x4A_3457 lies in group 1, at fabric byte address 0x0128_D15C (R255). -/
theorem test_far_word : farGroup 0x4A3457 = 1 ∧ farByte 0x4A3457 = 0x128D15C := by decide

/-- The descriptor of the DMA example: 3 lines of 100 bytes become one of 300. -/
def gather : List Word := [0xC0000001, 0, 0x01000030, 0x04001010, 0x00200064, 0x100, 0x12C, 0]

theorem test_gather_runs : descGood gather = true ∧ dmaTotal gather = 300 := by decide +kernel
theorem test_gather_addresses : (sideOf gather 0).at 100 = 0x1000130 ∧ (sideOf gather 1).at 100 = 0x104001074 := by decide +kernel

/-- A handle in slot 0x009 whose generation was 0x4 is 0x5009 (the example of chapter 13). -/
theorem test_handle_word : (⟨9, 5, .store 1, 0, 0⟩ : Handle).word = 0x5009 := by decide

/-- The CRC of "123456789" (R319). -/
theorem test_crc : crc32c [0x31, 0x32, 0x33, 0x34, 0x35, 0x36, 0x37, 0x38, 0x39] = 0xE3069283 := by decide +kernel

/-- 0x7777 names no object (R292). -/
theorem test_no_object : (lookup 0x7777 0).toOption = none := by decide +kernel

/-! ## The queue -/

theorem test_step_takes_front :
    (match step { up with pending := [.dmaHeadPoll 3, .dmaHeadPoll 4] } with
      | .next t => t.pending == [.dmaHeadPoll 4]
      | _ => false) = true := by decide +kernel

/-- With no command waiting the counter of the slate counts. -/
theorem test_step_idle :
    (match step up with
      | .next t => t.slate == 1 && t.pending == []
      | _ => false) = true := by decide +kernel

end Sys2Proof.Tests
end

