-- ==== Sys2Proof/Tests/WitnessAccess.lean ====
section
/-! SUPPORT. Witnesses: for each statement, states and operands that meet what its clauses ask. -/

namespace Sys2Proof.Tests.Access

open Sys2Proof.Machine Sys2Proof.Claims

set_option maxRecDepth 100000
set_option Elab.async false

def st (rs : List (Reg × Nat)) (s : State := {}) : State := rs.foldl (fun s x => s.wr x.1 x.2) s

def up : State := { boot := { booted := true, meterE := false } }

def fr (cmd : Nat) (s : State) (a : Byte) (len : BitVec 16) (addr : Word) (data : List Word) : Frame :=
  let f : Frame := ⟨a, len, addr, 0, data, 0, 0, 64⟩
  let f := { f with bits := impliedBits s f }
  { f with crc := crc32c (frameBytes s cmd f) }

def lk : State := { up with link := { up.link with alive := some 0x3F } }

def bg (g : Bool) : State := { lk with link := { lk.link with bg := some ⟨g, true, [(0x104000000,5),(0x104000004, ~~~5)]⟩ } }

def q : State := { up with slate := 0x05FFFFFFFFFFFFFF }

/-- The host may write the lowest DRAM words above the firmware's. -/
theorem host_dram (off : Nat) (h : 0x4000000 ≤ off) (h' : off < 0x100000000)
    (r : regionOf (0x100000000 + off) = .dram off) : hostCheck true (0x100000000 + off) (bg true) = .ok := by
  have d : 0x100000000 ≤ dramSize := by unfold dramSize; split <;> decide
  have k : recovering (bg true) = false := by decide +kernel
  rw [hostCheck, k, fabCheck, r]
  simp only [Bool.false_eq_true, if_false, if_neg (show ¬ dramSize ≤ off by omega), show decide (off < 0x4000000) = false from
    decide_eq_false (by omega), Bool.false_and]

theorem bg_allowed : ∀ x : Nat × Word, x ∈ [(0x104000000, (5 : Word)), (0x104000004, ~~~5)] →
    (∃ o, regionOf x.1 = Region.dram o) ∧ hostCheck true x.1 (bg true) = .ok := by
  intro x hx
  simp only [List.mem_cons, List.not_mem_nil, or_false] at hx
  obtain rfl | rfl := hx
  · exact ⟨⟨0x4000000, by decide +kernel⟩, host_dram 0x4000000 (by decide) (by decide) (by decide +kernel)⟩
  · exact ⟨⟨0x4000004, by decide +kernel⟩, host_dram 0x4000004 (by decide) (by decide) (by decide +kernel)⟩

/-- What the clauses of `Obligations.LinkAndCodec` on the link ask holds together somewhere. -/
theorem witness_link_server :
    (∃ (s : State), s.tidy = true ∧ ∃ (w : LinkWrite), s.link.bg = some w ∧ (served s = true ∨ recovering s = true) ∧ (∀ x ∈
      w.writes, (∃ (o : Nat), regionOf x.1 = Region.dram o) ∧ hostCheck true x.1 s = FabResult.ok) ∧ (w.guarded = true →
      w.writes.length % 2 = 0)) ∧
    (∃ (s : State), s.tidy = true ∧ s.link.bg = none) ∧
    (∃ (s : State), s.tidy = true ∧ ∃ (b : List Byte) (u : State) (a : Nat), served s = true ∧ s.link.reqState = 1 ∧
      s.link.odServed = false ∧ s.link.reqWrite = none ∧ dictRead 1 (s.link.reqKey.toNat / 256) (s.link.reqKey.toNat % 256) s
      = (b, u, a)) ∧
    (∃ (s : State), s.tidy = true ∧ ∃ (d : List Byte) (u : State) (a : Nat), served s = true ∧ s.link.reqState = 1 ∧
      s.link.odServed = false ∧ s.link.reqWrite = some d ∧ dictWrite 1 (s.link.reqKey.toNat / 256) (s.link.reqKey.toNat % 256)
      d s = (u, a) ∧ u.link.reqState = 1) ∧
    (∃ (s : State), s.tidy = true ∧ served s = true ∧ s.link.reqState = 1 ∧ s.link.odServed = true) ∧
    (∃ (s : State), s.tidy = true ∧ s.link.reqState ≠ 1) ∧
    (∃ (s : State), s.tidy = true ∧ served s = true ∧ ¬NoneWaits s ∧ served (serveLink s) = true) ∧
    (∃ (s : State), s.tidy = true ∧ s.rd Obj.pwrState ≠ 2 ∧ s.rd Obj.pwrState ≠ 3) :=
  ⟨⟨bg true, (by decide +kernel), _, rfl, Or.inl (by decide +kernel), bg_allowed, fun _ => rfl⟩,
   ⟨lk, by decide +kernel⟩,
   ⟨{ lk with link := { lk.link with reqState := 1, reqKey := 0x101802 } }, (by decide +kernel), _, _, _, (by decide +kernel),
     (by decide +kernel), (by decide +kernel), (by decide +kernel), rfl⟩,
   ⟨{ lk with link := { lk.link with reqState := 1, reqKey := 0x3C0001, reqWrite := some [1] } }, (by decide +kernel), _, _,
     _, (by decide +kernel), (by decide +kernel), (by decide +kernel), rfl, rfl, by decide +kernel⟩,
   ⟨{ lk with link := { lk.link with reqState := 1, reqKey := 0x3C0001, odServed := true, reqValue := [1], irqEn := 3, irqPend := 2 } },
     by decide +kernel⟩,
   ⟨lk, by decide +kernel⟩,
   ⟨{ lk with link := { lk.link with reqState := 1, reqKey := 0x101802 } }, by unfold NoneWaits; decide +kernel⟩,
   ⟨lk, by decide +kernel⟩⟩

/-- What the clauses of `Obligations.ObjectWrites` ask holds together somewhere. -/
theorem witness_object_writes :
    (∃ (index : BitVec 16) (sub : Byte) (s : State), Ready s ∧ let i := index.toNat; let b := BitVec.toNat sub; ∃ (a : Nat),
      lookup i b = Except.error a) ∧
    (∃ (index : BitVec 16) (sub : Byte) (s : State), Ready s ∧ let i := index.toNat; let b := BitVec.toNat sub; ∃ (r :
      ObjRow), lookup i b = Except.ok r ∧ (r.acc = Access.ro ∨ r.acc = Access.const)) ∧
    (∃ (index : BitVec 16) (sub : Byte) (data : List Byte) (s : State), Ready s ∧ let i := index.toNat;
      let b := BitVec.toNat sub; ∃ (r : ObjRow), lookup i b = Except.ok r ∧ r.acc ≠ Access.ro ∧ r.acc ≠ Access.const ∧
      lengthAbort r i b data ≠ 0) ∧
    (∃ (p : Path) (index : BitVec 16) (sub : Byte) (data : List Byte) (s : State), Ready s ∧ let i := index.toNat;
      let b := BitVec.toNat sub; ∃ (r : ObjRow), lookup i b = Except.ok r ∧ r.acc ≠ Access.ro ∧ r.acc ≠ Access.const ∧
      lengthAbort r i b data = 0 ∧ r.type = ObjType.guard32 ∧ guardGood (ofLe data) = false ∧ ¬(i = 10240 ∧ b = 4) ∧ (p =
      Path.field ∨ p = Path.link)) ∧
    (∃ (p : Path) (index : BitVec 16) (sub : Byte) (data : List Byte) (s : State), Ready s ∧ let i := index.toNat;
      let b := BitVec.toNat sub; ∃ (r : ObjRow), lookup i b = Except.ok r ∧ r.acc ≠ Access.ro ∧ r.acc ≠ Access.const ∧
      lengthAbort r i b data = 0 ∧ r.type = ObjType.guard32 ∧ guardGood (ofLe data) = false ∧ ¬(i = 10240 ∧ b = 4) ∧ p ≠
      Path.field ∧ p ≠ Path.link) ∧
    (∃ (index : BitVec 16) (sub : Byte) (data : List Byte) (s : State), Ready s ∧ let i := index.toNat;
      let b := BitVec.toNat sub; ∃ (r : ObjRow), lookup i b = Except.ok r ∧ r.acc ≠ Access.ro ∧ r.acc ≠ Access.const ∧
      lengthAbort r i b data = 0 ∧ (r.type = ObjType.guard32 → guardGood (ofLe data) = true ∨ i = 10240 ∧ b = 4) ∧ domGood r
      (ofLe data) = false) ∧
    (∃ (p : Path) (index : BitVec 16) (sub : Byte) (data : List Byte) (s : State), Ready s ∧ let i := index.toNat;
      let b := BitVec.toNat sub; let q := pathCode p; let item := selected s q i; ∃ (r : ObjRow), lookup i b = Except.ok r ∧
      ValueIn r i b data ∧ let v := dropReserved r i b (ofLe data); ∃ (t : State) (a : Nat), command q item i b v data s = some
      (t, a)) ∧
    (∃ (p : Path) (index : BitVec 16) (sub : Byte) (data : List Byte) (s : State), Ready s ∧ let i := index.toNat;
      let b := BitVec.toNat sub; let q := pathCode p; let item := selected s q i; ∃ (r : ObjRow), lookup i b = Except.ok r ∧
      ValueIn r i b data ∧ let v := dropReserved r i b (ofLe data); let reg := objReg r q item i b; command q item i b v data
      s = none ∧ mapPdo i = none ∧ valueGood (s.wr reg v) i b v = true ∧ (isCob i b = true → cobGood (cobValue s reg) v =
      true) ∧ stateGood s (s.wr reg v) item i b = true) ∧
    (∃ (p : Path) (index : BitVec 16) (sub : Byte) (data : List Byte) (s : State), Ready s ∧ let i := index.toNat;
      let b := BitVec.toNat sub; let q := pathCode p; let item := selected s q i; ∃ (r : ObjRow), lookup i b = Except.ok r ∧
      ValueIn r i b data ∧ let v := dropReserved r i b (ofLe data); let reg := objReg r q item i b; command q item i b v data
      s = none ∧ mapPdo i = none ∧ valueGood (s.wr reg v) i b v = true ∧ (isCob i b = true → cobGood (cobValue s reg) v =
      true) ∧ stateGood s (s.wr reg v) item i b = false) ∧
    (∃ (p : Path) (index : BitVec 16) (sub : Byte) (data : List Byte) (s : State), Ready s ∧ let i := index.toNat;
      let b := BitVec.toNat sub; let q := pathCode p; let item := selected s q i; ∃ (r : ObjRow), lookup i b = Except.ok r ∧
      ValueIn r i b data ∧ let v := dropReserved r i b (ofLe data); let reg := objReg r q item i b; command q item i b v data
      s = none ∧ valueGood (s.wr reg v) i b v = false) :=
  ⟨⟨0x7777, 0, up, (by unfold Ready NoneWaits; decide +kernel), _, rfl⟩,
   ⟨0x1018, 1, up, (by unfold Ready NoneWaits; decide +kernel), _, rfl, by decide +kernel⟩,
   ⟨0x3C00, 1, [0,1], up, (by unfold Ready NoneWaits; decide +kernel), _, rfl, by decide +kernel⟩,
   ⟨Path.link, 0x2400, 2, [1,0,0,0,1,0,0,0], up, (by unfold Ready NoneWaits; decide +kernel), _, rfl, by decide +kernel⟩,
   ⟨.core 1, 0x2400, 2, [1,0,0,0,1,0,0,0], up, (by unfold Ready NoneWaits; decide +kernel), _, rfl, by decide +kernel⟩,
   ⟨0x3C00, 1, [9], up, (by unfold Ready NoneWaits; decide +kernel), _, rfl, by decide +kernel⟩,
   ⟨.core 1, 0x3C40, 1, [0x4], up, (by unfold Ready NoneWaits; decide +kernel), _, rfl, (by unfold ValueIn; decide +kernel),
     _, _, rfl⟩,
   ⟨Path.link, 0x3C00, 1, [2], up, (by unfold Ready NoneWaits; decide +kernel), _, rfl, by unfold ValueIn; decide +kernel⟩,
   ⟨.core 1, 0x2202, 5, [1], st [(Obj.streamEnable 0, 3)] up, (by unfold Ready NoneWaits; decide +kernel), _, rfl,
     by unfold ValueIn; decide +kernel⟩,
   ⟨Path.link, 0x3C00, 2, [0x70], up, (by unfold Ready NoneWaits; decide +kernel), _, rfl, by unfold ValueIn; decide +kernel⟩⟩

/-- A dictionary request over the link has failed. -/
def rejected : State := { lk with link := { lk.link with reqState := 2, reqAbort := 0x06090030 } }

/-- What the clauses of `Obligations.FramesExecuted` ask holds together somewhere. -/
theorem witness_frames_executed :
    (∃ (c : Instr) (cmd : Nat) (f : Frame) (s : State), linkOp c = some (cmd, f) ∧ LinkUp s ∧ FrameGoes s cmd f) :=
  ⟨.status (fr 9 lk 0x40 0 0 []), _, _, lk, rfl, by unfold LinkUp FrameGoes FrameWhole; decide +kernel⟩

/-- One frame of every command that goes through, a read of the window with ALIVE one too far, and a fetch whose request
failed. -/
def goes : List (Instr × Nat × Frame × State) :=
  [(.readWin (fr 1 lk 0x41 3 0x10 []), 1, fr 1 lk 0x41 3 0x10 [], lk),
   (.writeWin (fr 2 lk 0x40 4 1 [8, 0x104, 0x3F, 0x15]), 2, fr 2 lk 0x40 4 1 [8, 0x104, 0x3F, 0x15], lk),
   (.readMem (fr 3 lk 0x40 2 0x40 []), 3, fr 3 lk 0x40 2 0x40 [], lk),
   (.writeMem (fr 4 lk 0x40 2 0x20004 [5, 6]), 4, fr 4 lk 0x40 2 0x20004 [5, 6], lk),
   (.odRead (fr 5 lk 0x40 0 0x101801 []), 5, fr 5 lk 0x40 0 0x101801 [], lk),
   (.odWrite (fr 6 lk 0x40 2 0x3C0001 [1, 2]), 6, fr 6 lk 0x40 2 0x3C0001 [1, 2], lk),
   (.odFetch (fr 7 lk 0x40 3 0 []), 7, fr 7 lk 0x40 3 0 [], rejected),
   (.harvest (fr 8 lk 0x40 8 2 []), 8, fr 8 lk 0x40 8 2 [], st [(Obj.hvUsed, 3)] lk),
   (.status (fr 9 lk 0x40 0 0 []), 9, fr 9 lk 0x40 0 0 [], lk),
   (.writeGuarded (fr 10 lk 0x40 2 0x20004 [5, 0xFFFFFFFA]), 10, fr 10 lk 0x40 2 0x20004 [5, 0xFFFFFFFA], lk)]

/-- The clauses of `Obligations.FramesExecuted` on each command. -/
theorem witness_each_frame :
    ∀ x ∈ goes, linkOp x.1 = some (x.2.1, x.2.2.1) ∧ LinkUp x.2.2.2 ∧ FrameGoes x.2.2.2 x.2.1 x.2.2.1 := by
  unfold LinkUp FrameGoes FrameWhole; decide +kernel

/-- Its four registers are written at their own window addresses, and its reads reach memory. -/
theorem witness_frame_addresses :
    ((List.range 4).map fun k => winAddr lk (fr 2 lk 0x40 4 1 [8, 0x104, 0x3F, 0x15]) k) = [1, 2, 3, 4] ∧
      (∀ k < 2, hostCheck false (wordAddr lk (fr 3 lk 0x40 2 0x40 []) k) lk = .ok) ∧
      dramHits lk ((List.range 2).map fun k => (wordAddr lk (fr 3 lk 0x40 2 0x40 []) k, 4)) = [] := by decide +kernel

/-- What the clauses of `Obligations.FramesRefused` ask holds together somewhere. -/
theorem witness_frames_refused :
    (∃ (c : Instr) (cmd : Nat) (f : Frame) (s : State), linkOp c = some (cmd, f) ∧
      let quietReset := s.boot.inReset = true ∧ s.rd Obj.resetCause ≠ 8; quietReset ∨ s.power.supplied = false) ∧
    (∃ (c : Instr) (cmd : Nat) (f : Frame) (s : State), linkOp c = some (cmd, f) ∧ let w := wakeBy 1 s;
      let quietReset := s.boot.inReset = true ∧ s.rd Obj.resetCause ≠ 8; s.tidy = true ∧ ¬quietReset ∧ s.power.supplied = true
      ∧ served w = false ∧ recovering w = false) ∧
    (∃ (c : Instr) (cmd : Nat) (f : Frame) (s : State), linkOp c = some (cmd, f) ∧
      let quietReset := s.boot.inReset = true ∧ s.rd Obj.resetCause ≠ 8; s.rd Obj.pwrState = 2 ∧ armedSources s % 2 = 1 ∧
      s.power.supplied = true ∧ ¬quietReset ∧ recovering s = false) ∧
    (∃ (c : Instr) (cmd : Nat) (f : Frame) (s : State), linkOp c = some (cmd, f) ∧ LinkUp s ∧ f.bits ≠ impliedBits s f) ∧
    (∃ (c : Instr) (cmd : Nat) (f : Frame) (s : State), linkOp c = some (cmd, f) ∧ LinkUp s ∧ f.bits = impliedBits s f ∧ f.crc ≠
      crc32c (frameBytes s cmd f)) ∧
    (∃ (c : Instr) (cmd : Nat) (f : Frame) (s : State), linkOp c = some (cmd, f) ∧ LinkUp s ∧ FrameWhole s cmd f ∧ s.link.alive
      = some f.alive) ∧
    (∃ (c : Instr) (cmd : Nat) (f : Frame) (s : State), linkOp c = some (cmd, f) ∧ LinkUp s ∧ FrameWhole s cmd f ∧ s.link.alive
      ≠ some f.alive ∧ commandGood s cmd f = false) ∧
    (∃ (c : Instr) (cmd : Nat) (f : Frame) (s : State), linkOp c = some (cmd, f) ∧ LinkUp s ∧ FrameWhole s cmd f ∧ s.link.alive
      ≠ some f.alive ∧ commandGood s cmd f = true ∧ frameAccepted s cmd f = false) ∧
    (∃ (c : Instr) (cmd : Nat) (f : Frame) (s : State), linkOp c = some (cmd, f) ∧ LinkUp s ∧ FrameWhole s cmd f ∧ s.link.alive
      ≠ some f.alive ∧ commandGood s cmd f = true ∧ frameAccepted s cmd f = true ∧ linkBusy s cmd = true) :=
  ⟨⟨.status (fr 9 lk 0x40 0 0 []), _, _, {boot := {inReset := true}}, rfl, by decide +kernel⟩,
   ⟨.status (fr 9 lk 0x40 0 0 []), _, _, {}, rfl, by decide +kernel⟩,
   ⟨.status (fr 9 lk 0x40 0 0 []), _, _, st [(Obj.pwrState, 2),(Obj.wakeEn, 1)] lk, rfl, by decide +kernel⟩,
   ⟨.status { fr 9 lk 0x40 0 0 [] with bits := 100 }, _, _, lk, rfl, by unfold LinkUp; decide +kernel⟩,
   ⟨.status { fr 9 lk 0x40 0 0 [] with crc := 100 }, _, _, lk, rfl, by unfold LinkUp; decide +kernel⟩,
   ⟨.status (fr 9 lk 0x3F 0 0 []), _, _, lk, rfl, by unfold LinkUp FrameWhole; decide +kernel⟩,
   ⟨.status (fr 9 lk 0x40 0 4 []), _, _, lk, rfl, by unfold LinkUp FrameWhole; decide +kernel⟩,
   ⟨.writeGuarded (fr 10 lk 0x40 2 0x20004 [5,6]), _, _, lk, rfl, by unfold LinkUp FrameWhole; decide +kernel⟩,
   ⟨.writeMem (fr 4 lk 0x40 2 0x20004 [5,6]), _, _, { lk with link := { lk.link with bg := some ⟨false, false, []⟩ } }, rfl,
     by unfold LinkUp FrameWhole; decide +kernel⟩⟩

/-- What the clauses of `Obligations.StepTakesFront` ask holds together somewhere. -/
theorem witness_step_takes_front :
    (∃ (c : Instr) (rest : List Instr) (s : State), s.pending = c :: rest) ∧
    (∃ (s : State), s.tidy = true ∧ s.pending = []) :=
  ⟨⟨.dmaHeadPoll 3, [.dmaHeadPoll 4], { up with pending := [.dmaHeadPoll 3, .dmaHeadPoll 4] }, by decide +kernel⟩,
   ⟨q, by decide +kernel⟩⟩

/-- What the clauses of `Obligations.SoftResetCommand` ask holds together somewhere. -/
theorem witness_soft_reset_command :
    (∃ (s : State), Ready s) ∧
    (∃ (v : Word) (s : State), Ready s ∧ v ≠ 1952805746) ∧
    (∃ (data : List Byte) (s : State), Ready s ∧ data.length < 4) ∧
    (∃ (data : List Byte) (s : State), Ready s ∧ 4 < data.length) ∧
    (∃ (client : Byte) (s : State), Ready s ∧ canServes s = true ∧ sessionFree s client = true) :=
  ⟨⟨up, by unfold Ready NoneWaits; decide +kernel⟩,
   ⟨5, up, by unfold Ready NoneWaits; decide +kernel⟩,
   ⟨[1,2], up, by unfold Ready NoneWaits; decide +kernel⟩,
   ⟨[1,2,3,4,5], { up with boot := { up.boot with pending := some 4 } }, by unfold Ready NoneWaits; decide +kernel⟩,
   ⟨3, { up with can := { up.can with nmt := 5 } }, by unfold Ready NoneWaits; decide +kernel⟩⟩

end Sys2Proof.Tests.Access
end

