-- ==== Sys2Proof/Tests/WitnessControl.lean ====
section
/-! SUPPORT. Witnesses: for each statement, states and operands that meet what its clauses ask. -/

namespace Sys2Proof.Tests.Control

open Sys2Proof.Machine Sys2Proof.Claims

set_option maxRecDepth 100000
set_option Elab.async false

def st (rs : List (Reg × Nat)) (s : State := {}) : State := rs.foldl (fun s x => s.wr x.1 x.2) s

def up : State := { boot := { booted := true, meterE := false } }

def fz (slot : Nat) (rung : Nat := 0) (holder : Nat := 0xFF) (state : Nat := 2) (ops : List Word := []) (inPos : List (Option Nat) := []) (outPos : List Nat := []) (prio : Nat := 1) (order : Nat := 0): Firing :=
  { slot := slot, rung := rung, index := 7, prio := prio, inPos := inPos, outPos := outPos, late := 0, void := 0, order := order, state := state, holder := holder, status := 0, done := false, overdue := false, ops := ops }

def hS : List Word := [0x44000000 + 301, 0xFFFFFFFF, 0xFFFFFFFF, 0xFFFFFFFF, 0xFFFFFFFF]

def c1 (x : Nat) : State := ((st [(Obj.coreState 3, x),(Obj.coreFaults 3, 3),(Obj.coreResets 3, 7)] up).setMemWord 0x30C0000 0x21234).setCore 3 { accept := 3, grace := true, node := some 301 }

def iw : State := { (st [(Obj.coreState 3, 1)] up).setCore 3 { tArmed := true, tcmp := 55, ipend := 0xF0 } with slate := 0x500000055 }

def hf : Firing := fz 301 (holder := 3) (state := 4)

def hs : State := { (c1 1).setNode 301 { on := true, hdr := hS } with firings := [hf] }

def es (h : Nat) : State := { (st [(Obj.supPolicy, 7)] up).setNode 301 { on := true, hdr := hS } with firings := [fz 301 (holder := h) (state := 4), fz 302 (holder := h) (state := 3)] }

def scS : State := st [(Obj.pgState 2,1),(Obj.pgOwner 2, 0x13),(Obj.supResult, 9),(Obj.laneState 5, laneArmed)] (hs.setPan 2 {code := 0x13})

def pg (x : Nat) (y : PanGroup := {}) (rs : List (Reg × Nat) := []): State := (((st ([(Obj.pgState 2,x),(Obj.pgHandovers 2,4)] ++ rs) up).setPan 2 y).setMemWord 0x1400000 5).setMemWord 0x1600000 6

def D (ws : List Nat) : List Word := ws.map (BitVec.ofNat 32)

def putW (l : List (Nat × Nat)) (s : State) : State := l.foldl (fun s x => s.setMemWord x.1 (BitVec.ofNat 32 x.2)) s

def dW : List Nat := [0xC0000001, 0, 0x1001030, 0x4000010, 0x00000050, 0, 0x00000050, 0]

def dS (x : Nat) (ws : List Nat := dW) (y : DmaChan := {}) (rs : List (Reg × Nat) := []): State :=
  putW (ws.zipIdx.map fun w => (0x1000000 + 4*w.2, w.1)) (putW ((List.range 40).map fun k => (0x1001000+4*k, 0x01010101*k + 0x1000)) (((st ([(Obj.pgState 0,1),(Obj.dmaState 5,x),(Obj.dmaRingBase 5,0x1000000),(Obj.dmaRingSize 5,2),(Obj.dmaFaults 5,15),(Obj.dmaRetries 5,3)] ++ rs) up).setPan 0 {code := 0x20}).setDma 5 y))

def bf : List DmaBeat := [⟨0, List.replicate 16 7⟩, ⟨16, (List.range 64).map (BitVec.ofNat 8)⟩]

/-- What the clauses of `Obligations.CoreControls` ask holds together somewhere. -/
theorem witness_core_controls :
    (∃ (c : Fin 8) (s : State), Ready s ∧ ↑c < 2) ∧
    (∃ (c : Fin 8) (s : State), Ready s ∧ 2 ≤ ↑c ∧ s.rd (Obj.coreState ↑c) = 0) ∧
    (∃ (c : Fin 8) (s : State), Ready s ∧ 2 ≤ ↑c ∧ s.rd (Obj.coreState ↑c) ≠ 0) ∧
    (∃ (s : State), Ready s) ∧
    (∃ (c : Fin 8) (s : State), s.tidy = true ∧ coreRuns s ↑c = true) ∧
    (∃ (c : Fin 8) (s : State), s.tidy = true ∧ let x := s.core ↑c; awake s = true ∧ x.tArmed = true ∧ BitVec.toNat x.tcmp ≤ BitVec.toNat
      s.slate) ∧
    (∃ (c : Fin 8) (s : State), s.tidy = true ∧ let x := s.core ↑c; x.tArmed = false ∨ BitVec.toNat s.slate < BitVec.toNat
      x.tcmp) :=
  ⟨⟨1, c1 0, by unfold Ready NoneWaits; decide +kernel⟩,
   ⟨3, c1 0, by unfold Ready NoneWaits; decide +kernel⟩,
   ⟨3, raise 0x5022 3 0 0 (c1 1), by unfold Ready NoneWaits; decide +kernel⟩,
   ⟨c1 0, by unfold Ready NoneWaits; decide +kernel⟩,
   ⟨3, iw, by decide +kernel⟩,
   ⟨3, iw, by decide +kernel⟩,
   ⟨3, {iw with slate := 54}, by decide +kernel⟩⟩

/-- What the clauses of `Obligations.Supervisor` ask holds together somewhere. -/
theorem witness_supervisor :
    (∃ (slot : Fin 512) (s : State) (f : Firing), s.tidy = true ∧ awake s = true ∧ List.find? (fun (f : Firing) => f.slot ==
      ↑slot && f.rung == 0 && f.state == 4 && decide (f.holder < 8) && !f.overdue) s.firings = some f) ∧
    (∃ (c : Fin 8) (s : State), s.tidy = true ∧ awake s = true ∧ (s.core ↑c).grace = true ∧ (s.core ↑c).node = none ∧ s.rd
      (Obj.coreState ↑c) = 2) ∧
    (∃ (c : Fin 8) (s : State), s.tidy = true ∧ awake s = true ∧ (s.core ↑c).grace = true ∧ 2 ≤ ↑c ∧ (s.core ↑c).node ≠ none) ∧
    (∃ (e : Fin 16) (s : State), s.tidy = true ∧ (s.rd Obj.supPolicy).testBit 2 = true ∧ (runningOn s (16 + ↑e)).isSome =
      true) ∧
    (∃ (s : State), s.tidy = true ∧ (s.rd Obj.supPolicy).testBit 2 = true ∧ (runningOn s 32).isSome = true) ∧
    (∃ (g : Fin 8) (s : State), Ready s ∧ s.rd (Obj.pgState ↑g) = 1) ∧
    (∃ (ch : Fin 32) (s : State), Ready s ∧ s.rd (Obj.dmaState ↑ch) = dmaIdle) ∧
    (∃ (c : Fin 8) (s : State), Ready s ∧ ↑c < 2) ∧
    (∃ (c : Fin 8) (s : State), Ready s ∧ 2 ≤ ↑c) ∧
    (∃ (s : State), Ready s) ∧
    (∃ (n : Fin 64) (s : State), Ready s ∧ laneSt s ↑n = laneArmed) ∧
    (∃ (n : Fin 64) (s : State), Ready s ∧ laneSt s ↑n = laneSafe) ∧
    (∃ (h : BitVec 16) (s : State), Ready s ∧ handleValid h.toNat = true ∧ findHandle s h.toNat = none) ∧
    (∃ (h : BitVec 16) (s : State), Ready s ∧ ∃ (k : Handle) (q : Nat) (src : Nat) (fmt : Nat), handleValid h.toNat = true ∧
      findHandle s h.toNat = some k ∧ k.op = Op.irLoad q src fmt) :=
  ⟨⟨301, hs.wr Obj.supPolicy 7, hf, by decide +kernel⟩,
   ⟨3, (hs.wr (Obj.coreState 3) 2).setCore 3 {grace := true}, by decide +kernel⟩,
   ⟨3, hs.wr Obj.supPolicy 7, by decide +kernel⟩,
   ⟨2, es 0x12, by decide +kernel⟩,
   ⟨es 0x20, by decide +kernel⟩,
   ⟨2, scS, by unfold Ready NoneWaits; decide +kernel⟩,
   ⟨5, (es 0x20).wr (Obj.dmaState 5) dmaIdle |>.wr (Obj.laneState 5) laneSafe, by unfold Ready NoneWaits; decide +kernel⟩,
   ⟨1, {scS with handles := [⟨1,1,.irLoad 9 7 1,0,0⟩] }, by unfold Ready NoneWaits; decide +kernel⟩,
   ⟨3, scS, by unfold Ready NoneWaits; decide +kernel⟩,
   ⟨scS, by unfold Ready NoneWaits; decide +kernel⟩,
   ⟨5, scS, by unfold Ready NoneWaits; decide +kernel⟩,
   ⟨5, (es 0x20).wr (Obj.dmaState 5) dmaIdle |>.wr (Obj.laneState 5) laneSafe, by unfold Ready NoneWaits; decide +kernel⟩,
   ⟨0x1001, scS, by unfold Ready NoneWaits; decide +kernel⟩,
   ⟨0x1001, {scS with handles := [⟨1,1,.irLoad 9 7 1,0,0⟩] }, (by unfold Ready NoneWaits; decide +kernel), ⟨1,1,.irLoad 9 7
     1,0,0⟩, 9, 7, 1, by decide +kernel⟩⟩

/-- What the clauses of `Obligations.PanGroups` ask holds together somewhere. -/
theorem witness_pan_groups :
    (∃ (g : Fin 8) (v : Byte) (s : State), s.tidy = true ∧ let k : Nat := ↑g; let st := s.rd (Obj.pgState k); Ready s ∧
      ownerGood (BitVec.toNat v) = true ∧ st = 1) ∧
    (∃ (g : Fin 8) (v : Byte) (s : State), s.tidy = true ∧ let k : Nat := ↑g; let st := s.rd (Obj.pgState k); Ready s ∧
      ownerGood (BitVec.toNat v) = true ∧ (st = 2 ∨ st = 3)) ∧
    (∃ (v : Byte) (s : State), s.tidy = true ∧ Ready s ∧ ownerGood (BitVec.toNat v) = false) ∧
    (∃ (g : Fin 8) (s : State), s.tidy = true ∧ let k : Nat := ↑g; let x := s.pan k; let st := s.rd (Obj.pgState k); st = 2 ∧
      x.thenClear = false ∧ awake s = true) ∧
    (∃ (g : Fin 8) (s : State), s.tidy = true ∧ let k : Nat := ↑g; let x := s.pan k; let st := s.rd (Obj.pgState k); st = 2 ∧
      x.thenClear = true ∧ awake s = true) ∧
    (∃ (g : Fin 8) (s : State), s.tidy = true ∧ let k : Nat := ↑g; let x := s.pan k; let st := s.rd (Obj.pgState k); st = 3 ∧
      x.clearing = true ∧ awake s = true) ∧
    (∃ (g : Fin 8) (s : State), s.tidy = true ∧ let k : Nat := ↑g; let st := s.rd (Obj.pgState k); Ready s ∧ st = 1 ∧
      groupInUse s k = true) ∧
    (∃ (g : Fin 8) (s : State), s.tidy = true ∧ let k : Nat := ↑g; let st := s.rd (Obj.pgState k); Ready s ∧ st = 0 ∧ s.rd
      (Obj.pgCompat k) = 0) ∧
    (∃ (g : Fin 8) (s : State), s.tidy = true ∧ let k : Nat := ↑g; let st := s.rd (Obj.pgState k); Ready s ∧ st = 1 ∧ s.rd
      (Obj.pgCompat k) = 1 ∧ groupInUse s k = false) ∧
    (∃ (g : Fin 8) (s : State), s.tidy = true ∧ let k : Nat := ↑g; let x := s.pan k; let st := s.rd (Obj.pgState k);
      x.powering = true ∧ awake s = true ∧ st = 3 ∧ x.revoked = false) ∧
    (∃ (s : State), s.tidy = true ∧ Ready s) :=
  ⟨⟨2, 0x12, pg 1 {}, by unfold Ready NoneWaits; decide +kernel⟩,
   ⟨2, 0x20, pg 3 {powering := true}, by unfold Ready NoneWaits; decide +kernel⟩,
   ⟨0x02, pg 2 {}, by unfold Ready NoneWaits; decide +kernel⟩,
   ⟨2, pg 2 {}, by decide +kernel⟩,
   ⟨2, pg 2 {newOwner := 0x20, thenClear := true, revoked := true}, by decide +kernel⟩,
   ⟨2, pg 3 {newOwner := 0x13, thenClear := true, clearing := true,revoked := true}, by decide +kernel⟩,
   ⟨2, pg 1 {} [(Obj.farGrant 4, 4)], by unfold Ready NoneWaits; decide +kernel⟩,
   ⟨2, pg 0 {}, by unfold Ready NoneWaits; decide +kernel⟩,
   ⟨2, pg 1 {} [(Obj.pgCompat 2, 1)], by unfold Ready NoneWaits; decide +kernel⟩,
   ⟨2, pg 3 {powering := true}, by decide +kernel⟩,
   ⟨pg 1 {}, by unfold Ready NoneWaits; decide +kernel⟩⟩

/-- A descriptor whose destination lies in pan group 0. -/
def panW : List Nat := [0xC0000000, 0, 0x1001030, 0x1100010, 0x00000050, 0, 0x00000050, 0]

def beatS : State := dS dmaActive panW { phase := 1, desc := D panW, rd := 80, buf := bf }

def beatT : State := dS dmaActive panW { phase := 1, desc := D panW, rd := 80, wr := 48, buf := bf, waitWr := true }

/-- `WriteBeatGoes` of channel 5, from what can be evaluated. -/
theorem writeBeatGoes_of {s : State}
    (h : dmaIn s 5 1 = true ∧ (s.dmaCh 5).aborting = false ∧ (s.dmaCh 5).wr < dmaTotal (s.dmaCh 5).desc ∧
      (s.dmaCh 5).wr + (writeBeat s 5).2 ≤ (s.dmaCh 5).rd ∧ dramPaused s (writeBeat s 5).1 = false ∧
      dmaCheck s 5 true (writeBeat s 5).1 = .ok ∧
      (match regionOf (writeBeat s 5).1 with
        | .shadow _ _ => false
        | _ => true) = true ∧ dmaTurn s 1 5 = true ∧
      ∀ e ∈ s.panLog, e.addr + 4 ≤ (writeBeat s 5).1 ∨ (writeBeat s 5).1 + (writeBeat s 5).2 ≤ e.addr) : WriteBeatGoes s 5 := by
  obtain ⟨a, b, c, d, e, f, g, t, l⟩ := h
  exact ⟨a, b, c, d, e, f, fun n o q => by rw [q] at g; exact Bool.false_ne_true g, t, l⟩

/-- What the clauses of `Obligations.DmaChannels` ask holds together somewhere. -/
theorem witness_dma_channels :
    (∃ (ch : Fin 32) (s : State), Ready s ∧ let k : Nat := ↑ch; let st := s.rd (Obj.dmaState k);
      let good := ringGood (s.rd (Obj.dmaRingBase k)) (s.rd (Obj.dmaRingSize k)); st = dmaOff ∧ good = true) ∧
    (∃ (ch : Fin 32) (s : State), Ready s ∧ let k : Nat := ↑ch; let st := s.rd (Obj.dmaState k);
      let good := ringGood (s.rd (Obj.dmaRingBase k)) (s.rd (Obj.dmaRingSize k)); st = dmaOff ∧ good = false) ∧
    (∃ (ch : Fin 32) (s : State), Ready s ∧ let k : Nat := ↑ch; let st := s.rd (Obj.dmaState k); st = dmaIdle ∨ st =
      dmaHalted) ∧
    (∃ (ch : Fin 32) (s : State), Ready s ∧ let k : Nat := ↑ch; let x := s.dmaCh k; let st := s.rd (Obj.dmaState k); st =
      dmaIdle ∧ x.waitRd = false ∧ dmaRuns s = true ∧ dmaCheck s k false (headAddr s k) = FabResult.ok ∧ BitVec.getLsbD
      ((headDesc s k).headD 0) 31 = true ∧ descGood (headDesc s k) = true) ∧
    (∃ (ch : Fin 32) (s : State), Ready s ∧ let k : Nat := ↑ch; let st := s.rd (Obj.dmaState k); st ≠ dmaIdle) ∧
    (∃ (ch : Fin 32) (s : State), Ready s ∧ let k : Nat := ↑ch; let x := s.dmaCh k; let st := s.rd (Obj.dmaState k); st =
      dmaActive ∧ x.aborting = false ∧ x.phase = 1 ∧ x.issSt = false) ∧
    (∃ (ch : Fin 32) (s : State), Ready s ∧ let k : Nat := ↑ch; let x := s.dmaCh k; let st := s.rd (Obj.dmaState k); st =
      dmaActive ∧ x.aborting = false ∧ x.issSt = true) ∧
    (∃ (ch : Fin 32) (s : State), Ready s ∧ let k : Nat := ↑ch; let st := s.rd (Obj.dmaState k); st ≠ dmaHalted) ∧
    (∃ (ch : Fin 32) (s : State), Ready s ∧ let k : Nat := ↑ch; let st := s.rd (Obj.dmaState k); st = dmaHalted ∧ dmaCheck s k
      true (headAddr s k) = FabResult.ok) ∧
    (∃ (s : State), Ready s) :=
  ⟨⟨5, dS dmaOff, by unfold Ready NoneWaits; decide +kernel⟩,
   ⟨5, (dS dmaOff).wr (Obj.dmaRingBase 5) 4, by unfold Ready NoneWaits; decide +kernel⟩,
   ⟨5, dS dmaIdle, by unfold Ready NoneWaits; decide +kernel⟩,
   ⟨5, dS dmaIdle, by unfold Ready NoneWaits; decide +kernel⟩,
   ⟨5, dS dmaOff, by unfold Ready NoneWaits; decide +kernel⟩,
   ⟨5, dS dmaActive dW {phase := 1, desc := D dW}, by unfold Ready NoneWaits; decide +kernel⟩,
   ⟨5, dS dmaActive dW {phase := 1, desc := D dW, issSt := true}, by unfold Ready NoneWaits; decide +kernel⟩,
   ⟨5, dS dmaOff, by unfold Ready NoneWaits; decide +kernel⟩,
   ⟨5, raise 0x7002 5 0 0 (dS dmaHalted), by unfold Ready NoneWaits; decide +kernel⟩,
   ⟨dS dmaOff, by unfold Ready NoneWaits; decide +kernel⟩⟩

/-- What its clauses on transfers ask. -/
theorem witness_dma_transfers :
    (∃ (ch : Fin 32) (s : State), s.tidy = true ∧ let k : Nat := ↑ch; let x := s.dmaCh k; let a := headAddr s k; dmaTurn s 0 k
      = true ∧ s.rd (Obj.dmaState k) = dmaIdle ∧ x.waitRd = false ∧ dmaCheck s k false a = FabResult.ok ∧ BitVec.getLsbD
      ((headDesc s k).headD 0) 31 = true ∧ descGood (headDesc s k) = true) ∧
    (∃ (ch : Fin 32) (s : State), s.tidy = true ∧ let k : Nat := ↑ch; let x := s.dmaCh k; let a := headAddr s k; dmaTurn s 0 k
      = true ∧ s.rd (Obj.dmaState k) = dmaIdle ∧ x.waitRd = false ∧ dmaCheck s k false a = FabResult.ok ∧ BitVec.getLsbD
      ((headDesc s k).headD 0) 31 = true ∧ descGood (headDesc s k) = false ∧ dmaCheck s k true a = FabResult.ok) ∧
    (∃ (ch : Fin 32) (s : State), s.tidy = true ∧ let k : Nat := ↑ch; let x := s.dmaCh k; let a := headAddr s k; dmaTurn s 0 k
      = true ∧ s.rd (Obj.dmaState k) = dmaIdle ∧ x.waitRd = false ∧ dmaCheck s k false a = FabResult.ok ∧ BitVec.getLsbD
      ((headDesc s k).headD 0) 31 = false) ∧
    (∃ (ch : Fin 32) (s : State), s.tidy = true ∧ let k : Nat := ↑ch; let x := s.dmaCh k; ReadBeatDue s k ∧ x.waitRd = false ∧
      dmaCheck s k false (readBeat s k).1 = FabResult.ok ∧ dramHits s [readBeat s k] = []) ∧
    (∃ (ch : Fin 32) (s : State), s.tidy = true ∧ let k : Nat := ↑ch; dmaTurn s 0 k = false) ∧
    (∃ (ch : Fin 32) (s : State), s.tidy = true ∧ let k : Nat := ↑ch; dmaTurn s 1 k = false) ∧
    (∃ (s : State), s.tidy = true) ∧
    (∃ (ch : Fin 32) (s : State), s.tidy = true ∧ let k : Nat := ↑ch; let x := s.dmaCh k; WriteBeatGoes s k ∧ x.waitWr =
      false) ∧
    (∃ (ch : Fin 32) (s : State), s.tidy = true ∧ let k : Nat := ↑ch; let x := s.dmaCh k; WriteBeatGoes s k ∧ x.waitWr = true) ∧
    (∃ (ch : Fin 32) (s : State), s.tidy = true ∧ let k : Nat := ↑ch; let x := s.dmaCh k; ReadBeatDue s k ∧ x.waitRd = true ∧
      x.waitWr = false ∧ dmaCheck s k false (readBeat s k).1 = FabResult.ok ∧ readFails s [readBeat s k] = false) ∧
    (∃ (ch : Fin 32) (s : State), s.tidy = true ∧ let k : Nat := ↑ch; let x := s.dmaCh k; let a := headAddr s k; dmaIn s k 1 =
      true ∧ dmaTurn s 1 k = true ∧ x.aborting = false ∧ x.waitWr = false ∧ x.wr = dmaTotal x.desc ∧ dmaCheck s k true a =
      FabResult.ok) ∧
    (∃ (ch : Fin 32) (s : State), s.tidy = true ∧ let k : Nat := ↑ch; let x := s.dmaCh k; let a := headAddr s k; dmaIn s k 4 =
      true ∧ dmaTurn s 1 k = true ∧ x.waitWr = false ∧ dmaCheck s k true a = FabResult.ok) ∧
    (∃ (ch : Fin 32) (s : State), s.tidy = true ∧ let k : Nat := ↑ch; let x := s.dmaCh k; let a := headAddr s k; dmaIn s k 2 =
      true ∧ dmaTurn s 1 k = true ∧ x.waitWr = false ∧ dmaCheck s k true a = FabResult.ok) ∧
    (∃ (ch : Fin 32) (s : State), s.tidy = true ∧ let k : Nat := ↑ch; let x := s.dmaCh k; dmaIn s k 3 = true ∧ x.aborting =
      false ∧ quiet s = false ∧
      let next := s.rd (Obj.dmaRingBase k) + 32 * ((s.rd (Obj.dmaHead k) + 1) % s.rd (Obj.dmaRingSize k)); dmaCheck s k false
      next = FabResult.ok ∧ BitVec.getLsbD (fabRead s next) 31 = false) ∧
    (∃ (ch : Fin 32) (s : State), s.tidy = true ∧ let k : Nat := ↑ch; let x := s.dmaCh k; dmaIn s k 1 = true ∧ x.aborting =
      true ∧ x.abortSup = false ∧ x.issSt = false ∧ x.issWr = false ∧ ringWritable s k = true) :=
  ⟨⟨5, dS dmaIdle, by decide +kernel⟩,
   ⟨5, dS dmaIdle (0xC0010001 :: dW.tail), by decide +kernel⟩,
   ⟨5, dS dmaIdle (0x40010001 :: dW.tail), by decide +kernel⟩,
   ⟨5, dS dmaActive dW {phase := 1, desc := D dW}, by unfold ReadBeatDue; decide +kernel⟩,
   ⟨5, (dS dmaActive dW {phase := 1, desc := D dW} [(Obj.dmaState 7, 2),(Obj.dmaPrio 7, 3)]).setDma 7
     {phase := 1, desc := D dW}, by decide +kernel⟩,
   ⟨5, (dS dmaActive dW {phase := 2, desc := D dW} [(Obj.dmaState 7, 2),(Obj.dmaPrio 7, 3)]).setDma 7
     {phase := 2, desc := D dW}, by decide +kernel⟩,
   ⟨dS dmaIdle, by decide +kernel⟩,
   ⟨5, beatS, by decide +kernel, writeBeatGoes_of (by decide +kernel), by decide +kernel⟩,
   ⟨5, beatT, by decide +kernel, writeBeatGoes_of (by decide +kernel), by decide +kernel⟩,
   ⟨5, dS dmaActive dW {phase := 1, desc := D dW, waitRd := true, rdTries := 1}, by unfold ReadBeatDue; decide +kernel⟩,
   ⟨5, dS dmaActive dW {phase := 1, desc := D dW, rd := 80, wr := 80, retryMax := 2}, by decide +kernel⟩,
   ⟨5, dS dmaActive dW {phase := 4, desc := D dW, rd := 16, wr := 0, retryMax := 2, halt := (1, 4)}, by decide +kernel⟩,
   ⟨5, dS dmaActive dW {phase := 2, desc := D dW, rd := 80, wr := 80, retryMax := 2}, by decide +kernel⟩,
   ⟨5, dS dmaActive dW {phase := 3, desc := D dW, rd := 80, wr := 80, retryMax := 2}, by decide +kernel⟩,
   ⟨5, dS dmaActive dW {phase := 1, desc := D dW, rd := 80, wr := 16, aborting := true, retryMax := 1}, by decide +kernel⟩⟩

end Sys2Proof.Tests.Control
end

