-- ==== Sys2Proof/Tests/WitnessEngines.lean ====
section
/-! SUPPORT. Witnesses: for each statement, states and operands that meet what its clauses ask. -/

namespace Sys2Proof.Tests.Engines

open Sys2Proof.Machine Sys2Proof.Claims

set_option maxRecDepth 100000
set_option Elab.async false

def nextOf : Host.Outcome State Fault Refusal → State
  | .next t => t
  | _ => {}

def st (rs : List (Reg × Nat)) (s : State := {}) : State := rs.foldl (fun s x => s.wr x.1 x.2) s

def up : State := { boot := { booted := true, meterE := false } }

def A : Path := .link

def fz (slot : Nat) (rung : Nat := 0) (holder : Nat := 0xFF) (state : Nat := 2) (ops : List Word := []) (inPos : List (Option Nat) := []) (outPos : List Nat := []) (prio : Nat := 1) (order : Nat := 0): Firing :=
  { slot := slot, rung := rung, index := 7, prio := prio, inPos := inPos, outPos := outPos, late := 0, void := 0, order := order, state := state, holder := holder, status := 0, done := false, overdue := false, ops := ops }

def hE : List Word := [0x00008000 + 300, 0xFFFFFFFF, 0xFFFFFFFF, 0xFFFFFFFF, 0xFFFFFFFF]

def hS : List Word := [0x44000000 + 301, 0xFFFFFFFF, 0xFFFFFFFF, 0xFFFFFFFF, 0xFFFFFFFF]

def hE2 (i o : Nat) : List Word := [BitVec.ofNat 32 (0x00008000 + 300 + 0x10000 + 0x80000), BitVec.ofNat 32 (0xFFFF0000 + i), 0xFFFFFFFF, BitVec.ofNat 32 (0xFFFF0000 + o), 0xFFFFFFFF]

def sE (fs : List Firing) (rs : List (Reg × Nat) := []) : State :=
  { ((st ((Obj.pgState 0,1) :: rs) up).setNode 300 { on := true, hdr := hE }).setNode 301 { on := true, hdr := hS } with firings := fs }

def sE32 : State := { (sE [fz 300] [] ) with firings := (fz 300) :: (List.range 16).map fun k => fz (310+k) (holder := 0x10 + k) (state := 4) }

def dr : Nat := 0x104000000 / 64

def ob (code l : Nat) (ws : List Nat) (fl : Nat := 0) : List Word := BitVec.ofNat 32 (code + fl + l * 0x10000) :: ws.map (BitVec.ofNat 32)

def dirty : List Host.Cell := (List.range 64).map fun k => (0x104000000 + 0x40*k*4+3, (7 : Byte))

def sX (ops : List Word) : State := { sE [fz 300 (holder := 0x13) (state := 4) (ops := ops)] with mem := dirty }

def fx (ops : List Word) : Firing := fz 300 (holder := 0x13) (state := 4) (ops := ops)

def o1 := ob 1 3 [dr, dr+16, 0,0,0,0,0]

/-- An operation whose source and destination lie in pan group 0, which crystallizer 3 owns. -/
def o1p := ob 1 3 [0x40000, 0x40010, 0, 0, 0, 0, 0]

def panX : State := (st [(Obj.pgState 0, 1)] (sX o1p)).setPan 0 { code := 0x33 }

def obad := ob 4 2 [dr, dr+16, dr+32,dr+40,0x20001,0,0]

def cpS : State := (((((st [(Obj.cpRing 9, 4),(Obj.cpBase 9, 0x4000000),(Obj.cpHead 9,128),(Obj.cpLength 9,1024),(Obj.rpBlock 4, 3),(Obj.rpDepth 4,2),(Obj.rpChannels 4,1),(Obj.rpSendEdge 4, 20),(Obj.rpReturnEdge 4,21),(Obj.rpSendAddr 4,0x400000),(Obj.rpReturnAddr 4,0x401000),(Obj.pgState 0,1),(Obj.cpResult 9, 77),(Obj.edgeBase 21, 0x1004000),(Obj.edgePosBytes 21, 256),(Obj.edgeDepth 21, 2)] up).setRing 4 { on := true, ret := [⟨0,true,false,false,false⟩,⟨1,true,false,false,false⟩] }).setEdge 20 { on := true, prod := 2004, owned := true}).setEdge 21 { on := true, cons := 2004, owned := true}).setPath 9 { loaded := true, loadB := 64, loadK := 2 })

def cpOn : State := nextOf (exec (.cpEnableWrite .link 9 1) cpS)

def cpF : State := { cpOn with firings := [fz 9 (holder := 0x13) (state := 4) (inPos := [some 0]) (outPos := [1])] }

def rpS : State := (st [(Obj.rpBlock 4, 3),(Obj.rpDepth 4,2),(Obj.rpChannels 4,1),(Obj.rpSendEdge 4, 20),(Obj.rpReturnEdge 4,21),(Obj.rpSendAddr 4,0x400000),(Obj.rpReturnAddr 4,0x401000),(Obj.pgState 0,1),(Obj.rpResult 4, 77)] up)

def asS (m : Nat) : State := st [(Obj.asMode 2, m),(Obj.asGroup 2, 1),(Obj.asRate 2, 48000),(Obj.asSrcRate 2,44100),(Obj.portRate 1,48000),(Obj.streamEnable 1,3),(Obj.asEdge 2, 30),(Obj.inEdge 1,31),(Obj.outEdge 1,32),(Obj.asHouseDepth 2,4),(Obj.asHouseAddr 2,0x400000),(Obj.asChannels 2,2),(Obj.asHouseBlock 2, 1),(Obj.asDelay 2,400000),(Obj.asFade 2, 32),(Obj.leader,2),(Obj.pgState 0,1)] up

def asOn (m : Nat) : State := { nextOf (exec (.asEnableWrite .link 2 1) (asS m)) with firings := [fz 258 (holder := 0x20) (state := 4) (outPos := [1])]}

def fd (stt : Nat) : Firing := { fz 300 (holder := 0x13) (state := 4) (inPos := [some 0]) (outPos := [1]) with done := true, status := BitVec.ofNat 16 stt }

def fcS (stt : Nat) : State := { (((((st [(Obj.pgState 0,1),(Obj.nodeHome 300,0x400000),(Obj.edgeDepth 40,2),(Obj.edgeDepth 41,2),(Obj.nodeState 300,4)] up).setNode 300 { on := true, hdr := hE2 40 41 }).setEdge 40 { on := true, cons := 301, tokens := [⟨7,some 0,false,true⟩]}).setEdge 41 {on := true, prod := 301, taken := [1]})) with firings := [fd stt] }

def sw : State := (((st [(Obj.coreState 2,1),(Obj.edgeDepth 40,4),(Obj.edgeDepth 41,2)] up).setEdge 40 { on := true, posted := 3, next := 2, tokens := [⟨2,some 1,false,false⟩]}).setEdge 41 {on := true, prod := 301, taken := [1]})

def rw (x : RetPos) (w : RetPos) : State := (((cpS.wr (Obj.coreState 2) 1).setEdge 21 { on := true, cons := 2004, owned := true, prod := 0, posted := 3}).setRing 4 { on := true, ret := [x, w] })

def neS (w0 : Nat) : State := (((st [(Obj.pgState 0,1),(Obj.nodeSel 1, 300),(Obj.edgeSel 1, 40),(Obj.nodeHome 300, 0x400000),(Obj.nodeFirings 300, 9),(Obj.nodeResult 300, 9),(Obj.edgeBase 40,0x1000000),(Obj.edgePosBytes 40,64),(Obj.edgeDepth 40,4),(Obj.edgePosted 40, 8),(Obj.edgeResult 40,5),(Obj.schFaults,31),(Obj.schRefused,4)] up).setMemWord 0x1000000 (BitVec.ofNat 32 w0)).setMemWord 0x1000004 0xFFFF0029 |>.setMemWord 0x1000008 0xFFFFFFFF |>.setMemWord 0x100000C 0xFFFFFFFF |>.setMemWord 0x1000010 0xFFFFFFFF).setEdge 41 {on := true}

def ilS : State := st [(Obj.irPath, 9),(Obj.irSource,0x4000000),(Obj.irFormat,1)] cpS

def ild : State := nextOf (exec (.irLoadStart .link) ilS)

def lck (m : Nat) : State := let s := nextOf (exec (.asEnableWrite .link 2 1) (asS m)); s.setConv 2 { s.conv 2 with good := 16 }

/-- What the clauses of `Obligations.Handovers` ask holds together somewhere. -/
theorem witness_handovers :
    (∃ (s : State) (f : Firing) (h : Nat), s.tidy = true ∧ pickFiring (fun (f : Firing) => mayDispatch s f && firingClassE s f
      && (engineFor s f).isSome) s = some f ∧ engineFor s f = some h) ∧
    (∃ (s : State) (f : Firing) (c : Nat), s.tidy = true ∧ pickFiring (fun (f : Firing) => mayDispatch s f && !firingClassE s f
      && !(eligibleCores s f).isEmpty) s = some f ∧ longestWaiting s (eligibleCores s f) = some c) :=
  ⟨⟨sE32, fz 300, 0x10, by decide +kernel⟩,
   ⟨(sE [fz 301] [(Obj.coreState 2, 2), (Obj.coreState 6, 2), (Obj.nodeHome 301, 0x400000)]).setCore 2
     { waitSince := 5, getwReg := 3 }, fz 301, 6, by decide +kernel⟩⟩

/-- What the clauses of `Obligations.EngineOps` ask holds together somewhere. -/
theorem witness_engine_ops :
    (∃ (i : Instr) (e : Fin 16) (code : Nat) (s : State) (f : Firing), cxOp i = some (e, code) ∧ s.tidy = true ∧ runningOn s (16
      + ↑e) = some f ∧ 272 ≤ f.slot ∧ opGood f.ops = true ∧ opCode f.ops = code ∧ cxAllowed s f ↑e ∧ readFails s (List.map
      (fun (r : Nat × Nat) => (r.1, 4 * r.2)) (cxSpans f.ops).1) = false) ∧
    (∃ (i : Instr) (e : Fin 16) (code : Nat) (s : State) (f : Firing), cxOp i = some (e, code) ∧ s.tidy = true ∧ runningOn s (16
      + ↑e) = some f ∧ 272 ≤ f.slot ∧ opGood f.ops = false) ∧
    (∃ (i : Instr) (e : Fin 16) (code : Nat) (s : State) (f : Firing), cxOp i = some (e, code) ∧ s.tidy = true ∧ runningOn s (16
      + ↑e) = some f ∧ 272 ≤ f.slot ∧ opGood f.ops = true ∧ opCode f.ops ≠ code) ∧
    (∃ (v : Fin 16) (s : State) (f : Firing), s.tidy = true ∧ runningOn s 32 = some f ∧ f.slot = 256 + ↑v ∧
      let dst := posBase s (convDest s ↑v) (f.outPos.headD 0); let b := (convBlocks s ↑v).2; let n := convChannels s ↑v;
      let k := BitVec.toNat (f.ops.headD 0); let src := List.take k (convWaiting s ↑v); Lands s f dst (4 + b * n) ∧ (∀ j < (16
      + 4 * b * n + 63) / 64, engCheck s f 80 true (dst + 64 * j) = FabResult.ok) ∧ (∀ a ∈ src, ∀ j < (convSrcBytes s ↑v + 63)
      / 64, fabCheck masterSluice false (a + 64 * j) s = FabResult.ok) ∧ readFails s (List.map (fun (a : Nat) => (a,
      convSrcBytes s ↑v)) src) = false) :=
  ⟨⟨.cxFwd 3, _, _, panX, fx o1p, rfl, by unfold cxAllowed; decide +kernel⟩,
   ⟨.cxTail 3, _, _, sX obad, fx obad, rfl, by decide +kernel⟩,
   ⟨.cxInv 3, _, _, sX o1, fx o1, rfl, by decide +kernel⟩,
   ⟨2, asOn 0, fz 258 (holder := 0x20) (state := 4) (outPos := [1]), by unfold Lands; decide +kernel⟩⟩

theorem cpS_refusal : cpRefusal cpS 9 = 0 := by
  have d : 0x100000000 ≤ dramSize := by unfold dramSize; split <;> decide
  have e : cpS.rd (Obj.cpBase 9) + workBytes (cpUni cpS 9) (buildRungs cpS 9) ≤ 0x100000000 := by decide +kernel
  have b : 0x4000000 ≤ cpS.rd (Obj.cpBase 9) := by decide +kernel
  unfold cpRefusal
  rw [if_neg (by decide +kernel), if_neg (by decide +kernel), if_neg (by decide +kernel), if_neg (by omega),
    if_neg (by decide +kernel), if_neg (by decide +kernel)]

/-- What the clauses of `Obligations.EngineSetup` ask holds together somewhere. -/
theorem witness_engine_setup :
    (∃ (r : Fin 256) (s : State), Ready s ∧ (s.ring ↑r).on = false ∧ rpRefusal s ↑r = 0) ∧
    (∃ (r : Fin 256) (s : State), Ready s ∧ ∃ (x : Nat), (s.ring ↑r).on = false ∧ rpRefusal s ↑r = x ∧ x ≠ 0) ∧
    (∃ (q : Fin 256) (s : State), Ready s ∧ (s.path ↑q).on = false ∧ cpRefusal s ↑q = 0) ∧
    (∃ (q : Fin 256) (s : State), Ready s ∧ ∃ (x : Nat), (s.path ↑q).on = false ∧ cpRefusal s ↑q = x ∧ x ≠ 0) ∧
    (∃ (v : Fin 16) (s : State), Ready s ∧ (s.conv ↑v).on = false ∧ asRefusal s ↑v = 0) ∧
    (∃ (v : Fin 16) (s : State), Ready s ∧ ∃ (x : Nat), (s.conv ↑v).on = false ∧ asRefusal s ↑v = x ∧ x ≠ 0 ∧ x < 24576) ∧
    (∃ (s : State), Ready s ∧ admits s = true) ∧
    (∃ (s : State), Ready s ∧ admits s = false) ∧
    (∃ (s : State) (h : Handle) (q : Nat) (source : Nat) (fmt : Nat), s.tidy = true ∧ List.find? (fun (h : Handle) =>
      match h.op with | Op.irLoad path source fmt => true | x => false) s.handles = some h ∧ awake s = true ∧ h.op = Op.irLoad q source fmt) ∧
    (∃ (v : Fin 16) (s : State), s.tidy = true ∧ awake s = true ∧ s.rd (Obj.asState ↑v) = convAcquire ∧ 16 ≤ (s.conv ↑v).good) :=
  ⟨⟨4, rpS, by unfold Ready NoneWaits; decide +kernel⟩,
   ⟨4, asS 0, (by unfold Ready NoneWaits; decide +kernel), _, (by decide +kernel), rfl, by decide +kernel⟩,
   ⟨9, cpS, by unfold Ready NoneWaits; decide +kernel, by decide +kernel, cpS_refusal⟩,
   ⟨9, rpS, (by unfold Ready NoneWaits; decide +kernel), _, (by decide +kernel), rfl, by decide +kernel⟩,
   ⟨2, asS 0, by unfold Ready NoneWaits; decide +kernel⟩,
   ⟨0, cpS, (by unfold Ready NoneWaits; decide +kernel), _, (by decide +kernel), rfl, by decide +kernel⟩,
   ⟨ilS, by unfold Ready NoneWaits; decide +kernel⟩,
   ⟨ilS.wr Obj.hvUsed 252, by unfold Ready NoneWaits; decide +kernel⟩,
   ⟨ild, ⟨1,1,.irLoad 9 0x4000000 1,0,0⟩, 9, 0x4000000, 1, by decide +kernel⟩,
   ⟨2, lck 0, by decide +kernel⟩⟩

/-- What the clauses of `Obligations.Firings` ask holds together somewhere. -/
theorem witness_firings :
    (∃ (slot : Fin 512) (rung : Fin 8) (s : State) (f : Firing), s.tidy = true ∧ 272 ≤ ↑slot ∧ List.find? (fun (f : Firing) =>
      f.slot == ↑slot && f.rung == ↑rung && f.state == 4 && decide (16 ≤ f.holder)) s.firings = some f ∧ f.done = true ∧
      f.status = 0) ∧
    (∃ (slot : Fin 512) (rung : Fin 8) (s : State) (f : Firing), s.tidy = true ∧ 272 ≤ ↑slot ∧ List.find? (fun (f : Firing) =>
      f.slot == ↑slot && f.rung == ↑rung && f.state == 4 && decide (16 ≤ f.holder)) s.firings = some f ∧ f.done = true ∧
      f.status ≠ 0 ∧ (s.node ↑slot).closing = false) ∧
    (∃ (c : Fin 8) (s : State), s.tidy = true ∧ coreRuns s ↑c = true ∧ ∃ (f : Firing), heldFiring s ↑c = some f) ∧
    (∃ (c : Fin 8) (s : State), s.tidy = true ∧ coreRuns s ↑c = true ∧ heldFiring s ↑c = none) ∧
    (∃ (c : Fin 8) (w : Word) (s : State), s.tidy = true ∧ coreRuns s ↑c = true ∧ let e := (BitVec.extractLsb' 0 10 w).toNat;
      let ed := s.edge e; ∃ (r : Nat) (q : Nat) (void : Bool), ed.on = true ∧ ed.prod = 0 ∧ ringOfEnd ed.cons = some r ∧ creditFor
      s e ed.posted = some (q, void) ∧ ((s.ring r).ret.any fun (x : RetPos) => x.block == ed.posted + ringK s r && x.valid) =
      false) ∧
    (∃ (c : Fin 8) (w : Word) (s : State), s.tidy = true ∧ coreRuns s ↑c = true ∧ let e := (BitVec.extractLsb' 0 10 w).toNat;
      let ed := s.edge e; ∃ (r : Nat), ed.on = true ∧ ed.prod = 0 ∧ ringOfEnd ed.cons = some r ∧ creditFor s e ed.posted = none) ∧
    (∃ (c : Fin 8) (w : Word) (s : State), s.tidy = true ∧ coreRuns s ↑c = true ∧ let e := (BitVec.extractLsb' 0 10 w).toNat;
      let ed := s.edge e; let p := ed.next % s.rd (Obj.edgeDepth e); ed.on = true ∧ ed.prod = 0 ∧ ringOfEnd ed.cons = none ∧ p
      ∉ ed.held) ∧
    (∃ (c : Fin 8) (w : Word) (s : State), s.tidy = true ∧ coreRuns s ↑c = true ∧ let e := (BitVec.extractLsb' 0 10 w).toNat;
      let ed := s.edge e; let p := ed.next % s.rd (Obj.edgeDepth e); ed.on = false ∨ ed.prod ≠ 0 ∨ ringOfEnd ed.cons = none ∧
      p ∈ ed.held) ∧
    (∃ (c : Fin 8) (w : Word) (s : State), s.tidy = true ∧ coreRuns s ↑c = true ∧ let e := (BitVec.extractLsb' 0 10 w).toNat;
      let ed := s.edge e; ∃ (x : Token) (rest : List Token), ed.on = true ∧ ed.cons = 0 ∧ ed.tokens = x :: rest) ∧
    (∃ (c : Fin 8) (w : Word) (s : State), s.tidy = true ∧ coreRuns s ↑c = true ∧ let e := (BitVec.extractLsb' 0 10 w).toNat;
      let ed := s.edge e; ed.on = false ∨ ed.cons ≠ 0 ∨ ed.tokens = []) :=
  ⟨⟨300, 0, fcS 0, fd 0, by decide +kernel⟩,
   ⟨300, 0, fcS 0x5003, fd 0x5003, by decide +kernel⟩,
   ⟨2, (sE [fz 301 (holder := 2) (state := 4)] [(Obj.coreState 2,1)]).setCore 2 {node := some 301}, (by decide +kernel), (by
     decide +kernel), _, rfl⟩,
   ⟨2, sw, by decide +kernel⟩,
   ⟨2, 21, rw ⟨4,true,false,false,false⟩ ⟨7,true,false,false,false⟩, (by decide +kernel), (by decide +kernel), 4, _, _, (by
     decide +kernel), (by decide +kernel), (by decide +kernel), rfl, by decide +kernel⟩,
   ⟨2, 21, rw ⟨4,true,false,false,false⟩ ⟨3,true,false,false,false⟩, (by decide +kernel), (by decide +kernel), 4, by
     decide +kernel⟩,
   ⟨2, 40, sw, by decide +kernel⟩,
   ⟨2, 41, sw, by decide +kernel⟩,
   ⟨2, 40, sw, (by decide +kernel), (by decide +kernel), _, _, (by decide +kernel), (by decide +kernel), rfl⟩,
   ⟨2, 41, sw, by decide +kernel⟩⟩

/-- What the clauses of `Obligations.NodesAndEdges` ask holds together somewhere. -/
theorem witness_nodes_and_edges :
    (∃ (p : Path) (s : State), Ready s ∧ let slot := s.rd (Obj.nodeSel (pathCode p));
      let h := withSlot (homeWord s slot 0) slot :: List.map (fun (k : Nat) => homeWord s slot (k + 1)) (List.range 4); 288 ≤
      slot ∧ s.rd (Obj.nodeState slot) = 0 ∧ nodeRefusal s h = 0 ∧ fabCheck masterSluice true (farByte (s.rd (Obj.nodeHome
      slot))) s = FabResult.ok) ∧
    (∃ (p : Path) (s : State), Ready s ∧ let slot := s.rd (Obj.nodeSel (pathCode p));
      let h := withSlot (homeWord s slot 0) slot :: List.map (fun (k : Nat) => homeWord s slot (k + 1)) (List.range 4); ∃ (r :
      Nat), 288 ≤ slot ∧ s.rd (Obj.nodeState slot) = 0 ∧ nodeRefusal s h = r ∧ r ≠ 0) ∧
    (∃ (p : Path) (s : State), Ready s ∧ let slot := s.rd (Obj.nodeSel (pathCode p)); slot < 288) ∧
    (∃ (p : Path) (s : State), Ready s ∧ let slot := s.rd (Obj.nodeSel (pathCode p)); 288 ≤ slot ∧ (s.node slot).on
      = false) ∧
    (∃ (s : State), Ready s) ∧
    (∃ (p : Path) (s : State), Ready s ∧ let e := s.rd (Obj.edgeSel (pathCode p)); (s.edge e).on = false ∧
      edgePlaced s e = true ∧ tokenSlots s + s.rd (Obj.edgeDepth e) ≤ 4096) ∧
    (∃ (p : Path) (s : State), Ready s ∧ let e := s.rd (Obj.edgeSel (pathCode p)); (s.edge e).on = false ∧
      edgePlaced s e = false) ∧
    (∃ (p : Path) (s : State), Ready s ∧ let e := s.rd (Obj.edgeSel (pathCode p)); (s.edge e).on = true ∧ (s.edge
      e).prod ≠ 0) :=
  ⟨⟨A, neS 0x18000, by unfold Ready NoneWaits; decide +kernel⟩,
   ⟨A, neS 0x4018000, (by unfold Ready NoneWaits; decide +kernel), _, (by decide +kernel), (by decide +kernel), rfl, by
     decide +kernel⟩,
   ⟨A, (neS 0x18000).wr (Obj.nodeSel 1) 5, by unfold Ready NoneWaits; decide +kernel⟩,
   ⟨A, neS 0x18000, by unfold Ready NoneWaits; decide +kernel⟩,
   ⟨neS 0x18000, by unfold Ready NoneWaits; decide +kernel⟩,
   ⟨A, neS 0x18000, by unfold Ready NoneWaits; decide +kernel⟩,
   ⟨A, (neS 0x18000).wr (Obj.edgeBase 40) 0, by unfold Ready NoneWaits; decide +kernel⟩,
   ⟨A, (neS 0x18000).setEdge 40 { on := true, prod := 5}, by unfold Ready NoneWaits; decide +kernel⟩⟩

end Sys2Proof.Tests.Engines
end

