-- ==== Sys2Proof/Tests/WitnessDram.lean ====
section
/-! SUPPORT. Witnesses for the clauses about errors of the DRAM (R267): a beat at the first bytes above the firmware's holds an
error that is not corrected, and a DMA channel, a crystallizer and the link read it. -/

namespace Sys2Proof.Tests.Dram

open Sys2Proof.Machine Sys2Proof.Claims

set_option maxRecDepth 100000
set_option Elab.async false

/-- The beat at 0x1_0400_0000 holds an error, which is corrected where `v` is 1. -/
def bad (v : Nat) (s : State) : State := { s with dramErr := [(0x100000, v)] }

/-- Any master outside the firmware's DRAM may reach the DRAM that both variants have. -/
theorem dram_ok (own : Nat) (wr : Bool) (off : Nat) (s : State) (h : 0x4000000 ≤ off) (h' : off < 0x100000000)
    (r : regionOf (0x100000000 + off) = .dram off) : fabCheck own wr (0x100000000 + off) s = .ok := by
  have d : 0x100000000 ≤ dramSize := by unfold dramSize; split <;> decide
  rw [fabCheck, r]
  simp only [if_neg (show ¬ dramSize ≤ off by omega), show decide (off < 0x4000000) = false from decide_eq_false (by omega),
    Bool.false_and, Bool.false_eq_true, if_false]

theorem dram_first (own : Nat) (wr : Bool) (s : State) : fabCheck own wr 0x104000000 s = .ok :=
  dram_ok own wr 0x4000000 s (by decide) (by decide) (by decide +kernel)

/-- An access that is seen to be allowed: one of DRAM that both variants have, or one whose check can be evaluated. -/
def plain (s : State) (f : Firing) (own : Nat) (wr : Bool) (a : Nat) : Bool :=
  decide (0x104000000 ≤ a ∧ a < 0x200000000 ∧ regionOf a = .dram (a - 0x100000000)) || decide (engCheck s f own wr a = .ok)

theorem plain_ok {s : State} {f : Firing} {own : Nat} {wr : Bool} {a : Nat} (h : plain s f own wr a = true) :
    engCheck s f own wr a = .ok := by
  rcases (Bool.or_eq_true _ _).mp h with h | h
  · obtain ⟨l, u, r⟩ := of_decide_eq_true h
    obtain ⟨o, rfl⟩ : ∃ o, a = 0x100000000 + o := ⟨a - 0x100000000, by omega⟩
    rw [show 0x100000000 + o - 0x100000000 = o by omega] at r
    exact dram_ok _ wr o s (by omega) (by omega) r
  · exact of_decide_eq_true h

def plainAll (s : State) (f : Firing) (own : Nat) (wr : Bool) (l : List (Nat × Nat)) : Bool :=
  l.all fun r => (List.range ((r.2 + 63) / 64)).all fun k => plain s f own wr (r.1 + 64 * k)

theorem plainAll_ok {s : State} {f : Firing} {own : Nat} {wr : Bool} {l : List (Nat × Nat)} (h : plainAll s f own wr l = true) :
    ∀ r ∈ l, ∀ k < (r.2 + 63) / 64, engCheck s f own wr (r.1 + 64 * k) = .ok := by
  intro r hr k hk
  exact plain_ok (List.all_eq_true.mp (List.all_eq_true.mp h r hr) k (List.mem_range.mpr hk))

/-- A descriptor whose source is the first beat of 0x1_0400_0000. -/
def dramW : List Nat := [0xC0000100, 0, 0x04000000, 0x1100010, 0x00000040, 0, 0x00000040, 0]

def dmaS : State := bad 2 (Control.dS dmaActive dramW { phase := 1, desc := Control.D dramW })

/-- The clause of `Obligations.DmaChannels` on a read beat that meets an error. -/
theorem witness_dma_read_error :
    ∃ (ch : Fin 32) (s : State), s.tidy = true ∧ ReadBeatDue s ch ∧ (s.dmaCh ch).waitRd = false ∧
      dmaCheck s ch false (readBeat s ch).1 = .ok ∧ readFails s [readBeat s ch] = true ∧
      (s.dmaCh ch).rdTries < s.rd (Obj.dmaRetries ch) := by
  have e : (readBeat dmaS 5).1 = 0x104000000 := by decide +kernel
  refine ⟨5, dmaS, by decide +kernel, by unfold ReadBeatDue; decide +kernel, by decide +kernel, ?_,
    by decide +kernel, by decide +kernel⟩
  show dmaCheck dmaS 5 false (readBeat dmaS 5).1 = .ok
  rw [e, dmaCheck, dram_first]

/-- A transform of eight samples from the first beat of 0x1_0400_0000. -/
def cxS (v : Nat) : State := bad v (Engines.sX Engines.o1)

/-- The clauses of `Obligations.EngineOps` on a crystallizer's reads of DRAM. -/
theorem witness_engine_read_error (v : Nat) (hv : v = 1 ∨ v = 2) :
    ∃ (i : Instr) (e : Fin 16) (code : Nat) (f : Firing), cxOp i = some (e, code) ∧ (cxS v).tidy = true ∧
      runningOn (cxS v) (0x10 + e) = some f ∧ 272 ≤ f.slot ∧ opGood f.ops = true ∧ opCode f.ops = code ∧ cxAllowed (cxS v) f e ∧
      readFails (cxS v) ((cxSpans f.ops).1.map fun r => (r.1, 4 * r.2)) = decide (v = 2) := by
  have r := plainAll_ok (s := cxS v) (f := Engines.fx Engines.o1) (own := 0x30 + 3) (wr := false)
    (l := (cxSpans (Engines.fx Engines.o1).ops).1.map fun r => (r.1, 4 * r.2)) (by rcases hv with rfl | rfl <;> decide +kernel)
  have w := plainAll_ok (s := cxS v) (f := Engines.fx Engines.o1) (own := 0x30 + 3) (wr := true)
    (l := [((cxSpans (Engines.fx Engines.o1).ops).2.1, 4 * (cxSpans (Engines.fx Engines.o1).ops).2.2)])
    (by rcases hv with rfl | rfl <;> decide +kernel)
  refine ⟨.cxFwd 3, 3, 1, Engines.fx Engines.o1, rfl, ?_⟩
  rcases hv with rfl | rfl
  all_goals
    refine ⟨by decide +kernel, by decide +kernel, by decide +kernel, by decide +kernel, by decide +kernel, ?_, by decide +kernel⟩
    exact ⟨fun x hx k hk => r _ (List.mem_map_of_mem hx) k hk, fun k hk => w _ (List.mem_singleton_self _) k hk,
      fun h => absurd h (by decide +kernel)⟩

def tailF : Firing := Engines.fz 9 (holder := 0x13) (state := 4) (inPos := [some 0]) (outPos := [1])

/-- A path of two rungs whose work area begins at 0x1_0400_0000, with an error in every beat of it. -/
def tailS (v : Nat) : State :=
  let s := (Engines.st [(Obj.edgeBase 20, 0x1002000), (Obj.edgePosBytes 20, 256), (Obj.edgeDepth 20, 2)] Engines.cpS).setNode 9
    { on := true, hdr := [0x9e000, 0xffff0014, 0xffffffff, 0xffff0015, 0xffffffff] } |>.setPath 9
    { loaded := true, loadB := 64, loadK := 2, on := true, rungs := [⟨64, 128, 512, 6, 0, 0⟩, ⟨256, 512, 1024, 2, 0, 0⟩] }
  { s with firings := [tailF], dramErr := (List.range 64).map fun k => (0x100000 + k, v) }

/-- The clauses of `Obligations.EngineOps` on a convolution path's TAIL, whose reads meet an error or none. -/
theorem witness_tail (v : Nat) (hv : v = 1 ∨ v = 2) :
    ∃ (e : Fin 16) (f : Firing), (tailS v).tidy = true ∧ runningOn (tailS v) (0x10 + e) = some f ∧ f.slot < 256 ∧
      (∀ r ∈ tailReads f.slot f.rung f (tailS v), ∀ k < (r.2 + 63) / 64,
        engCheck (tailS v) f (0x30 + e) false (r.1 + 64 * k) = .ok) ∧
      (∀ r ∈ tailWrites f.slot f.rung f (tailS v), ∀ k < (r.2 + 63) / 64,
        engCheck (tailS v) f (0x30 + e) true (r.1 + 64 * k) = .ok) ∧
      readFails (tailS v) (tailReads f.slot f.rung f (tailS v)) = decide (v = 2) := by
  refine ⟨3, tailF, ?_⟩
  rcases hv with rfl | rfl
  all_goals
    refine ⟨by decide +kernel, by decide +kernel, by decide +kernel, ?_, ?_, by decide +kernel⟩
    · exact plainAll_ok (by decide +kernel)
    · exact plainAll_ok (by decide +kernel)

/-- A frame that reads the word at 0x1_0400_0000. -/
def readF : Frame := Access.fr 3 Access.lk 0x40 1 0x04000000 []

def lkS : State := bad 2 { Access.lk with link := { Access.lk.link with memBase := 0x0104 } }

/-- The clause of `Obligations.FramesExecuted` on a word that meets an error. -/
theorem witness_link_read_error :
    linkOp (.readMem readF) = some (3, readF) ∧ LinkUp lkS ∧ FrameGoes lkS 3 readF ∧ readF.len.toNat = 1 ∧
      1 ≤ readF.ready ∧ hostCheck false (wordAddr lkS readF 0) lkS = .ok ∧ readFails lkS [(wordAddr lkS readF 0, 4)] = true := by
  have e : wordAddr lkS readF 0 = 0x104000000 := by decide +kernel
  refine ⟨rfl, by unfold LinkUp; decide +kernel, by unfold FrameGoes FrameWhole; decide +kernel, by decide +kernel,
    by decide +kernel, ?_, by decide +kernel⟩
  rw [e, hostCheck, if_neg (by decide +kernel)]
  exact dram_first masterHost false lkS

/-- R267: an error that is corrected counts and raises nothing. -/
theorem test_dram_corrected :
    (noteReads 0x12 [(0x10400003C, 4)] (bad 1 {})).rd Obj.dramCorrected = 1 ∧
      (noteReads 0x12 [(0x10400003C, 4)] (bad 1 {})).active = [] := by decide +kernel

/-- R267: one that is not counts too and raises fault 0x8003 for its master. -/
theorem test_dram_uncorrectable :
    (noteReads 0x12 [(0x10400003C, 4)] (bad 2 {})).rd Obj.dramUncorrected = 1 ∧
      (noteReads 0x12 [(0x10400003C, 4)] (bad 2 {})).active.map (·.1) = [0x8003] ∧
      (noteReads 0x12 [(0x104000040, 4)] (bad 2 {})).active = [] := by decide +kernel

end Sys2Proof.Tests.Dram
end

