-- ==== Sys2Proof/Tests/WitnessInstructions.lean ====
section
/-! SUPPORT. Witnesses: for each statement, states and operands that meet what its clauses ask. -/

namespace Sys2Proof.Tests.Instructions

open Sys2Proof.Machine Sys2Proof.Claims

set_option maxRecDepth 100000
set_option Elab.async false

def st (rs : List (Reg × Nat)) (s : State := {}) : State := rs.foldl (fun s x => s.wr x.1 x.2) s

def up : State := { boot := { booted := true, meterE := false } }

def R0 : Regs := { a := 0x01F2345678F0000001, x := 0x10, y := 0x20, ox := 2, oy := 0xFFFFFF, bx := 0x8, lx := 0x20, by' := 0x10, ly := 0x14, f := 0x3, pc := 0x20010, sp := 0x800040, ls := Vector.replicate 4 0, epc := 0x20200, lc := Vector.replicate 4 3 }

def cS (r : Regs := R0) (x : Core := {}) (rs : List (Reg × Nat) := []) : State :=
  ((((((st ([(Obj.coreState 3, 1),(Obj.pgState 0,1)] ++ rs) up).setPan 0 {code := 0x13}).setMemWord 0x30E0000 0x12345678).setMemWord (0x30E0000+0x100) 0xFEDCBA98).setMemWord 0x40 0x77777777).setMemWord 0x80 0x80000000).setMemWord 0x44 0x88888888 |>.setCore 3 { x with regs := r, ictl := 0x1, count := 512, vbase := 0x20000 }

def RL : Regs := { R0 with pc := 5, sp := 0 }

def lS (r : Regs := RL) (l : Lane := {}) (rs : List (Reg × Nat) := []) : State :=
  (((st ([(Obj.laneState 3, laneTake),(Obj.triggerGroup 3, 0),(Obj.tgLength 0, 1000),(Obj.pgState 0,1)] ++ rs) up).setMemWord 0xC0040 0x12345678).setMemWord 0xC0080 0x80000000).setMemWord 0xC0044 0xEDCBA987 |>.setLane 3 { l with ran := true, regs := r, slotMap := [(0,0),(10,5),(13,6),(20,9)], busy := true }

def P0 : Prefix := {}

def PW : Prefix := { wide := true }

def c3 : Fin 8 := 3

def n3 : Fin 64 := 3

/-- What the clauses of `Obligations.Arithmetic` ask holds together somewhere. -/
theorem witness_arithmetic :
    (∃ (i : Instr) (c : Fin 8) (p : Prefix) (o : Operand) (k : Nat) (f : Bool → Sys2Proof.Acc → Word → Sys2Proof.Acc × FlagSet)
      (s : State) (s' : State) (w : Word) (ov : Bool), accOp i = some (Agent.core c, p, o, k, f) ∧ CoreTakes s c p (shapeD
      (Agent.core c) p true true true o) ∧ StateT.run (operand (coreCx s c p) (s.core ↑c).regs o) s = Except.ok ((w, ov), s')
      ∧ SameCore s s' c ∧ let x := s.core ↑c; let r := f (coreCx s c p).sat x.regs.a w; r.2.dz = true → x.regs.f.getLsbD 9 =
      false) ∧
    (∃ (i : Instr) (n : Fin 64) (p : Prefix) (o : Operand) (k : Nat) (f : Bool → Sys2Proof.Acc → Word → Sys2Proof.Acc × FlagSet)
      (s : State) (s' : State) (w : Word) (ov : Bool), accOp i = some (Agent.lane n, p, o, k, f) ∧ LaneTakes s n p (shapeD
      (Agent.lane n) p true true true o) ∧ StateT.run (operand (laneCx s n p) (s.lane ↑n).regs o) s = Except.ok ((w, ov), s')
      ∧ SameLane s s' n) :=
  ⟨⟨.add (.core c3) P0 (.reg 2), c3, P0, .reg 2, _, _, cS, _, _, _, rfl, (by unfold CoreTakes; decide +kernel), rfl,
     by unfold SameCore; decide +kernel⟩,
   ⟨.add (.lane n3) P0 (.reg 2), n3, P0, .reg 2, _, _, lS, _, _, _, rfl, (by unfold LaneTakes; decide +kernel), rfl,
     by unfold SameLane; decide +kernel⟩⟩

/-- What the clauses of `Obligations.AccumulatorOps` ask holds together somewhere. -/
theorem witness_accumulator_ops :
    (∃ (i : Instr) (c : Fin 8) (p : Prefix) (sh : Shape) (f : Bool → Sys2Proof.Acc → (Sys2Proof.Acc → Sys2Proof.Acc) ×
      FlagSet) (s : State), ownOp i = some (Agent.core c, p, sh, f) ∧ CoreTakes s c p sh) ∧
    (∃ (i : Instr) (n : Fin 64) (p : Prefix) (sh : Shape) (f : Bool → Sys2Proof.Acc → (Sys2Proof.Acc → Sys2Proof.Acc) ×
      FlagSet) (s : State), ownOp i = some (Agent.lane n, p, sh, f) ∧ LaneTakes s n p sh) ∧
    (∃ (c : Fin 8) (p : Prefix) (o : Operand) (s : State) (s' : State) (w : Word) (ov : Bool), CoreTakes s c p (shapeD
      (Agent.core c) p true true true o) ∧ StateT.run (operand (coreCx s c p) (s.core ↑c).regs o) s = Except.ok ((w, ov), s')
      ∧ SameCore s s' c) ∧
    (∃ (n : Fin 64) (p : Prefix) (o : Operand) (s : State) (s' : State) (w : Word) (ov : Bool), LaneTakes s n p (shapeD
      (Agent.lane n) p true true true o) ∧ StateT.run (operand (laneCx s n p) (s.lane ↑n).regs o) s = Except.ok ((w, ov), s')
      ∧ SameLane s s' n) ∧
    (∃ (c : Fin 8) (p : Prefix) (s : State), CoreTakes s c p { len := 1 }) ∧
    (∃ (n : Fin 64) (p : Prefix) (s : State), LaneTakes s n p { len := 1 }) ∧
    (∃ (i : Instr) (c : Fin 8) (p : Prefix) (b : Byte) (sh : Shape) (f : Bool → Sys2Proof.Acc → (Sys2Proof.Acc →
      Sys2Proof.Acc) × FlagSet) (s : State), ownOp i = some (Agent.core c, p, sh, f) ∧ p.rep = some b ∧ s.tidy = true ∧
      coreRuns s ↑c = true ∧ undefReason (Agent.core c) p sh = none ∧ iImplemented (s.core ↑c).regs.pc.toNat = true ∧
      iImplemented ((s.core ↑c).regs.pc.toNat + decodedLen p sh - 1) = true ∧ (s.core ↑c).moves = [] ∧ ictlLpe (s.core ↑c) =
      false ∧ (s.core ↑c).delayed = none) ∧
    (∃ (i : Instr) (n : Fin 64) (p : Prefix) (b : Byte) (sh : Shape) (f : Bool → Sys2Proof.Acc → (Sys2Proof.Acc →
      Sys2Proof.Acc) × FlagSet) (s : State), ownOp i = some (Agent.lane n, p, sh, f) ∧ p.rep = some b ∧ s.tidy = true ∧
      laneRuns s ↑n = true ∧ undefReason (Agent.lane n) p sh = none ∧ (s.lane ↑n).far = [] ∧ (s.lane ↑n).moves = [] ∧ (s.lane
      ↑n).delayed = none) ∧
    (∃ (n : Fin 64) (p : Prefix) (b : Byte) (s : State), p.rep = some b ∧ p.guard = false ∧ s.tidy = true ∧ laneRuns s ↑n =
      true ∧ undefReason (Agent.lane n) p { len := 1, guard := true } = none ∧ (s.lane ↑n).far = [] ∧ (s.lane ↑n).moves = [] ∧
      (s.lane ↑n).delayed = none ∧ let at' := fun (k : Nat) => Nat.repeat (repTap s n) k ((s.lane ↑n).regs, false); ∀ k ≤
      BitVec.toNat b, BitVec.toNat (at' k).1.x < 32768 ∧ BitVec.toNat (at' k).1.y < 32768) :=
  ⟨⟨.neg (.core c3) P0, c3, P0, _, _, cS { R0 with a := 0 }, rfl, by unfold CoreTakes; decide +kernel⟩,
   ⟨.neg (.lane n3) P0, n3, P0, _, _, lS { RL with a := 0 }, rfl, by unfold LaneTakes; decide +kernel⟩,
   ⟨c3, P0, .reg 2, cS, _, _, _, (by unfold CoreTakes; decide +kernel), rfl, by unfold SameCore; decide +kernel⟩,
   ⟨n3, P0, .reg 2, lS, _, _, _, (by unfold LaneTakes; decide +kernel), rfl, by unfold SameLane; decide +kernel⟩,
   ⟨c3, P0, cS, by unfold CoreTakes; decide +kernel⟩,
   ⟨n3, P0, lS, by unfold LaneTakes; decide +kernel⟩,
   ⟨.lsl (.core c3) { rep := some 3 } 3, c3, { rep := some 3 }, 3, _, _, cS, rfl, by decide +kernel⟩,
   ⟨.clz (.lane n3) { rep := some 0 }, n3, { rep := some 0 }, 0, _, _, lS, rfl, by decide +kernel⟩,
   ⟨n3, { rep := some 0 }, 0, lS, by decide +kernel⟩⟩

/-- What the clauses of `Obligations.Loads` ask holds together somewhere. -/
theorem witness_loads :
    (∃ (i : Instr) (c : Fin 8) (p : Prefix) (o : Operand) (d : Fin 32) (s : State) (s' : State) (w : Word) (ov : Bool), loadOp
      i = some (Agent.core c, p, o, d) ∧ CoreTakes s c p (shapeD (Agent.core c) p true true true o) ∧ StateT.run (operand
      (coreCx s c p) (s.core ↑c).regs o) s = Except.ok ((w, ov), s') ∧ SameCore s s' c) ∧
    (∃ (i : Instr) (n : Fin 64) (p : Prefix) (o : Operand) (d : Fin 32) (s : State) (s' : State) (w : Word) (ov : Bool),
      loadOp i = some (Agent.lane n, p, o, d) ∧ LaneTakes s n p (shapeD (Agent.lane n) p true true true o) ∧ farOperand
      (laneCx s n p) (s.lane ↑n).regs o = none ∧ StateT.run (operand (laneCx s n p) (s.lane ↑n).regs o) s = Except.ok ((w,
      ov), s') ∧ SameLane s s' n) :=
  ⟨⟨.lda (.core c3) P0 (.reg 2), c3, P0, .reg 2, _, cS, _, _, _, rfl, (by unfold CoreTakes; decide +kernel), rfl,
     by unfold SameCore; decide +kernel⟩,
   ⟨.lda (.lane n3) P0 (.reg 2), n3, P0, .reg 2, _, lS, _, _, _, rfl, (by unfold LaneTakes; decide +kernel), (by
     decide +kernel), rfl, by unfold SameLane; decide +kernel⟩⟩

/-- What the clauses of `Obligations.Stores` ask holds together somewhere. -/
theorem witness_stores :
    (∃ (i : Instr) (c : Fin 8) (p : Prefix) (o : Operand) (f : Bool → Regs → Word × Bool) (s : State) (fs : List (Nat × Word)),
      storeOp i = some (Agent.core c, p, o, f) ∧ CoreTakes s c p (shapeD (Agent.core c) p false false true o) ∧
      let x := s.core ↑c; let w := f (coreCx s c p).sat x.regs; coreStores s c (storeTo (coreCx s c p) x.regs o w.1) =
      Except.ok fs ∧ SameCore s (coreWrites c p.guard fs s) c) ∧
    (∃ (i : Instr) (n : Fin 64) (p : Prefix) (o : Operand) (f : Bool → Regs → Word × Bool) (s : State) (ea : DAddr) (ea' :
      DAddr), storeOp i = some (Agent.lane n, p, o, f) ∧ LaneTakes s n p (shapeD (Agent.lane n) p false false true o) ∧
      effAddr (s.lane ↑n).regs o = some (ea, ea') ∧ isFar ea = false ∧ isXch ea = false ∧ BitVec.toNat ea < 40960 ∧ p.guard =
      false) :=
  ⟨⟨.sta (.core c3) P0 (.dir false 0x10), c3, P0, .dir false 0x10, _, cS {R0 with x := 0x12, y := 0x13} {}, _, rfl,
     (by unfold CoreTakes; decide +kernel), rfl, by unfold SameCore; decide +kernel⟩,
   ⟨.sta (.lane n3) P0 (.dir false 0x10), n3, P0, .dir false 0x10, _, lS, _, _, rfl, (by unfold LaneTakes; decide +kernel),
     rfl, by decide +kernel⟩⟩

/-- What the clauses of `Obligations.MemoryShifts` ask holds together somewhere. -/
theorem witness_memory_shifts :
    (∃ (i : Instr) (c : Fin 8) (p : Prefix) (o : Operand) (n : Byte) (k : Shift) (s : State) (s' : State) (w : Word) (ov :
      Bool) (fs : List (Nat × Word)), shiftMemOp i = some (Agent.core c, p, o, n, k) ∧ CoreTakes s c p (shiftMemShape
      (Agent.core c) p o n) ∧ let x := s.core ↑c; StateT.run (operand (coreCx s c p) x.regs o) s = Except.ok ((w, ov), s') ∧
      let r := shiftBits k w (BitVec.toNat n); coreStores s' c (storeTo (coreCx s c p) x.regs o r.1) = Except.ok fs ∧ SameCore
      s (coreWrites c p.guard fs s') c) ∧
    (∃ (i : Instr) (l : Fin 64) (p : Prefix) (o : Operand) (n : Byte) (k : Shift) (s : State) (ea : DAddr) (ea' : DAddr) (w :
      Word) (ov : Bool), shiftMemOp i = some (Agent.lane l, p, o, n, k) ∧ LaneTakes s l p (shiftMemShape (Agent.lane l) p o n)
      ∧ let x := s.lane ↑l; effAddr x.regs o = some (ea, ea') ∧ BitVec.toNat ea < 40960 ∧ p.guard = false ∧ StateT.run
      (operand (laneCx s l p) x.regs o) s = Except.ok ((w, ov), s)) :=
  ⟨⟨.lslMem (.core c3) P0 (.dir false 0x10) 4, c3, P0, .dir false 0x10, 4, _, cS, _, _, _, _, rfl,
     (by unfold CoreTakes; decide +kernel), rfl, rfl, by unfold SameCore; decide +kernel⟩,
   ⟨.lslMem (.lane n3) P0 (.dir false 0x10) 33, n3, P0, .dir false 0x10, 33, _, lS, _, _, _, _, rfl,
     (by unfold LaneTakes; decide +kernel), rfl, (by decide +kernel), (by decide +kernel), rfl⟩⟩

/-- What the clauses of `Obligations.Multiplies` ask holds together somewhere. -/
theorem witness_multiplies :
    (∃ (i : Instr) (c : Fin 8) (p : Prefix) (o : Operand) (keep : ℤ) (sign : ℤ) (s : State) (s' : State) (w : Word) (d : Word)
      (ov : Bool), mulOp i = some (Agent.core c, p, o, keep, sign) ∧ CoreTakes s c p (shapeD (Agent.core c) p true true true
      o) ∧ let x := s.core ↑c; StateT.run (factors (coreCx s c p) x.regs o) s = Except.ok (((w, ov), d), s') ∧ SameCore s s'
      c) ∧
    (∃ (i : Instr) (n : Fin 64) (p : Prefix) (o : Operand) (keep : ℤ) (sign : ℤ) (s : State) (s' : State) (w : Word) (d :
      Word) (ov : Bool), mulOp i = some (Agent.lane n, p, o, keep, sign) ∧ LaneTakes s n p (shapeD (Agent.lane n) p true true
      true o) ∧ let x := s.lane ↑n; StateT.run (factors (laneCx s n p) x.regs o) s = Except.ok (((w, ov), d), s') ∧ SameLane s
      s' n) :=
  ⟨⟨.mul (.core c3) P0 (.reg 2), c3, P0, .reg 2, _, _, cS, _, _, _, _, rfl, (by unfold CoreTakes; decide +kernel), rfl,
     by unfold SameCore; decide +kernel⟩,
   ⟨.mul (.lane n3) P0 (.reg 2), n3, P0, .reg 2, _, _, lS, _, _, _, _, rfl, (by unfold LaneTakes; decide +kernel), rfl,
     by unfold SameLane; decide +kernel⟩⟩

/-- What the clauses of `Obligations.Taps` ask holds together somewhere. -/
theorem witness_taps :
    (∃ (c : Fin 8) (p : Prefix) (s : State) (s' : State) (a : Word) (b : Word) (f : Nat), CoreTakes s c p
      { len := 1, guard := true } ∧ let x := s.core ↑c; let y' := stepY x.regs (BitVec.toInt x.regs.oy); StateT.run
      (tapFactors (coreCx s c p) x.regs) s = Except.ok ((a, b), s') ∧ SameCore s s' c ∧ coreAddr s' (↑c) true y' = Except.ok
      f) ∧
    (∃ (n : Fin 64) (p : Prefix) (s : State) (s' : State) (a : Word) (b : Word), LaneTakes s n p { len := 1, guard := true } ∧
      let x := s.lane ↑n; let y' := stepY x.regs (BitVec.toInt x.regs.oy); StateT.run (tapFactors (laneCx s n p) x.regs) s =
      Except.ok ((a, b), s') ∧ SameLane s s' n ∧ isFar y' = false) ∧
    (∃ (n : Fin 64) (p : Prefix) (s : State) (s' : State) (a : Word) (b : Word), LaneTakes s n p { len := 1, guard := true } ∧
      let x := s.lane ↑n; let y' := stepY x.regs (BitVec.toInt x.regs.oy); StateT.run (tapFactors (laneCx s n p) x.regs) s =
      Except.ok ((a, b), s') ∧ SameLane s s' n ∧ isFar y' = true) ∧
    (∃ (n : Fin 64) (s : State) (m : Move), s.tidy = true ∧ (s.lane ↑n).moves = [m] ∧ BitVec.toNat m.addr < 32768) ∧
    (∃ (c : Fin 8) (s : State) (m : Move) (f : Nat), s.tidy = true ∧ (s.core ↑c).moves = [m] ∧ coreAddr s (↑c) true m.addr =
      Except.ok f) :=
  ⟨⟨c3, P0, cS, _, _, _, _, (by unfold CoreTakes; decide +kernel), rfl, (by unfold SameCore; decide +kernel), rfl⟩,
   ⟨n3, P0, lS, _, _, _, (by unfold LaneTakes; decide +kernel), rfl, by unfold SameLane; decide +kernel⟩,
   ⟨n3, P0, lS {RL with oy := 0x400000, ly := 0}, _, _, _, (by unfold LaneTakes; decide +kernel), rfl,
     by unfold SameLane; decide +kernel⟩,
   ⟨n3, lS RL {moves := [⟨3, 0x77, 0x1234⟩]}, ⟨3, 0x77, 0x1234⟩, by decide +kernel⟩,
   ⟨c3, cS R0 {moves := [⟨3, 0x77, 0x1234⟩]}, ⟨3, 0x77, 0x1234⟩, _, (by decide +kernel), (by decide +kernel), rfl⟩⟩

/-- What the clauses of `Obligations.ControlFlow` ask holds together somewhere. -/
theorem witness_control_flow :
    (∃ (i : Instr) (c : Fin 8) (p : Prefix) (d : Word) (k : Nat) (s : State), branchOp i = some (Agent.core c, p, d, k) ∧
      CoreTakes s c p (shapeB (Agent.core c) p d)) ∧
    (∃ (i : Instr) (n : Fin 64) (p : Prefix) (d : Word) (k : Nat) (s : State), branchOp i = some (Agent.lane n, p, d, k) ∧
      LaneTakes s n p (shapeB (Agent.lane n) p d)) ∧
    (∃ (c : Fin 8) (p : Prefix) (s : State) (f : Nat), CoreTakes s c p (bsrShape p) ∧ let x := s.core ↑c;
      let next := x.regs.pc + BitVec.ofNat 20 (decodedLen p (bsrShape p)); coreAddr s (↑c) true (x.regs.sp - 1) = Except.ok f
      ∧ let s' := coreWrite ↑c [(f, BitVec.zeroExtend 32 next)] s; SameCore s s' c) ∧
    (∃ (c : Fin 8) (p : Prefix) (s : State) (f : Nat), CoreTakes s c p soloShape ∧ let x := s.core ↑c; coreAddr s (↑c) false
      x.regs.sp = Except.ok f ∧ let s' := noteReads (16 + ↑c) [(f, 4)] s; SameCore s s' c) ∧
    (∃ (c : Fin 8) (p : Prefix) (o : Operand) (disp : BitVec 16) (s : State) (s' : State) (w : Word) (ov : Bool), CoreTakes s
      c p (loopShape p o disp) ∧ let x := s.core ↑c; StateT.run (operand (coreCx s c p) x.regs o) s = Except.ok ((w, ov), s')
      ∧ SameCore s s' c) :=
  ⟨⟨.bra (.core c3) P0 0xFF00, c3, P0, 0xFF00, _, cS {R0 with f := 0}, rfl, by unfold CoreTakes; decide +kernel⟩,
   ⟨.bra (.lane n3) P0 7, n3, P0, 7, _, lS {RL with f := 0}, rfl, by unfold LaneTakes; decide +kernel⟩,
   ⟨c3, P0, cS, _, (by unfold CoreTakes; decide +kernel), rfl, by unfold SameCore; decide +kernel⟩,
   ⟨c3, P0, cS, _, (by unfold CoreTakes; decide +kernel), rfl, by unfold SameCore; decide +kernel⟩,
   ⟨c3, P0, .reg 4, 0x20, cS, _, _, _, (by unfold CoreTakes; decide +kernel), rfl, by unfold SameCore; decide +kernel⟩⟩

/-- What the clauses of `Obligations.MovesAndStack` ask holds together somewhere. -/
theorem witness_moves_and_stack :
    (∃ (c : Fin 8) (p : Prefix) (rd : Fin 32) (o : Operand) (s : State) (s' : State) (w : Word) (ov : Bool),
      let sh := shapeD (Agent.core c) p true true false o;
      let sh := { len := sh.len, lane := sh.lane, core := sh.core, wide := sh.wide, guard := sh.guard, rep := sh.rep, reasons := sh.reasons ++ destReasons (Agent.core c) rd };
      CoreTakes s c p sh ∧ StateT.run (operand (coreCx s c p) (s.core ↑c).regs o) s = Except.ok ((w, ov), s') ∧ SameCore s s'
      c) ∧
    (∃ (n : Fin 64) (p : Prefix) (rd : Fin 32) (o : Operand) (s : State) (s' : State) (w : Word) (ov : Bool),
      let sh := shapeD (Agent.lane n) p true true false o;
      let sh := { len := sh.len, lane := sh.lane, core := sh.core, wide := sh.wide, guard := sh.guard, rep := sh.rep, reasons := sh.reasons ++ destReasons (Agent.lane n) rd };
      LaneTakes s n p sh ∧ StateT.run (operand (laneCx s n p) (s.lane ↑n).regs o) s = Except.ok ((w, ov), s') ∧ SameLane s s'
      n) ∧
    (∃ (c : Fin 8) (p : Prefix) (rs : Fin 32) (s : State) (f : Nat),
      let sh := { len := 2, lane := false, reasons := regReasons (Agent.core c) ↑rs }; CoreTakes s c p sh ∧
      let x := s.core ↑c; let w := readReg (coreCx s c p).sat x.regs ↑rs; coreAddr s (↑c) true (x.regs.sp - 1) = Except.ok f ∧
      let s' := coreWrite ↑c [(f, w.1)] s; SameCore s s' c) ∧
    (∃ (c : Fin 8) (p : Prefix) (rd : Fin 32) (s : State) (f : Nat),
      let sh := { len := 2, lane := false, reasons := destReasons (Agent.core c) rd }; CoreTakes s c p sh ∧
      let x := s.core ↑c; coreAddr s (↑c) false x.regs.sp = Except.ok f ∧ let s' := noteReads (16 + ↑c) [(f, 4)] s; SameCore s
      s' c) ∧
    (∃ (c : Fin 8) (p : Prefix) (o : Operand) (s : State) (s' : State) (w : Word) (ov : Bool),
      let sh := have __src := shapeD (Agent.core c) p true true false o;
      { len := __src.len, lane := false, core := __src.core, wide := __src.wide, guard := __src.guard, rep := __src.rep, reasons := __src.reasons };
      CoreTakes s c p sh ∧ StateT.run (operand (coreCx s c p) (s.core ↑c).regs o) s = Except.ok ((w, ov), s') ∧ SameCore s s'
      c ∧ let a := BitVec.toNat (w &&& 1048572); iImplemented a = true) :=
  ⟨⟨c3, P0, 4, .reg 2, cS, _, _, _, (by unfold CoreTakes; decide +kernel), rfl, by unfold SameCore; decide +kernel⟩,
   ⟨n3, P0, 6, .reg 2, lS, _, _, _, (by unfold LaneTakes; decide +kernel), rfl, by unfold SameLane; decide +kernel⟩,
   ⟨c3, P0, 0, cS, _, (by unfold CoreTakes; decide +kernel), rfl, by unfold SameCore; decide +kernel⟩,
   ⟨c3, P0, 4, cS, _, (by unfold CoreTakes; decide +kernel), rfl, by unfold SameCore; decide +kernel⟩,
   ⟨c3, P0, .imm .b8 true 0x80, cS, _, _, _, (by unfold CoreTakes; decide +kernel), rfl, by unfold SameCore; decide +kernel⟩⟩

/-- What the clauses of `Obligations.PortMoves` ask holds together somewhere. -/
theorem witness_port_moves :
    (∃ (c : Fin 8) (p : Prefix) (rd : Fin 32) (pa : BitVec 16) (s : State) (s' : State) (w : Word),
      let sh := shapeP (destReasons (Agent.core c) rd) pa; CoreTakes s c p sh ∧ StateT.run (coreIn (↑c) pa.toNat) s =
      Except.ok (w, s') ∧ SameCore s s' c) ∧
    (∃ (n : Fin 64) (p : Prefix) (rd : Fin 32) (pa : BitVec 16) (s : State), LaneTakes s n p (shapeP (destReasons (Agent.lane
      n) rd) pa) ∧ laneInOk pa.toNat = true) ∧
    (∃ (c : Fin 8) (p : Prefix) (rs : Fin 32) (pa : BitVec 16) (s : State) (s' : State),
      let sh := shapeP (regReasons (Agent.core c) ↑rs) pa; let w := readReg (coreCx s c p).sat (s.core ↑c).regs ↑rs; CoreTakes
      s c p sh ∧ StateT.run (coreOut (↑c) pa.toNat w.1) s = Except.ok ((), s') ∧ SameRegs s s' c) ∧
    (∃ (n : Fin 64) (p : Prefix) (rs : Fin 32) (pa : BitVec 16) (s : State), LaneTakes s n p (shapeP (regReasons (Agent.lane
      n) ↑rs) pa) ∧ laneOutOk pa.toNat = true) :=
  ⟨⟨c3, P0, 6, 0x0, cS, _, _, (by unfold CoreTakes; decide +kernel), rfl, by unfold SameCore; decide +kernel⟩,
   ⟨n3, P0, 6, 0x0, lS, by unfold LaneTakes; decide +kernel⟩,
   ⟨c3, P0, 5, 0x10, cS, _, (by unfold CoreTakes; decide +kernel), rfl, by unfold SameRegs; decide +kernel⟩,
   ⟨n3, P0, 5, 0x80, lS, by unfold LaneTakes; decide +kernel⟩⟩

/-- What the clauses of `Obligations.CoreControl` ask holds together somewhere. -/
theorem witness_core_control :
    (∃ (c : Fin 8) (p : Prefix) (s : State), CoreTakes s c p soloShape) ∧
    (∃ (c : Fin 8) (p : Prefix) (rd : Fin 32) (s : State), CoreTakes s c p
      { len := 2, lane := false, rep := false, reasons := regReasons (Agent.core c) ↑rd } ∧ heldFiring s ↑c = none) ∧
    (∃ (n : Fin 64) (p : Prefix) (s : State), LaneTakes s n p { len := 1, core := false, rep := false }) :=
  ⟨⟨c3, P0, cS R0 {ef := 0x55}, by unfold CoreTakes; decide +kernel⟩,
   ⟨c3, P0, 6, cS R0 {ef := 0x55}, by unfold CoreTakes; decide +kernel⟩,
   ⟨n3, P0, lS, by unfold LaneTakes; decide +kernel⟩⟩

/-- What the clauses of `Obligations.UserOpcodes` ask holds together somewhere. -/
theorem witness_user_opcodes :
    (∃ (c : Fin 8) (p : Prefix) (i : Fin 16) (arg : UserArg) (o : Operand) (w : Word) (s : State) (s' : State) (x : UserSt)
      (ws : List (DAddr × Word)), let e := s.rd (dtOf (Agent.core c) ↑i); argFits e arg = true ∧ ArgOf arg o w ∧ CoreTakes s c
      p (userShape (Agent.core c) p e arg) ∧ let r := (s.core ↑c).regs; StateT.run (runSteps (coreCx s c p) o w (dtForm e)
      (stepsOf (dtUops e) []) { r := r } []) s = Except.ok ((x, ws), s') ∧ SameCore s s' c) ∧
    (∃ (n : Fin 64) (p : Prefix) (i : Fin 16) (arg : UserArg) (o : Operand) (w : Word) (s : State) (s' : State) (x : UserSt)
      (ws : List (DAddr × Word)), let e := s.rd (dtOf (Agent.lane n) ↑i); argFits e arg = true ∧ ArgOf arg o w ∧ LaneTakes s n
      p (userShape (Agent.lane n) p e arg) ∧ let r := (s.lane ↑n).regs; StateT.run (runSteps (laneCx s n p) o w (dtForm e)
      (stepsOf (dtUops e) []) { r := r } []) s = Except.ok ((x, ws), s') ∧ s'.tidy = true ∧ (s'.lane ↑n).delayed = (s.lane
      ↑n).delayed ∧ (s'.lane ↑n).moves = [] ∧ (s'.lane ↑n).far = [] ∧ (s'.lane ↑n).regs.pc = r.pc) :=
  ⟨⟨c3, P0, 4, .none, .reg 0, 0, cS R0 {} [(Obj.dtEntryCore 3 4, 40854741381024900260351901698)], _, _, _, (by
     decide +kernel), (by unfold ArgOf; decide +kernel), (by unfold CoreTakes; decide +kernel), rfl,
     by unfold SameCore; decide +kernel⟩,
   ⟨n3, P0, 4, .none, .reg 0, 0, lS RL {} [(Obj.dtEntry 0 4, 40854741381024900260351901698)], _, _, _, (by decide +kernel),
     (by unfold ArgOf; decide +kernel), (by unfold LaneTakes; decide +kernel), rfl, by decide +kernel⟩⟩

def divS : State := cS { R0 with a := 0xFF00000000F0000001, f := 0x203, lx := 0 }

def heldS : State := (st [(Obj.pgState 0, 2)] cS).setPan 0 { code := 0x14, newOwner := 0x13, revoked := true }

/-- An operand that the fabric holds back. -/
theorem witness_held_operand :
    ∃ (i : Instr) (c : Fin 8) (p : Prefix) (o : Operand) (s s' : State), readOp i = some (.core c, p, o) ∧
      CoreTakes s c p (shapeD (.core c) p true true true o) ∧
      (operand (coreCx s c p) (s.core c.val).regs o).run s = .error (0, s') ∧ (s.core c.val).delayed = none :=
  ⟨.add (.core c3) {} (.dir true 0x400000), c3, {}, .dir true 0x400000, heldS, _, rfl, by unfold CoreTakes; decide +kernel, rfl,
    by decide +kernel⟩

/-- What the clauses of `Obligations.TrapsAndFaults` ask holds together somewhere. -/
theorem witness_traps_and_faults :
    (∃ (c : Fin 8) (len : Fin 16) (s : State), coreRuns s ↑c = true ∧ VectorOpen s c 2 ∧ (s.core ↑c).moves = [] ∧ (s.core
      ↑c).delayed = none ∧ iImplemented (s.core ↑c).regs.pc.toNat = true ∧ iImplemented ((s.core ↑c).regs.pc.toNat + ↑len - 1)
      = true) ∧
    (∃ (n : Fin 64) (s : State), s.tidy = true ∧ laneRuns s ↑n = true ∧ (s.lane ↑n).far = [] ∧ (s.lane ↑n).moves = [] ∧
      (s.lane ↑n).delayed = none ∧ s.rd (Obj.udCount ↑n) < 4294967295) ∧
    (∃ (c : Fin 8) (v : Nat) (s : State), VectorOpen s c v ∧ nextVector (↑c) s = some v) ∧
    (∃ (i : Instr) (u : Agent) (p : Prefix) (sh : Shape) (r : Nat), formOf i = some (u, p, sh) ∧ undefReason u p sh = some r) ∧
    (∃ (i : Instr) (c : Fin 8) (p : Prefix) (o : Operand) (r : Nat) (s : State) (s' : State), readOp i = some (Agent.core c, p,
      o) ∧ CoreTakes s c p (shapeD (Agent.core c) p true true true o) ∧ StateT.run (operand (coreCx s c p) (s.core ↑c).regs o)
      s = Except.error (r, s') ∧ (s.core ↑c).delayed = none ∧ r ≠ 0 ∧ SameCore s s' c ∧ VectorOpen s' c 3) ∧
    (∃ (c : Fin 8) (p : Prefix) (o : Operand) (s : State) (s' : State) (ov : Bool),
      let sh := shapeD (Agent.core c) p true true true o; CoreTakes s c p sh ∧ StateT.run (operand (coreCx s c p) (s.core
      ↑c).regs o) s = Except.ok ((0, ov), s') ∧ SameCore s s' c ∧ (s.core ↑c).delayed = none ∧ (s.core ↑c).regs.f.getLsbD 9 =
      true ∧ VectorOpen s' c 4) :=
  ⟨⟨c3, 2, cS, by unfold VectorOpen; decide +kernel⟩,
   ⟨n3, lS, by decide +kernel⟩,
   ⟨c3, 13, cS {R0 with ie := 0xFFF0} {ipend := 0x20}, by unfold VectorOpen; decide +kernel⟩,
   ⟨.stx (.lane n3) PW (.reg 2), .lane n3, PW, shapeD (.lane n3) PW false false true (.reg 2), 6, by decide +kernel⟩,
   ⟨.add (.core c3) {} (.dir false 0xA000), c3, {}, .dir false 0xA000,
     (match (operand (coreCx (cS) c3 {}) ((cS).core 3).regs (.dir false 0xA000)).run (cS) with | .error r => r.1 | .ok _ => 99),
     cS,
     (match (operand (coreCx (cS) c3 {}) ((cS).core 3).regs (.dir false 0xA000)).run (cS) with | .error r => r.2 | .ok _ => {}),
     (by decide +kernel), (by unfold CoreTakes; decide +kernel), rfl, by unfold SameCore VectorOpen; decide +kernel⟩,
   ⟨c3, {}, .reg 9, divS, divS, false, (by unfold CoreTakes; decide +kernel), rfl,
     by unfold SameCore VectorOpen; decide +kernel⟩⟩

/-- What the clauses of `Obligations.FarAccess` ask holds together somewhere. -/
theorem witness_far_access :
    (∃ (n : Fin 64) (p : Prefix) (o : Operand) (s : State) (ea : DAddr) (ea' : DAddr), LaneTakes s n p (shapeD (Agent.lane n)
      p true true true o) ∧ p.guard = false ∧ let l := s.lane ↑n; effAddr l.regs o = some (ea, ea') ∧ isFar ea = true ∧
      farGranted s (↑n) ea = true ∧ returnRingAt s (BitVec.toNat ea) = none) ∧
    (∃ (n : Fin 64) (s : State) (x : FarAcc) (rest : List FarAcc), s.tidy = true ∧ (s.lane ↑n).far = x :: rest ∧ x.done =
      false ∧ x.write = false ∧ (x.refused = true ∨ x.second = none ∧ returnRingAt s (BitVec.toNat x.addr) = none)) ∧
    (∃ (n : Fin 64) (s : State) (x : FarAcc) (rest : List FarAcc), s.tidy = true ∧ (s.lane ↑n).far = x :: rest ∧ x.done =
      false ∧ x.write = true ∧ x.refused = false ∧ x.second = none ∧ sendRingsAt s x.addr.toNat = [] ∧
      panWrite s (farByte x.addr.toNat) = none) ∧
    (∃ (n : Fin 64) (s : State) (x : FarAcc) (rest : List FarAcc), s.tidy = true ∧ (s.lane ↑n).far = x :: rest ∧ x.done =
      true) :=
  ⟨⟨n3, P0, .dir true 0x400010, lS RL {grant := 1}, _, _, (by unfold LaneTakes; decide +kernel), (by decide +kernel), rfl, by
     decide +kernel⟩,
   ⟨n3, (lS RL {far := [⟨3,false,false,0x400010,none,4,0,false⟩]}).setMemWord 0x1000040 0xABCD,
     ⟨3,false,false,0x400010,none,4,0,false⟩, [], by decide +kernel⟩,
   ⟨n3, lS RL {far := [⟨3,true,false,0x400010,none,0,0x55,false⟩]}, ⟨3,true,false,0x400010,none,0,0x55,false⟩, [],
     by decide +kernel⟩,
   ⟨n3, (lS RL {far := [⟨3,false,false,0x400010,none,4,0xABCD,true⟩]}), ⟨3,false,false,0x400010,none,4,0xABCD,true⟩, [], by
     decide +kernel⟩⟩

end Sys2Proof.Tests.Instructions
end

