-- ==== Sys2Proof/Tests/WitnessLanes.lean ====
section
/-! SUPPORT. Witnesses: for each statement, states and operands that meet what its clauses ask. -/

namespace Sys2Proof.Tests.Lanes

open Sys2Proof.Machine Sys2Proof.Claims

set_option maxRecDepth 100000
set_option Elab.async false

def st (rs : List (Reg × Nat)) (s : State := {}) : State := rs.foldl (fun s x => s.wr x.1 x.2) s

def up : State := { boot := { booted := true, meterE := false } }

def ln (st_ : Nat) (l : Lane := {}) (en : Nat := 1) (rs : List (Reg × Nat) := []) : State := (st ([(Obj.laneState 3, st_),(Obj.laneEnable 3, en)] ++ rs) up).setLane 3 l

def A : Path := .link

def spl (m : Nat) (at_ := 0): State := st [(Obj.triggerGroup 3, 2),(Obj.splMaskLo 1, guardOf m), (Obj.splMaskHi 1, guardOf 0), (Obj.splSlate 1, at_)] { ln laneTake with slate := 100 }

def cp (k : Nat) (w : List Nat) (m : Nat := 0): State := (st [(Obj.guardBitmap 3, m)] { ln laneTake { copy := some ⟨k, w⟩ } with mem := [(sideBase 3 0 + 4*k, 7),(sideBase 3 0 + 4*k+5, 9)] })

/-- What the clauses of `Obligations.LaneStates` ask holds together somewhere. -/
theorem witness_lane_states :
    (∃ (n : Fin 64) (s : State), Ready s ∧ let st := laneSt s ↑n; st = laneUnloaded ∨ st = laneLoading ∨ st = laneStopped) ∧
    (∃ (n : Fin 64) (s : State), let st := laneSt s ↑n; let en := s.rd (Obj.laneEnable ↑n); Ready s ∧ (st = laneArmed ∨ st =
      laneTake) ∧ en = 1) ∧
    (∃ (n : Fin 64) (s : State), let st := laneSt s ↑n; let en := s.rd (Obj.laneEnable ↑n); Ready s ∧ st = laneSafe ∧ en = 1) ∧
    (∃ (n : Fin 64) (s : State), let l := s.lane ↑n; let st := laneSt s ↑n; let en := s.rd (Obj.laneEnable ↑n); Ready s ∧ st =
      laneStopped ∧ en = 0 ∧ l.safePending = false) ∧
    (∃ (n : Fin 64) (s : State), let l := s.lane ↑n; let st := laneSt s ↑n; let en := s.rd (Obj.laneEnable ↑n); Ready s ∧ st =
      laneStopped ∧ en = 0 ∧ l.safePending = true ∧ (l.safeBy = 0 ∨ l.safeBy = 3)) ∧
    (∃ (n : Fin 64) (s : State), let st := laneSt s ↑n; let en := s.rd (Obj.laneEnable ↑n); awake s = true ∧ st = laneLoading ∧ en = 0) ∧
    (∃ (n : Fin 64) (s : State), let l := s.lane ↑n; let st := laneSt s ↑n; let en := s.rd (Obj.laneEnable ↑n); st =
      laneLoading ∧ en = 1 ∧ awake s = true ∧ l.safePending = false) ∧
    (∃ (n : Fin 64) (s : State), let l := s.lane ↑n; let st := laneSt s ↑n; let en := s.rd (Obj.laneEnable ↑n); st =
      laneLoading ∧ en = 1 ∧ awake s = true ∧ l.safePending = true ∧ l.safeBy = 0) :=
  ⟨⟨3, ln laneStopped {} 0, by unfold Ready NoneWaits; decide +kernel⟩,
   ⟨3, ln laneArmed, by unfold Ready NoneWaits; decide +kernel⟩,
   ⟨3, ln laneSafe, by unfold Ready NoneWaits; decide +kernel⟩,
   ⟨3, ln laneStopped {} 0, by unfold Ready NoneWaits; decide +kernel⟩,
   ⟨3, ln laneStopped { safePending := true, safeBy := 3} 0, by unfold Ready NoneWaits; decide +kernel⟩,
   ⟨3, ln laneLoading {} 0, by decide +kernel⟩,
   ⟨3, ln laneLoading {} 1, by decide +kernel⟩,
   ⟨3, ln laneLoading { safePending := true} 1, by decide +kernel⟩⟩

/-- What the clauses of `Obligations.LaneClears` ask holds together somewhere. -/
theorem witness_lane_clears :
    (∃ (s : State), Ready s) ∧
    (∃ (n : Fin 64) (v : Byte) (s : State), Ready s ∧ grantFits (↑n) (BitVec.toNat v) s = true ∧ ∀ g < 8, (BitVec.toNat
      v).testBit g = true → s.rd (Obj.pgState g) = 1 ∨ s.rd (Obj.pgState g) = 2) ∧
    (∃ (n : Fin 64) (v : Byte) (s : State), Ready s ∧ grantFits (↑n) (BitVec.toNat v) s = false) :=
  ⟨⟨st [(Obj.pgState 0,1)] (ln 2), by unfold Ready NoneWaits; decide +kernel⟩,
   ⟨3, 1, st [(Obj.pgState 0,1)] (ln 2), by unfold Ready NoneWaits; decide +kernel⟩,
   ⟨3, 1, st ([(Obj.pgState 0,1)] ++ (List.range 8).map fun k => (Obj.farGrant (8+k), 1)) (ln 2),
     by unfold Ready NoneWaits; decide +kernel⟩⟩

/-- What the clauses of `Obligations.TakesStartAndEnd` ask holds together somewhere. -/
theorem witness_takes_start_and_end :
    (∃ (edge : Nat) (s : State), s.tidy = true ∧ s.houseEdge < edge ∧ houseStopped s = false) ∧
    (∃ (n : Fin 64) (s : State), s.tidy = true ∧ let l := s.lane ↑n; l.busy = true ∧ l.far = [] ∧ l.moves = []) :=
  ⟨⟨512, ln laneArmed {} 1 [(Obj.triggerGroup 3, 2),(Obj.tgSource 2, 0x4000)], by decide +kernel⟩,
   ⟨3, ln laneTake {busy := true} 1 [(Obj.triggerGroup 3, 2),(Obj.tgSource 2, 0x4000)], by decide +kernel⟩⟩

/-- What the clauses of `Obligations.Splices` ask holds together somewhere. -/
theorem witness_splices :
    (∃ (p : Sys2Proof.Path) (at' : Bool) (s : State), Ready s ∧ let k := pathCode p; guardGood (s.rd (Obj.splMaskLo k)) = true
      ∧ guardGood (s.rd (Obj.splMaskHi k)) = true ∧ spliceRefusal s k at' false = 0) ∧
    (∃ (p : Sys2Proof.Path) (at' : Bool) (s : State), Ready s ∧ let k := pathCode p; guardGood (s.rd (Obj.splMaskLo k)) = true
      ∧ guardGood (s.rd (Obj.splMaskHi k)) = true ∧ spliceRefusal s k at' true = 0) ∧
    (∃ (p : Sys2Proof.Path) (at' : Bool) (s : State), Ready s ∧ let k := pathCode p; guardGood (s.rd (Obj.splMaskLo k)) = true
      ∧ guardGood (s.rd (Obj.splMaskHi k)) = true ∧ ∃ (st : Nat), spliceRefusal s k at' false = st ∧ st ≠ 0) ∧
    (∃ (p : Sys2Proof.Path) (s : State), Ready s ∧ let k := pathCode p; guardGood (s.rd (Obj.splMaskLo k)) = true ∧ guardGood
      (s.rd (Obj.splMaskHi k)) = true ∧ List.Pairwise (fun (a b : Splice) => a.id ≠ b.id ∧ ∀ n ∈ a.waiting, n ∉ b.waiting ∧ n
      ∉ b.copying) s.splices ∧ List.Pairwise (fun (a b : Splice) => ∀ n ∈ a.copying, n ∉ b.waiting) s.splices ∧ ∃ n ∈
      maskLanes s k, (pendingSplice s n).isSome = true) ∧
    (∃ (n : Fin 64) (s : State) (c : Copy), s.tidy = true ∧ awake s = true ∧ (s.lane ↑n).copy = some c ∧ c.next < 8192 ∧ marked s (↑n) c.next =
      false) ∧
    (∃ (n : Fin 64) (s : State) (c : Copy), s.tidy = true ∧ awake s = true ∧ (s.lane ↑n).copy = some c ∧ c.next < 8190 ∧ marked s (↑n) c.next =
      true ∧ c.next ∉ c.written) :=
  ⟨⟨A, false, spl 8, by unfold Ready NoneWaits; decide +kernel⟩,
   ⟨A, false, spl 8, by unfold Ready NoneWaits; decide +kernel⟩,
   ⟨A, false, spl 0, (by unfold Ready NoneWaits; decide +kernel), (by decide +kernel), (by decide +kernel), _, rfl, by
     decide +kernel⟩,
   ⟨A, { spl 8 with splices := [⟨1,5,none,false,false,[3,4],[],false,none,0⟩], spliceIds := 1},
     by unfold Ready NoneWaits; decide +kernel⟩,
   ⟨3, cp 5 [], _, (by decide +kernel), (by decide +kernel), rfl, by decide +kernel⟩,
   ⟨3, cp 6 [] 64, _, (by decide +kernel), (by decide +kernel), rfl, by decide +kernel⟩⟩

/-- What the clauses of `Obligations.DecodeTables` ask holds together somewhere. -/
theorem witness_decode_tables :
    (∃ (e : BitVec 160) (s : State), Ready s ∧ dtEntryGood e.toNat = false) ∧
    (∃ (core : Bool) (k : Fin 8) (e : BitVec 160) (s : State), Ready s ∧ tableLocked s (tableCode core ↑k) = false ∧ tableOpen
      s core (↑k) true = true ∧ dtEntryGood e.toNat = true) ∧
    (∃ (core : Bool) (k : Fin 8) (e : BitVec 160) (s : State), Ready s ∧ (tableLocked s (tableCode core ↑k) = true ∨ tableOpen
      s core (↑k) false = false) ∧ dtEntryGood e.toNat = true) ∧
    (∃ (core : Bool) (s : State), Ready s ∧ core = true) :=
  ⟨⟨BitVec.allOnes 160, up, by unfold Ready NoneWaits; decide +kernel⟩,
   ⟨true, 2, 1, up, by unfold Ready NoneWaits; decide +kernel⟩,
   ⟨true, 2, 0, st [(Obj.coreState 2, 1)] up, by unfold Ready NoneWaits; decide +kernel⟩,
   ⟨true, up, by unfold Ready NoneWaits; decide +kernel⟩⟩

end Sys2Proof.Tests.Lanes
end

