-- ==== Sys2Proof/Tests/WitnessNetwork.lean ====
section
/-! SUPPORT. Witnesses: for each statement, states and operands that meet what its clauses ask. -/

namespace Sys2Proof.Tests.Network

open Sys2Proof.Machine Sys2Proof.Claims

set_option maxRecDepth 100000
set_option Elab.async false

def nextOf : Host.Outcome State Fault Refusal → State
  | .next t => t
  | _ => {}

def st (rs : List (Reg × Nat)) (s : State := {}) : State := rs.foldl (fun s x => s.wr x.1 x.2) s

def up : State := { boot := { booted := true, meterE := false } }

def cn (n : Byte) (rs : List (Reg × Nat) := []) (c : Can := {}) : State := { st ([(Obj.nodeIdActive, 18)] ++ rs) up with can := { c with nmt := n } }

def K : Byte := 7

def D : List Byte := [0x34,0x12]

def B1 : Byte := 1

def pd (rs : List (Reg × Nat)) (c : Can := {}) : State := cn 5 ([(Obj.rpdoCob 3, 0x203),(Obj.rpdoMapCount 3, 1),(Obj.rpdoMap 3 0, 0x10170010),(Obj.tpdoCob 3, 0x183),(Obj.tpdoMapCount 3,1),(Obj.tpdoMap 3 0, 0x10170010),(Obj.prodHeartbeat, 0x4455)] ++ rs) c

def idw (k : Nat) : Word := BitVec.ofNat 32 (identityWord k)

def hb (x : Nat) (n : Byte) : State := cn n [(Obj.errBehaviour, x),(Obj.prodHeartbeat,7),(Obj.consHeartbeat 2, 0x110005)] {emcy := [[1],[2]], errors := [5], monitored := [2]}

def sto : State := st [(Obj.prodHeartbeat, 5),(Obj.tgHouseM 3, 5)] (nextOf (exec (.storeParameters .link 1) (st [(Obj.prodHeartbeat, 4)] up)))

def e1 : BitVec 64 := BitVec.ofNat 64 (15 * 2048 + 2^16 + 128 + 5 * 2^32 + 0xF0 * 2^24)

def e2 : BitVec 64 := BitVec.ofNat 64 (15 * 2048 + 2^16 + 64 + 5 * 2^32 + 3 * 2^48)

def e3 : BitVec 64 := BitVec.ofNat 64 (6 * 2048 + 2^16 + 64 + 5 * 2^32)

def e4 : BitVec 64 := BitVec.ofNat 64 (15 * 2048 + 2 * 2^16 + 256 + 128 + 5 * 2^32 + 0x0F * 2^24)

def txr : List (Reg × Nat) := [(Obj.cdcTx 0, 0x1111222233334444555566667777888899990000)]

def cd (q : List (BitVec 64)) (run : Bool) (i : Nat) (rx : List Word) (w : Bool := false) (fl : Bool := false) (rs : List (Reg × Nat) := []) : State := { st (txr ++ rs) up with codec := { queue := q, running := run, index := i, rx := rx, word := w, flush := fl } }

theorem identityWord_lt (k : Nat) : identityWord k < 2 ^ 32 := by
  unfold identityWord; split <;> (try split) <;> omega

theorem idw_toNat (k : Nat) : (idw k).toNat = identityWord k := by
  rw [idw, BitVec.toNat_ofNat, Nat.mod_eq_of_lt (identityWord_lt k)]

/-- What the clauses of `Obligations.UsdoAccess` ask holds together somewhere. -/
theorem witness_usdo_access :
    (∃ (s : State), s.tidy = true ∧ canServes s = true) ∧
    (∃ (client : Byte) (index : BitVec 16) (sub : Byte) (data : List Byte) (s : State), s.tidy = true ∧ canServes s = true ∧
      let h := canHeard s; let key := index.toNat * 256 + BitVec.toNat sub; let bs := sessionBytes s client key ++ data; ∃ (u
      : State) (a : Nat), NoneWaits s ∧ sessionFree s client = true ∧ dictWrite (pathCode Path.field) index.toNat (BitVec.toNat
      sub) bs (endSession client h) = (u, a)) ∧
    (∃ (client : Byte) (index : BitVec 16) (sub : Byte) (s : State), s.tidy = true ∧ canServes s = true ∧ ∃ (a : Nat), NoneWaits
      s ∧ sessionFree s client = true ∧ lookup index.toNat (BitVec.toNat sub) = Except.error a) ∧
    (∃ (client : Byte) (index : BitVec 16) (sub : Byte) (s : State), s.tidy = true ∧ canServes s = true ∧ ∃ (r : ObjRow),
      NoneWaits s ∧ sessionFree s client = true ∧ lookup index.toNat (BitVec.toNat sub) = Except.ok r ∧ r.acc ≠ Access.wo ∧
      index.toNat ≠ 15456) ∧
    (∃ (client : Byte) (s : State), s.tidy = true ∧ canServes s = true ∧ sessionFree s client = false) ∧
    (∃ (client : Byte) (s : State), s.tidy = true ∧ canServes s = true ∧ (s.can.sessions.any fun (x : Byte × Nat × List Byte) =>
      x.1 == client) = true) :=
  ⟨⟨cn 5, by decide +kernel⟩,
   ⟨K, 0x5000, 0, D, cn 5, (by decide +kernel), (by decide +kernel), _, _, (by unfold NoneWaits; decide +kernel), (by
     decide +kernel), rfl⟩,
   ⟨K, 0x5000, 0, cn 5, (by decide +kernel), (by decide +kernel), _, (by unfold NoneWaits; decide +kernel), (by
     decide +kernel), rfl⟩,
   ⟨K, 0x2030, 2, cn 5, (by decide +kernel), (by decide +kernel), _, (by unfold NoneWaits; decide +kernel), (by
     decide +kernel), rfl, by decide +kernel⟩,
   ⟨K, cn 127 [] {sessions := [(1,2,[]),(2,2,[]),(3,2,[]),(4,2,[])]}, by decide +kernel⟩,
   ⟨K, cn 127 [] {sessions := [(7, 0x101700, [0x55])]}, by decide +kernel⟩⟩

/-- What the clauses of `Obligations.ProcessData` ask holds together somewhere. -/
theorem witness_process_data :
    (∃ (k : Fin 16) (s : State), s.tidy = true ∧ canPdo s = true ∧ pdoOn s true ↑k = true ∧ s.rd (Obj.rpdoType ↑k) ≤ 240) ∧
    (∃ (k : Fin 16) (data : List Byte) (s : State), s.tidy = true ∧ let h := canHeard s; let m := pdoMap h true ↑k;
      let es := splitPdo m data; ∃ (u : State) (as : List Nat), NoneWaits s ∧ canPdo s = true ∧ pdoOn s true ↑k = true ∧ 240 <
      s.rd (Obj.rpdoType ↑k) ∧ sumBy mapBits m ≤ 8 * data.length ∧ applyPdo es h = (u, as) ∧ ∀ a ∈ checkPdo es h ++ as, a ≠
      abValue ∧ a ≠ abGuard) ∧
    (∃ (k : Fin 16) (data : List Byte) (s : State), s.tidy = true ∧ let h := canHeard s; let m := pdoMap h true ↑k; NoneWaits
      s ∧ canPdo s = true ∧ pdoOn s true ↑k = true ∧ 240 < s.rd (Obj.rpdoType ↑k) ∧ 8 * data.length < sumBy mapBits m) ∧
    (∃ (k : Fin 16) (data : List Byte) (c : Option Byte) (s : State), s.tidy = true ∧ let h := canHeard s;
      let m := pdoMap h true ↑k; let es := splitPdo m data; ∃ (u : State) (as : List Nat), NoneWaits s ∧ canPdo s = true ∧
      syncValid s = true ∧ syncGood s c = true ∧ (∀ j < 15, pdoOn s false j = false) ∧ s.can.heldRpdo = [(↑k, data)] ∧ sumBy
      mapBits m ≤ 8 * data.length ∧ applyPdo es
      { pending := h.pending, od := h.od, answers := h.answers, mem := h.mem, slate := h.slate, lanes := h.lanes, cores := h.cores, xch := h.xch, oc := h.oc, inCh := h.inCh, outCh := h.outCh, ports := h.ports, steer := h.steer, houseEdge := h.houseEdge, splices := h.splices, spliceIds := h.spliceIds, nodes := h.nodes, edges := h.edges, firings := h.firings, fireSeq := h.fireSeq, waitSeq := h.waitSeq, rings := h.rings, paths := h.paths, convs := h.convs, pans := h.pans, panLog := h.panLog, busy := h.busy, dma := h.dma, dmaArb := h.dmaArb, dramClean := h.dramClean, dramErr := h.dramErr, handles := h.handles, gens := h.gens, records := h.records, faultLog := h.faultLog, active := h.active, onceKeys := h.onceKeys, link := h.link, codec := h.codec, can := have __src := s.can; { nmt := __src.nmt, rate := __src.rate, silent := __src.silent, busOff := __src.busOff, sent := __src.sent, emcy := __src.emcy, emcyDrop := __src.emcyDrop, emcyOwed := __src.emcyOwed, errors := __src.errors, sessions := __src.sessions, syncCount := __src.syncCount, tpdoLast := __src.tpdoLast, tpdoSync := __src.tpdoSync, tpdoHeld := __src.tpdoHeld, tpdoBlock := __src.tpdoBlock, tpdoDirty := __src.tpdoDirty, monitored := __src.monitored, tpdo16 := __src.tpdo16, lssConfig := __src.lssConfig }, power := h.power, boot := h.boot, flash := h.flash, snapshot := h.snapshot, slotImages := h.slotImages, service := h.service, wdtSlate := h.wdtSlate, wdtFrom := h.wdtFrom, fresh := h.fresh }
      = (u, as) ∧ ∀ a ∈ checkPdo es
      { pending := h.pending, od := h.od, answers := h.answers, mem := h.mem, slate := h.slate, lanes := h.lanes, cores := h.cores, xch := h.xch, oc := h.oc, inCh := h.inCh, outCh := h.outCh, ports := h.ports, steer := h.steer, houseEdge := h.houseEdge, splices := h.splices, spliceIds := h.spliceIds, nodes := h.nodes, edges := h.edges, firings := h.firings, fireSeq := h.fireSeq, waitSeq := h.waitSeq, rings := h.rings, paths := h.paths, convs := h.convs, pans := h.pans, panLog := h.panLog, busy := h.busy, dma := h.dma, dmaArb := h.dmaArb, dramClean := h.dramClean, dramErr := h.dramErr, handles := h.handles, gens := h.gens, records := h.records, faultLog := h.faultLog, active := h.active, onceKeys := h.onceKeys, link := h.link, codec := h.codec, can := have __src := s.can; { nmt := __src.nmt, rate := __src.rate, silent := __src.silent, busOff := __src.busOff, sent := __src.sent, emcy := __src.emcy, emcyDrop := __src.emcyDrop, emcyOwed := __src.emcyOwed, errors := __src.errors, sessions := __src.sessions, syncCount := __src.syncCount, tpdoLast := __src.tpdoLast, tpdoSync := __src.tpdoSync, tpdoHeld := __src.tpdoHeld, tpdoBlock := __src.tpdoBlock, tpdoDirty := __src.tpdoDirty, monitored := __src.monitored, tpdo16 := __src.tpdo16, lssConfig := __src.lssConfig }, power := h.power, boot := h.boot, flash := h.flash, snapshot := h.snapshot, slotImages := h.slotImages, service := h.service, wdtSlate := h.wdtSlate, wdtFrom := h.wdtFrom, fresh := h.fresh }
      ++ as, a ≠ abValue ∧ a ≠ abGuard) ∧
    (∃ (c : Option Byte) (s : State), s.tidy = true ∧ (s.can.nmt = nmtPreOp ∨ syncValid s = false ∨ syncGood s c = false)) ∧
    (∃ (k : Fin 16) (c : Option Byte) (s : State), s.tidy = true ∧ let h := canHeard s;
      let h1 := { pending := h.pending, od := h.od, answers := h.answers, mem := h.mem, slate := h.slate, lanes := h.lanes, cores := h.cores, xch := h.xch, oc := h.oc, inCh := h.inCh, outCh := h.outCh, ports := h.ports, steer := h.steer, houseEdge := h.houseEdge, splices := h.splices, spliceIds := h.spliceIds, nodes := h.nodes, edges := h.edges, firings := h.firings, fireSeq := h.fireSeq, waitSeq := h.waitSeq, rings := h.rings, paths := h.paths, convs := h.convs, pans := h.pans, panLog := h.panLog, busy := h.busy, dma := h.dma, dmaArb := h.dmaArb, dramClean := h.dramClean, dramErr := h.dramErr, handles := h.handles, gens := h.gens, records := h.records, faultLog := h.faultLog, active := h.active, onceKeys := h.onceKeys, link := h.link, codec := h.codec, can := have __src := s.can; { nmt := __src.nmt, rate := __src.rate, silent := __src.silent, busOff := __src.busOff, sent := __src.sent, emcy := __src.emcy, emcyDrop := __src.emcyDrop, emcyOwed := __src.emcyOwed, errors := __src.errors, heldRpdo := __src.heldRpdo, sessions := __src.sessions, syncCount := __src.syncCount, tpdoLast := __src.tpdoLast, tpdoSync := __src.tpdoSync, tpdoHeld := __src.tpdoHeld, tpdoBlock := __src.tpdoBlock, tpdoDirty := List.filter (fun (x : Nat) => x != ↑k) s.can.tpdoDirty, monitored := __src.monitored, tpdo16 := __src.tpdo16, lssConfig := __src.lssConfig }, power := h.power, boot := h.boot, flash := h.flash, snapshot := h.snapshot, slotImages := h.slotImages, service := h.service, wdtSlate := h.wdtSlate, wdtFrom := h.wdtFrom, fresh := h.fresh };
      canPdo s = true ∧ syncValid s = true ∧ syncGood s c = true ∧ OnlyTpdo h1 ↑k ∧ s.rd (Obj.tpdoType ↑k) = 1 ∧
      s.can.heldRpdo = []) ∧
    (∃ (s : State), s.tidy = true ∧ canServes s = true ∧ syncValid s = true ∧ s.can.nmt = nmtPreOp ∧ (s.rd
      Obj.cobSync).testBit 30 = true ∧ 0 < s.rd Obj.syncPeriod) ∧
    (∃ (s : State), s.tidy = true ∧ syncValid s = false) ∧
    (∃ (k : Fin 16) (s : State), s.tidy = true ∧ canPdo s = true ∧ OnlyTpdo s ↑k ∧ 254 ≤ s.rd (Obj.tpdoType ↑k) ∧ lastSample s
      ↑k ≠ some (sampleOf s ↑k)) ∧
    (∃ (k : Fin 16) (s : State), s.tidy = true ∧ canPdo s = true ∧ OnlyTpdo s ↑k ∧ 254 ≤ s.rd (Obj.tpdoType ↑k) ∧ 0 < s.rd
      (Obj.tpdoEventTimer ↑k)) ∧
    (∃ (k : Fin 16) (s : State), s.tidy = true ∧ s.can.tpdoHeld.contains ↑k = false) ∧
    (∃ (k : Fin 16) (s : State), s.tidy = true ∧
      let b := { pending := s.pending, od := s.od, answers := s.answers, mem := s.mem, slate := s.slate, lanes := s.lanes, cores := s.cores, xch := s.xch, oc := s.oc, inCh := s.inCh, outCh := s.outCh, ports := s.ports, steer := s.steer, houseEdge := s.houseEdge, splices := s.splices, spliceIds := s.spliceIds, nodes := s.nodes, edges := s.edges, firings := s.firings, fireSeq := s.fireSeq, waitSeq := s.waitSeq, rings := s.rings, paths := s.paths, convs := s.convs, pans := s.pans, panLog := s.panLog, busy := s.busy, dma := s.dma, dmaArb := s.dmaArb, dramClean := s.dramClean, dramErr := s.dramErr, handles := s.handles, gens := s.gens, records := s.records, faultLog := s.faultLog, active := s.active, onceKeys := s.onceKeys, link := s.link, codec := s.codec, can := have __src := s.can; { nmt := __src.nmt, rate := __src.rate, silent := __src.silent, busOff := __src.busOff, sent := __src.sent, emcy := __src.emcy, emcyDrop := __src.emcyDrop, emcyOwed := __src.emcyOwed, errors := __src.errors, heldRpdo := __src.heldRpdo, sessions := __src.sessions, syncCount := __src.syncCount, tpdoLast := __src.tpdoLast, tpdoSync := __src.tpdoSync, tpdoHeld := __src.tpdoHeld, tpdoBlock := List.filter (fun (x : Nat) => x != ↑k) s.can.tpdoBlock, tpdoDirty := __src.tpdoDirty, monitored := __src.monitored, tpdo16 := __src.tpdo16, lssConfig := __src.lssConfig }, power := s.power, boot := s.boot, flash := s.flash, snapshot := s.snapshot, slotImages := s.slotImages, service := s.service, wdtSlate := s.wdtSlate, wdtFrom := s.wdtFrom, fresh := s.fresh };
      s.can.tpdoHeld.contains ↑k = true ∧ canPdo s = true ∧ ↑k < 15 ∧ pdoOn s false ↑k = true ∧ 254 ≤ s.rd (Obj.tpdoType ↑k) ∧
      (samplePdo (pdoMap b false ↑k) b).2 = b) ∧
    (∃ (s : State), s.tidy = true ∧ ∃ (r : Record) (rest : List Record), canPdo s = true ∧ (cobValue s (Obj.tpdoCob
      15)).testBit 31 = false ∧ s.can.tpdoBlock.contains 15 = false ∧ s.can.tpdo16 = r :: rest) :=
  ⟨⟨3, pd [(Obj.rpdoType 3,0),(Obj.tpdoType 3,1)], by decide +kernel⟩,
   ⟨3, D, pd [(Obj.cobSync, 0x80000080)], (by decide +kernel), _, _, (by unfold NoneWaits; decide +kernel), (by
     decide +kernel), (by decide +kernel), (by decide +kernel), (by decide +kernel), rfl, by decide +kernel⟩,
   ⟨3, [1], pd [(Obj.rpdoType 3, 255)], by unfold NoneWaits; decide +kernel⟩,
   ⟨3, D, none, pd [(Obj.rpdoType 3, 0),(Obj.tpdoCob 3, 0x80000183)] {heldRpdo := [(3,D)]}, (by decide +kernel), _, _,
     (by unfold NoneWaits; decide +kernel), (by decide +kernel), (by decide +kernel), (by decide +kernel), (by
     decide +kernel), (by decide +kernel), (by decide +kernel), rfl, by decide +kernel⟩,
   ⟨none, pd [(Obj.cobSync, 0x80000080)], by decide +kernel⟩,
   ⟨3, none, pd [(Obj.rpdoType 3,0),(Obj.tpdoType 3,1)], by unfold OnlyTpdo; decide +kernel⟩,
   ⟨{pd [(Obj.cobSync, 0x40000080),(Obj.syncPeriod,5)] with can := {nmt := 127}}, by decide +kernel⟩,
   ⟨pd [(Obj.cobSync, 0x80000080)], by decide +kernel⟩,
   ⟨3, pd [(Obj.rpdoType 3, 255)], by unfold OnlyTpdo; decide +kernel⟩,
   ⟨3, pd [(Obj.tpdoEventTimer 3, 3),(Obj.syncOverflow,4)], by unfold OnlyTpdo; decide +kernel⟩,
   ⟨3, pd [(Obj.rpdoType 3, 255)], by decide +kernel⟩,
   ⟨3, pd [(Obj.tpdoInhibit 3, 5)] {tpdoBlock := [3], tpdoHeld := [3]}, by decide +kernel⟩,
   ⟨pd [(Obj.tpdoCob 15, 0x184)] {tpdoBlock := [3], tpdo16 := [⟨1,2,3,4⟩,⟨1,2,3,5⟩]}, (by decide +kernel), _, _, (by
     decide +kernel), (by decide +kernel), (by decide +kernel), rfl⟩⟩

/-- What the clauses of `Obligations.NetworkStates` ask holds together somewhere. -/
theorem witness_network_states :
    (∃ (node : Byte) (s : State), s.tidy = true ∧ nmtFor s node = false) ∧
    (∃ (node : Byte) (s : State), s.tidy = true ∧ nmtFor s node = true ∧ s.boot.pending = none) ∧
    (∃ (s : State), s.tidy = true ∧ ∃ (m : List Byte) (ms : List (List Byte)), canServes s = true ∧ s.can.emcy = m :: ms ∧
      s.can.emcyOwed = false) ∧
    (∃ (s : State), s.tidy = true ∧ canUp s = true ∧ s.can.nmt ≠ 0 ∧ 0 < s.rd Obj.prodHeartbeat) ∧
    (∃ (node : Byte) (i : Fin 4) (s : State), s.tidy = true ∧ canUp s = true ∧ s.can.nmt ≠ 0 ∧ consNode s ↑i = BitVec.toNat
      node ∧ consTime s ↑i ≠ 0) ∧
    (∃ (i : Fin 4) (s : State), s.tidy = true ∧ canUp s = true ∧ ↑i ∈ s.can.monitored ∧ consTime s ↑i ≠ 0) ∧
    (∃ (s : State), s.tidy = true ∧ canUp s = true ∧ (45058, 0) ∉ s.onceKeys) ∧
    (∃ (s : State), s.tidy = true ∧ Ready s) :=
  ⟨⟨19, cn 5, by decide +kernel⟩,
   ⟨18, cn 5, by decide +kernel⟩,
   ⟨hb 0 5, (by decide +kernel), [1], [[2]], by decide +kernel⟩,
   ⟨hb 0 5, by decide +kernel⟩,
   ⟨0x11, 2, hb 0 5, by decide +kernel⟩,
   ⟨2, hb 0 5, by decide +kernel⟩,
   ⟨hb 0 5, by decide +kernel⟩,
   ⟨hb 0 5, by unfold Ready NoneWaits; decide +kernel⟩⟩

/-- What the clauses of `Obligations.LssServices` ask holds together somewhere. -/
theorem witness_lss_services :
    (∃ (mode : Byte) (s : State), s.tidy = true ∧ canUp s = true ∧ BitVec.toNat mode ≤ 1) ∧
    (∃ (v : Word) (p : Word) (r : Word) (n : Word) (s : State), s.tidy = true ∧ canUp s = true ∧ IdentityIs v p r n) ∧
    (∃ (v : Word) (p : Word) (r : Word) (n : Word) (s : State), s.tidy = true ∧ canUp s = true ∧ ¬IdentityIs v p r n) ∧
    (∃ (s : State), s.tidy = true ∧ canUp s = true ∧ s.can.lssConfig = false) ∧
    (∃ (node : Byte) (s : State), s.tidy = true ∧ canUp s = true ∧ s.can.lssConfig = true ∧ nodeIdGood (BitVec.toNat node) =
      true) ∧
    (∃ (node : Byte) (s : State), s.tidy = true ∧ canUp s = true ∧ s.can.lssConfig = true ∧ nodeIdGood (BitVec.toNat node) =
      false) ∧
    (∃ (table : Byte) (index : Byte) (s : State), s.tidy = true ∧ canUp s = true ∧ ∃ (c : Nat), s.can.lssConfig = true ∧
      lssRateCode table index = some c) ∧
    (∃ (table : Byte) (index : Byte) (s : State), s.tidy = true ∧ canUp s = true ∧ s.can.lssConfig = true ∧ lssRateCode table
      index = none) ∧
    (∃ (s : State), s.tidy = true ∧ canUp s = true ∧ s.can.lssConfig = true ∧ guardGood (s.rd Obj.bitRate) = true) ∧
    (∃ (s : State), s.tidy = true ∧ canUp s = true ∧ s.can.lssConfig = true ∧ guardGood (s.rd Obj.bitRate) = false) ∧
    (∃ (s : State), s.tidy = true ∧ canUp s = true ∧ s.can.lssConfig = true ∧ s.rd Obj.holdSafe ≠ 1) ∧
    (∃ (s : State), s.tidy = true ∧ canUp s = true ∧ s.can.lssConfig = true ∧ s.rd Obj.holdSafe = 1) ∧
    (∃ (cs : Byte) (s : State), s.tidy = true ∧ canUp s = true ∧ s.can.lssConfig = true ∧ 90 ≤ BitVec.toNat cs ∧ BitVec.toNat
      cs ≤ 93) ∧
    (∃ (v : Word) (p : Word) (rl : Word) (rh : Word) (nl : Word) (nh : Word) (s : State), s.tidy = true ∧ canUp s = true ∧
      BitVec.toNat v = identityWord 1 ∧ BitVec.toNat p = identityWord 2 ∧ BitVec.toNat rl ≤ identityWord 3 ∧ identityWord 3 ≤
      BitVec.toNat rh ∧ BitVec.toNat nl ≤ identityWord 4 ∧ identityWord 4 ≤ BitVec.toNat nh) ∧
    (∃ (s : State), s.tidy = true ∧ canUp s = true ∧ activeNode s = 255) ∧
    (∃ (s : State), s.tidy = true ∧ canUp s = true ∧ activeNode s ≠ 255) :=
  ⟨⟨B1, cn 5 [], by decide +kernel⟩,
   ⟨idw 1, idw 2, idw 3, idw 4, cn 5 [], by decide +kernel, by decide +kernel, idw_toNat 1, idw_toNat 2, idw_toNat 3, idw_toNat 4⟩,
   ⟨5, idw 2, idw 3, idw 4, cn 5 [(Obj.nodeIdActive, 0xFF)] {lssConfig := true}, by unfold IdentityIs; decide +kernel⟩,
   ⟨cn 5 [], by decide +kernel⟩,
   ⟨5, cn 5 [] {lssConfig := true}, by decide +kernel⟩,
   ⟨0x80, cn 5 [(Obj.nodeIdActive, 0xFF)] {lssConfig := true}, by decide +kernel⟩,
   ⟨0, 2, cn 5 [] {lssConfig := true}, (by decide +kernel), (by decide +kernel), 1, by decide +kernel⟩,
   ⟨1, 2, cn 5 [(Obj.holdSafe, 1),(Obj.bitRate, 5)] {lssConfig := true}, by decide +kernel⟩,
   ⟨cn 5 [] {lssConfig := true}, by decide +kernel⟩,
   ⟨cn 5 [(Obj.holdSafe, 1),(Obj.bitRate, 5)] {lssConfig := true}, by decide +kernel⟩,
   ⟨cn 5 [] {lssConfig := true}, by decide +kernel⟩,
   ⟨cn 5 [(Obj.holdSafe, 1),(Obj.bitRate, 5)] {lssConfig := true}, by decide +kernel⟩,
   ⟨0x5B, cn 5 [] {lssConfig := true}, by decide +kernel⟩,
   ⟨idw 1, idw 2, 0, 0xFFFFFFFF, 0, 0xFFFFFFFF, cn 5 [], by decide +kernel, by decide +kernel, idw_toNat 1, idw_toNat 2, Nat.zero_le _,
     Nat.le_sub_one_of_lt (identityWord_lt 3), Nat.zero_le _, Nat.le_sub_one_of_lt (identityWord_lt 4)⟩,
   ⟨cn 5 [(Obj.nodeIdActive, 0xFF)] {lssConfig := true}, by decide +kernel⟩,
   ⟨cn 5 [], by decide +kernel⟩⟩

/-- What the clauses of `Obligations.StoresAndRecords` ask holds together somewhere. -/
theorem witness_stores_and_records :
    (∃ (v : Byte) (s : State), s.tidy = true ∧ let used := s.rd Obj.hvUsed;
      let d := (BitVec.toNat v + 256 - s.rd Obj.hvTail) % 256; let freed := if used = 256 ∧ d = 0 then 256 else d; Ready s ∧
      freed ≤ used) ∧
    (∃ (v : Byte) (s : State), s.tidy = true ∧ let used := s.rd Obj.hvUsed;
      let d := (BitVec.toNat v + 256 - s.rd Obj.hvTail) % 256; let freed := if used = 256 ∧ d = 0 then 256 else d; Ready s ∧
      used < freed) ∧
    (∃ (s : State), s.tidy = true ∧ Ready s ∧ storeRuns s = false ∧ eraseRuns s = false ∧ admits s = true) ∧
    (∃ (s : State), s.tidy = true ∧ Ready s ∧ storeRuns s = true) ∧
    (∃ (s : State), s.tidy = true ∧ Ready s ∧ storeRuns s = false ∧ eraseRuns s = false ∧ admits s = false) ∧
    (∃ (s : State), s.tidy = true ∧ ∃ (h : Handle) (k : Nat), handleOf (fun (o : Op) =>
      match o with | Op.store sub => true | x => false) s = some h ∧ h.op = Op.store k ∧ awake s = true ∧ s.rd Obj.holdSafe ≠ 1 ∧ s.can.silent
      = false) ∧
    (∃ (s : State), s.tidy = true ∧ ∃ (h : Handle) (k : Nat), handleOf (fun (o : Op) =>
      match o with | Op.store sub => true | x => false) s = some h ∧ h.op = Op.store k ∧ awake s = true ∧ s.rd Obj.holdSafe ≠ 1) ∧
    (∃ (s : State), s.tidy = true ∧ ∃ (h : Handle) (k : Nat), handleOf (fun (o : Op) =>
      match o with | Op.restore sub => true | x => false) s = some h ∧ h.op = Op.restore k ∧ awake s = true ∧ s.rd Obj.holdSafe ≠ 1) ∧
    (∃ (s : State), s.tidy = true ∧ s.rd Obj.holdSafe = 1) ∧
    (∃ (s : State), s.tidy = true ∧ ∃ (h : Handle) (k : Nat), handleOf (fun (o : Op) =>
      match o with | Op.store sub => true | x => false) s = some h ∧ h.op = Op.store k ∧ awake s = true ∧ s.rd Obj.holdSafe ≠ 1 ∧ s.can.silent
      = true ∧ s.boot.mode = 0) :=
  ⟨⟨14, st [(Obj.hvUsed, 20),(Obj.hvTail,250)] up, by unfold Ready NoneWaits; decide +kernel⟩,
   ⟨250, sto, by unfold Ready NoneWaits; decide +kernel⟩,
   ⟨st [(Obj.hvUsed, 20),(Obj.hvTail,250)] up, by unfold Ready NoneWaits; decide +kernel⟩,
   ⟨sto, by unfold Ready NoneWaits; decide +kernel⟩,
   ⟨st [(Obj.hvUsed, 256),(Obj.hvTail,250)] up, by unfold Ready NoneWaits; decide +kernel⟩,
   ⟨sto, (by decide +kernel), ⟨1,1,.store 1,0,0⟩, 1, by decide +kernel⟩,
   ⟨sto, (by decide +kernel), ⟨1,1,.store 1,0,0⟩, 1, by decide +kernel⟩,
   ⟨{sto with handles := [⟨1,1,.restore 1,0,0⟩], flash := {useB := true, setB := sto.od}}, (by decide +kernel), ⟨1,1,.restore
     1,0,0⟩, 1, by decide +kernel⟩,
   ⟨st [(Obj.holdSafe,1)] sto, by decide +kernel⟩,
   ⟨{sto with can := {silent := true, nmt := 127}}, (by decide +kernel), ⟨1,1,.store 1,0,0⟩, 1, by decide +kernel⟩⟩

/-- What the clauses of `Obligations.LinkAndCodec` on the codec port ask holds together somewhere. -/
theorem witness_codec_port :
    (∃ (e : BitVec 64) (s : State), s.tidy = true ∧ let c := s.codec; Ready s ∧ 7 ≤ cdcSize e ∧ c.queue.length < 64) ∧
    (∃ (e : BitVec 64) (s : State), s.tidy = true ∧ let c := s.codec; Ready s ∧ 7 ≤ cdcSize e ∧ 64 ≤ c.queue.length) ∧
    (∃ (e : BitVec 64) (s : State), s.tidy = true ∧ Ready s ∧ cdcSize e < 7) ∧
    (∃ (e : BitVec 64) (rest : List (BitVec 64)) (s : State), s.tidy = true ∧ let c := s.codec; c.running = false ∧ c.word =
      false ∧ c.queue = e :: rest ∧ s.rd Obj.pwrState = 0) ∧
    (∃ (e : BitVec 64) (rest : List (BitVec 64)) (s : State), s.tidy = true ∧ let c := s.codec; c.running = true ∧ c.word =
      false ∧ c.queue = e :: rest ∧ s.rd Obj.pwrState = 0) ∧
    (∃ (s : State), s.tidy = true ∧ let c := s.codec; c.queue = [] ∨ s.rd Obj.pwrState ≠ 0) ∧
    (∃ (e : BitVec 64) (rest : List (BitVec 64)) (s : State), s.tidy = true ∧ let c := s.codec; awake s = true ∧ c.word = true
      ∧ c.running = true ∧ c.queue = e :: rest ∧ c.index < cdcCount e ∧ c.flush = false ∧ cdcRx e = true ∧ c.rx.length < 1024
      ∧ (cdcCont e = false ∨ s.rd Obj.pwrState ≠ 0)) ∧
    (∃ (e : BitVec 64) (rest : List (BitVec 64)) (s : State), s.tidy = true ∧ let c := s.codec; awake s = true ∧ c.word = true
      ∧ c.running = true ∧ c.queue = e :: rest ∧ c.index < cdcCount e ∧ c.flush = false ∧ cdcRx e = true ∧ c.rx.length < 1024
      ∧ cdcCont e = true ∧ s.rd Obj.pwrState = 0) ∧
    (∃ (e : BitVec 64) (rest : List (BitVec 64)) (s : State), s.tidy = true ∧ let c := s.codec; awake s = true ∧ c.word = true
      ∧ c.running = true ∧ c.queue = e :: rest ∧ c.index < cdcCount e ∧ c.flush = true ∧ cdcRx e = false) ∧
    (∃ (e : BitVec 64) (rest : List (BitVec 64)) (s : State), s.tidy = true ∧ let c := s.codec; awake s = true ∧ c.word = true
      ∧ c.running = true ∧ c.queue = e :: rest ∧ cdcCount e ≤ c.index ∧ cdcRx e = false) ∧
    (∃ (e : BitVec 64) (rest : List (BitVec 64)) (s : State), s.tidy = true ∧ let c := s.codec; awake s = true ∧ c.word = true
      ∧ c.running = true ∧ c.queue = e :: rest ∧ 1024 ≤ c.rx.length ∧ cdcRx e = true) ∧
    (∃ (s : State), s.tidy = true ∧ let c := s.codec; Ready s ∧ c.word = false) ∧
    (∃ (s : State), s.tidy = true ∧ let c := s.codec; Ready s ∧ c.word = true) ∧
    (∃ (s : State), s.tidy = true ∧ let c := s.codec; ∃ (w : Word) (ws : List Word), Ready s ∧ c.rx = w :: ws) ∧
    (∃ (s : State), s.tidy = true ∧ let c := s.codec; Ready s ∧ c.rx = []) :=
  ⟨⟨e1, up, by unfold Ready NoneWaits; decide +kernel⟩,
   ⟨e1, cd (List.replicate 64 e1) true 0 [], by unfold Ready NoneWaits; decide +kernel⟩,
   ⟨e3, up, by unfold Ready NoneWaits; decide +kernel⟩,
   ⟨e1, [e2], cd [e1,e2] false 0 [], by decide +kernel⟩,
   ⟨e1, [e2], cd [e1,e2] true 1 [], by decide +kernel⟩,
   ⟨up, by decide +kernel⟩,
   ⟨e1, [e2], cd [e1,e2] true 0 [7,8] true, by decide +kernel⟩,
   ⟨e4, [e2], cd [e4,e2] true 0 [7,8] true, by decide +kernel⟩,
   ⟨e2, [e2], cd [e2,e2] true 0 [7,8] true true, by decide +kernel⟩,
   ⟨e2, [e2], cd [e2,e2] true 1 [7,8] true, by decide +kernel⟩,
   ⟨e1, [e2], cd [e1,e2] true 0 (List.replicate 1024 9) true, by decide +kernel⟩,
   ⟨up, by unfold Ready NoneWaits; decide +kernel⟩,
   ⟨cd [e1,e2] true 0 [7,8] true, by unfold Ready NoneWaits; decide +kernel⟩,
   ⟨cd [e1,e2] true 0 [7,8] true, (by decide +kernel), _, _, (by unfold Ready NoneWaits; decide +kernel), rfl⟩,
   ⟨up, by unfold Ready NoneWaits; decide +kernel⟩⟩

end Sys2Proof.Tests.Network
end

