-- ==== Sys2Proof/Tests/WitnessPorts.lean ====
section
/-! SUPPORT. Witnesses: for each statement, states and operands that meet what its clauses ask. -/

namespace Sys2Proof.Tests.Ports

open Sys2Proof.Machine Sys2Proof.Claims

set_option maxRecDepth 100000
set_option Elab.async false

def st (rs : List (Reg × Nat)) (s : State := {}) : State := rs.foldl (fun s x => s.wr x.1 x.2) s

def up : State := { boot := { booted := true, meterE := false } }

def pt (x : Nat) (q : Port := {}) (rs : List (Reg × Nat) := []) : State := { (st ([(Obj.portState 1, x)] ++ rs) up).setPort 1 q with slate := 2000 }

def oc : State := { (pt portRun {} [(Obj.portOutMask 1, 0xFFFF)]).setOutchan 20 { (outDefault 20) with p := 31 } with oc := [(20, 0x12345678)] }

/-- What the clauses of `Obligations.PortWords` ask holds together somewhere. -/
theorem witness_port_words :
    (∃ (g : Fin 6) (right : Bool) (k : Fin 8) (s : State), s.tidy = true ∧
      let c : Nat := 16 * ↑g + 2 * ↑k + if right = true then 1 else 0; portSt s ↑g = portRun ∧ (s.port ↑g).glitchRun = false ∧
      (s.port ↑g).fadeTest = false ∧ InLenHeld s c) ∧
    (∃ (g : Fin 6) (s : State) (c : Nat), s.tidy = true ∧ portSt s ↑g = portHold ∧ c ∈ groupChannels ↑g ∧ InLenHeld s c) ∧
    (∃ (g : Fin 6) (right : Bool) (k : Fin 8) (s : State), s.tidy = true ∧
      let c : Nat := 16 * ↑g + 2 * ↑k + if right = true then 1 else 0; PlainPlay s c) :=
  ⟨⟨1, false, 2, oc, by unfold InLenHeld; decide +kernel⟩,
   ⟨1, (pt portHold).setInchan 20 { p := 1, last := 0x40000000 }, 20, by unfold InLenHeld; decide +kernel⟩,
   ⟨1, false, 2, oc, by unfold PlainPlay; decide +kernel⟩⟩

/-- What the clauses of `Obligations.StreamsAndOperands` ask holds together somewhere. -/
theorem witness_streams_and_operands :
    (∃ (g : Fin 6) (s : State), Ready s ∧ s.rd (Obj.streamEnable ↑g) = 0 ∧ let e := s.rd (Obj.inEdge ↑g);
      let q := s.rd (Obj.inRingDepth ↑g); let words := 4 + streamB s ↑g * inCount s ↑g; edgeRefusal s e q = 0 ∧ inOneGroup
      (s.rd (Obj.inRingAddr ↑g)) (q * words) = true) ∧
    (∃ (g : Fin 6) (s : State), Ready s ∧ s.rd (Obj.streamEnable ↑g) = 0 ∧ inOneGroup (s.rd (Obj.inRingAddr ↑g)) (s.rd
      (Obj.inRingDepth ↑g) * (4 + streamB s ↑g * inCount s ↑g)) = false) ∧
    (∃ (op : OutOperand) (v : Pair) (s : State), Ready s ∧ operandFits op v) ∧
    (∃ (c : Fin 96) (s : State), s.tidy = true ∧ let o := s.outchan ↑c; (hasPending o = true ∨ o.cut = true) ∧
      o.causes.timeout = false) :=
  ⟨⟨1, st [(Obj.inEdge 1, 5),(Obj.inRingAddr 1, 0x400000),(Obj.inRingDepth 1, 4),(Obj.pgState 0,1)] up,
     by unfold Ready NoneWaits; decide +kernel⟩,
   ⟨1, st [(Obj.inRingAddr 1, 0x480000-1),(Obj.inRingDepth 1, 4),(Obj.pgState 0,1)] up,
     by unfold Ready NoneWaits; decide +kernel⟩,
   ⟨.routing, BitVec.ofNat 64 (guardOf 0x85), oc, by unfold Ready NoneWaits operandFits; decide +kernel⟩,
   ⟨20, oc.setOutchan 20 { (outDefault 20) with p := 31, cut := true }, by decide +kernel⟩⟩

/-- What the clauses of `Obligations.PortTiming` ask holds together somewhere. -/
theorem witness_port_timing :
    (∃ (g : Fin 6) (s : State), s.tidy = true ∧ let st := portSt s ↑g; st = portOff) ∧
    (∃ (g : Fin 6) (s : State), s.tidy = true ∧ let st := portSt s ↑g; st = portHold) ∧
    (∃ (g : Fin 6) (edges : Nat) (s : State), s.tidy = true ∧ let st := portSt s ↑g; (st = portPreroll ∨ st = portRun ∨ st =
      portRelock) ∧ edges = fmtHalf (s.rd (Obj.portFormat ↑g))) ∧
    (∃ (g : Fin 6) (edges : Nat) (s : State), s.tidy = true ∧ let x := s.port ↑g; let st := portSt s ↑g; st = portWait ∧
      ¬ClockLate s ↑g ∧ edges = fmtHalf (s.rd (Obj.portFormat ↑g)) ∧ x.seen = true ∧ x.seenFall = true) ∧
    (∃ (g : Fin 6) (edges : Nat) (s : State), s.tidy = true ∧ let x := s.port ↑g; let st := portSt s ↑g; st = portRun ∧ x.seen =
      true ∧ edges ≠ fmtHalf (s.rd (Obj.portFormat ↑g))) ∧
    (∃ (g : Fin 6) (s : State), s.tidy = true ∧ let x := s.port ↑g; x.glitchRun = true ∧ 16 ≤ x.clean) ∧
    (∃ (g : Fin 6) (s : State), s.tidy = true ∧ let x := s.port ↑g; let st := portSt s ↑g; st = portWait ∧ 4 ≤ x.frames ∧
      x.good = x.frames) ∧
    (∃ (g : Fin 6) (s : State), s.tidy = true ∧ let x := s.port ↑g; let st := portSt s ↑g; st = portWait ∧ 4 ≤ x.frames ∧
      x.good ≠ x.frames) ∧
    (∃ (g : Fin 6) (s : State), s.tidy = true ∧ let x := s.port ↑g; let st := portSt s ↑g; st = portPreroll ∧ x.fadeTest =
      false ∧ s.rd (Obj.portPreroll ↑g) ≤ x.frames) ∧
    (∃ (g : Fin 6) (s : State), s.tidy = true ∧ let x := s.port ↑g; let st := portSt s ↑g; (st = portPreroll ∨ st = portRun ∨
      st = portRelock) ∧ ClockLate s ↑g ∧ x.fadeOff = false) ∧
    (∃ (g : Fin 6) (s : State), s.tidy = true ∧ let x := s.port ↑g; let st := portSt s ↑g; (st = portPreroll ∨ st = portRun ∨
      st = portRelock) ∧ ClockLate s ↑g ∧ x.fadeOff = true) ∧
    (∃ (g : Fin 6) (s : State), s.tidy = true ∧ let x := s.port ↑g; let st := portSt s ↑g; (st = portPreroll ∨ st = portRun) ∧
      4 ≤ x.bad) ∧
    (∃ (g : Fin 6) (s : State), s.tidy = true ∧ let x := s.port ↑g; let st := portSt s ↑g; st = portRelock ∧ x.relockStep = 2
      ∧ 16 ≤ x.periods ∧ rateSupported (s.rd (Obj.portFormat ↑g)) (meanRate x.sum) = true) ∧
    (∃ (g : Fin 6) (s : State), s.tidy = true ∧ let x := s.port ↑g; let st := portSt s ↑g; st = portRelock ∧ x.relockStep = 2
      ∧ 16 ≤ x.periods ∧ rateSupported (s.rd (Obj.portFormat ↑g)) (meanRate x.sum) = false) ∧
    (∃ (g : Fin 6) (s : State), s.tidy = true ∧ let x := s.port ↑g; let st := portSt s ↑g; st = portRelock ∧ x.relockStep = 3
      ∧ 64 ≤ x.good) :=
  ⟨⟨1, pt portOff, by decide +kernel⟩,
   ⟨1, pt portHold, by decide +kernel⟩,
   ⟨1, 32, pt portRun { seen := true, glitches := [1,2] }, by decide +kernel⟩,
   ⟨1, 32, pt portWait { seen := true, seenFall := true, lastFall := 0, lastEdge := 1000 },
     by unfold ClockLate; decide +kernel⟩,
   ⟨1, 31, pt portRun { seen := true, glitches := [1,2] }, by decide +kernel⟩,
   ⟨1, pt portRun { glitchRun := true, clean := 16 }, by decide +kernel⟩,
   ⟨1, pt portWait { frames := 4, good := 4 }, by decide +kernel⟩,
   ⟨1, pt portWait { frames := 4, good := 3 }, by decide +kernel⟩,
   ⟨1, pt portPreroll { frames := 4096 }, by decide +kernel⟩,
   ⟨1, { pt portRun { frames := 4096 } [(Obj.leader,1)] with slate := 1000000 }, by unfold ClockLate; decide +kernel⟩,
   ⟨1, { pt portRun { frames := 4096, fadeOff := true } [(Obj.leader,1)] with slate := 1000000 },
     by unfold ClockLate; decide +kernel⟩,
   ⟨1, pt portRun { bad := 4 } [(Obj.leader,1)], by decide +kernel⟩,
   ⟨1, pt portRelock { relockStep := 2, periods := 16, sum := 16 * 2083 }, by decide +kernel⟩,
   ⟨1, pt portRelock { relockStep := 2, periods := 16, sum := 16 * 500083 }, by decide +kernel⟩,
   ⟨1, pt portRelock { relockStep := 3, good := 64 } [(Obj.leader,1)], by decide +kernel⟩⟩

/-- What the clauses of `Obligations.PortControls` ask holds together somewhere. -/
theorem witness_port_controls :
    (∃ (g : Fin 6) (s : State), s.tidy = true ∧ let st := portSt s ↑g; Ready s ∧ st = portOff ∧ portsMayRun s = true ∧ s.rd
      (Obj.portClock ↑g) = 0) ∧
    (∃ (g : Fin 6) (s : State), s.tidy = true ∧ let x := s.port ↑g; x.fadeOff = true ∧ outputsSilent s ↑g = true) ∧
    (∃ (g : Fin 6) (v : Byte) (s : State), s.tidy = true ∧ let st := portSt s ↑g; Ready s ∧ st = portOff ∧ BitVec.toNat v ≤ 1) ∧
    (∃ (g : Fin 6) (v : Byte) (s : State), s.tidy = true ∧ let st := portSt s ↑g; Ready s ∧ st = portRun ∧ BitVec.toNat v ≤ 1
      ∧ s.rd (Obj.portTest ↑g) ≠ BitVec.toNat v) ∧
    (∃ (g : Fin 6) (s : State), s.tidy = true ∧ let x := s.port ↑g; x.fadeTest = true ∧ outputsSilent s ↑g = true ∧
      inputsSilent s ↑g = true) ∧
    (∃ (s : State), s.tidy = true ∧ Ready s) :=
  ⟨⟨1, pt portOff, by unfold Ready NoneWaits; decide +kernel⟩,
   ⟨1, pt portRun { fadeOff := true }, by decide +kernel⟩,
   ⟨1, 1, pt portOff, by unfold Ready NoneWaits; decide +kernel⟩,
   ⟨1, 1, pt portRun, by unfold Ready NoneWaits; decide +kernel⟩,
   ⟨1, pt portRun { fadeTest := true } [(Obj.leader,1)], by decide +kernel⟩,
   ⟨pt portOff, by unfold Ready NoneWaits; decide +kernel⟩⟩

/-- What the clauses of `Obligations.Steering` ask holds together somewhere. -/
theorem witness_steering :
    (∃ (s : State), Ready s) ∧
    (∃ (v : Byte) (s : State), Ready s ∧ BitVec.toNat v < 6) ∧
    (∃ (s : State), s.tidy = true ∧ (s.rd Obj.steerState = steerAcquiring ∨ s.rd Obj.steerState = steerLocked) ∧ 16 ≤
      s.steer.since) ∧
    (∃ (g : Fin 6) (s : State), s.tidy = true ∧ s.rd (Obj.portClock ↑g) = 1 ∧ 256 ≤ (s.port ↑g).sharedLead ∧ s.rd Obj.leader <
      6 ∧ let x := s.port ↑g; let rl := s.rd (Obj.portRate (s.rd Obj.leader));
      let off : Int := ↑x.shared * ↑rl - 256 * ↑(s.rd (Obj.portRate ↑g)); off.natAbs ≤ rl) ∧
    (∃ (g : Fin 6) (s : State), s.tidy = true ∧ s.rd (Obj.portClock ↑g) = 1 ∧ 256 ≤ (s.port ↑g).sharedLead ∧ s.rd Obj.leader <
      6 ∧ let x := s.port ↑g; let rl := s.rd (Obj.portRate (s.rd Obj.leader));
      let off : Int := ↑x.shared * ↑rl - 256 * ↑(s.rd (Obj.portRate ↑g)); rl < off.natAbs) :=
  ⟨⟨st [(Obj.steerManual, 123)] up, by unfold Ready NoneWaits; decide +kernel⟩,
   ⟨2, st [(Obj.steerManual, 123)] up, by unfold Ready NoneWaits; decide +kernel⟩,
   ⟨{ st [(Obj.steerState, steerAcquiring),(Obj.steerOffset, 55),(Obj.leader,2)] up with steer := { since := 16, written := 1000, sum := 10^25 }},
     by decide +kernel⟩,
   ⟨1, (st [(Obj.leader,2),(Obj.portClock 1,1)] up).setPort 1 { sharedLead := 256, shared := 256 }, by decide +kernel⟩,
   ⟨1, (st [(Obj.leader,2),(Obj.portClock 1,1)] up).setPort 1 { sharedLead := 256, shared := 258 }, by decide +kernel⟩⟩

end Sys2Proof.Tests.Ports
end

