-- ==== Sys2Proof/Tests/WitnessPower.lean ====
section
/-! SUPPORT. Witnesses: for each statement, states and operands that meet what its clauses ask. -/

namespace Sys2Proof.Tests.Power

open Sys2Proof.Machine Sys2Proof.Claims

set_option maxRecDepth 100000
set_option Elab.async false

def st (rs : List (Reg × Nat)) (s : State := {}) : State := rs.foldl (fun s x => s.wr x.1 x.2) s

def up : State := { boot := { booted := true, meterE := false } }

def ws : State := up

def pw (k : Nat) (rs : List (Reg × Nat) := []) (h : Byte := 0) : State := st (rs ++ [(Obj.pwrState, k)]) { up with power := { wakeHeld := h } }

def rec_ (ws : List (Nat × Word)) (b : Boot := {}) : State := ws.foldl (fun s x => s.setMemWord (0x104000000 + 4 * x.1) x.2) { boot := { b with mode := 2, meterE := false } }

/-- What the clauses of `Obligations.Supplies` ask holds together somewhere. -/
theorem witness_supplies :
    (∃ (s : State), s.tidy = true ∧ Watching s) ∧
    (∃ (s : State), s.tidy = true ∧ comparators s = true ∧ awake s = false) ∧
    (∃ (s : State), s.tidy = true ∧ comparators s = false) ∧
    (∃ (s : State), s.tidy = true ∧ comparators s = true ∧ s.rd Obj.holdSafe = 1 ∧ s.power.unlocked = 0 ∧ s.power.coreLow =
      false) ∧
    (∃ (s : State), s.tidy = true ∧ comparators s = true ∧ s.rd Obj.holdSafe = 1 ∧ s.power.unlocked = 0 ∧ s.power.coreLow =
      true) ∧
    (∃ (s : State), s.tidy = true ∧ comparators s = true ∧ s.rd Obj.holdSafe = 1 ∧ s.power.unlocked = 0 ∧ s.power.vinLow =
      false) ∧
    (∃ (s : State), s.tidy = true ∧ s.power.waiting = true ∧ s.rd Obj.holdSafe = 1 ∧ holdCause s = false) ∧
    (∃ (s : State), s.tidy = true ∧ holdCause s = true) ∧
    (∃ (s : State), s.tidy = true ∧ awake s = true ∧ s.boot.inReset = false ∧ s.power.supplied = true ∧ s.service.bist = none) ∧
    (∃ (i : Fin 3) (s : State), s.tidy = true ∧ s.power.unlocked.getLsbD ↑i = true) ∧
    (∃ (s : State), s.tidy = true ∧ Ready s) ∧
    (∃ (s : State), s.tidy = true ∧ counterRuns s = true) ∧
    (∃ (s : State), s.tidy = true ∧ counterRuns s = false) ∧
    (∃ (k : Fin 16) (level : Bool) (s : State), s.tidy = true ∧ let was := (s.rd Obj.gpIn).testBit ↑k;
      let new := pinLevel s (↑k) level; let marks := (s.rd (Obj.gpCfg ↑k)).testBit (if new = true then 4 else 5); new ≠ was ∧
      marks = false) ∧
    (∃ (k : Fin 16) (level : Bool) (s : State), s.tidy = true ∧ let was := (s.rd Obj.gpIn).testBit ↑k;
      let new := pinLevel s (↑k) level; let marks := (s.rd (Obj.gpCfg ↑k)).testBit (if new = true then 4 else 5); new ≠ was ∧
      marks = true ∧ (gpWake s ↑k = false ∨ s.rd Obj.pwrState = 0)) ∧
    (∃ (k : Fin 16) (level : Bool) (s : State), s.tidy = true ∧ let was := (s.rd Obj.gpIn).testBit ↑k;
      let new := pinLevel s (↑k) level; let marks := (s.rd (Obj.gpCfg ↑k)).testBit (if new = true then 4 else 5); new ≠ was ∧
      marks = true ∧ gpWake s ↑k = true ∧ s.rd Obj.pwrState = 2 ∧ (s.rd Obj.wakeEn).testBit 4 = true) :=
  ⟨⟨up, by unfold Watching; decide +kernel⟩,
   ⟨st [(Obj.pwrState,2),(Obj.wakeEn,0x10),(Obj.gpCfg 3, 0x50),(Obj.gpEdge,0xF)] up, by decide +kernel⟩,
   ⟨st [(Obj.holdSafe, 1),(Obj.pwrState,5)] { up with power := { vinLow := true, coreLow := false } }, by decide +kernel⟩,
   ⟨st [(Obj.holdSafe, 1)] { up with power := { vinLow := true } }, by decide +kernel⟩,
   ⟨st [(Obj.holdSafe, 1),(Obj.pwrState,2)] { up with power := { vinLow := false, coreLow := true } }, by decide +kernel⟩,
   ⟨st [(Obj.holdSafe, 1)] { up with power := { waiting := true } }, by decide +kernel⟩,
   ⟨st [(Obj.holdSafe, 1)] { up with power := { waiting := true } }, by decide +kernel⟩,
   ⟨st [(Obj.holdSafe, 1)] { up with power := { vinLow := true } }, by decide +kernel⟩,
   ⟨up, by decide +kernel⟩,
   ⟨1, st [(Obj.holdSafe, 1),(Obj.pllLock,5)] { up with power := { unlocked := 2 } }, by decide +kernel⟩,
   ⟨up, by unfold Ready NoneWaits; decide +kernel⟩,
   ⟨up, by decide +kernel⟩,
   ⟨st [(Obj.holdSafe, 1),(Obj.pwrState,5)] { up with power := { vinLow := true, coreLow := false } }, by decide +kernel⟩,
   ⟨3, true, up, by decide +kernel⟩,
   ⟨3, true, st [(Obj.gpCfg 3, 0x10),(Obj.gpEdge,0xF)] up, by decide +kernel⟩,
   ⟨3, true, st [(Obj.pwrState,2),(Obj.wakeEn,0x10),(Obj.gpCfg 3, 0x50),(Obj.gpEdge,0xF)] up, by decide +kernel⟩⟩

/-- What the clauses of `Obligations.PowerStates` ask holds together somewhere. -/
theorem witness_power_states :
    (∃ (s : State), s.tidy = true ∧ let r := powerRefusal s; Ready s ∧ r = 0) ∧
    (∃ (s : State), s.tidy = true ∧ let r := powerRefusal s; Ready s ∧ r ≠ 0) ∧
    (∃ (s : State), s.tidy = true ∧ let pw := s.rd Obj.pwrState; pw = 1 ∧ unitsStopped s = true ∧ NoClear s) ∧
    (∃ (s : State), s.tidy = true ∧ let held := BitVec.toNat s.power.wakeHeld &&& armedSources s; let pw := s.rd Obj.pwrState;
      pw = 4 ∧ unitsStopped s = true ∧ held = 0) ∧
    (∃ (s : State), s.tidy = true ∧ unitsStopped s = false) ∧
    (∃ (s : State), s.tidy = true ∧ awake s = false) ∧
    (∃ (src : Byte) (s : State), s.tidy = true ∧ let m := BitVec.toNat src &&& 23 &&& armedSources s;
      let pw := s.rd Obj.pwrState; m = 0 ∧ pw ≠ 3 ∧ s.boot.inReset = false) ∧
    (∃ (s : State), s.tidy = true ∧ let pw := s.rd Obj.pwrState; pw = 0 ∧ s.boot.inReset = false) ∧
    (∃ (src : Byte) (s : State), s.tidy = true ∧ let m := BitVec.toNat src &&& 23 &&& armedSources s;
      let pw := s.rd Obj.pwrState; pw = 2 ∧ m ≠ 0) ∧
    (∃ (s : State), s.tidy = true ∧ let pw := s.rd Obj.pwrState; pw = 1 ∨ pw = 4) ∧
    (∃ (src : Byte) (s : State), s.tidy = true ∧ let m := BitVec.toNat src &&& 23 &&& armedSources s;
      let pw := s.rd Obj.pwrState; Quiet s ∧ pw = 5 ∧ m ≠ 0) ∧
    (∃ (s : State), s.tidy = true ∧ let en := s.rd Obj.wakeEn; let pw := s.rd Obj.pwrState; pw = 2 ∧ s.rd Obj.wakeTimer ≠ 0 ∧
      en.testBit 5 = true) ∧
    (∃ (s : State), s.tidy = true ∧ let pw := s.rd Obj.pwrState; pw = 2 ∧ s.rd Obj.wakeTimer = 0) ∧
    (∃ (s : State), s.tidy = true ∧ let en := s.rd Obj.wakeEn; let pw := s.rd Obj.pwrState; pw = 2 ∧ en.testBit 3 = true) ∧
    (∃ (s : State), s.tidy = true ∧ let pw := s.rd Obj.pwrState; pw = 3 ∧ s.power.vinLow = false ∧ s.power.coreLow = false) ∧
    (∃ (s : State), s.tidy = true ∧ let pw := s.rd Obj.pwrState; pw = 3 ∧ s.power.vinLow = true ∧ s.power.coreLow = false ∧
      s.service.bist = none) ∧
    (∃ (s : State), s.tidy = true ∧ let pw := s.rd Obj.pwrState; pw ≠ 3) :=
  ⟨⟨up, by unfold Ready NoneWaits; decide +kernel⟩,
   ⟨pw 1, by unfold Ready NoneWaits; decide +kernel⟩,
   ⟨pw 1, by unfold NoClear; decide +kernel⟩,
   ⟨pw 4 [(Obj.wakeEn, 63)] 0, by decide +kernel⟩,
   ⟨pw 1 [(Obj.portState 0, portRun)] 2, by decide +kernel⟩,
   ⟨pw 2, by decide +kernel⟩,
   ⟨0, up, by decide +kernel⟩,
   ⟨up, by decide +kernel⟩,
   ⟨3, pw 2 [(Obj.wakeEn, 63)], by decide +kernel⟩,
   ⟨pw 1, by decide +kernel⟩,
   ⟨3, { pw 5 [(Obj.wakeEn, 63),(Obj.wakeTimer, 5)] with slate := 0x02000000000000FF }, by unfold Quiet; decide +kernel⟩,
   ⟨pw 2 [(Obj.wakeEn, 63),(Obj.wakeTimer, 5)], by decide +kernel⟩,
   ⟨pw 2 [(Obj.wakeEn, 63)], by decide +kernel⟩,
   ⟨pw 2 [(Obj.wakeEn, 63)], by decide +kernel⟩,
   ⟨st [(Obj.portEnable 0,1),(Obj.portEnable 4,1)] (pw 3), by decide +kernel⟩,
   ⟨{ pw 3 with power := { vinLow := true } }, by decide +kernel⟩,
   ⟨up, by decide +kernel⟩⟩

/-- What the clauses of `Obligations.Resets` ask holds together somewhere. -/
theorem witness_resets :
    (∃ (s : State), Quiet s ∧ s.boot.pinLow = true ∧ s.power.supplied = true) ∧
    (∃ (s : State), Quiet s ∧ ∃ (c : Nat), s.boot.pending = some c ∧ (c = 5 ∨ c = 6)) ∧
    (∃ (s : State), Quiet s ∧ s.boot.pending = none ∧ s.boot.inReset = false) ∧
    (∃ (s : State), Quiet s ∧ s.boot.pending = none ∧ s.boot.inReset = true ∧ s.boot.pinLow = false ∧ s.power.supplied = true) ∧
    (∃ (s : State), Quiet s ∧ s.boot.inReset = false ∧ s.boot.mode ≠ 2 ∧ awake s = true) ∧
    (∃ (s : State), Quiet s ∧ (s.boot.inReset = true ∨ awake s = false)) ∧
    (∃ (s : State), Quiet s ∧ s.boot.booted = true ∧ awake s = true) ∧
    (∃ (s : State), Quiet s ∧ s.power.supplied = false ∧ s.boot.pinLow = false) :=
  ⟨⟨{ st [(Obj.resetCause, 3)] {} with boot := { pinLow := true, inReset := true } }, by unfold Quiet; decide +kernel⟩,
   ⟨{ st [(Obj.resetCause, 3)] up with boot := { booted := true, meterE := false, pending := some 5 } },
     (by unfold Quiet; decide +kernel), _, rfl, by decide +kernel⟩,
   ⟨up, by unfold Quiet; decide +kernel⟩,
   ⟨{ st [(Obj.resetCause, 3)] {} with boot := { inReset := true }, mem := [(7,8)] }, by unfold Quiet; decide +kernel⟩,
   ⟨up, by unfold Quiet; decide +kernel⟩,
   ⟨pw 2, by unfold Quiet; decide +kernel⟩,
   ⟨up, by unfold Quiet; decide +kernel⟩,
   ⟨{ st [(Obj.resetCause, 3)] {} with boot := { inReset := true }, power := { supplied := false } },
     by unfold Quiet; decide +kernel⟩⟩

/-- What the clauses of `Obligations.BootAndRecovery` ask holds together somewhere. -/
theorem witness_boot_and_recovery :
    (∃ (s : State), s.tidy = true ∧
      let starts := s.boot.booted = false ∧ s.boot.inReset = false ∧ s.power.supplied = true ∧ s.boot.meterE = true ∧ s.rd Obj.pwrState ≠ 5;
      starts ∧ s.boot.mode ≠ 2 ∧ bootSlot s = none) ∧
    (∃ (s : State), s.tidy = true ∧
      let starts := s.boot.booted = false ∧ s.boot.inReset = false ∧ s.power.supplied = true ∧ s.boot.meterE = true ∧ s.rd Obj.pwrState ≠ 5;
      starts ∧ s.boot.mode = 2) ∧
    (∃ (s : State), s.tidy = true ∧ s.boot.booted = true) ∧
    (∃ (s : State), s.tidy = true ∧ s.boot.inReset = false ∧ s.power.supplied = true) ∧
    (∃ (s : State), s.tidy = true ∧ let w := s.memWord 4362076160; recovering s = true ∧ s.boot.rcvBusy = none ∧ s.boot.rcvCmd
      = 0 ∧ w = 0) ∧
    (∃ (s : State), s.tidy = true ∧ let w := s.memWord 4362076160; recovering s = true ∧ s.boot.rcvBusy = none ∧ s.boot.rcvCmd
      = 0 ∧ w ≠ 0) ∧
    (∃ (s : State), s.tidy = true ∧ let image := rcvImage s;
      let good := image.size ≠ 0 ∧ image.size ≤ 16777216 ∧ imageStatus s 1 image = 0; recovering s = true ∧ s.boot.rcvCmd = 1
      ∧ ¬good) ∧
    (∃ (s : State), s.tidy = true ∧ s.rd Obj.holdSafe = 1) ∧
    (∃ (s : State), s.tidy = true ∧ ∃ (k : Nat), s.boot.rcvBusy = some k ∧ s.rd Obj.holdSafe ≠ 1) ∧
    (∃ (s : State), s.tidy = true ∧ Quiet s ∧ recovering s = true ∧ s.boot.rcvCmd = 2) ∧
    (∃ (s : State), s.tidy = true ∧ s.boot.rcvCmd ≠ 2) :=
  ⟨⟨{}, by decide +kernel⟩,
   ⟨{ boot := { mode := 2 }}, by decide +kernel⟩,
   ⟨up, by decide +kernel⟩,
   ⟨{}, by decide +kernel⟩,
   ⟨rec_ [], by decide +kernel⟩,
   ⟨rec_ [(0,1),(1,5),(2,6),(3,7)], by decide +kernel⟩,
   ⟨rec_ [] { rcvCmd := 1 }, by decide +kernel⟩,
   ⟨st [(Obj.holdSafe, 1)] { rec_ [] { rcvBusy := some 1 } with slotImages := [(0,[1,2])] }, by decide +kernel⟩,
   ⟨{ rec_ [] { rcvBusy := some 1 } with slotImages := [(0,[1,2])] }, (by decide +kernel), _, rfl, by decide +kernel⟩,
   ⟨rec_ [(0,1),(1,5),(2,6),(3,7)] { rcvCmd := 2 }, by unfold Quiet; decide +kernel⟩,
   ⟨{}, by decide +kernel⟩⟩

end Sys2Proof.Tests.Power
end

