-- ==== Sys2Proof/Tests/WitnessRest.lean ====
section
/-! SUPPORT. Witnesses for the statements about the whole machine, and for the clauses that rest on what a unit fixes (its
firmware, its keys, a signature): these are given under that very condition, which no definition can settle. -/

namespace Sys2Proof.Tests.Rest

open Sys2Proof.Machine Sys2Proof.Claims

set_option maxRecDepth 100000
set_option Elab.async false

def st (rs : List (Reg × Nat)) (s : State := {}) : State := rs.foldl (fun s x => s.wr x.1 x.2) s

def up : State := { boot := { booted := true, meterE := false } }

/-- A unit in recovery mode with an image in its memory. -/
def recS (m : List Host.Cell) : State := { boot := { mode := 2, meterE := false, rcvCmd := 1 }, mem := m }

/-- A unit that is up, with its memory. -/
def upWith (m : List Host.Cell) : State := { up with mem := m }

theorem recS_tidy {m : List Host.Cell} (h : Memory.wf m = true) : (recS m).tidy = true := by
  simp only [State.tidy, recS, h, Bool.true_and]; decide +kernel

theorem upWith_tidy {m : List Host.Cell} (h : Memory.wf m = true) : (upWith m).tidy = true := by
  simp only [State.tidy, upWith, h, Bool.true_and]; decide +kernel

/-- What `Obligations.StepKeepsInv` asks. -/
theorem witness_step_keeps_inv : ∃ s t : State, Inv s ∧ step s = .next t :=
  ⟨{}, _, ⟨by unfold QueueFits; decide +kernel, by decide +kernel⟩, rfl⟩

/-- What `Obligations.FirmwareKept` asks. -/
theorem witness_firmware_kept :
    ∃ (c : Instr) (s t : State), exec c s = .next t ∧ c ≠ .rcvProgram ∧ c ≠ .rcvProgramComplete :=
  ⟨.counterWrap, {}, _, rfl, by decide +kernel, by decide +kernel⟩

/-- What `Obligations.ResetState` asks: numbers of lanes, groups and cores. -/
theorem witness_reset_state : (63 : Nat) < 64 ∧ (5 : Nat) < 6 ∧ (7 : Nat) < 8 := by decide

/-- What the last clause of `Obligations.FrameCrc` asks. -/
theorem witness_frame_widths : ∃ s : State, addrWidth s = 32 ∧ dummyWidth s = 32 := ⟨up, by decide +kernel⟩

/-- A pin that stays as it is, for `Obligations.Supplies`. -/
theorem witness_pin_still : ∃ (k : Fin 16) (level : Bool) (s : State), s.tidy = true ∧
    pinLevel s k.val level = (s.rd Obj.gpIn).testBit k.val := ⟨3, false, up, by decide +kernel⟩

/-- A line that names no object, for `Obligations.ConsoleLines`. -/
theorem witness_console_no_object : ∃ (index : BitVec 16) (sub : Byte) (s : State) (a : Nat), ConReady s ∧
    ¬ (s.service.serviceN = true ∧ s.boot.mode = 0) ∧ lookup index.toNat sub.toNat = .error a :=
  ⟨0x7777, 0, { up with service := { serviceN := false } }, _, by unfold ConReady; decide +kernel, by decide +kernel, rfl⟩

/-- A unit as delivered, one of whose firmware slots passes, starts from it (`Obligations.BootAndRecovery`). -/
theorem witness_boot_slot (k : Nat) (h : bootSlot (State.reset.wr Obj.showSelect 0xFF) = some k) :
    ∃ s : State, s.tidy = true ∧ (s.boot.booted = false ∧ s.boot.inReset = false ∧ s.power.supplied = true ∧ s.boot.meterE = true ∧
      s.rd Obj.pwrState ≠ 5) ∧ s.boot.mode ≤ 1 ∧ bootSlot s = some k ∧ currentSet s = [] ∧ s.boot.deferred = [] ∧
      s.rd Obj.showSelect = 0xFF :=
  ⟨State.reset.wr Obj.showSelect 0xFF, by decide +kernel, by decide +kernel, by decide +kernel, h, by decide +kernel,
    by decide +kernel, by decide +kernel⟩

/-- An image that passes is programmed (`Obligations.BootAndRecovery`). -/
theorem witness_recovery_image (m : List Host.Cell) (hm : Memory.wf m = true) (h : (rcvImage (recS m)).size ≠ 0 ∧
      (rcvImage (recS m)).size ≤ 16777216 ∧ imageStatus (recS m) 1 (rcvImage (recS m)) = 0) :
    ∃ s : State, s.tidy = true ∧ recovering s = true ∧ s.boot.rcvCmd = 1 ∧
      (rcvImage s).size ≠ 0 ∧ (rcvImage s).size ≤ 16777216 ∧ imageStatus s 1 (rcvImage s) = 0 :=
  ⟨recS m, recS_tidy hm, rfl, rfl, h⟩

/-- A show image that passes is applied, or fails in its sections (`Obligations.Shows`): `n` is the status of its sections. -/
theorem witness_show_image (m : List Host.Cell) (n : Nat) (hm : Memory.wf m = true) :
    let x := loadImage (upWith m) 0x10
    let o := imageRead (upWith m) 0x10 x
    imageStatus o 2 x = 0 → (applySections 1 (Config.showSections (imgBody x)) o).2 = n →
    ∃ (c : Instr) (p : Path) (v : Nat) (s : State), loadOf c = some (p, v) ∧ Ready s ∧
      let x := loadImage s v
      let o := imageRead s v x
      admits s = true ∧ imageStatus o 2 x = 0 ∧ (applySections (pathCode p) (Config.showSections (imgBody x)) o).2 = n :=
  fun h hn => ⟨.showLoadSource .link, .link, 0x10, upWith m, rfl, ⟨upWith_tidy hm, rfl, rfl, Or.inl (by simp only [upWith]; decide +kernel)⟩,
    rfl, h, hn⟩

/-- A token that passes opens its scope (`Obligations.DebugAccess`). -/
theorem witness_token (token : List Byte) (h : tokenStatus { up with service := { serviceN := false } } token = 0) :
    ∃ s : State, Ready s ∧ s.service.serviceN = false ∧ tokenStatus s token = 0 :=
  ⟨{ up with service := { serviceN := false } }, by unfold Ready NoneWaits; decide +kernel, by decide +kernel, h⟩

end Sys2Proof.Tests.Rest
end

