-- ==== Sys2Proof/Tests/WitnessService.lean ====
section
/-! SUPPORT. Witnesses: for each statement, states and operands that meet what its clauses ask. -/

namespace Sys2Proof.Tests.Service

open Sys2Proof.Machine Sys2Proof.Claims

set_option maxRecDepth 100000
set_option Elab.async false

def st (rs : List (Reg × Nat)) (s : State := {}) : State := rs.foldl (fun s x => s.wr x.1 x.2) s

def up : State := { boot := { booted := true, meterE := false } }

def hs (l : List Handle) (s : State := up) : State := { s with handles := l }

def flt : State := (Nat.fold 3 (fun k _ s => raiseSticky (Obj.laneFaults (k+2)) 2 0x4003 (k+2) 0 0 s) up)

def low : State := { up with service := { serviceN := false } }

def img : List Byte := leBytes 4 0x4D49584C ++ leBytes 4 2 ++ leBytes 4 7 ++ leBytes 4 8 ++ List.replicate 32 0 ++ leBytes 4 0 ++ leBytes 12 0 ++ List.replicate 8 1

def sv (f : Service) (rs : List (Reg × Nat) := []) : State := st rs { up with service := f }

def bt (t a : Nat) (rs : List (Reg × Nat) := []) (f : Service := {serviceN := false}) : State := sv f ([(Obj.bistSelect, t),(Obj.bistArg, a)] ++ rs)

def run (t : Nat) (a : BitVec 64) (m : List Host.Cell) (con := false) (rs : List (Reg × Nat) := []): State := st rs { up with mem := m, service := { bist := some (t, a), conBist := con, bistTest := [(0,0)] }, handles := [⟨3,1,.bist t,0,0⟩] }

def flt0 : State := raise 0x4003 3 0 0 up

def flt2 : State := raise 0xB001 0 0 0 (sv { serviceN := false, conBuf := "ab\r\nc\n".toList.map fun c => BitVec.ofNat 8 c.toNat })

/-- What the clauses of `Obligations.Shows` ask holds together somewhere. -/
theorem witness_shows :
    (∃ (c : Instr) (p : Path) (v : Nat) (s : State), loadOf c = some (p, v) ∧ Ready s ∧ admits s = false) ∧
    (∃ (c : Instr) (p : Path) (v : Nat) (s : State), loadOf c = some (p, v) ∧ Ready s ∧ let x := loadImage s v;
      let o := imageRead s v x; let r := imageStatus o 2 x; admits s = true ∧ r ≠ 0) ∧
    (∃ (i : Fin 4) (s : State), Ready s ∧ (s.handles.any fun (h : Handle) => h.op == Op.verify (16 + ↑i)) = true) ∧
    (∃ (i : Fin 4) (s : State), Ready s ∧ (s.handles.any fun (h : Handle) => h.op == Op.verify (16 + ↑i)) = false ∧ eraseRuns
      s = false ∧ admits s = true) ∧
    (∃ (s : State) (h : Handle) (v : Nat) (ts : List Nat) (ls : List Nat), s.tidy = true ∧ s.boot.loading = false ∧ handleOf (fun (o
      : Op) => match o with | Op.show source lanes locks boot => true | x => false) s = some h ∧ h.op = Op.show v ts ls false ∧ awake s = true) ∧
    (∃ (s : State) (h : Handle) (k : Nat), s.tidy = true ∧ handleOf (fun (o : Op) =>
      match o with | Op.slotWrite slot => true | x => false) s = some h ∧ h.op = Op.slotWrite k ∧ awake s = true ∧ h.status = 0 ∧ s.rd
      Obj.holdSafe = 1) ∧
    (∃ (s : State) (h : Handle) (k : Nat), s.tidy = true ∧ handleOf (fun (o : Op) =>
      match o with | Op.slotWrite slot => true | x => false) s = some h ∧ h.op = Op.slotWrite k ∧ awake s = true ∧ (h.status ≠ 0 ∨ s.rd
      Obj.holdSafe ≠ 1)) :=
  ⟨⟨.showLoadSource .link, .link, _, st [(Obj.hvUsed, 255)] up, rfl, by unfold Ready NoneWaits; decide +kernel⟩,
   ⟨.showLoadSlot .link 2, .link, _, up, rfl, by unfold Ready NoneWaits; decide +kernel⟩,
   ⟨2, hs [⟨1,1,.verify 0x12,0,0⟩], by unfold Ready NoneWaits; decide +kernel⟩,
   ⟨2, up, by unfold Ready NoneWaits; decide +kernel⟩,
   ⟨hs [⟨1,1,.show 2 [3,5] [] false,0xC031,0⟩], _, _, _, _, (by decide +kernel), (by decide +kernel), rfl, rfl, by decide +kernel⟩,
   ⟨st [(Obj.holdSafe, 1)] (hs [⟨2,1,.slotWrite 2,0,0⟩] { up with slotImages := [(2, [1,2])]}), ⟨2,1,.slotWrite 2,0,0⟩, _, (by
     decide +kernel), (by decide +kernel), rfl, by decide +kernel⟩,
   ⟨hs [⟨2,1,.slotWrite 2,0,0⟩] { up with slotImages := [(2, [1,2])]}, _, _, (by decide +kernel), rfl, rfl, by decide +kernel⟩⟩

/-- What the clauses of `Obligations.FaultsAndHeat` ask holds together somewhere. -/
theorem witness_faults_and_heat :
    (∃ (code : BitVec 16) (s : State), s.tidy = true ∧ Ready s ∧ fltClearGood code.toNat = false) ∧
    (∃ (code : BitVec 16) (s : State), s.tidy = true ∧ Ready s ∧ fltClearGood code.toNat = true) ∧
    (∃ (t0 : BitVec 16) (t1 : BitVec 16) (s : State), s.tidy = true ∧ let hot := 1000 ≤ t0.toInt ∨ 1000 ≤ t1.toInt;
      s.service.hot = false ∧ hot) ∧
    (∃ (t0 : BitVec 16) (t1 : BitVec 16) (s : State), s.tidy = true ∧ let hot := 1000 ≤ t0.toInt ∨ 1000 ≤ t1.toInt;
      s.service.hot = true ∨ ¬hot) ∧
    (∃ (t0 : BitVec 16) (t1 : BitVec 16) (s : State), s.tidy = true ∧ t0.toInt < 950 ∧ t1.toInt < 950) ∧
    (∃ (t0 : BitVec 16) (t1 : BitVec 16) (s : State), s.tidy = true ∧ (950 ≤ t0.toInt ∨ 950 ≤ t1.toInt)) ∧
    (∃ (t0 : BitVec 16) (t1 : BitVec 16) (s : State), s.tidy = true ∧ (100 < t0.toInt - t1.toInt ∨ 100 < t1.toInt - t0.toInt)) ∧
    (∃ (t0 : BitVec 16) (t1 : BitVec 16) (s : State), s.tidy = true ∧ t0.toInt - t1.toInt ≤ 100 ∧ t1.toInt - t0.toInt ≤ 100) :=
  ⟨⟨0x1234, flt, by unfold Ready NoneWaits; decide +kernel⟩,
   ⟨0x4003, flt, by unfold Ready NoneWaits; decide +kernel⟩,
   ⟨1000, 900, flt, by decide +kernel⟩,
   ⟨900, 901, { flt with service := { flt.service with hot := true } }, by decide +kernel⟩,
   ⟨900, 901, { flt with service := { flt.service with hot := true } }, by decide +kernel⟩,
   ⟨1000, 900, flt, by decide +kernel⟩,
   ⟨900, 1100, flt, by decide +kernel⟩,
   ⟨1000, 900, flt, by decide +kernel⟩⟩

/-- What the clauses of `Obligations.Identity` ask holds together somewhere. -/
theorem witness_identity :
    (∃ (key : BitVec 256) (s : State), s.tidy = true ∧ Ready s ∧ key = 0) ∧
    (∃ (i : Fin 4) (key : BitVec 256) (s : State), s.tidy = true ∧ let low := s.service.serviceN = false; Ready s ∧ key ≠ 0 ∧
      low ∧ s.rd (Obj.custKey ↑i) = 0) ∧
    (∃ (i : Fin 4) (key : BitVec 256) (s : State), s.tidy = true ∧ let low := s.service.serviceN = false; Ready s ∧ key ≠ 0 ∧
      (¬low ∨ s.rd (Obj.custKey ↑i) ≠ 0)) ∧
    (∃ (v : Byte) (s : State), s.tidy = true ∧ let low := s.service.serviceN = false;
      let kept := (List.filter (provisioned s) [1, 2, 3, 4]).length; Ready s ∧ 1 ≤ BitVec.toNat v ∧ BitVec.toNat v ≤ 4 ∧
      BitVec.toNat v ≤ kept ∧ low ∧ s.rd Obj.showQuorum = 0) ∧
    (∃ (v : Byte) (s : State), s.tidy = true ∧ let low := s.service.serviceN = false;
      let kept := (List.filter (provisioned s) [1, 2, 3, 4]).length; Ready s ∧ 1 ≤ BitVec.toNat v ∧ BitVec.toNat v ≤ 4 ∧
      BitVec.toNat v ≤ kept ∧ (¬low ∨ s.rd Obj.showQuorum ≠ 0)) ∧
    (∃ (v : Byte) (s : State), s.tidy = true ∧ let kept := (List.filter (provisioned s) [1, 2, 3, 4]).length; Ready s ∧
      (BitVec.toNat v = 0 ∨ 4 < BitVec.toNat v ∨ kept < BitVec.toNat v)) ∧
    (∃ (s : State), s.tidy = true ∧ let low := s.service.serviceN = false; Ready s ∧ low ∧ (s.handles.any fun (h : Handle) =>
      eraseBlocks h.op) = false ∧ admits s = true) ∧
    (∃ (s : State), s.tidy = true ∧ let low := s.service.serviceN = false; Ready s ∧ (¬low ∨ (s.handles.any fun (h : Handle)
      => eraseBlocks h.op) = true)) ∧
    (∃ (s : State), s.tidy = true ∧ Ready s ∧ s.rd Obj.attState ≠ 1) ∧
    (∃ (s : State), s.tidy = true ∧ awake s = true ∧ Ready s ∧ s.rd Obj.attState = 1) ∧
    (∃ (s : State), s.tidy = true ∧ Ready s ∧ (s.rd Obj.vfyTarget < 16 ∨ 20 ≤ s.rd Obj.vfyTarget ∨ (s.handles.any fun (h :
      Handle) => h.op == Op.slotWrite (s.rd Obj.vfyTarget - 16)) = false) ∧ eraseRuns s = false ∧ admits s = true) ∧
    (∃ (s : State), s.tidy = true ∧ s.rd Obj.holdSafe = 1) ∧
    (∃ (s : State), s.tidy = true ∧ ∃ (h : Handle), handleOf (fun (o : Op) => o == Op.erase) s = some h ∧ awake s = true ∧ s.rd Obj.holdSafe ≠
      1) ∧
    (∃ (s : State), s.tidy = true ∧ ∃ (h : Handle) (k : Nat), handleOf (fun (o : Op) =>
      match o with | Op.verify target => true | x => false) s = some h ∧ h.op = Op.verify k ∧ awake s = true) :=
  ⟨⟨0, up, by unfold Ready NoneWaits; decide +kernel⟩,
   ⟨2, 5, low, by unfold Ready NoneWaits; decide +kernel⟩,
   ⟨2, 5, up, by unfold Ready NoneWaits; decide +kernel⟩,
   ⟨1, st [(Obj.custKey 2, 5)] low, by unfold Ready NoneWaits; decide +kernel⟩,
   ⟨1, st [(Obj.custKey 2, 5),(Obj.showQuorum,1),(Obj.attState,1)] low, by unfold Ready NoneWaits; decide +kernel⟩,
   ⟨1, up, by unfold Ready NoneWaits; decide +kernel⟩,
   ⟨low, by unfold Ready NoneWaits; decide +kernel⟩,
   ⟨up, by unfold Ready NoneWaits; decide +kernel⟩,
   ⟨up, by unfold Ready NoneWaits; decide +kernel⟩,
   ⟨st [(Obj.custKey 2, 5),(Obj.showQuorum,1),(Obj.attState,1)] low, by unfold Ready NoneWaits; decide +kernel⟩,
   ⟨up, by unfold Ready NoneWaits; decide +kernel⟩,
   ⟨st [(Obj.holdSafe, 1)] (hs [⟨2,1,.erase,0,0⟩] up), by decide +kernel⟩,
   ⟨hs [⟨2,1,.erase,0,0⟩] (st [(Obj.custKey 2, 5),(Obj.showQuorum,1),(Obj.attState,1)]
     { up with flash := { shows := [(0,[1]),(3,[2])], setA := [(1,2)], fw := [(0,[5])] }}), (by decide +kernel), _, rfl, by
     decide +kernel⟩,
   ⟨hs [⟨2,1,.verify 0,0,0⟩] low, (by decide +kernel), _, _, rfl, rfl, by decide +kernel⟩⟩

/-- What the clauses of `Obligations.DebugAccess` ask holds together somewhere. -/
theorem witness_debug_access :
    (∃ (s : State), s.tidy = true ∧ Ready s ∧ s.service.serviceN = true) ∧
    (∃ (token : List Byte) (s : State), s.tidy = true ∧ let r := tokenStatus s token; Ready s ∧ s.service.serviceN = false ∧ r
      ≠ 0) ∧
    (∃ (code : Byte) (s : State), s.tidy = true ∧ BitVec.toNat code ∉ [0, 1, 2, 32, 33, 34]) ∧
    (∃ (s : State), s.tidy = true ∧ let scope := fun (k : Nat) => (s.rd Obj.dbgScope).testBit k; scope 0 = true) ∧
    (∃ (s : State), s.tidy = true ∧ let scope := fun (k : Nat) => (s.rd Obj.dbgScope).testBit k; scope 0 = false) ∧
    (∃ (s : State), s.tidy = true ∧ let scope := fun (k : Nat) => (s.rd Obj.dbgScope).testBit k; scope 1 = true) ∧
    (∃ (s : State), s.tidy = true ∧ let scope := fun (k : Nat) => (s.rd Obj.dbgScope).testBit k; scope 1 = false) ∧
    (∃ (s : State), s.tidy = true ∧ let scope := fun (k : Nat) => (s.rd Obj.dbgScope).testBit k; scope 2 = true) ∧
    (∃ (s : State), s.tidy = true ∧ let scope := fun (k : Nat) => (s.rd Obj.dbgScope).testBit k; scope 2 = false) :=
  ⟨⟨up, by unfold Ready NoneWaits; decide +kernel⟩,
   ⟨[], st [(Obj.dbgScope, 7)] { low with service := { low.service with tapIr := 0x21 } },
     by unfold Ready NoneWaits; decide +kernel⟩,
   ⟨0x55, up, by decide +kernel⟩,
   ⟨st [(Obj.dbgScope, 7)] { low with service := { low.service with tapIr := 0x21 } }, by decide +kernel⟩,
   ⟨up, by decide +kernel⟩,
   ⟨st [(Obj.dbgScope, 7)] { low with service := { low.service with tapIr := 0x21 } }, by decide +kernel⟩,
   ⟨up, by decide +kernel⟩,
   ⟨st [(Obj.dbgScope, 7)] { low with service := { low.service with tapIr := 0x21 } }, by decide +kernel⟩,
   ⟨up, by decide +kernel⟩⟩

/-- What the clauses of `Obligations.MeterLevelTone` ask holds together somewhere. -/
theorem witness_meter_level_tone :
    (∃ (s : State), s.power.supplied = false) ∧
    (∃ (s : State), s.power.supplied = true ∧ (s.rd Obj.pwrState = 2 ∨ s.rd Obj.pwrState = 5)) ∧
    (∃ (s : State), s.power.supplied = true ∧ s.rd Obj.pwrState ≠ 2 ∧ s.rd Obj.pwrState ≠ 5 ∧ booting s = true) ∧
    (∃ (s : State), s.power.supplied = true ∧ s.rd Obj.pwrState ≠ 2 ∧ s.rd Obj.pwrState ≠ 5 ∧ booting s = false ∧ s.boot.mode
      ≠ 0) ∧
    (∃ (s : State), Metering s ∧ s.rd Obj.meterMode = 0 ∧ s.active = []) ∧
    (∃ (s : State), Metering s ∧ ∃ (a : BitVec 16 × Slate), s.rd Obj.meterMode = 0 ∧ s.active = [a]) ∧
    (∃ (s : State), Metering s ∧ ∃ (a : BitVec 16 × Slate) (b : BitVec 16 × Slate), s.rd Obj.meterMode = 0 ∧ s.active = [a, b]
      ∧ (BitVec.toNat b.2 < BitVec.toNat a.2 ∨ b.2 = a.2 ∧ b.1.toNat < a.1.toNat)) ∧
    (∃ (s : State), Metering s ∧ s.rd Obj.meterMode = 1) ∧
    (∃ (s : State), Metering s ∧ s.rd Obj.meterMode = 2) ∧
    (∃ (s : State), Metering s ∧ s.rd Obj.meterMode = 3) ∧
    (∃ (s : State), Metering s ∧ s.rd Obj.meterMode = 4) ∧
    (∃ (s : State), awake s = true ∧ (levelMasked s = false ∨ watchedWords s = [])) ∧
    (∃ (s : State), awake s = true ∧ levelMasked s = true) ∧
    (∃ (v : Byte) (s : State), s.tidy = true ∧ Ready s ∧ (BitVec.toNat v < 96 ∨ v = 255) ∧ toneFits s (BitVec.toNat v) (s.rd
      Obj.toneFreq) = true ∧ s.service.serviceN = true) ∧
    (∃ (v : Byte) (s : State), s.tidy = true ∧ Ready s ∧ (¬(BitVec.toNat v < 96 ∨ v = 255) ∨ toneFits s (BitVec.toNat v) (s.rd
      Obj.toneFreq) = false)) ∧
    (∃ (v : Byte) (s : State), s.tidy = true ∧ let old := s.service.toneNow; Ready s ∧ (BitVec.toNat v < 96 ∨ v = 255) ∧
      toneFits s (BitVec.toNat v) (s.rd Obj.toneFreq) = true ∧ s.service.serviceN = false ∧ old ≠ BitVec.toNat v) ∧
    (∃ (s : State), s.tidy = true ∧ let old := s.service.toneNow;
      let silent := fun (c : Nat) => decide (96 ≤ c) || (s.outchan c).p == 0 || portSt s (chanGroup c) != portRun; ∃ (k : Nat),
      s.service.toneNext = some k ∧ silent old = true ∧ silent k = true) ∧
    (∃ (s : State), s.tidy = true ∧ let old := s.service.toneNow;
      let silent := fun (c : Nat) => decide (96 ≤ c) || (s.outchan c).p == 0 || portSt s (chanGroup c) != portRun; ∃ (k : Nat),
      s.service.toneNext = some k ∧ (silent old = false ∨ silent k = false)) ∧
    (∃ (s : State), s.tidy = true ∧ s.service.toneNext = none) ∧
    (∃ (s : State), s.tidy = true ∧ s.service.bist = none ∧ s.rd Obj.toneChannel = 255) ∧
    (∃ (s : State), s.tidy = true ∧ let old := s.service.toneNow; s.service.bist = none ∧ s.rd Obj.toneChannel ≠ 255 ∧ old ≠
      255) ∧
    (∃ (s : State), s.tidy = true ∧ ∃ (a : BitVec 64) (h : Handle), awake s = true ∧ s.service.bist = some (6, a) ∧ handleOf (fun (o : Op) =>
      match o with | Op.bist test => true | x => false) s = some h ∧ s.rd Obj.toneChannel = 255) :=
  ⟨⟨{ up with power := { supplied := false } }, by decide +kernel⟩,
   ⟨st [(Obj.pwrState,2)] up, by decide +kernel⟩,
   ⟨{}, by decide +kernel⟩,
   ⟨{ up with boot := { up.boot with mode := 1 }}, by decide +kernel⟩,
   ⟨up, by unfold Metering; decide +kernel⟩,
   ⟨{ up with active := [(0x4003, 5)] }, (by unfold Metering; decide +kernel), _, (by decide +kernel), rfl⟩,
   ⟨{ up with active := [(0x4003, 5),(0x3003, 5)] }, (by unfold Metering; decide +kernel), _, _, (by decide +kernel), rfl, by
     decide +kernel⟩,
   ⟨st [(Obj.meterMode,1)] up, by unfold Metering; decide +kernel⟩,
   ⟨st [(Obj.meterMode,2)] { up with service := { temp0 := -800, temp1 := 201 } }, by unfold Metering; decide +kernel⟩,
   ⟨st [(Obj.meterMode,3)] up, by unfold Metering; decide +kernel⟩,
   ⟨st [(Obj.meterMode,4),(Obj.steerOffset,2^32-12347)] up, by unfold Metering; decide +kernel⟩,
   ⟨up, by decide +kernel⟩,
   ⟨up, by decide +kernel⟩,
   ⟨4, up, by unfold Ready NoneWaits; decide +kernel⟩,
   ⟨0x60, sv { serviceN := false, toneNow := 5 } [], by unfold Ready NoneWaits; decide +kernel⟩,
   ⟨4, sv { serviceN := false } [], by unfold Ready NoneWaits; decide +kernel⟩,
   ⟨(sv { toneNow := 5, toneNext := some 7 } []).setOutchan 5 { ({} : OutChan) with causes := {tone := true }}, (by
     decide +kernel), _, rfl, by decide +kernel⟩,
   ⟨((sv { toneNow := 5, toneNext := some 7 } [(Obj.portState 0, portRun)]).setOutchan 5
     { ({} : OutChan) with p := 3, causes := {tone := true }}), (by decide +kernel), _, rfl, by decide +kernel⟩,
   ⟨up, by decide +kernel⟩,
   ⟨up, by decide +kernel⟩,
   ⟨sv { serviceN := false, toneNow := 5 } [(Obj.toneChannel, 5)], by decide +kernel⟩,
   ⟨{ sv { bist := some (6, 1) } [] with handles := [⟨3,1,.bist 6,0,0⟩] }, (by decide +kernel), _, _, (by decide +kernel), rfl, rfl, by
     decide +kernel⟩⟩

/-- What the clauses of `Obligations.BuiltInTests` ask holds together somewhere. -/
theorem witness_built_in_tests :
    (∃ (c : Instr) (p : Path) (test : Nat) (s : State), testOf c = some (p, test) ∧ s.rd Obj.bistSelect ≠ test) ∧
    (∃ (c : Instr) (p : Path) (test : Nat) (s : State), testOf c = some (p, test) ∧ let arg := s.rd Obj.bistArg;
      let fits := arg &&& bistMask test = arg; served s = true ∧ NoneWaits s ∧ s.rd Obj.bistSelect = test ∧ ¬fits) ∧
    (∃ (c : Instr) (p : Path) (test : Nat) (s : State), testOf c = some (p, test) ∧ let arg := s.rd Obj.bistArg;
      let fits := arg &&& bistMask test = arg; let shut := bistGated test = true ∧ s.service.serviceN = true; served s = true
      ∧ NoneWaits s ∧ s.rd Obj.bistSelect = test ∧ fits ∧ shut) ∧
    (∃ (c : Instr) (p : Path) (test : Nat) (s : State), testOf c = some (p, test) ∧ let arg := s.rd Obj.bistArg;
      let fits := arg &&& bistMask test = arg; let shut := bistGated test = true ∧ s.service.serviceN = true; served s = true
      ∧ NoneWaits s ∧ s.rd Obj.bistSelect = test ∧ fits ∧ ¬shut ∧ s.service.bist ≠ none) ∧
    (∃ (c : Instr) (p : Path) (test : Nat) (s : State), testOf c = some (p, test) ∧ let arg := s.rd Obj.bistArg;
      let fits := arg &&& bistMask test = arg; let shut := bistGated test = true ∧ s.service.serviceN = true; served s = true
      ∧ NoneWaits s ∧ s.rd Obj.bistSelect = test ∧ fits ∧ ¬shut ∧ s.service.bist = none ∧ bistReady s test arg = false) ∧
    (∃ (c : Instr) (p : Path) (test : Nat) (s : State), testOf c = some (p, test) ∧ let arg := s.rd Obj.bistArg;
      let fits := arg &&& bistMask test = arg; let shut := bistGated test = true ∧ s.service.serviceN = true; served s = true
      ∧ NoneWaits s ∧ s.rd Obj.bistSelect = test ∧ fits ∧ ¬shut ∧ s.service.bist = none ∧ bistReady s test arg = true ∧ admits
      s = false) ∧
    (∃ (c : Instr) (p : Path) (test : Nat) (s : State), testOf c = some (p, test) ∧ let arg := s.rd Obj.bistArg;
      let fits := arg &&& bistMask test = arg; let shut := bistGated test = true ∧ s.service.serviceN = true; served s = true
      ∧ NoneWaits s ∧ s.rd Obj.bistSelect = test ∧ fits ∧ ¬shut ∧ s.service.bist = none ∧ s.tidy = true ∧ bistReady s test arg
      = true ∧ admits s = true) ∧
    (∃ (s : State) (test : Nat) (a : BitVec 64) (h : Handle), s.tidy = true ∧ awake s = true ∧ s.service.bist = some (test, a) ∧ handleOf (fun (o
      : Op) => match o with | Op.bist test => true | x => false) s = some h) ∧
    (∃ (s : State), s.service.bist = none) :=
  ⟨⟨.bistDram .link, _, _, bt 1 0, rfl, by decide +kernel⟩,
   ⟨.bistPanMarch .link, _, _, bt 1 0xFFFF, rfl, by unfold NoneWaits; decide +kernel⟩,
   ⟨.bistPortExternalLoopback .link, _, _, bt 6 3 [(Obj.portState 0, portRun),(Obj.portState 1, portRun),(Obj.leader, 0)] {},
     rfl, by unfold NoneWaits; decide +kernel⟩,
   ⟨.bistTemperatureSensors .link, _, _, run 1 1 [(0x1000004,5),(0x1200000,6)], rfl, by unfold NoneWaits; decide +kernel⟩,
   ⟨.bistPanMarch .link, _, _, bt 1 3, rfl, by unfold NoneWaits; decide +kernel⟩,
   ⟨.bistTemperatureSensors .link, _, _, bt 9 0 [(Obj.hvUsed, 255)], rfl, by unfold NoneWaits; decide +kernel⟩,
   ⟨.bistDram .link, _, _, bt 2 0, rfl, by unfold NoneWaits; decide +kernel⟩,
   ⟨run 1 1 [(0x1000004,5),(0x1200000,6)], _, _, _, (by decide +kernel), (by decide +kernel), rfl, rfl⟩,
   ⟨bt 1 3, by decide +kernel⟩⟩

/-- What the clauses of `Obligations.ConsoleLines` ask holds together somewhere. -/
theorem witness_console_lines :
    (∃ (index : BitVec 16) (sub : Byte) (s : State), ConReady s ∧ let i := index.toNat; let b := BitVec.toNat sub; ∃ (a : Nat),
      lookup i b = Except.error a) ∧
    (∃ (index : BitVec 16) (sub : Byte) (s : State), ConReady s ∧ let i := index.toNat; let b := BitVec.toNat sub; ∃ (r :
      ObjRow), lookup i b = Except.ok r ∧ r.acc = Access.wo) ∧
    (∃ (index : BitVec 16) (sub : Byte) (s : State), ConReady s ∧ let i := index.toNat; let b := BitVec.toNat sub; ∃ (r :
      ObjRow), lookup i b = Except.ok r ∧ r.acc ≠ Access.wo ∧ i ≠ 15456) ∧
    (∃ (n : Nat) (s : State), ConReady s ∧ 1 ≤ n ∧ n ≤ 64) ∧
    (∃ (n : Nat) (s : State), ConReady s ∧ (n = 0 ∨ 64 < n)) ∧
    (∃ (ch : Byte) (s : State), ConReady s ∧ s.rd Obj.conEcho = 1 ∧ s.service.conBuf.any isEol = false ∧
      (s.service.conBuf.length ≤ 128 ∨ isEol ch = true)) ∧
    (∃ (s : State), ConReady s ∧ s.rd Obj.conEcho ≠ 1 ∧ s.service.conBuf.any isEol = true ∧ (behindLine
      s.service.conBuf).length < 256) ∧
    (∃ (s : State), ConReady s ∧ s.rd Obj.conEcho ≠ 1 ∧ s.service.conBuf.any isEol = true ∧ 256 ≤ (behindLine
      s.service.conBuf).length) ∧
    (∃ (s : State), ConReady s ∧ ∃ (u : State), conUp u = false) ∧
    (∃ (s : State), ConReady s ∧ let shut := s.service.serviceN = true ∧ s.boot.mode = 0; shut) ∧
    (∃ (s : State), ConReady s ∧ s.service.serviceN = true) ∧
    (∃ (value : Nat) (s : State), ConReady s ∧ let shut := s.service.serviceN = true ∧ s.boot.mode = 0; value ≤ 4 ∧ ¬shut) ∧
    (∃ (code : BitVec 16) (s : State), ConReady s ∧ let shut := s.service.serviceN = true ∧ s.boot.mode = 0; ¬shut ∧
      fltClearGood code.toNat = true) ∧
    (∃ (code : BitVec 16) (s : State), ConReady s ∧ let shut := s.service.serviceN = true ∧ s.boot.mode = 0; ¬shut ∧
      fltClearGood code.toNat = false) ∧
    (∃ (s : State), ConReady s ∧ let shut := s.service.serviceN = true ∧ s.boot.mode = 0; ¬shut) ∧
    (∃ (mode : Byte) (ch : Byte) (s : State), ConReady s ∧ BitVec.toNat mode ≤ 4 ∧ channelGood (BitVec.toNat ch) = true) ∧
    (∃ (mode : Byte) (s : State), ConReady s ∧ 4 < BitVec.toNat mode) ∧
    (∃ (ch : Byte) (s : State), ConReady s ∧ channelGood (BitVec.toNat ch) = false) ∧
    (∃ (hz : BitVec 16) (dbfs : BitVec 16) (ch : Byte) (s : State), ConReady s ∧ s.service.serviceN = false ∧ 20 ≤ hz.toNat ∧
      hz.toNat ≤ 20000 ∧ -12000 ≤ dbfs.toInt ∧ dbfs.toInt ≤ 0 ∧ BitVec.toNat ch < 96 ∧ toneFits s (s.rd Obj.toneChannel)
      hz.toNat = true ∧ toneFits s (BitVec.toNat ch) hz.toNat = true) ∧
    (∃ (s : State), ConReady s ∧ s.service.serviceN = false) :=
  ⟨⟨0x7777, 0, up, (by unfold ConReady NoneWaits; decide +kernel), _, rfl⟩,
   ⟨0x3E03, 2, flt0, (by unfold ConReady NoneWaits; decide +kernel), _, rfl, by decide +kernel⟩,
   ⟨0x100A, 0, flt2, (by unfold ConReady NoneWaits; decide +kernel), _, rfl, by decide +kernel⟩,
   ⟨5, up, by unfold ConReady NoneWaits; decide +kernel⟩,
   ⟨65, flt0, by unfold ConReady NoneWaits; decide +kernel⟩,
   ⟨0x41, up, by unfold ConReady NoneWaits; decide +kernel⟩,
   ⟨st [(Obj.conEcho,0)] flt2, by unfold ConReady NoneWaits; decide +kernel⟩,
   ⟨st [(Obj.conEcho,0)] (sv { serviceN := false, conBuf := [13] ++ List.replicate 256 5 }),
     by unfold ConReady NoneWaits; decide +kernel⟩,
   ⟨up, (by unfold ConReady NoneWaits; decide +kernel), st [(Obj.pwrState, 2),(Obj.wakeEn,4)] up, by decide +kernel⟩,
   ⟨up, by unfold ConReady NoneWaits; decide +kernel⟩,
   ⟨up, by unfold ConReady NoneWaits; decide +kernel⟩,
   ⟨4, flt2, by unfold ConReady NoneWaits; decide +kernel⟩,
   ⟨0x4003, flt2, by unfold ConReady NoneWaits; decide +kernel⟩,
   ⟨0x1234, st [(Obj.pgState 0,1)] (sv { serviceN := false }), by unfold ConReady NoneWaits; decide +kernel⟩,
   ⟨flt2, by unfold ConReady NoneWaits; decide +kernel⟩,
   ⟨2, 0x41, up, by unfold ConReady NoneWaits; decide +kernel⟩,
   ⟨9, flt0, by unfold ConReady NoneWaits; decide +kernel⟩,
   ⟨0x60, st [(Obj.conEcho,0)] flt2, by unfold ConReady NoneWaits; decide +kernel⟩,
   ⟨1000, -100, 13, flt2, by unfold ConReady NoneWaits; decide +kernel⟩,
   ⟨flt2, by unfold ConReady NoneWaits; decide +kernel⟩⟩

end Sys2Proof.Tests.Service
end

section
/-! Undefined opcodes, operand faults, divide traps and interrupt entry (R12, R67, R84, R88, R101, R241, R243). A unit to which
no load, move or far access is owed is settled as it stands, so that each of these is the entry to one vector. -/

namespace Sys2Proof.Machine
open Sys2Proof Sys2Proof.Claims

/-! ## A unit to which nothing is owed -/

theorem putMoves_movesOf {s : State} (u : Agent) (h : s.tidy = true) : putMoves u (movesOf s u) s = s := by
  cases u with
  | lane n => exact State.lane_setLane_get n.val ((tidy_iff s).1 h).lanes
  | core c => exact State.core_setCore_get c.val ((tidy_iff s).1 h).cores

/-- Where no move of TAPM is owed there is nothing to write (R99). -/
theorem flushMoves_of_none {s : State} (u : Agent) (slot : Nat) (ws : List (DAddr × Word)) (h : s.tidy = true)
    (hm : movesOf s u = []) : flushMoves u slot ws s = s := by
  have hp := putMoves_movesOf u h
  rw [hm] at hp
  simp only [flushMoves, hm, List.filter_nil, forList_nil, hp]

/-- A core to which neither a move nor a load is owed is settled as it stands. -/
theorem coreSettle_of_none {s : State} (c : Fin 8) (h : s.tidy = true) (hm : (s.core c.val).moves = [])
    (hd : (s.core c.val).delayed = none) : coreSettle c s = s := by
  have hf : flushMoves (.core c) ((s.core c.val).count + 256) [] s = s := flushMoves_of_none (.core c) _ _ h hm
  have hx : { s.core c.val with regs := landLoad false (s.core c.val).delayed (s.core c.val).regs, delayed := none } =
      s.core c.val := by simp only [hd, landLoad]; rw [← hd]
  simp only [coreSettle, hf, hx]
  exact State.core_setCore_get c.val ((tidy_iff s).1 h).cores

/-- A lane with no far access under way has none due. -/
theorem farDue_of_none {s : State} (n slot : Nat) (h : (s.lane n).far = []) : farDue n slot s = s := by
  simp only [farDue, h]
  rfl

/-! ## Entry to a vector (R243) -/

/-- The core that has entered vector `v`. -/
def entered (s : State) (c v reason len done : Nat) (epc : BitVec 20) : Core :=
  let x := s.core c
  { x with
    regs := { x.regs with
      epc := epc
      esr := BitVec.ofNat 32 (done * 0x1000000 + reason * 0x10000 + len * 0x100 + v)
      pc := (iWord s c (x.vbase.toNat + 4 * v)).truncate 20 }
    ef := x.regs.f
    ictl := BitVec.ofNat 5 (0x10 + (if ictlLpe x then 8 else 0) + (if ictlGie x then 2 else 0))
    noIrq := false }

/-- Where the core may take the vector, the entry changes the core and nothing else. -/
theorem enterVector_of_open {s : State} {c : Fin 8} {v : Nat} (h : VectorOpen s c v) (reason len done : Nat) (epc : BitVec 20) :
    enterVector c.val v reason len done epc s = s.setCore c.val (entered s c.val v reason len done epc) := by
  obtain ⟨-, hexc, hlo, hhi⟩ := h
  simp [enterVector, hexc, hlo, hhi, entered]

theorem tookVector_enterVector {s : State} {c : Fin 8} {v : Nat} (h : VectorOpen s c v) (reason len done : Nat) (epc : BitVec 20) :
    TookVector s (enterVector c.val v reason len done epc s) c v reason len done epc (s.core c.val).regs.f := by
  rw [enterVector_of_open h]
  simp only [TookVector, State.core_setCore_self c.val _ ((tidy_iff s).1 h.1).cores, entered, and_self]

theorem core_enterVector {s : State} {c : Fin 8} {v : Nat} (h : VectorOpen s c v) (reason len done : Nat) (epc : BitVec 20) :
    (enterVector c.val v reason len done epc s).core c.val = entered s c.val v reason len done epc := by
  rw [enterVector_of_open h, State.core_setCore_self c.val _ ((tidy_iff s).1 h.1).cores]

theorem mem_enterVector {s : State} {c : Fin 8} {v : Nat} (h : VectorOpen s c v) (reason len done : Nat) (epc : BitVec 20) :
    (enterVector c.val v reason len done epc s).mem = s.mem := by
  rw [enterVector_of_open h, State.setCore_mem]

theorem rd_enterVector {s : State} {c : Fin 8} {v : Nat} (h : VectorOpen s c v) (reason len done : Nat) (epc : BitVec 20) (q : Reg) :
    (enterVector c.val v reason len done epc s).rd q = s.rd q := by
  rw [enterVector_of_open h]
  rfl

theorem iWord_of_mem {s t : State} (h : t.mem = s.mem) (c a : Nat) : iWord t c a = iWord s c a := by
  unfold iWord iByte
  rw [h]

/-- `t` has the memory of `s`, and core `c` its vector base and ICTL. -/
def SameEntry (s t : State) (c : Fin 8) : Prop :=
  t.tidy = true ∧ t.mem = s.mem ∧ (t.core c.val).vbase = (s.core c.val).vbase ∧ (t.core c.val).ictl = (s.core c.val).ictl

theorem SameEntry.vectorOpen {s t : State} {c : Fin 8} {v : Nat} (h : SameEntry s t c) (hv : VectorOpen s c v) :
    VectorOpen t c v := by
  obtain ⟨ht, -, hvb, hic⟩ := h
  obtain ⟨-, hexc, hlo, hhi⟩ := hv
  unfold VectorOpen ictlExc
  rw [hvb, hic]
  exact ⟨ht, hexc, hlo, hhi⟩

/-- The vector entry taken from `t` is that of `s`. -/
theorem SameEntry.took {s t u : State} {c : Fin 8} {v reason len done : Nat} {epc : BitVec 20} {f : BitVec 16}
    (h : SameEntry s t c) (hu : TookVector t u c v reason len done epc f) : TookVector s u c v reason len done epc f := by
  obtain ⟨-, hm, hvb, hic⟩ := h
  simp only [TookVector, ictlLpe, ictlGie, iWord_of_mem hm, hvb, hic] at hu
  exact hu

/-- A trap of a core to which nothing is owed enters its vector from the state as it stands (R67). -/
theorem coreTrap_of_none {s : State} (c : Fin 8) (v reason len done : Nat) (h : s.tidy = true) (hm : (s.core c.val).moves = [])
    (hd : (s.core c.val).delayed = none) :
    coreTrap c v reason len done s = enterVector c.val v reason len done (s.core c.val).regs.pc s := by
  simp only [coreTrap, coreSettle_of_none c h hm hd]

/-! ## Undefined opcodes and interrupt entry -/

theorem undefinedOpcode_core {s : State} {c : Fin 8} (reason : Byte) (len : Fin 16) (hr : coreRuns s c.val = true)
    (hv : VectorOpen s c 2) (hm : (s.core c.val).moves = []) (hd : (s.core c.val).delayed = none)
    (hlo : iImplemented (s.core c.val).regs.pc.toNat = true)
    (hhi : iImplemented ((s.core c.val).regs.pc.toNat + len.val - 1) = true) :
    exec (.undefinedOpcode (.core c) reason len) s =
      .next (enterVector c.val 2 reason.toNat len.val 0 (s.core c.val).regs.pc s) := by
  simp [exec, execUndefinedOpcode, hr, hlo, hhi, coreUndefined, coreTrap_of_none c _ _ _ _ hv.1 hm hd]

/-- A core takes the interrupt of vector `v`: what it does before the entry. -/
def interruptTaken (c v : Nat) (s : State) : State :=
  let x := s.core c
  (s.setCore c (if v = 1 then { x with notice := false }
    else { x with ipend := x.ipend &&& ~~~(BitVec.ofNat 32 (2 ^ (v - 8))) })).wr (Obj.coreState c) 1

theorem takeInterrupt_eq (c v : Nat) (s : State) :
    takeInterrupt c v s = enterVector c v 0 0 0 (s.core c).regs.pc (interruptTaken c v s) := by
  unfold takeInterrupt interruptTaken
  split <;> rfl

theorem core_interruptTaken {s : State} (c : Fin 8) (v : Nat) (h : s.tidy = true) :
    (interruptTaken c.val v s).core c.val = (if v = 1 then { s.core c.val with notice := false }
      else { s.core c.val with ipend := (s.core c.val).ipend &&& ~~~(BitVec.ofNat 32 (2 ^ (v - 8))) }) :=
  State.core_setCore_self c.val _ ((tidy_iff s).1 h).cores

theorem sameEntry_interruptTaken {s : State} (c : Fin 8) (v : Nat) (h : s.tidy = true) :
    SameEntry s (interruptTaken c.val v s) c := by
  refine ⟨tidy_wr _ _ (tidy_setCore _ _ h), rfl, ?_⟩
  rw [core_interruptTaken c v h]
  split
  · exact ⟨rfl, rfl⟩
  · exact ⟨rfl, rfl⟩

theorem regs_interruptTaken {s : State} (c : Fin 8) (v : Nat) (h : s.tidy = true) :
    ((interruptTaken c.val v s).core c.val).regs = (s.core c.val).regs := by
  rw [core_interruptTaken c v h]
  split
  · rfl
  · rfl

theorem tookVector_interrupt {s : State} {c : Fin 8} {v : Nat} (h : VectorOpen s c v) :
    TookVector s (takeInterrupt c.val v s) c v 0 0 0 (s.core c.val).regs.pc (s.core c.val).regs.f := by
  have he := sameEntry_interruptTaken c v h.1
  rw [takeInterrupt_eq, ← regs_interruptTaken c v h.1]
  exact he.took (tookVector_enterVector (he.vectorOpen h) 0 0 0 _)

/-- The interrupt taken is no longer pending (R241). -/
theorem pend_takeInterrupt {s : State} {c : Fin 8} {v : Nat} (h : VectorOpen s c v) :
    if v = 1 then ((takeInterrupt c.val v s).core c.val).notice = false
    else ((takeInterrupt c.val v s).core c.val).ipend.getLsbD (v - 8) = false := by
  rw [takeInterrupt_eq, core_enterVector ((sameEntry_interruptTaken c v h.1).vectorOpen h)]
  simp only [entered, core_interruptTaken c v h.1]
  split
  · rfl
  · rw [BitVec.getLsbD_and, BitVec.getLsbD_not, BitVec.getLsbD_ofNat, Nat.testBit_two_pow_self]
    simp

/-! ## The registers that a fault leaves alone -/

/-- A register outside the fault log's objects 0x3A00 (R379). -/
def OffLog (q : Reg) : Prop := q.key / 256 ≠ 0x3A00

theorem rd_wr_log {q : Reg} (h : OffLog q) (s : State) (k d v : Nat) (hk : k < 256) :
    (s.wr ⟨0x3A00 * 256 + k, d⟩ v).rd q = s.rd q := by
  apply State.rd_wr_ne
  unfold OffLog at h
  simp only
  omega

theorem rd_pendCore (c k : Nat) (s : State) (q : Reg) : (pendCore c k s).rd q = s.rd q := rfl

theorem rd_pendAll (k : Nat) (s : State) (q : Reg) : (pendAll k s).rd q = s.rd q :=
  forUpto_keep (fun t => t.rd q = s.rd q) 8 (fun c => pendCore c k) (fun c _ t h => (rd_pendCore c k t q).trans h) s rfl

theorem rd_bumpRepeat (p : FaultRec → Bool) (s : State) (q : Reg) : (bumpRepeat p s).rd q = s.rd q := by
  unfold bumpRepeat
  dsimp only
  split
  · rfl
  · rfl

theorem rd_repeatFault (code unit info : Nat) (s : State) (q : Reg) : (repeatFault code unit info s).rd q = s.rd q :=
  rd_bumpRepeat _ s q

theorem rd_logCount {q : Reg} (h : OffLog q) (s : State) : (logCount s).rd q = s.rd q := by
  unfold logCount
  split
  · exact rd_wr_log h s 4 0 _ (by omega)
  · exact rd_wr_log h s 3 0 _ (by omega)

theorem rd_logTotals {q : Reg} (h : OffLog q) (k code : Nat) (s : State) : (logTotals k code s).rd q = s.rd q := by
  calc (logTotals k code s).rd q
      = ((s.wr Obj.fltLogHead ((k + 1) % 64)).inc Obj.fltTotal).rd q := rd_wr_log h _ 9 0 _ (by omega)
    _ = (s.wr Obj.fltLogHead ((k + 1) % 64)).rd q := rd_wr_log h _ 8 0 _ (by omega)
    _ = s.rd q := rd_wr_log h _ 2 0 _ (by omega)

theorem rd_logActive (c : BitVec 16) (s : State) (q : Reg) : (logActive c s).rd q = s.rd q := by
  unfold logActive
  split
  · rfl
  · rfl

theorem rd_logSources (code : Nat) (s : State) (q : Reg) : (logSources code s).rd q = s.rd q := by
  unfold logSources
  split
  · exact rd_pendAll _ s q
  · rfl

theorem rd_logFault {q : Reg} (h : OffLog q) (code unit info extra : Nat) (s : State) :
    (logFault code unit info extra s).rd q = s.rd q := by
  rw [logFault_eq, rd_logSources]
  exact (rd_logActive _ _ q).trans ((rd_logTotals h _ _ _).trans (rd_logCount h _))

theorem rd_queueEmcy {q : Reg} (h : OffLog q) (err code detail : Nat) (s : State) : (queueEmcy err code detail s).rd q = s.rd q := by
  unfold queueEmcy
  split
  · rfl
  · split
    · rfl
    · split
      · exact rd_repeatFault _ _ _ s q
      · dsimp only
        split
        · exact rd_repeatFault _ _ _ _ q
        · exact rd_logFault h _ _ _ _ _

theorem rd_raise {q : Reg} (h : OffLog q) (code unit info extra : Nat) (s : State) : (raise code unit info extra s).rd q = s.rd q :=
  (rd_queueEmcy h _ _ _ _).trans (rd_logFault h _ _ _ _ s)

/-- A sticky fault writes its own register, beside the fault log. -/
theorem rd_raiseSticky_ne {r q : Reg} (h : OffLog q) (hr : q.key ≠ r.key) (bit code unit info extra : Nat) (s : State) :
    (raiseSticky r bit code unit info extra s).rd q = s.rd q := by
  unfold raiseSticky
  split
  · exact rd_repeatFault _ _ _ s q
  · exact (rd_raise h _ _ _ _ _).trans (State.rd_wr_ne s _ hr)

/-- After a sticky fault its bit is set. -/
theorem testBit_raiseSticky {r : Reg} (h : OffLog r) (bit code unit info extra : Nat) {s : State} (ht : s.tidy = true) :
    ((raiseSticky r bit code unit info extra s).rd r).testBit bit = true := by
  unfold raiseSticky
  split
  next hb => rw [rd_repeatFault]; exact hb
  next =>
    rw [rd_raise h, State.setBit, State.rd_wr_self r _ ((tidy_iff s).1 ht).od, Nat.testBit_or, Nat.testBit_two_pow_self,
      Bool.or_true]

/-! ## The parts of a lane fault (R56, R57) -/

/-- The fault counts. -/
def countLaneFault (n bit : Nat) (s : State) : State :=
  match laneCounter n bit with
  | some r => s.inc r
  | none => s

/-- The first undefined opcode notes its slot. -/
def noteFirstUd (n bit slot : Nat) (s : State) : State :=
  if bit = 1 ∧ !(s.rd (Obj.laneFaults n)).testBit 1 then s.wr (Obj.firstUdSlot n) slot else s

/-- A fault that the lane's mask names asks for SAFE. -/
def askSafe (n bit : Nat) (s : State) : State :=
  if (s.rd (Obj.faultSafeMask n)).testBit bit ∧ laneSt s n ≠ laneSafe ∧ !(s.lane n).safePending then
    (s.setLane n { s.lane n with safePending := true, safeBy := 2 }).inc Obj.supActions
  else s

theorem laneFault_eq (n bit slot : Nat) (s : State) :
    laneFault n bit slot s = askSafe n bit (raiseSticky (Obj.laneFaults n) bit (0x4001 + bit) n slot 0
      (noteFirstUd n bit slot (countLaneFault n bit s))) := rfl

theorem askSafe_mem (n bit : Nat) (s : State) : (askSafe n bit s).mem = s.mem := by
  unfold askSafe
  split
  · rfl
  · rfl

theorem askSafe_rd {q : Reg} (n bit : Nat) (s : State) (h : q.key ≠ Obj.supActions.key) : (askSafe n bit s).rd q = s.rd q := by
  unfold askSafe
  split
  · exact State.rd_wr_ne _ _ h
  · rfl

theorem askSafe_regs (n bit : Nat) {s : State} (h : Map.wf {} s.lanes = true) : ((askSafe n bit s).lane n).regs = (s.lane n).regs := by
  unfold askSafe
  split
  · rw [State.inc, State.wr_lane, State.lane_setLane_self n _ h]
  · rfl

theorem countLaneFault_only (n bit : Nat) (s : State) : FaultOnly s (countLaneFault n bit s) := by
  unfold countLaneFault
  split
  · exact FaultOnly.inc s _
  · exact FaultOnly.refl s

theorem noteFirstUd_only (n bit slot : Nat) (s : State) : FaultOnly s (noteFirstUd n bit slot s) := by
  unfold noteFirstUd
  split
  · exact FaultOnly.wr s _ _
  · exact FaultOnly.refl s

/-- What a lane fault is before it asks for SAFE reaches no further than a fault. -/
theorem laneFault_only (n bit slot : Nat) (s : State) : ∃ t, FaultOnly s t ∧ laneFault n bit slot s = askSafe n bit t :=
  ⟨_, ((countLaneFault_only n bit s).trans (noteFirstUd_only n bit slot _)).trans (FaultOnly.raiseSticky _ _ _ _ _ _ _),
    laneFault_eq n bit slot s⟩

theorem laneFault_mem (n bit slot : Nat) (s : State) : (laneFault n bit slot s).mem = s.mem := by
  obtain ⟨t, ht, e⟩ := laneFault_only n bit slot s
  rw [e, askSafe_mem, ht.mem]

theorem laneFault_regs (n bit slot : Nat) {s : State} (h : s.tidy = true) :
    ((laneFault n bit slot s).lane n).regs = (s.lane n).regs := by
  obtain ⟨t, ht, e⟩ := laneFault_only n bit slot s
  have hl : t.lanes = s.lanes := ht.lanes
  rw [e, askSafe_regs n bit (by rw [hl]; exact ((tidy_iff s).1 h).lanes)]
  unfold State.lane
  rw [hl]

/-! ## An undefined opcode on a lane (R12, R88) -/

/-- Registers of one lane. -/
theorem udCount_offLog {n : Nat} (h : n < 64) : OffLog (Obj.udCount n) := by unfold OffLog Obj.udCount; simp only; omega
theorem laneFaults_offLog {n : Nat} (h : n < 64) : OffLog (Obj.laneFaults n) := by unfold OffLog Obj.laneFaults; simp only; omega
theorem firstUdSlot_offLog {n : Nat} (h : n < 64) : OffLog (Obj.firstUdSlot n) := by unfold OffLog Obj.firstUdSlot; simp only; omega

theorem udCount_laneFault {n : Nat} (slot : Nat) {s : State} (hn : n < 64) (h : s.tidy = true) (hc : s.rd (Obj.udCount n) < 0xFFFFFFFF) :
    (laneFault n 1 slot s).rd (Obj.udCount n) = s.rd (Obj.udCount n) + 1 := by
  have hfirst : (noteFirstUd n 1 slot (s.inc (Obj.udCount n))).rd (Obj.udCount n) = (s.inc (Obj.udCount n)).rd (Obj.udCount n) := by
    unfold noteFirstUd
    split
    · exact State.rd_wr_ne _ _ (by simp [Obj.udCount, Obj.firstUdSlot])
    · rfl
  calc (laneFault n 1 slot s).rd (Obj.udCount n)
      = (noteFirstUd n 1 slot (s.inc (Obj.udCount n))).rd (Obj.udCount n) :=
        (askSafe_rd n 1 _ (by simp only [Obj.udCount, Obj.supActions]; omega)).trans
          (rd_raiseSticky_ne (udCount_offLog hn) (by simp [Obj.udCount, Obj.laneFaults]) _ _ _ _ _ _)
    _ = (s.inc (Obj.udCount n)).rd (Obj.udCount n) := hfirst
    _ = min (s.rd (Obj.udCount n) + 1) 0xFFFFFFFF := State.rd_wr_self _ _ ((tidy_iff s).1 h).od
    _ = s.rd (Obj.udCount n) + 1 := by omega

theorem udSticky_laneFault {n : Nat} (slot : Nat) {s : State} (hn : n < 64) (h : s.tidy = true) :
    ((laneFault n 1 slot s).rd (Obj.laneFaults n)).testBit 1 = true := by
  have ht : (noteFirstUd n 1 slot (s.inc (Obj.udCount n))).tidy = true := by
    unfold noteFirstUd
    split
    · exact tidy_wr _ _ (tidy_inc _ h)
    · exact tidy_inc _ h
  exact (congrArg (Nat.testBit · 1) (askSafe_rd n 1 _ (by simp only [Obj.laneFaults, Obj.supActions]; omega))).trans
    (testBit_raiseSticky (laneFaults_offLog hn) _ _ _ _ _ ht)

theorem firstUdSlot_laneFault {n : Nat} (slot : Nat) {s : State} (hn : n < 64) (h : s.tidy = true)
    (hb : (s.rd (Obj.laneFaults n)).testBit 1 = false) : (laneFault n 1 slot s).rd (Obj.firstUdSlot n) = slot := by
  have hb' : ((s.inc (Obj.udCount n)).rd (Obj.laneFaults n)).testBit 1 = false := by
    rw [State.inc, State.rd_wr_ne s _ (by simp [Obj.udCount, Obj.laneFaults]), hb]
  calc (laneFault n 1 slot s).rd (Obj.firstUdSlot n)
      = (noteFirstUd n 1 slot (s.inc (Obj.udCount n))).rd (Obj.firstUdSlot n) :=
        (askSafe_rd n 1 _ (by simp only [Obj.firstUdSlot, Obj.supActions]; omega)).trans
          (rd_raiseSticky_ne (firstUdSlot_offLog hn) (by simp [Obj.firstUdSlot, Obj.laneFaults]) _ _ _ _ _ _)
    _ = ((s.inc (Obj.udCount n)).wr (Obj.firstUdSlot n) slot).rd (Obj.firstUdSlot n) := by simp [noteFirstUd, hb']
    _ = slot := State.rd_wr_self _ _ ((tidy_iff _).1 (tidy_inc _ h)).od

/-- A lane that passes an undefined opcode: PC and the UD flag (R88), before the fault. -/
def udPassed (n : Nat) (s : State) : State :=
  let l := s.lane n
  s.setLane n { l with regs := { l.regs with f := putF l.regs.f 6 true, pc := l.regs.pc + 1 }, delayed := none }

theorem regs_udPassed {s : State} (n : Nat) (h : s.tidy = true) : ((udPassed n s).lane n).regs =
    { (s.lane n).regs with f := putF (s.lane n).regs.f 6 true, pc := (s.lane n).regs.pc + 1 } :=
  congrArg Lane.regs (State.lane_setLane_self n _ ((tidy_iff s).1 h).lanes)

theorem rd_udPassed (n : Nat) (s : State) (q : Reg) : (udPassed n s).rd q = s.rd q := rfl

theorem laneUndefined_of_none {s : State} (n : Fin 64) (h : s.tidy = true) (hf : (s.lane n.val).far = [])
    (hm : (s.lane n.val).moves = []) (hd : (s.lane n.val).delayed = none) :
    laneUndefined n.val s = laneFault n.val 1 (s.lane n.val).regs.pc.toNat (udPassed n.val s) := by
  have hu : Fin.ofNat 64 n.val = n := Fin.ofNat_val_eq_self n
  have hfl : flushMoves (.lane n) (s.lane n.val).regs.pc.toNat [] s = s := flushMoves_of_none (.lane n) _ _ h hm
  simp only [laneUndefined, hu, farDue_of_none n.val _ hf, hfl, hd, landLoad, udPassed]

theorem undefinedOpcode_lane {s : State} {n : Fin 64} (reason : Byte) (len : Fin 16) (h : s.tidy = true)
    (hr : laneRuns s n.val = true) (hf : (s.lane n.val).far = []) (hm : (s.lane n.val).moves = [])
    (hd : (s.lane n.val).delayed = none) :
    exec (.undefinedOpcode (.lane n) reason len) s =
      .next (laneFault n.val 1 (s.lane n.val).regs.pc.toNat (udPassed n.val s)) := by
  simp [exec, execUndefinedOpcode, hr, laneUndefined_of_none n h hf hm hd]

theorem trapsAndInterrupts : TrapsAndInterrupts := by
  refine ⟨fun c reason len s hr hv hm hd hlo hhi => ?_, fun n reason len s h hr hf hm hd hc => ?_, fun c v s hv hn => ?_⟩
  case refine_1 =>
    refine ⟨_, undefinedOpcode_core reason len hr hv hm hd hlo hhi, tookVector_enterVector hv _ _ _ _, mem_enterVector hv _ _ _ _, ?_⟩
    rw [core_enterVector hv]
    rfl
  case refine_2 =>
    have hp : (udPassed n.val s).tidy = true := tidy_setLane _ _ h
    refine ⟨_, undefinedOpcode_lane reason len h hr hf hm hd, ?_, ?_, ?_, udSticky_laneFault _ n.isLt hp, ?_, laneFault_mem _ _ _ _⟩
    · rw [laneFault_regs n.val 1 _ hp, regs_udPassed n.val h]
    · rw [laneFault_regs n.val 1 _ hp, regs_udPassed n.val h]
    · rw [udCount_laneFault _ n.isLt hp (by rw [rd_udPassed]; exact hc), rd_udPassed]
    · rw [← rd_udPassed]
      exact firstUdSlot_laneFault _ n.isLt hp
  case refine_3 =>
    have ho := (sameEntry_interruptTaken c v hv.1).vectorOpen hv
    refine ⟨takeInterrupt c.val v s, by simp [exec, execInterruptEntry, hn], tookVector_interrupt hv, ?_, pend_takeInterrupt hv, ?_⟩
    · rw [takeInterrupt_eq, rd_enterVector ho]
      exact State.rd_wr_self _ _ ((tidy_iff _).1 (tidy_setCore _ _ hv.1)).od
    · rw [takeInterrupt_eq, mem_enterVector ho]
      rfl


/-! ## Forms that R84 finds undefined -/

/-- A shape whose reasons are codes of a byte, and whose length with any two prefixes is below 16. -/
def SmallShape (sh : Shape) : Prop := (∀ r ∈ sh.reasons, r < 256) ∧ sh.len ≤ 7

/-- The lower of two reasons, the first where there is no other. -/
def lowerReason (m : Option Nat) (r : Nat) : Option Nat :=
  match m with
  | none => some r
  | some k => some (min k r)

theorem lowest_lt {b : Nat} (rs : List Nat) (h : ∀ r ∈ rs, r < b) (m : Option Nat) (hm : ∀ k, m = some k → k < b) {r : Nat}
    (e : rs.foldl lowerReason m = some r) : r < b := by
  induction rs generalizing m with
  | nil => exact hm r e
  | cons x rs ih =>
    refine ih (fun y hy => h y (List.mem_cons_of_mem x hy)) (lowerReason m x) (fun k hk => ?_) e
    have hx : x < b := h x List.mem_cons_self
    cases m with
    | none => cases hk; exact hx
    | some j => cases hk; have := hm j rfl; omega

theorem undefReason_lt {u : Agent} {p : Prefix} {sh : Shape} {r : Nat} (hs : SmallShape sh) (h : undefReason u p sh = some r) :
    r < 256 := by
  refine lowest_lt _ (fun x hx => ?_) none (fun k hk => by cases hk) h
  simp only [List.mem_append, List.mem_ite_nil_right, List.mem_singleton] at hx
  rcases hx with (((hx | hx) | hx) | hx) | hx
  · exact hs.1 x hx
  all_goals omega

theorem decodedLen_lt {p : Prefix} {sh : Shape} (hs : SmallShape sh) : decodedLen p sh < 16 := by
  have hl := hs.2
  have hw := Bool.toNat_le p.wide
  have hg := Bool.toNat_le p.guard
  have ht := Bool.toNat_le p.sat
  have hr := Bool.toNat_le p.rep.isSome
  unfold decodedLen
  split
  · split <;> omega
  · unfold prefixLen
    omega

/-- An undefined form runs as the undefined opcode of its reason and length (R88). -/
theorem runInstr_of_undefined {u : Agent} {p : Prefix} {sh : Shape} {r : Nat} (hs : SmallShape sh) (h : undefReason u p sh = some r)
    (cost : Nat) (body : Cx → Regs → Hv Eff) (s : State) :
    runInstr u p sh cost body s = exec (.undefinedOpcode u (BitVec.ofNat 8 r) (Fin.ofNat 16 (decodedLen p sh))) s := by
  have hr : (BitVec.ofNat 8 r).toNat = r := by rw [BitVec.toNat_ofNat]; exact Nat.mod_eq_of_lt (undefReason_lt hs h)
  have hl : (Fin.ofNat 16 (decodedLen p sh)).val = decodedLen p sh := Nat.mod_eq_of_lt (decodedLen_lt hs)
  cases u with
  | lane n =>
    simp only [runInstr, h, exec, execUndefinedOpcode]
    cases laneRuns s n.val <;> rfl
  | core c =>
    simp only [runInstr, h, exec, execUndefinedOpcode, hr, hl]
    split
    · rfl
    · split
      · rfl
      · rfl

theorem regReasons_lt (u : Agent) (code : Nat) : ∀ r ∈ regReasons u code, r < 256 := by
  unfold regReasons
  split <;> simp

theorem countReasons_lt (n : Byte) : ∀ r ∈ countReasons n, r < 256 := by
  unfold countReasons
  split <;> simp

theorem operandReasons_lt (u : Agent) (wide reg imm mem : Bool) (o : Operand) : ∀ r ∈ operandReasons u wide reg imm mem o, r < 256 := by
  intro r hr
  cases o <;> simp only [operandReasons, List.mem_append, List.mem_ite_nil_left, List.mem_ite_nil_right, List.mem_singleton] at hr
  case reg c =>
    rcases hr with hr | hr
    · omega
    · exact regReasons_lt u _ r hr
  all_goals omega

theorem extLen_le (wide : Bool) (o : Operand) : extLen wide o ≤ 4 := by
  unfold extLen
  split
  case h_2 => split <;> [omega; (split <;> omega)]
  case h_3 => split <;> omega
  all_goals omega

theorem smallShape_shapeD (u : Agent) (p : Prefix) (reg imm mem : Bool) (o : Operand) : SmallShape (shapeD u p reg imm mem o) :=
  ⟨operandReasons_lt u _ _ _ _ o, by have := extLen_le (p.wide && isImm o) o; unfold shapeD; simp only; omega⟩

theorem smallShape_solo (reasons : List Nat) (h : ∀ r ∈ reasons, r < 256) (len : Nat) (hl : len ≤ 7) (lane core wide guard rep : Bool) :
    SmallShape { len := len, lane := lane, core := core, wide := wide, guard := guard, rep := rep, reasons := reasons } := ⟨h, hl⟩

theorem smallShape_shapeF (pos w : Byte) : SmallShape (shapeF pos w) := by
  refine smallShape_solo _ ?_ 3 (by omega) _ _ _ _ _
  split <;> simp

theorem smallShape_shapeB (u : Agent) (p : Prefix) (d : Word) : SmallShape (shapeB u p d) := by
  refine smallShape_solo _ ?_ _ ?_ _ _ _ _ _
  · split <;> simp
  · split <;> omega

theorem smallShape_shiftMemShape (u : Agent) (p : Prefix) (o : Operand) (n : Byte) : SmallShape (shiftMemShape u p o n) := by
  refine smallShape_solo _ (fun r hr => ?_) _ ?_ _ _ _ _ _
  · rcases List.mem_append.1 hr with hr | hr
    · exact operandReasons_lt u _ _ _ _ o r hr
    · exact countReasons_lt n r hr
  · have := extLen_le (false && isImm o) o
    unfold shapeD
    simp only
    omega

/-- `exec` runs `i` as an instruction of shape `sh`. -/
def RunsAs (i : Instr) (u : Agent) (p : Prefix) (sh : Shape) : Prop :=
  ∃ cost body, ∀ s, exec i s = runInstr u p sh cost body s

/-- On a core the body of `i` takes the fault of its operand for its own. -/
def OperandFirst (o : Operand) (body : Cx → Regs → Hv Eff) : Prop :=
  ∀ (cx : Cx) (r : Regs) (s : State) (e : Nat × State), Agent.isLane cx.u = false → (operand cx r o).run s = .error e →
    (body cx r).run s = .error e

theorem bind_error {α β : Type} {m : Hv α} {k : α → Hv β} {s : State} {e : Nat × State} (h : m.run s = .error e) :
    (m >>= k).run s = .error e := by
  rw [StateT.run_bind, h]
  rfl

theorem bind_ok {α β : Type} {m : Hv α} {k : α → Hv β} {s t : State} {a : α} (h : m.run s = .ok (a, t)) :
    (m >>= k).run s = (k a).run t := by
  rw [StateT.run_bind, h]
  rfl

theorem modify_ok {f : State → State} {s t : State} (h : f s = t) : (modify f : Hv Unit).run s = .ok ((), t) := by
  subst h
  rfl

theorem operandFirst_accBody (f : Bool → Acc → Word → Acc × FlagSet) (o : Operand) : OperandFirst o (accBody f o) :=
  fun _ _ _ _ _ h => bind_error h

theorem operandFirst_divBody (o : Operand) : OperandFirst o (divBody o) := fun _ _ _ _ _ h => bind_error h

/-- A core has no far window. -/
theorem farOperand_core {cx : Cx} (h : Agent.isLane cx.u = false) (r : Regs) (o : Operand) : farOperand cx r o = none := by
  unfold farOperand
  split
  · simp [h]
  · rfl

theorem operandFirst_loadBody (dest : Fin 32) (o : Operand) : OperandFirst o (loadBody dest o) := by
  intro cx r s e hu h
  unfold loadBody
  rw [farOperand_core hu]
  exact bind_error h

theorem exec_accOp {i : Instr} {u : Agent} {p : Prefix} {o : Operand} {k : Nat} {f : Bool → Acc → Word → Acc × FlagSet}
    (h : accOp i = some (u, p, o, k, f)) :
    ∃ body, OperandFirst o body ∧ ∀ s, exec i s = runInstr u p (shapeD u p true true true o) k body s := by
  unfold accOp at h
  split at h
  case h_1 => cases h; exact ⟨accBody aluAdd o, operandFirst_accBody _ o, fun _ => rfl⟩
  case h_2 => cases h; exact ⟨accBody aluSub o, operandFirst_accBody _ o, fun _ => rfl⟩
  case h_3 => cases h; exact ⟨wordBody (logic (· &&& ·)) o, operandFirst_accBody _ o, fun _ => rfl⟩
  case h_4 => cases h; exact ⟨wordBody (logic (· ||| ·)) o, operandFirst_accBody _ o, fun _ => rfl⟩
  case h_5 => cases h; exact ⟨wordBody (logic (· ^^^ ·)) o, operandFirst_accBody _ o, fun _ => rfl⟩
  case h_6 => cases h; exact ⟨divBody o, operandFirst_divBody o, fun _ => rfl⟩
  case h_7 => cases h

theorem exec_loadOp {i : Instr} {u : Agent} {p : Prefix} {o : Operand} {d : Fin 32} (h : loadOp i = some (u, p, o, d)) :
    ∀ s, exec i s = runInstr u p (shapeD u p true true true o) 1 (loadBody d o) s := by
  unfold loadOp at h
  split at h
  case h_4 => cases h
  all_goals (cases h; intro; rfl)

theorem exec_readOp {i : Instr} {u : Agent} {p : Prefix} {o : Operand} (h : readOp i = some (u, p, o)) :
    ∃ cost body, OperandFirst o body ∧ ∀ s, exec i s = runInstr u p (shapeD u p true true true o) cost body s := by
  rcases (Option.orElse_eq_some _ _ _).1 h with h | ⟨-, h⟩
  · obtain ⟨⟨u', p', o', k, f⟩, ha, e⟩ := Option.map_eq_some_iff.1 h
    cases e
    obtain ⟨body, hb, he⟩ := exec_accOp ha
    exact ⟨k, body, hb, he⟩
  · obtain ⟨⟨u', p', o', d⟩, hl, e⟩ := Option.map_eq_some_iff.1 h
    cases e
    exact ⟨1, loadBody d _, operandFirst_loadBody d _, exec_loadOp hl⟩

theorem exec_mulOp {i : Instr} {u : Agent} {p : Prefix} {o : Operand} {k g : Int} (h : mulOp i = some (u, p, o, k, g)) :
    RunsAs i u p (shapeD u p true true true o) := by
  unfold mulOp at h
  split at h
  case h_4 => cases h
  all_goals (cases h; exact ⟨1, mulBody _ _ _, fun _ => rfl⟩)

theorem exec_storeOp {i : Instr} {u : Agent} {p : Prefix} {o : Operand} {f : Bool → Regs → Word × Bool}
    (h : storeOp i = some (u, p, o, f)) : RunsAs i u p (shapeD u p false false true o) := by
  unfold storeOp at h
  split at h
  case h_1 => cases h; exact ⟨1, staBody o, fun _ => rfl⟩
  case h_4 => cases h
  all_goals (cases h; exact ⟨1, _, fun _ => rfl⟩)

theorem exec_shiftMemOp {i : Instr} {u : Agent} {p : Prefix} {o : Operand} {n : Byte} {k : Shift}
    (h : shiftMemOp i = some (u, p, o, n, k)) : RunsAs i u p (shiftMemShape u p o n) := by
  unfold shiftMemOp at h
  split at h
  case h_5 => cases h
  all_goals (cases h; exact ⟨1, shiftMemBody _ o n, fun _ => rfl⟩)

theorem exec_ownOp {i : Instr} {u : Agent} {p : Prefix} {sh : Shape} {f : Bool → Acc → (Acc → Acc) × FlagSet}
    (h : ownOp i = some (u, p, sh, f)) : SmallShape sh ∧ RunsAs i u p sh := by
  unfold ownOp at h
  split at h
  case h_13 => cases h
  case h_9 | h_10 => cases h; exact ⟨smallShape_shapeF _ _, 1, _, fun _ => rfl⟩
  case h_5 | h_6 | h_7 | h_8 => cases h; exact ⟨⟨countReasons_lt _, by simp⟩, 1, _, fun _ => rfl⟩
  all_goals (cases h; exact ⟨⟨by simp, by simp⟩, 1, _, fun _ => rfl⟩)

/-- A branch is the run of its shape, but that a branch taken on a lane goes on elsewhere. -/
theorem runBranch_of_undefined (k : Nat) {u : Agent} {p : Prefix} {d : Word} {r : Nat} (h : undefReason u p (shapeB u p d) = some r)
    (s : State) : runBranch k u p d s = exec (.undefinedOpcode u (BitVec.ofNat 8 r) (Fin.ofNat 16 (decodedLen p (shapeB u p d)))) s := by
  rw [← runInstr_of_undefined (smallShape_shapeB u p d) h 1 (fun _ _ => pure {})]
  cases u with
  | lane n => simp [runBranch, h]
  | core c => simp [runBranch, runInstr, h]

theorem exec_branchOp {i : Instr} {u : Agent} {p : Prefix} {d : Word} {k : Nat} (h : branchOp i = some (u, p, d, k)) (s : State) :
    exec i s = runBranch k u p d s := by
  unfold branchOp at h
  split at h
  case h_14 => cases h
  all_goals (cases h; rfl)

/-- An instruction of the tables whose form is undefined runs as the undefined opcode. -/
theorem exec_of_undefinedForm {i : Instr} {u : Agent} {p : Prefix} {sh : Shape} {r : Nat} (hi : formOf i = some (u, p, sh))
    (h : undefReason u p sh = some r) (s : State) :
    exec i s = exec (.undefinedOpcode u (BitVec.ofNat 8 r) (Fin.ofNat 16 (decodedLen p sh))) s := by
  have of_runsAs (hs : SmallShape sh) (hrun : RunsAs i u p sh) :
      exec i s = exec (.undefinedOpcode u (BitVec.ofNat 8 r) (Fin.ofNat 16 (decodedLen p sh))) s := by
    obtain ⟨cost, body, he⟩ := hrun
    rw [he, runInstr_of_undefined hs h]
  simp only [formOf, Option.orElse_eq_some, Option.map_eq_some_iff] at hi
  rcases hi with ⟨x, hx, e⟩ | ⟨-, ⟨x, hx, e⟩ | ⟨-, ⟨x, hx, e⟩ | ⟨-, ⟨x, hx, e⟩ | ⟨-, ⟨x, hx, e⟩ | ⟨-, x, hx, e⟩⟩⟩⟩⟩
  · cases e
    obtain ⟨cost, body, -, he⟩ := exec_readOp hx
    exact of_runsAs (smallShape_shapeD ..) ⟨cost, body, he⟩
  · cases e
    exact of_runsAs (smallShape_shapeD ..) (exec_mulOp hx)
  · cases e
    exact of_runsAs (exec_ownOp hx).1 (exec_ownOp hx).2
  · cases e
    exact of_runsAs (smallShape_shapeD ..) (exec_storeOp hx)
  · cases e
    exact of_runsAs (smallShape_shiftMemShape ..) (exec_shiftMemOp hx)
  · cases e
    rw [exec_branchOp hx]
    exact runBranch_of_undefined _ h s

/-! ## One instruction on a control core -/

theorem runInstr_core {s : State} {c : Fin 8} {p : Prefix} {sh : Shape} (h : CoreTakes s c p sh) (cost : Nat)
    (body : Cx → Regs → Hv Eff) : runInstr (.core c) p sh cost body s = .next (runCore c p (decodedLen p sh) body s) := by
  obtain ⟨-, hr, hu, -, hlo, hhi, -, -⟩ := h
  simp [runInstr, hr, hu, hlo, hhi]

/-- A core commits what an instruction without writes gives it. -/
def committed (c : Fin 8) (e : Eff) (s : State) : State :=
  let x := s.core c.val
  s.setCore c.val { x with
    regs := { e.upd (landUnder false e.fl x.delayed x.regs) with f := e.fl.apply (e.upd (landUnder false e.fl x.delayed x.regs)).f }
    delayed := e.load }

theorem coreWrite_nil (c : Nat) (s : State) : coreWrite c [] s = s := rfl

theorem dWrites_core_nil (c : Fin 8) (p : Prefix) (slot : Nat) (sat : Bool) (s : State) :
    (dWrites ⟨.core c, p, slot, sat⟩ []).run s = .ok ((), s) := by
  cases h : p.guard <;> simp [StateT.run, dWrites, h, coreWrite_nil, pure, Except.pure]

theorem commit_core {s : State} {c : Fin 8} {e : Eff} (h : s.tidy = true) (hm : (s.core c.val).moves = []) (hw : e.writes = [])
    (hmv : e.move = none) (p : Prefix) (slot : Nat) (sat : Bool) :
    (commit ⟨.core c, p, slot, sat⟩ e).run s = .ok ((), committed c e s) := by
  have hc := ((tidy_iff s).1 h).cores
  have hf : flushMoves (.core c) slot [] s = s := flushMoves_of_none (.core c) _ _ h hm
  unfold commit
  rw [hw, hmv]
  refine (bind_ok (modify_ok hf)).trans ((bind_ok (dWrites_core_nil c p slot sat s)).trans (modify_ok ?_))
  simp only [putDelayed, putRegs, noteSat, State.core_setCore_self c.val _ hc, State.setCore_core_twice c.val _ _ hc, delayedOf,
    regsOf, Agent.isLane, committed]

/-- One run of an instruction on a core commits what its body gives. -/
theorem runOnce_core {s s' : State} {c : Fin 8} {p : Prefix} {body : Cx → Regs → Hv Eff} {e : Eff}
    (hb : (body (coreCx s c p) (s.core c.val).regs).run s = .ok (e, s')) (h : s'.tidy = true) (hm : (s'.core c.val).moves = [])
    (hw : e.writes = []) (hmv : e.move = none) : (runOnce (coreCx s c p) 1 body).run s = .ok (e, committed c e s') :=
  (bind_ok (t := s) rfl).trans ((bind_ok hb).trans ((bind_ok (t := s') rfl).trans
    (bind_ok (commit_core h hm hw hmv p (s.core c.val).count (saturates (.core c) p (s.core c.val).regs)))))

theorem runOnce_core_error {s s' : State} {c : Fin 8} {p : Prefix} {r : Nat} {body : Cx → Regs → Hv Eff}
    (hb : (body (coreCx s c p) (s.core c.val).regs).run s = .error (r, s')) :
    (runOnce (coreCx s c p) 1 body).run s = .error (r, s') :=
  (bind_ok (t := s) rfl).trans (bind_error hb)

/-- An instruction without REP is one repetition. -/
theorem runCore_once {c : Fin 8} {p : Prefix} (hp : p.rep = none) (len : Nat) (body : Cx → Regs → Hv Eff) (s : State) :
    runCore c p len body s =
      match (runOnce (coreCx s c p) 1 body).run s with
      | .ok (e, t) =>
        if e.dz && (t.core c.val).regs.f.getLsbD 9 then
          enterVector c.val 4 0 len 0 ((coreFinish c len { e with xfer := true } t).core c.val).regs.pc
            (coreFinish c len { e with xfer := true } t)
        else coreFinish c len e t
      | .error (r, t) => if r = 0 then s else coreTrap c 3 r len 0 t := by
  have hx : (⟨.core c, p, (s.core c.val).count + 0, saturates (.core c) p (s.core c.val).regs⟩ : Cx) = coreCx s c p := rfl
  simp only [runCore, hp, coreReps, hx]
  cases (runOnce (coreCx s c p) 1 body).run s with
  | error x => rfl
  | ok x =>
    obtain ⟨⟨writes, upd, fl, load, move, dest, xfer, dz⟩, t⟩ := x
    cases dz
    · simp only [Bool.false_and, Bool.false_eq_true, if_false, if_true]
    · cases hf : (t.core c.val).regs.f.getLsbD 9
      · simp only [hf, Bool.or_false, Bool.and_false, Option.isNone_none, Bool.and_self, if_true, Bool.false_eq_true, if_false]
      · simp only [hf, Bool.or_true, Option.isSome_none, Option.isNone_none, Bool.and_self, if_true, Bool.false_eq_true, if_false]

theorem exec_operandFault {i : Instr} {c : Fin 8} {p : Prefix} {o : Operand} {r : Nat} {s s' : State}
    (hi : readOp i = some (.core c, p, o)) (ht : CoreTakes s c p (shapeD (.core c) p true true true o))
    (ho : (operand (coreCx s c p) (s.core c.val).regs o).run s = .error (r, s')) :
    exec i s = .next (if r = 0 then s
      else coreTrap c 3 r (decodedLen p (shapeD (.core c) p true true true o)) 0 s') := by
  obtain ⟨cost, body, hb, he⟩ := exec_readOp hi
  have hp : p.rep = none := ht.2.2.2.1
  rw [he, runInstr_core ht, runCore_once hp, runOnce_core_error (hb (coreCx s c p) _ s _ rfl ho)]

/-! ## A division by zero (R101) -/

theorem getLsbD_putF (f : BitVec 16) {k i : Nat} (b : Bool) (h : i ≠ k) : (putF f k b).getLsbD i = f.getLsbD i := by
  have hk : (BitVec.ofNat 16 (2 ^ k)).getLsbD i = false := by
    rw [BitVec.getLsbD_ofNat, Nat.testBit_two_pow_of_ne (Ne.symm h), Bool.and_false]
  unfold putF
  split
  · rw [BitVec.getLsbD_or, hk, Bool.or_false]
  · rw [BitVec.getLsbD_and, BitVec.getLsbD_not, hk]
    by_cases hi : i < 16
    · simp [hi]
    · simp [BitVec.getLsbD_of_ge f i (by omega)]

theorem getLsbD_putOpt (f : BitVec 16) {k i : Nat} (b : Option Bool) (h : i ≠ k) : (putOpt f k b).getLsbD i = f.getLsbD i := by
  cases b with
  | none => rfl
  | some b => exact getLsbD_putF f b h

/-- No instruction's flags are the trap enable (R66). -/
theorem trapEnable_apply (x : FlagSet) (f : BitVec 16) : (x.apply f).getLsbD 9 = f.getLsbD 9 := by
  have hput : (putOpt (putOpt (putOpt (putOpt f 0 x.z) 1 x.n) 2 x.c) 3 x.v).getLsbD 9 = f.getLsbD 9 := by
    rw [getLsbD_putOpt _ _ (by omega), getLsbD_putOpt _ _ (by omega), getLsbD_putOpt _ _ (by omega), getLsbD_putOpt _ _ (by omega)]
  unfold FlagSet.apply
  cases x.dz <;> cases x.sv <;> simp only [Bool.false_eq_true, if_false, if_true]
  · exact hput
  · exact (getLsbD_putF _ _ (by omega)).trans hput
  · exact (getLsbD_putF _ _ (by omega)).trans hput
  · exact (getLsbD_putF _ _ (by omega)).trans ((getLsbD_putF _ _ (by omega)).trans hput)

/-- Post-modification steps an index register and nothing else. -/
theorem postMod_f (r : Regs) (o : Operand) (t : Regs) : (postMod r o t).f = t.f := by
  unfold postMod
  split <;> rfl

theorem postMod_pc (r : Regs) (o : Operand) (t : Regs) : (postMod r o t).pc = t.pc := by
  unfold postMod
  split <;> rfl

theorem landUnder_none (lane : Bool) (fl : FlagSet) (r : Regs) : landUnder lane fl none r = r := by
  unfold landUnder landLoad
  dsimp only
  split <;> rfl

/-- What DIV by `w` gives (R101). -/
def divEff (o : Operand) (sat : Bool) (r : Regs) (w : Word) (ov : Bool) : Eff :=
  { upd := fun t => { postMod r o t with a := extAcc (aluDiv sat (accH r.a) w).1 }, fl := (aluDiv sat (accH r.a) w).2.withRead ov
    dz := w == 0 }

theorem divBody_run {o : Operand} {cx : Cx} {r : Regs} {s s' : State} {w : Word} {ov : Bool}
    (h : (operand cx r o).run s = .ok ((w, ov), s')) : (divBody o cx r).run s = .ok (divEff o cx.sat r w ov, s') :=
  (bind_ok h).trans rfl

/-- The core after an instruction of `len` bytes that gave `e`, where no load was owed and no loop end may act. -/
def finished (c : Fin 8) (len : Nat) (e : Eff) (s : State) : Core :=
  let x := s.core c.val
  { x with
    regs := { e.upd x.regs with f := e.fl.apply (e.upd x.regs).f, pc := (e.upd x.regs).pc + BitVec.ofNat 20 len }
    delayed := e.load, count := x.count + 256, noIrq := e.load.isSome || e.move.isSome }

theorem coreFinish_committed {s : State} {c : Fin 8} (len : Nat) {e : Eff} (h : s.tidy = true) (hd : (s.core c.val).delayed = none)
    (he : e.dest = none) : coreFinish c len { e with xfer := true } (committed c e s) = s.setCore c.val (finished c len e s) := by
  have hc := ((tidy_iff s).1 h).cores
  simp only [coreFinish, committed, he, hd, landUnder_none, Bool.true_or, if_true, State.core_setCore_self c.val _ hc,
    State.setCore_core_twice c.val _ _ hc, finished]

theorem sameEntry_finished {s : State} (c : Fin 8) (len : Nat) (e : Eff) (h : s.tidy = true) :
    SameEntry s (s.setCore c.val (finished c len e s)) c := by
  refine ⟨tidy_setCore _ _ h, rfl, ?_⟩
  rw [State.core_setCore_self c.val _ ((tidy_iff s).1 h).cores]
  exact ⟨rfl, rfl⟩

/-- DIV by zero under the trap enable takes vector 4 from the state after its result. -/
theorem exec_divByZero {s s' : State} {c : Fin 8} {p : Prefix} {o : Operand} {ov : Bool}
    (ht : CoreTakes s c p (shapeD (.core c) p true true true o))
    (ho : (operand (coreCx s c p) (s.core c.val).regs o).run s = .ok ((0, ov), s')) (hs : SameCore s s' c)
    (hd : (s.core c.val).delayed = none) (hf : (s.core c.val).regs.f.getLsbD 9 = true) :
    let len := decodedLen p (shapeD (.core c) p true true true o)
    let t := s'.setCore c.val (finished c len (divEff o (coreCx s c p).sat (s.core c.val).regs 0 ov) s')
    exec (.div (.core c) p o) s = .next (enterVector c.val 4 0 len 0 (t.core c.val).regs.pc t) := by
  obtain ⟨htidy, hregs, hdel, hmv, -, -⟩ := hs
  have hp : p.rep = none := ht.2.2.2.1
  have hrun := runOnce_core (divBody_run ho) htidy hmv rfl rfl
  have hbit : ((committed c (divEff o (coreCx s c p).sat (s.core c.val).regs 0 ov) s').core c.val).regs.f.getLsbD 9 = true := by
    rw [committed, State.core_setCore_self c.val _ ((tidy_iff s').1 htidy).cores]
    simp only [trapEnable_apply, hdel, hd, landUnder_none, divEff, postMod_f, hregs, hf]
  have hfin := coreFinish_committed (decodedLen p (shapeD (.core c) p true true true o))
    (e := divEff o (coreCx s c p).sat (s.core c.val).regs 0 ov) htidy (hdel.trans hd) rfl
  show runInstr (.core c) p _ 17 (divBody o) s = _
  rw [runInstr_core ht, runCore_once hp, hrun]
  dsimp only
  rw [if_pos (by rw [hbit]; rfl), hfin]

theorem does_operandFault {i : Instr} {c : Fin 8} {p : Prefix} {o : Operand} {r : Nat} {s s' : State}
    (hi : readOp i = some (.core c, p, o)) (ht : CoreTakes s c p (shapeD (.core c) p true true true o))
    (ho : (operand (coreCx s c p) (s.core c.val).regs o).run s = .error (r, s')) (hd : (s.core c.val).delayed = none) (hr : r ≠ 0)
    (hs : SameCore s s' c) (hv : VectorOpen s' c 3) :
    Does i s fun t =>
      TookVector s' t c 3 r (decodedLen p (shapeD (.core c) p true true true o)) 0 (s.core c.val).regs.pc (s.core c.val).regs.f ∧
      (t.core c.val).regs.a = (s.core c.val).regs.a ∧ (t.core c.val).regs.x = (s.core c.val).regs.x ∧ t.mem = s'.mem := by
  obtain ⟨htidy, hregs, hdel, hmv, -, -⟩ := hs
  refine ⟨_, exec_operandFault hi ht ho, ?_⟩
  rw [if_neg hr, coreTrap_of_none c _ _ _ _ htidy hmv (hdel.trans hd), ← hregs]
  refine ⟨tookVector_enterVector hv _ _ _ _, ?_, ?_, mem_enterVector hv _ _ _ _⟩
  · rw [core_enterVector hv]
    rfl
  · rw [core_enterVector hv]
    rfl

theorem does_divByZero {s s' : State} {c : Fin 8} {p : Prefix} {o : Operand} {ov : Bool}
    (ht : CoreTakes s c p (shapeD (.core c) p true true true o))
    (ho : (operand (coreCx s c p) (s.core c.val).regs o).run s = .ok ((0, ov), s')) (hs : SameCore s s' c)
    (hd : (s.core c.val).delayed = none) (hf : (s.core c.val).regs.f.getLsbD 9 = true) (hv : VectorOpen s' c 4) :
    let len := decodedLen p (shapeD (.core c) p true true true o)
    let x := s.core c.val
    let r := aluDiv (coreCx s c p).sat (accH x.regs.a) 0
    Does (.div (.core c) p o) s fun t =>
      TookVector s' t c 4 0 len 0 (x.regs.pc + BitVec.ofNat 20 len) ((r.2.withRead ov).apply x.regs.f) ∧
      (t.core c.val).regs.a = extAcc r.1 ∧ t.mem = s'.mem := by
  intro len x r
  have hself := State.core_setCore_self c.val (finished c len (divEff o (coreCx s c p).sat x.regs 0 ov) s') ((tidy_iff s').1 hs.1).cores
  have he := sameEntry_finished c len (divEff o (coreCx s c p).sat x.regs 0 ov) hs.1
  have hpc : (finished c len (divEff o (coreCx s c p).sat x.regs 0 ov) s').regs.pc = x.regs.pc + BitVec.ofNat 20 len := by
    simp only [finished, divEff, postMod_pc, hs.2.1, x]
  have hfl : (finished c len (divEff o (coreCx s c p).sat x.regs 0 ov) s').regs.f = (r.2.withRead ov).apply x.regs.f := by
    simp only [finished, divEff, postMod_f, hs.2.1, x, r]
  refine ⟨_, exec_divByZero ht ho hs hd hf, ?_, ?_, mem_enterVector (he.vectorOpen hv) _ _ _ _⟩
  · have htook := he.took (tookVector_enterVector (he.vectorOpen hv) 0 len 0 (x.regs.pc + BitVec.ofNat 20 len))
    rw [hself, hfl] at htook
    rw [hself, hpc]
    exact htook
  · rw [core_enterVector (he.vectorOpen hv), entered, hself]
    rfl

theorem undefinedFormsAndFaults : UndefinedFormsAndFaults :=
  ⟨fun _ _ _ _ _ s hi h => exec_of_undefinedForm hi h s,
    fun _ _ _ _ _ _ _ hi ht ho hd =>
      ⟨fun hr => by rw [exec_operandFault hi ht ho, if_pos hr], fun hr hs hv => does_operandFault hi ht ho hd hr hs hv⟩,
    fun _ _ _ _ _ _ ht ho hs hd hf hv => does_divByZero ht ho hs hd hf hv⟩

/-- Settles O36: each clause from the state that its instruction leaves. -/
theorem trapsAndFaults : Obligations.TrapsAndFaults := ⟨trapsAndInterrupts, undefinedFormsAndFaults⟩

end Sys2Proof.Machine
end

section
/-! Every step answers a next state and takes from the queue its front alone. -/

namespace Sys2Proof.Machine
open Sys2Proof

/-! ## What the pieces of a meaning do to the queue

The rules for the state's own updates go before the laws of the same content that hold by `rfl`: a rewrite by `rfl` leaves it to
the kernel to compare whole states. -/

@[simp high] theorem pending_wr (s : State) (r : Reg) (v : Nat) : (s.wr r v).pending = s.pending := by cases s; rfl
@[simp high] theorem pending_setLane (s : State) (n : Nat) (l : Lane) : (s.setLane n l).pending = s.pending := by cases s; rfl
@[simp high] theorem pending_setCore (s : State) (c : Nat) (x : Core) : (s.setCore c x).pending = s.pending := by cases s; rfl
@[simp high] theorem pending_setInchan (s : State) (c : Nat) (x : InChan) : (s.setInchan c x).pending = s.pending := by cases s; rfl
@[simp high] theorem pending_setOutchan (s : State) (c : Nat) (x : OutChan) : (s.setOutchan c x).pending = s.pending := by
  cases s; rfl
@[simp high] theorem pending_setPort (s : State) (g : Nat) (x : Port) : (s.setPort g x).pending = s.pending := by cases s; rfl
@[simp high] theorem pending_setNode (s : State) (i : Nat) (x : Node) : (s.setNode i x).pending = s.pending := by cases s; rfl
@[simp high] theorem pending_setEdge (s : State) (e : Nat) (x : Edge) : (s.setEdge e x).pending = s.pending := by cases s; rfl
@[simp high] theorem pending_setRing (s : State) (r : Nat) (x : RingPair) : (s.setRing r x).pending = s.pending := by cases s; rfl
@[simp high] theorem pending_setPath (s : State) (q : Nat) (x : ConvPath) : (s.setPath q x).pending = s.pending := by cases s; rfl
@[simp high] theorem pending_setConv (s : State) (v : Nat) (x : Converter) : (s.setConv v x).pending = s.pending := by cases s; rfl
@[simp high] theorem pending_setPan (s : State) (g : Nat) (x : PanGroup) : (s.setPan g x).pending = s.pending := by cases s; rfl
@[simp high] theorem pending_setDma (s : State) (ch : Nat) (x : DmaChan) : (s.setDma ch x).pending = s.pending := by cases s; rfl
@[simp high] theorem pending_setMemWord (s : State) (a : Nat) (w : Word) : (s.setMemWord a w).pending = s.pending := by cases s; rfl

@[simp] theorem pending_ite (c : Prop) [Decidable c] (s t : State) :
    (if c then s else t).pending = if c then s.pending else t.pending := apply_ite State.pending c s t

@[simp] theorem fst_ite {α : Type} (c : Prop) [Decidable c] (x y : State × α) :
    (if c then x else y).1 = if c then x.1 else y.1 := apply_ite Prod.fst c x y

@[simp] theorem snd_ite {α : Type} (c : Prop) [Decidable c] (x y : α × State) :
    (if c then x else y).2 = if c then x.2 else y.2 := apply_ite Prod.snd c x y

/-- A change that leaves the queue as it is. -/
def KeepsQueue (f : State → State) : Prop := ∀ s, (f s).pending = s.pending

@[simp] theorem keepsQueue_iff (f : State → State) : KeepsQueue f ↔ ∀ s, (f s).pending = s.pending := Iff.rfl

@[simp] theorem pending_forList {α : Type} (l : List α) (f : α → State → State) (s : State) (h : ∀ x, KeepsQueue (f x)) :
    (forList l f s).pending = s.pending :=
  forList_keep (fun t => t.pending = s.pending) l f (fun x _ t ht => (h x t).trans ht) s rfl

@[simp] theorem pending_forUpto (n : Nat) (f : Nat → State → State) (s : State) (h : ∀ k, KeepsQueue (f k)) :
    (forUpto n f s).pending = s.pending :=
  pending_forList (List.range n) f s h

/-- A command goes on, and leaves the queue as it is. -/
def GoesOn (s : State) (o : Host.Outcome State Fault Refusal) : Prop := ∃ t, o = .next t ∧ t.pending = s.pending

@[simp] theorem goesOn_next (s t : State) : GoesOn s (.next t) ↔ t.pending = s.pending :=
  ⟨fun ⟨_, h, e⟩ => by cases h; exact e, fun h => ⟨t, rfl, h⟩⟩

@[simp] theorem goesOn_clocked (f : State → State) (s : State) (h : KeepsQueue f) : GoesOn s (clocked f s) := by
  unfold clocked
  rw [goesOn_next]
  split
  · exact h s
  · rfl

@[simp] theorem goesOn_ite (c : Prop) [Decidable c] (s : State) (a b : Host.Outcome State Fault Refusal) :
    GoesOn s (if c then a else b) ↔ if c then GoesOn s a else GoesOn s b := by
  split <;> rfl


/-- What each step of a fold keeps, the whole fold keeps. -/
theorem pending_foldl {α β : Type} (q : β → State) (f : β → α → β) (h : ∀ b x, (q (f b x)).pending = (q b).pending)
    (l : List α) (b : β) : (q (l.foldl f b)).pending = (q b).pending := by
  induction l generalizing b with
  | nil => rfl
  | cons x l ih => exact (ih (f b x)).trans (h b x)

/-- The state a computation of an instruction leaves, fault or not. -/
def leftBy {α : Type} : Except (Nat × State) (α × State) → State
  | .ok (_, t) => t
  | .error (_, t) => t

@[simp] theorem leftBy_ok {α : Type} (x : α × State) : leftBy (.ok x) = x.2 := rfl
@[simp] theorem leftBy_error {α : Type} (x : Nat × State) : leftBy (.error x : Except (Nat × State) (α × State)) = x.2 := rfl

/-- A computation of an instruction that leaves the queue as it is, fault or not. -/
def KeepsHv {α : Type} (m : Hv α) : Prop := ∀ s, (leftBy (m s)).pending = s.pending

@[simp] theorem keepsHv_pure {α : Type} (a : α) : KeepsHv (pure a : Hv α) := fun _ => rfl
@[simp] theorem keepsHv_get : KeepsHv (get : Hv State) := fun _ => rfl

@[simp] theorem keepsHv_bind {α β : Type} (m : Hv α) (k : α → Hv β) (hm : KeepsHv m) (hk : ∀ a, KeepsHv (k a)) :
    KeepsHv (m >>= k) := by
  intro s
  have h := hm s
  change (leftBy (Except.bind (m s) fun x => k x.1 x.2)).pending = s.pending
  cases e : m s with
  | error x => rwa [e] at h
  | ok x =>
    rw [e] at h
    exact (hk x.1 x.2).trans h

@[simp] theorem keepsHv_map {α β : Type} (f : α → β) (m : Hv α) (hm : KeepsHv m) : KeepsHv (f <$> m) := by
  intro s
  have h := hm s
  change (leftBy (Except.bind (m s) fun x => Except.ok (f x.1, x.2))).pending = s.pending
  cases e : m s with
  | error x => rwa [e] at h
  | ok x => rwa [e] at h

@[simp] theorem keepsHv_modify (f : State → State) (h : KeepsQueue f) : KeepsHv (modify f) := h

@[simp] theorem keepsHv_modifyGet {α : Type} (f : State → α × State) (h : ∀ s, (f s).2.pending = s.pending) :
    KeepsHv (modifyGet f : Hv α) := h

@[simp] theorem keepsHv_ite {α : Type} (c : Prop) [Decidable c] (m n : Hv α) :
    KeepsHv (if c then m else n) ↔ if c then KeepsHv m else KeepsHv n := by
  split <;> rfl

/-- What a computation leaves when it is run, by how it ended. -/
theorem KeepsHv.ok {α : Type} {m : Hv α} (h : KeepsHv m) {s : State} {x : α × State} (e : m.run s = .ok x) :
    x.2.pending = s.pending := by
  have := h s
  rwa [show m s = .ok x from e] at this

theorem KeepsHv.error {α : Type} {m : Hv α} (h : KeepsHv m) {s : State} {x : Nat × State} (e : m.run s = .error x) :
    x.2.pending = s.pending := by
  have := h s
  rwa [show m s = .error x from e] at this

/-! ## The queue under the functions of each file of the model -/

/-! ### Ops -/

@[simp] theorem pending_inc (s : State) (r : Reg) : (State.inc s r).pending = s.pending := by simp [State.inc]
@[simp] theorem pending_incBy (s : State) (r : Reg) (n : Nat) : (State.incBy s r n).pending = s.pending := by simp [State.incBy]
@[simp] theorem pending_inc64 (s : State) (r : Reg) : (State.inc64 s r).pending = s.pending := by simp [State.inc64]
@[simp] theorem pending_incMax (s : State) (r : Reg) : (State.incMax s r).pending = s.pending := by simp [State.incMax]

@[simp] theorem pending_setBit (s : State) (r : Reg) (k : Nat) : (State.setBit s r k).pending = s.pending := by
  simp [State.setBit]

@[simp] theorem pending_clrBit (s : State) (r : Reg) (k : Nat) : (State.clrBit s r k).pending = s.pending := by
  simp [State.clrBit]

@[simp] theorem pending_putBit (s : State) (r : Reg) (k : Nat) (b : Bool) : (State.putBit s r k b).pending = s.pending := by
  simp [State.putBit]

@[simp] theorem pending_takeFresh (s : State) : (State.takeFresh s).2.pending = s.pending := by simp [State.takeFresh]
@[simp] theorem pending_ulIrq (k : Nat) (s : State) : (ulIrq k s).pending = s.pending := by simp [ulIrq]
@[simp] theorem pending_pendCore (c k : Nat) (s : State) : (pendCore c k s).pending = s.pending := by simp [pendCore]
@[simp] theorem pending_pendAll (k : Nat) (s : State) : (pendAll k s).pending = s.pending := by simp [pendAll]

@[simp] theorem pending_bumpRepeat (hit : FaultRec → Bool) (s : State) : (bumpRepeat hit s).pending = s.pending := by
  unfold bumpRepeat
  dsimp only
  split <;> simp

@[simp] theorem pending_repeatFault (code unit info : Nat) (s : State) : (repeatFault code unit info s).pending = s.pending := by
  simp [repeatFault]

@[simp] theorem pending_logFault (code unit info extra : Nat) (s : State) :
    (logFault code unit info extra s).pending = s.pending := by
  unfold logFault
  split <;> simp

@[simp] theorem pending_queueEmcy (err code detail : Nat) (s : State) : (queueEmcy err code detail s).pending = s.pending := by
  simp [queueEmcy]

@[simp] theorem pending_raise (code unit info extra : Nat) (s : State) : (raise code unit info extra s).pending = s.pending := by
  simp [raise]

@[simp] theorem pending_raiseOnce (key code unit info extra : Nat) (s : State) :
    (raiseOnce key code unit info extra s).pending = s.pending := by
  simp [raiseOnce]

@[simp] theorem pending_raiseSticky (r : Reg) (bit code unit info extra : Nat) (s : State) :
    (raiseSticky r bit code unit info extra s).pending = s.pending := by
  simp [raiseSticky]

@[simp] theorem pending_errCleared (before s : State) : (errCleared before s).pending = s.pending := by simp [errCleared]
@[simp] theorem pending_clearActive (p : Nat → Bool) (s : State) : (clearActive p s).pending = s.pending := by simp [clearActive]

@[simp] theorem pending_clearSticky (base bits : Nat) (regs clear : List Reg) (s : State) :
    (clearSticky base bits regs clear s).pending = s.pending := by
  simp [clearSticky]

@[simp] theorem pending_zeroRegs (rs : List Reg) (s : State) : (zeroRegs rs s).pending = s.pending := by simp [zeroRegs]
@[simp] theorem pending_queueTpdo16 (r : Record) (s : State) : (queueTpdo16 r s).pending = s.pending := by simp [queueTpdo16]

@[simp] theorem pending_postRecord (status handle detail : Nat) (slate : Slate) (s : State) :
    (postRecord status handle detail slate s).pending = s.pending := by
  simp [postRecord]

@[simp] theorem pending_postNotice (detail : Nat) (s : State) : (postNotice detail s).pending = s.pending := by simp [postNotice]

@[simp] theorem pending_issueHandle (op : Op) (p : Nat) (s : State) (status detail : Nat) :
    (issueHandle op p s status detail).2.pending = s.pending := by
  simp [issueHandle]

@[simp] theorem pending_printTest (h : Handle) (status detail : Nat) (slate : Slate) (s : State) :
    (printTest h status detail slate s).pending = s.pending := by
  unfold printTest
  split <;> simp

@[simp] theorem pending_completeHandle (h : Handle) (status detail : Nat) (slate : Slate) (s : State) :
    (completeHandle h status detail slate s).pending = s.pending := by
  simp [completeHandle]

@[simp] theorem pending_canSend (m : CanMsg) (s : State) : (canSend m s).pending = s.pending := by simp [canSend]

/-! ### Dataflow -/

@[simp] theorem pending_schFault (k what number extra : Nat) (s : State) :
    (schFault k what number extra s).pending = s.pending := by
  simp [schFault]

@[simp] theorem pending_takePos (e p : Nat) (s : State) : (takePos e p s).pending = s.pending := by simp [takePos]
@[simp] theorem pending_dropPos (e p : Nat) (s : State) : (dropPos e p s).pending = s.pending := by simp [dropPos]
@[simp] theorem pending_addToken (e : Nat) (t : Token) (s : State) : (addToken e t s).pending = s.pending := by simp [addToken]

@[simp] theorem pending_removeToken (e m : Nat) (p : Option Nat) (s : State) : (removeToken e m p s).pending = s.pending := by
  simp [removeToken]

@[simp] theorem pending_reserveOut (e : Nat) (c : Nat × Bool) (s : State) : (reserveOut e c s).pending = s.pending := by
  unfold reserveOut
  dsimp only
  split <;> simp

@[simp] theorem pending_reserveIn (e : Nat) (t : Token) (s : State) : (reserveIn e t s).pending = s.pending := by
  simp [reserveIn]

@[simp] theorem pending_makeReady (slot index : Nat) (toks : List Token) (creds : List (Nat × Bool)) (ops : List Word)
    (s : State) :
    (makeReady slot index toks creds ops s).pending = s.pending := by
  simp [makeReady]

@[simp] theorem pending_tryReady (slot : Nat) (s : State) : (tryReady slot s).pending = s.pending := by
  unfold tryReady
  dsimp only
  repeat' split
  all_goals simp

@[simp] theorem pending_readyScan (s : State) : (readyScan s).pending = s.pending := by simp [readyScan]

@[simp] theorem pending_postToken (e : Nat) (t : Token) (s : State) : (postToken e t s).pending = s.pending := by
  simp [postToken]

@[simp] theorem pending_countLate (r : Nat) (s : State) : (countLate r s).pending = s.pending := by simp [countLate]
@[simp] theorem pending_postDropped (r m : Nat) (s : State) : (postDropped r m s).pending = s.pending := by simp [postDropped]
@[simp] theorem pending_openBlock (r m : Nat) (s : State) : (openBlock r m s).pending = s.pending := by simp [openBlock]
@[simp] theorem pending_closeBlock (r : Nat) (s : State) : (closeBlock r s).pending = s.pending := by simp [closeBlock]

@[simp] theorem pending_sendWrite (r off : Nat) (s : State) : (sendWrite r off s).2.2.pending = s.pending := by
  unfold sendWrite
  dsimp only
  repeat' split
  all_goals simp

@[simp] theorem pending_returnLatch (r off : Nat) (s : State) : (returnLatch r off s).pending = s.pending := by
  unfold returnLatch
  dsimp only
  split <;> simp

@[simp] theorem pending_releaseReturn (r p : Nat) (s : State) : (releaseReturn r p s).pending = s.pending := by
  unfold releaseReturn
  dsimp only
  split <;> simp

@[simp] theorem pending_returnRead (r off : Nat) (w : Word) (s : State) : (returnRead r off w s).2.pending = s.pending := by
  unfold returnRead
  dsimp only
  repeat' split
  all_goals simp

@[simp] theorem pending_freeInputs (f : Firing) (s : State) : (freeInputs f s).pending = s.pending := by
  unfold freeInputs
  refine pending_forList _ _ _ fun x t => ?_
  split <;> simp

@[simp] theorem pending_postOutputs (f : Firing) (late : Bool) (s : State) : (postOutputs f late s).pending = s.pending := by
  unfold postOutputs
  refine pending_forList _ _ _ fun x t => ?_
  dsimp only
  repeat' split
  all_goals simp

@[simp] theorem pending_freeOutputs (f : Firing) (s : State) : (freeOutputs f s).pending = s.pending := by
  unfold freeOutputs
  refine pending_forList _ _ _ fun x t => ?_
  dsimp only
  repeat' split
  all_goals simp

@[simp] theorem pending_unbindNode (slot : Nat) (s : State) : (unbindNode slot s).pending = s.pending := by simp [unbindNode]
@[simp] theorem pending_retireEdge (e : Nat) (s : State) : (retireEdge e s).pending = s.pending := by simp [retireEdge]
@[simp] theorem pending_nodeOff (slot : Nat) (s : State) : (nodeOff slot s).pending = s.pending := by simp [nodeOff]

@[simp] theorem pending_startStaged (holder : Nat) (s : State) : (startStaged holder s).pending = s.pending := by
  unfold startStaged
  dsimp only
  split <;> simp

@[simp] theorem pending_completeFiring (f : Firing) (status : Nat) (late : Bool) (s : State) :
    (completeFiring f status late s).pending = s.pending := by
  simp [completeFiring]

@[simp] theorem pending_refreshVoid (f : Firing) (s : State) : (refreshVoid f s).2.pending = s.pending := by
  unfold refreshVoid
  dsimp only
  split
  · rfl
  · rw [pending_ite, State.inc, State.wr_pending, ite_self]
    refine pending_forList _ _ _ fun x t => ?_
    split <;> simp

@[simp] theorem pending_rerunFiring (f : Firing) (s : State) : (rerunFiring f s).pending = s.pending := by simp [rerunFiring]

/-! ### Fabric -/

@[simp] theorem pending_fabReport (code unit info a : Nat) (s : State) : (fabReport code unit info a s).pending = s.pending := by
  unfold fabReport
  split <;> simp

@[simp] theorem pending_noteReads (unit : Nat) (rs : List (Nat × Nat)) (s : State) :
    (noteReads unit rs s).pending = s.pending := by
  simp [noteReads]

@[simp] theorem pending_panPut (a : Nat) (w : Word) (lane : Option Nat) (group slot : Nat) (s : State) :
    (panPut a w lane group slot s).pending = s.pending := by
  simp [panPut]

@[simp] theorem pending_panClash (e : PanAcc) (s : State) : (panClash e s).pending = s.pending := by simp [panClash]
@[simp] theorem pending_sameCycle (s : State) : (sameCycle s).2.pending = s.pending := by simp [sameCycle]

@[simp] theorem pending_panStore (a : Nat) (w : Word) (s : State) : (panStore a w s).pending = s.pending := by
  unfold panStore
  split <;> simp

@[simp] theorem pending_streamStore (g a : Nat) (w : Word) (s : State) : (streamStore g a w s).pending = s.pending := by
  unfold streamStore
  dsimp only
  repeat' split
  all_goals simp

@[simp] theorem pending_panStoreBytes (a : Nat) (bytes : List Byte) (s : State) :
    (panStoreBytes a bytes s).pending = s.pending := by
  simp [panStoreBytes]

@[simp] theorem pending_noteShadowWrite (n off : Nat) (s : State) : (noteShadowWrite n off s).pending = s.pending := by
  unfold noteShadowWrite
  dsimp only
  split <;> simp

@[simp] theorem pending_fabWrite (unit : Nat) (ws : List (Nat × Word)) (s : State) :
    (fabWrite unit ws s).pending = s.pending := by
  unfold fabWrite
  refine pending_forList _ _ _ fun x t => ?_
  repeat' split
  all_goals simp

@[simp] theorem pending_hostReport (code a : Nat) (s : State) : (hostReport code a s).pending = s.pending := by simp [hostReport]

@[simp] theorem pending_hostStore (ws : List (Nat × Word)) (s : State) : (hostStore ws s).1.pending = s.pending := by
  simp only [hostStore, pending_fabWrite]
  refine pending_foldl Prod.fst _ (fun b x => ?_) ws (s, 0)
  split <;> simp

@[simp] theorem pending_landAccesses (n : Nat) (w : LinkWrite) (s : State) : (landAccesses n w s).1.pending = s.pending := by
  unfold landAccesses
  refine pending_foldl Prod.fst _ (fun b ws => ?_) _ _
  exact pending_hostStore ws b.1

/-! ### Lanes -/

@[simp] theorem pending_laneFault (n bit slot : Nat) (s : State) : (laneFault n bit slot s).pending = s.pending := by
  unfold laneFault
  split <;> simp

@[simp] theorem pending_enterSafe (n : Nat) (s : State) : (enterSafe n s).pending = s.pending := by simp [enterSafe]

@[simp] theorem pending_safeRequest (byy n : Nat) (s : State) : (safeRequest byy n s).pending = s.pending := by
  simp [safeRequest]

@[simp] theorem pending_safeRelease (n : Nat) (s : State) : (safeRelease n s).pending = s.pending := by simp [safeRelease]

@[simp] theorem pending_laneEnable (n v : Nat) (s : State) : (laneEnable n v s).pending = s.pending := by
  unfold laneEnable
  dsimp only
  repeat' split
  all_goals simp

@[simp] theorem pending_putSplice (r : Splice) (s : State) : (putSplice r s).pending = s.pending := by simp [putSplice]

@[simp] theorem pending_settleSplice (id : Nat) (s : State) : (settleSplice id s).pending = s.pending := by
  unfold settleSplice
  dsimp only
  repeat' split
  all_goals simp

@[simp] theorem pending_stepGlides (n k : Nat) (s : State) : (stepGlides n k s).pending = s.pending := by simp [stepGlides]
@[simp] theorem pending_flipLane (n : Nat) (r : Splice) (s : State) : (flipLane n r s).pending = s.pending := by simp [flipLane]

@[simp] theorem pending_spliceTrigger (n : Nat) (missed : Bool) (s : State) : (spliceTrigger n missed s).pending = s.pending := by
  unfold spliceTrigger
  dsimp only
  split <;> simp

@[simp] theorem pending_removeFromSplice (n : Nat) (s : State) : (removeFromSplice n s).pending = s.pending := by
  unfold removeFromSplice
  dsimp only
  split <;> simp

@[simp] theorem pending_xchRead (n slot : Nat) (a : DAddr) (free : Bool) (s : State) :
    (xchRead n slot a free s).2.pending = s.pending := by
  simp [xchRead]

@[simp] theorem pending_xchPut (n cyc : Nat) (a : DAddr) (w : Word) (s : State) : (xchPut n cyc a w s).pending = s.pending := by
  simp [xchPut]

@[simp] theorem pending_xchYield (x : XchAcc) (s : State) : (xchYield x s).pending = s.pending := by simp [xchYield]

@[simp] theorem pending_xchWrite (n slot : Nat) (a : DAddr) (w : Word) (free : Bool) (s : State) :
    (xchWrite n slot a w free s).pending = s.pending := by
  simp [xchWrite]

@[simp] theorem pending_laneRead (n slot : Nat) (a : DAddr) (free : Bool) (s : State) :
    (laneRead n slot a free s).2.pending = s.pending := by
  simp [laneRead]

@[simp] theorem pending_laneWrite (n slot : Nat) (a : DAddr) (w : Word) (free : Bool) (s : State) :
    (laneWrite n slot a w free s).pending = s.pending := by
  simp [laneWrite]

@[simp] theorem pending_farIssue (n slot : Nat) (write : Bool) (a : DAddr) (second : Option DAddr) (dest : Fin 32)
    (w : Word) (s : State) :
    (farIssue n slot write a second dest w s).pending = s.pending := by
  unfold farIssue
  dsimp only
  repeat' split
  all_goals simp

@[simp] theorem pending_lanePortPut (n slot a : Nat) (w : Word) (s : State) : (lanePortPut n slot a w s).pending = s.pending := by
  unfold lanePortPut
  split <;> simp

@[simp] theorem pending_farReadWord (n slot : Nat) (a : DAddr) (s : State) : (farReadWord n slot a s).2.pending = s.pending := by
  unfold farReadWord
  split <;> simp

@[simp] theorem pending_farWriteWord (n slot : Nat) (a : DAddr) (w : Word) (s : State) :
    (farWriteWord n slot a w s).2.pending = s.pending := by
  unfold farWriteWord
  split
  · simp
  · simp only [pending_ite, pending_lanePortPut, ite_self]
    refine pending_foldl (fun b : Bool × List Nat × State => b.2.2) _ (fun b x => ?_) _ (false, [], s)
    simp

@[simp] theorem pending_farPerform (n : Nat) (s : State) : (farPerform n s).2.pending = s.pending := by
  unfold farPerform
  dsimp only
  repeat' split
  all_goals simp

@[simp] theorem pending_farDeliver (n : Nat) (s : State) : (farDeliver n s).pending = s.pending := by
  unfold farDeliver
  dsimp only
  split <;> simp

@[simp] theorem pending_startTake (n : Nat) (s : State) : (startTake n s).pending = s.pending := by simp [startTake]
@[simp] theorem pending_laneTrigger (n : Nat) (s : State) : (laneTrigger n s).pending = s.pending := by simp [laneTrigger]

@[simp] theorem pending_triggerGroups (p : Nat → Bool) (s : State) : (triggerGroups p s).pending = s.pending := by
  simp [triggerGroups]

@[simp] theorem pending_triggerSource (src : Nat) (s : State) : (triggerSource src s).pending = s.pending := by
  simp [triggerSource]

@[simp] theorem pending_blockTicks (rs : List Nat) (s : State) : (blockTicks rs s).pending = s.pending := by simp [blockTicks]
@[simp] theorem pending_endBusy (n : Nat) (s : State) : (endBusy n s).pending = s.pending := by simp [endBusy]

@[simp] theorem pending_farCatchUp (n slot k : Nat) (s : State) : (farCatchUp n slot k s).pending = s.pending := by
  induction k generalizing s with
  | zero => rfl
  | succ k ih =>
    unfold farCatchUp
    dsimp only
    split
    · simp [ih]
    · split
      · split <;> simp [ih]
      · rfl

@[simp] theorem pending_farDue (n slot : Nat) (s : State) : (farDue n slot s).pending = s.pending := by simp [farDue]

/-! ### OutStage -/

@[simp] theorem pending_guardFault (unit op c : Nat) (s : State) : (guardFault unit op c s).pending = s.pending := by
  simp [guardFault]

@[simp] theorem pending_checkOperands (c : Nat) (s : State) : (checkOperands c s).pending = s.pending := by simp [checkOperands]
@[simp] theorem pending_takeLength (c : Nat) (s : State) : (takeLength c s).pending = s.pending := by simp [takeLength]

@[simp] theorem pending_serveChanges (c : Nat) (s : State) : (serveChanges c s).2.pending = s.pending := by
  unfold serveChanges
  dsimp only
  repeat' split
  all_goals simp

@[simp] theorem pending_switchTone (s : State) : (switchTone s).pending = s.pending := by
  unfold switchTone
  split <;> simp

@[simp] theorem pending_watchLevel (ch : Nat) (w : Word) (s : State) : (watchLevel ch w s).pending = s.pending := by
  simp [watchLevel]

@[simp] theorem pending_toneStep (zero : Bool) (s : State) : (toneStep zero s).pending = s.pending := by simp [toneStep]

@[simp] theorem pending_captureChannel (c : Nat) (s : State) : (captureChannel c s).pending = s.pending := by
  simp [captureChannel]

@[simp] theorem pending_writeOC (k : Nat) (w : Word) (s : State) : (writeOC k w s).pending = s.pending := by simp [writeOC]

@[simp] theorem pending_operandWritten (op : OutOperand) (c v : Nat) (s : State) :
    (operandWritten op c v s).pending = s.pending := by
  simp [operandWritten]

/-! ### PortIn -/

@[simp] theorem pending_convFault (code v : Nat) (s : State) : (convFault code v s).pending = s.pending := by simp [convFault]
@[simp] theorem pending_enterConvHold (v : Nat) (s : State) : (enterConvHold v s).pending = s.pending := by simp [enterConvHold]
@[simp] theorem pending_convGroupStop (g : Nat) (s : State) : (convGroupStop g s).pending = s.pending := by simp [convGroupStop]
@[simp] theorem pending_convRatioTest (v : Nat) (s : State) : (convRatioTest v s).pending = s.pending := by simp [convRatioTest]
@[simp] theorem pending_convGroupRun (g : Nat) (s : State) : (convGroupRun g s).pending = s.pending := by simp [convGroupRun]
@[simp] theorem pending_enterHoldover (s : State) : (enterHoldover s).pending = s.pending := by simp [enterHoldover]
@[simp] theorem pending_leaderStop (g : Nat) (s : State) : (leaderStop g s).pending = s.pending := by simp [leaderStop]
@[simp] theorem pending_portFault (k g : Nat) (s : State) : (portFault k g s).pending = s.pending := by simp [portFault]
@[simp] theorem pending_applyAll (g : Nat) (s : State) : (applyAll g s).pending = s.pending := by simp [applyAll]
@[simp] theorem pending_takeInLength (c : Nat) (s : State) : (takeInLength c s).pending = s.pending := by simp [takeInLength]

@[simp] theorem pending_putInput (c : Nat) (raw : Word) (s : State) : (putInput c raw s).pending = s.pending := by
  simp [putInput]

@[simp] theorem pending_startInBlock (g : Nat) (s : State) : (startInBlock g s).pending = s.pending := by simp [startInBlock]

@[simp] theorem pending_endInBlock (g : Nat) (hold : Bool) (s : State) : (endInBlock g hold s).pending = s.pending := by
  simp [endInBlock]

@[simp] theorem pending_inFrame (g : Nat) (stamp hold : Bool) (s : State) : (inFrame g stamp hold s).pending = s.pending := by
  simp [inFrame]

@[simp] theorem pending_outAdvance (g : Nat) (t : Token) (s : State) : (outAdvance g t s).pending = s.pending := by
  simp [outAdvance]

@[simp] theorem pending_outPlay (g i : Nat) (s : State) : (outPlay g i s).pending = s.pending := by simp [outPlay]
@[simp] theorem pending_outUnderrun (g : Nat) (s : State) : (outUnderrun g s).pending = s.pending := by simp [outUnderrun]

@[simp] theorem pending_outTest (g k : Nat) (s : State) : (outTest g k s).pending = s.pending := by
  induction k generalizing s with
  | zero => rfl
  | succ k ih =>
    unfold outTest
    split
    · simp
    · simp [ih]

@[simp] theorem pending_outFrame (g : Nat) (s : State) : (outFrame g s).pending = s.pending := by
  unfold outFrame
  split <;> simp

@[simp] theorem pending_holdStep (g : Nat) (s : State) : (holdStep g s).pending = s.pending := by simp [holdStep]
@[simp] theorem pending_holdFinish (g : Nat) (s : State) : (holdFinish g s).pending = s.pending := by simp [holdFinish]
@[simp] theorem pending_enterWait (g : Nat) (s : State) : (enterWait g s).pending = s.pending := by simp [enterWait]
@[simp] theorem pending_enterPreroll (g : Nat) (s : State) : (enterPreroll g s).pending = s.pending := by simp [enterPreroll]
@[simp] theorem pending_enterRun (g : Nat) (s : State) : (enterRun g s).pending = s.pending := by simp [enterRun]
@[simp] theorem pending_settleTest (g : Nat) (s : State) : (settleTest g s).pending = s.pending := by simp [settleTest]
@[simp] theorem pending_enterHold (g : Nat) (s : State) : (enterHold g s).pending = s.pending := by simp [enterHold]

@[simp] theorem pending_enterRelock (g : Nat) (report : Bool) (s : State) : (enterRelock g report s).pending = s.pending := by
  simp [enterRelock]

@[simp] theorem pending_enterOff (g : Nat) (s : State) : (enterOff g s).pending = s.pending := by simp [enterOff]

@[simp] theorem pending_startGlitchRun (g : Nat) (s : State) : (startGlitchRun g s).pending = s.pending := by
  simp [startGlitchRun]

@[simp] theorem pending_noteGlitch (g : Nat) (s : State) : (noteGlitch g s).pending = s.pending := by simp [noteGlitch]
@[simp] theorem pending_frameEnd (g d : Nat) (s : State) : (frameEnd g d s).pending = s.pending := by simp [frameEnd]

/-! ### Ports -/

@[simp] theorem pending_centreLoop (s : State) : (centreLoop s).pending = s.pending := by simp [centreLoop]
@[simp] theorem pending_steerStep (s : State) : (steerStep s).pending = s.pending := by simp [steerStep]
@[simp] theorem goesOn_execSteerUpdate (s : State) : GoesOn s (execSteerUpdate s) := by simp [execSteerUpdate]
@[simp] theorem pending_writeLeader (v : Nat) (s : State) : (writeLeader v s).pending = s.pending := by simp [writeLeader]
@[simp] theorem pending_countFrame (g : Nat) (s : State) : (countFrame g s).pending = s.pending := by simp [countFrame]

@[simp] theorem goesOn_execSharedClockCheck (g : Fin 6) (s : State) : GoesOn s (execSharedClockCheck g s) := by
  simp [execSharedClockCheck]

@[simp] theorem pending_frameStart (g : Nat) (s : State) : (frameStart g s).pending = s.pending := by simp [frameStart]

@[simp] theorem goesOn_execPortWsEdge (g : Fin 6) (rise : Bool) (edges : Nat) (s : State) :
    GoesOn s (execPortWsEdge g rise edges s) := by
  simp [execPortWsEdge]

@[simp] theorem goesOn_execInputWordLatch (g : Fin 6) (right : Bool) (words : List Word) (s : State) :
    GoesOn s (execInputWordLatch g right words s) := by
  simp [execInputWordLatch]

@[simp] theorem goesOn_execOutputCapture (g : Fin 6) (right : Bool) (s : State) : GoesOn s (execOutputCapture g right s) := by
  simp [execOutputCapture]

@[simp] theorem goesOn_execZcTimeout (c : Fin 96) (s : State) : GoesOn s (execZcTimeout c s) := by simp [execZcTimeout]
@[simp] theorem goesOn_execGlitchRunEnd (g : Fin 6) (s : State) : GoesOn s (execGlitchRunEnd g s) := by simp [execGlitchRunEnd]

@[simp] theorem goesOn_execWaitGoodFrames (g : Fin 6) (s : State) : GoesOn s (execWaitGoodFrames g s) := by
  simp [execWaitGoodFrames]

@[simp] theorem goesOn_execPrerollComplete (g : Fin 6) (s : State) : GoesOn s (execPrerollComplete g s) := by
  simp [execPrerollComplete]

@[simp] theorem goesOn_execClockStopDetected (g : Fin 6) (s : State) : GoesOn s (execClockStopDetected g s) := by
  simp [execClockStopDetected]

@[simp] theorem goesOn_execHoldFadeStep (g : Fin 6) (s : State) : GoesOn s (execHoldFadeStep g s) := by simp [execHoldFadeStep]

@[simp] theorem goesOn_execRateChangeDetected (g : Fin 6) (s : State) : GoesOn s (execRateChangeDetected g s) := by
  simp [execRateChangeDetected]

@[simp] theorem goesOn_execRelockMeasureComplete (g : Fin 6) (s : State) : GoesOn s (execRelockMeasureComplete g s) := by
  simp [execRelockMeasureComplete]

@[simp] theorem goesOn_execRelockComplete (g : Fin 6) (s : State) : GoesOn s (execRelockComplete g s) := by
  simp [execRelockComplete]

@[simp] theorem pending_fadeTowardOff (g : Nat) (s : State) : (fadeTowardOff g s).pending = s.pending := by simp [fadeTowardOff]
@[simp] theorem pending_startGroup (g : Nat) (s : State) : (startGroup g s).pending = s.pending := by simp [startGroup]

@[simp] theorem pending_writePortEnable (g v : Nat) (s : State) : (writePortEnable g v s).pending = s.pending := by
  simp [writePortEnable]

@[simp] theorem goesOn_execPortOffEntry (g : Fin 6) (s : State) : GoesOn s (execPortOffEntry g s) := by simp [execPortOffEntry]

@[simp] theorem pending_writePortTest (g v : Nat) (s : State) : (writePortTest g v s).pending = s.pending := by
  simp [writePortTest]

@[simp] theorem goesOn_execPortTestApply (g : Fin 6) (s : State) : GoesOn s (execPortTestApply g s) := by
  simp [execPortTestApply]

@[simp] theorem pending_portClearBits (g v : Nat) (s : State) : (portClearBits g v s).pending = s.pending := by
  simp [portClearBits]

@[simp] theorem pending_ownEdge (e base depth bytes : Nat) (prod : Bool) (end_ : Nat) (s : State) :
    (ownEdge e base depth bytes prod end_ s).pending = s.pending := by
  simp [ownEdge]

@[simp] theorem pending_enableStream (g : Nat) (out : Bool) (s : State) : (enableStream g out s).1.pending = s.pending := by
  simp only [enableStream, fst_ite, pending_ite, pending_setPort, pending_wr, pending_ownEdge, ite_self]

@[simp] theorem pending_disableStream (g : Nat) (out : Bool) (s : State) : (disableStream g out s).pending = s.pending := by
  simp [disableStream]

@[simp] theorem pending_writeStreamEnable (g v : Nat) (s : State) : (writeStreamEnable g v s).1.pending = s.pending := by
  simp [writeStreamEnable]

/-! ### Reset -/

@[simp] theorem pending_keepGroups (old s : State) : (keepGroups old s).pending = s.pending := by simp [keepGroups]
@[simp] theorem pending_endHandles (s : State) : (endHandles s).pending = s.pending := by simp [endHandles]

@[simp] theorem pending_clearedState (cause : Nat) (s : State) : (clearedState cause s).pending = s.pending := by
  simp [clearedState]

@[simp] theorem pending_eraseItems (n : Nat) (s : State) : (eraseItems n s).pending = s.pending := by simp [eraseItems]
@[simp] theorem pending_endErase (s : State) : (endErase s).pending = s.pending := by simp [endErase]

@[simp] theorem pending_endLinkWrite (s : State) : (endLinkWrite s).pending = s.pending := by
  unfold endLinkWrite
  split <;> simp

@[simp] theorem pending_enterReset (cause : Nat) (s : State) : (enterReset cause s).pending = s.pending := by simp [enterReset]

@[simp] theorem pending_samplePins (pins : BitVec 2) (s : State) : (samplePins pins s).pending = s.pending := by
  simp [samplePins]

@[simp] theorem pending_requestReset (cause : Nat) (s : State) : (requestReset cause s).pending = s.pending := by
  simp [requestReset]

@[simp] theorem goesOn_execPor (boot : BitVec 2) (s : State) : GoesOn s (execPor boot s) := by simp [execPor]
@[simp] theorem goesOn_execBor (s : State) : GoesOn s (execBor s) := by simp [execBor]
@[simp] theorem goesOn_execPinReset (s : State) : GoesOn s (execPinReset s) := by simp [execPinReset]

@[simp] theorem goesOn_execPinResetRelease (boot : BitVec 2) (s : State) : GoesOn s (execPinResetRelease boot s) := by
  simp [execPinResetRelease]

@[simp] theorem goesOn_execResetProper (boot : BitVec 2) (s : State) : GoesOn s (execResetProper boot s) := by
  unfold execResetProper
  split <;> simp

@[simp] theorem goesOn_execWatchdogExpiry (s : State) : GoesOn s (execWatchdogExpiry s) := by simp [execWatchdogExpiry]
@[simp] theorem goesOn_execCurrentLimit (s : State) : GoesOn s (execCurrentLimit s) := by simp [execCurrentLimit]

@[simp] theorem goesOn_execPowerStageRestart (boot : BitVec 2) (s : State) : GoesOn s (execPowerStageRestart boot s) := by
  simp [execPowerStageRestart]

@[simp] theorem pending_softReset (s : State) : (softReset s).pending = s.pending := by simp [softReset]

/-! ### Bist -/

@[simp] theorem pending_bistClear (test arg : Nat) (s : State) : (bistClear test arg s).pending = s.pending := by
  unfold bistClear
  split <;> simp

@[simp] theorem pending_bistPorts (s : State) : (bistPorts s).pending = s.pending := by simp [bistPorts]

@[simp] theorem pending_bistStop (s : State) : (bistStop s).pending = s.pending := by
  unfold bistStop
  split <;> simp

@[simp] theorem pending_bistEnd (status detail : Nat) (s : State) : (bistEnd status detail s).pending = s.pending := by
  unfold bistEnd
  dsimp only
  split <;> simp

@[simp] theorem pending_bistHold (s : State) : (bistHold s).pending = s.pending := by
  unfold bistHold
  split <;> simp

/-! ### Cores -/

@[simp] theorem pending_unloadLane (n : Nat) (s : State) : (unloadLane n s).pending = s.pending := by simp [unloadLane]

@[simp] theorem pending_stopOp (op : Op) (status : Nat) (s : State) : (stopOp op status s).pending = s.pending := by
  unfold stopOp
  split <;> simp

@[simp] theorem pending_cancelHandle (h : Handle) (status : Nat) (s : State) : (cancelHandle h status s).pending = s.pending := by
  unfold cancelHandle
  split
  · split <;> simp
  · simp

@[simp] theorem pending_rerunHeld (holder : Nat) (s : State) : (rerunHeld holder s).pending = s.pending := by simp [rerunHeld]
@[simp] theorem pending_resetCoreRegs (c : Nat) (s : State) : (resetCoreRegs c s).pending = s.pending := by simp [resetCoreRegs]
@[simp] theorem pending_releaseCore (c : Nat) (s : State) : (releaseCore c s).pending = s.pending := by simp [releaseCore]

@[simp] theorem pending_ownerTaken (g owner : Nat) (s : State) : (ownerTaken g owner s).pending = s.pending := by
  simp [ownerTaken]

@[simp] theorem pending_revokeGroup (g owner : Nat) (clear : Bool) (s : State) :
    (revokeGroup g owner clear s).pending = s.pending := by
  simp [revokeGroup]

@[simp] theorem pending_revokeOwned (c : Nat) (s : State) : (revokeOwned c s).pending = s.pending := by simp [revokeOwned]
@[simp] theorem pending_supAct (s : State) : (supAct s).pending = s.pending := by simp [supAct]
@[simp] theorem pending_firmwareReset (s : State) : (firmwareReset s).pending = s.pending := by simp [firmwareReset]
@[simp] theorem pending_supResetCore (c : Nat) (s : State) : (supResetCore c s).pending = s.pending := by simp [supResetCore]
@[simp] theorem pending_doubleTrap (c : Nat) (s : State) : (doubleTrap c s).pending = s.pending := by simp [doubleTrap]

@[simp] theorem pending_enterVector (c vector reason len done : Nat) (epc : BitVec 20) (s : State) :
    (enterVector c vector reason len done epc s).pending = s.pending := by
  simp [enterVector]

@[simp] theorem pending_returnFrom (c : Nat) (s : State) : (returnFrom c s).pending = s.pending := by simp [returnFrom]

@[simp] theorem pending_takeInterrupt (c v : Nat) (s : State) : (takeInterrupt c v s).pending = s.pending := by
  simp [takeInterrupt]

@[simp] theorem pending_resetEngine (e : Engine) (byy : Nat) (s : State) : (resetEngine e byy s).pending = s.pending := by
  unfold resetEngine
  split <;> simp

/-! ### Hervel -/

@[simp] theorem pending_putRegs (u : Agent) (r : Regs) (s : State) : (putRegs u r s).pending = s.pending := by
  unfold putRegs
  split <;> simp

@[simp] theorem pending_putDelayed (u : Agent) (d : Option Load) (s : State) : (putDelayed u d s).pending = s.pending := by
  unfold putDelayed
  split <;> simp

@[simp] theorem pending_putMoves (u : Agent) (m : List Move) (s : State) : (putMoves u m s).pending = s.pending := by
  unfold putMoves
  split <;> simp

@[simp] theorem pending_coreWrite (c : Nat) (ws : List (Nat × Word)) (s : State) : (coreWrite c ws s).pending = s.pending := by
  simp [coreWrite]

@[simp] theorem pending_noteCoreRefusal (reason : Nat) (a : DAddr) (s : State) :
    (noteCoreRefusal reason a s).pending = s.pending := by
  simp [noteCoreRefusal]

@[simp] theorem keepsHv_dRead (c : Cx) (a : DAddr) (free : Bool) : KeepsHv (dRead c a free) := by
  intro s
  unfold dRead
  split
  · simp
  · split <;> simp

@[simp] theorem pending_guardMiss (c : Cx) (s : State) : (guardMiss c s).pending = s.pending := by
  unfold guardMiss
  split <;> simp

@[simp] theorem keepsHv_dOperand (c : Cx) (guarded : Bool) (ea ea' : DAddr) : KeepsHv (dOperand c guarded ea ea') := by
  refine keepsHv_bind _ _ (keepsHv_dRead c ea false) fun v => ?_
  split
  · refine keepsHv_bind _ _ (keepsHv_dRead c ea' _) fun k => ?_
    split <;> simp
  · simp

@[simp] theorem keepsHv_operand (c : Cx) (r : Regs) (o : Operand) : KeepsHv (operand c r o) := by
  unfold operand
  split
  · simp
  · simp
  · split <;> simp

/-- Where a list of checks ends in a fault, one of them does. -/
theorem exists_error_of_mapM {α β ε : Type} {f : α → Except ε β} {l : List α} {e : ε} (h : l.mapM f = .error e) :
    ∃ x, f x = .error e := by
  induction l generalizing e with
  | nil => simp [pure, Except.pure] at h
  | cons a l ih =>
    cases ha : f a with
    | error e' =>
      rw [List.mapM_cons, ha] at h
      cases h
      exact ⟨a, ha⟩
    | ok b =>
      rw [List.mapM_cons, ha] at h
      cases hl : l.mapM f with
      | error e' =>
        change (l.mapM f >>= _) = _ at h
        rw [hl] at h
        cases h
        exact ih hl
      | ok bs =>
        change (l.mapM f >>= _) = _ at h
        rw [hl] at h
        cases h

@[simp] theorem keepsHv_dWrites (c : Cx) (ws : List (DAddr × Word)) : KeepsHv (dWrites c ws) := by
  intro s
  unfold dWrites
  split
  · split
    · split <;> simp
    · simp
  · split
    · rename_i k _ _ r h
      obtain ⟨x, hx⟩ := exists_error_of_mapM h
      cases hc : coreAddr s k.val true x.1 with
      | ok f => simp [hc, Except.map, Except.mapError] at hx
      | error e =>
        simp only [hc, Except.map, Except.mapError, Except.error.injEq] at hx
        simp [← hx]
    · split <;> simp

@[simp] theorem pending_flushMoves (u : Agent) (slot : Nat) (ws : List (DAddr × Word)) (s : State) :
    (flushMoves u slot ws s).pending = s.pending := by
  refine (pending_forList _ _ _ fun m t => ?_).trans (pending_putMoves _ _ s)
  split
  · rfl
  · split
    · split <;> simp
    · split <;> simp

@[simp] theorem pending_noteSat (u : Agent) (sv : Bool) (s : State) : (noteSat u sv s).pending = s.pending := by
  unfold noteSat
  split <;> simp

@[simp] theorem keepsHv_commit (c : Cx) (e : Eff) : KeepsHv (commit c e) := by
  refine keepsHv_bind _ _ (by simp) fun _ => keepsHv_bind _ _ (keepsHv_dWrites c e.writes) fun _ => keepsHv_modify _ fun s => ?_
  dsimp only
  split <;> simp

@[simp] theorem keepsHv_runOnce (c : Cx) (cost : Nat) (body : Cx → Regs → Hv Eff) (h : ∀ r, KeepsHv (body c r)) :
    KeepsHv (runOnce c cost body) := by
  refine keepsHv_bind _ _ keepsHv_get fun s => keepsHv_bind _ _ (h _) fun e => ?_
  have hm : KeepsQueue fun s => match c.u with
    | .lane n => farDue n.val (c.slot + cost - 1) s
    | .core _ => s := by
    intro s
    dsimp only
    split <;> simp
  exact keepsHv_bind _ _ (keepsHv_modify _ hm) fun _ => keepsHv_bind _ _ (keepsHv_commit c e) fun _ => keepsHv_pure e

@[simp] theorem pending_landNow (u : Agent) (s : State) : (landNow u s).pending = s.pending := by simp [landNow]

@[simp] theorem pending_laneReps (u : Agent) (p : Prefix) (cost : Nat) (body : Cx → Regs → Hv Eff)
    (h : ∀ c r, KeepsHv (body c r)) (k slot : Nat) (s : State) : (laneReps u p cost body k slot s).pending = s.pending := by
  induction k generalizing slot s with
  | zero => rfl
  | succ k ih =>
    unfold laneReps
    dsimp only
    split
    · rename_i e
      have ho := (keepsHv_runOnce _ cost body (h _)).ok e
      rw [ih]
      cases u <;> split <;> simpa using ho
    · cases u <;> simp

@[simp] theorem pending_laneUndefined (n : Nat) (s : State) : (laneUndefined n s).pending = s.pending := by simp [laneUndefined]
@[simp] theorem pending_lanePc (n pc : Nat) (s : State) : (lanePc n pc s).pending = s.pending := by simp [lanePc]

@[simp] theorem pending_coreReps (c : Fin 8) (p : Prefix) (body : Cx → Regs → Hv Eff)
    (h : ∀ c r, KeepsHv (body c r)) (k done : Nat)
    (dz : Option Nat) (s : State) : (coreReps c p body k done dz s).1.pending = s.pending := by
  induction k generalizing done dz s with
  | zero => rfl
  | succ k ih =>
    unfold coreReps
    dsimp only
    split
    · rename_i e
      have ho := (keepsHv_runOnce _ 1 body (h _)).ok e
      split
      · exact ho
      · simpa [ih] using ho
    · rename_i e
      exact (keepsHv_runOnce _ 1 body (h _)).error e

@[simp] theorem pending_coreSettle (c : Fin 8) (s : State) : (coreSettle c s).pending = s.pending := by simp [coreSettle]

@[simp] theorem pending_coreTrap (c : Fin 8) (vector reason len done : Nat) (s : State) :
    (coreTrap c vector reason len done s).pending = s.pending := by
  simp [coreTrap]

@[simp] theorem pending_coreUndefined (c : Fin 8) (reason len : Nat) (s : State) :
    (coreUndefined c reason len s).pending = s.pending := by
  simp [coreUndefined]

@[simp] theorem pending_coreFinish (c : Fin 8) (len : Nat) (e : Eff) (s : State) :
    (coreFinish c len e s).pending = s.pending := by
  simp [coreFinish]

@[simp] theorem pending_runLane (n : Fin 64) (p : Prefix) (cost : Nat) (body : Cx → Regs → Hv Eff)
    (h : ∀ c r, KeepsHv (body c r)) (s : State) : (runLane n p cost body s).pending = s.pending := by
  simp [runLane, h]

@[simp] theorem pending_runCore (c : Fin 8) (p : Prefix) (len : Nat) (body : Cx → Regs → Hv Eff)
    (h : ∀ c r, KeepsHv (body c r)) (s : State) : (runCore c p len body s).pending = s.pending := by
  unfold runCore
  dsimp only
  split
  all_goals
    rename_i e
    have hs := (congrArg (fun x => x.1.pending) e).symm.trans (pending_coreReps c p body h _ 0 none s)
  · simpa using hs
  · simpa using hs
  · split
    · rfl
    · simpa using hs

@[simp] theorem goesOn_runInstr (u : Agent) (p : Prefix) (sh : Shape) (cost : Nat) (body : Cx → Regs → Hv Eff)
    (h : ∀ c r, KeepsHv (body c r)) (s : State) : GoesOn s (runInstr u p sh cost body s) := by
  unfold runInstr
  dsimp only
  split
  · repeat' split
    all_goals simp [h]
  · repeat' split
    all_goals simp [h]

/-! ### PSpace -/

@[simp] theorem pending_setSchResult (c v : Nat) (s : State) : (setSchResult c v s).pending = s.pending := by simp [setSchResult]

@[simp] theorem pending_schRefuse (c status what number : Nat) (s : State) :
    (schRefuse c status what number s).pending = s.pending := by
  simp [schRefuse]

@[simp] theorem pending_opSchDone (c : Nat) (w : Word) (s : State) : (opSchDone c w s).pending = s.pending := by
  unfold opSchDone
  split <;> simp

@[simp] theorem pending_postReturn (r e m : Nat) (void : Bool) (s : State) : (postReturn r e m void s).pending = s.pending := by
  simp [postReturn]

@[simp] theorem pending_opSchPost (c : Nat) (w : Word) (s : State) : (opSchPost c w s).pending = s.pending := by
  unfold opSchPost
  dsimp only
  repeat' split
  all_goals simp

@[simp] theorem pending_opSchTake (c : Nat) (w : Word) (s : State) : (opSchTake c w s).pending = s.pending := by
  unfold opSchTake
  dsimp only
  repeat' split
  all_goals simp

@[simp] theorem pending_opRing (c : Nat) (w : Word) (s : State) : (opRing c w s).pending = s.pending := by simp [opRing]
@[simp] theorem pending_opIclr (c : Nat) (w : Word) (s : State) : (opIclr c w s).pending = s.pending := by simp [opIclr]
@[simp] theorem pending_opTcmp (c : Nat) (w : Word) (s : State) : (opTcmp c w s).pending = s.pending := by simp [opTcmp]
@[simp] theorem pending_timerCheck (c : Nat) (s : State) : (timerCheck c s).pending = s.pending := by simp [timerCheck]

@[simp] theorem keepsHv_coreIn (c pa : Nat) : KeepsHv (coreIn c pa) := by
  intro s
  unfold coreIn
  dsimp only
  split <;> simp

@[simp] theorem keepsHv_coreOut (c pa : Nat) (w : Word) : KeepsHv (coreOut c pa w) := by
  intro s
  unfold coreOut
  dsimp only
  split <;> simp

/-! ### Arith -/

@[simp] theorem keepsHv_accBody (f : Bool → Acc → Word → Acc × FlagSet) (o : Operand) (c : Cx) (r : Regs) :
    KeepsHv (accBody f o c r) := by
  simp [accBody]

@[simp] theorem keepsHv_wordBody (f : Bool → Word → Word → Word × FlagSet) (o : Operand) (c : Cx) (r : Regs) :
    KeepsHv (wordBody f o c r) := by
  simp [wordBody]

@[simp] theorem keepsHv_cmpBody (o : Operand) (c : Cx) (r : Regs) : KeepsHv (cmpBody o c r) := by simp [cmpBody]
@[simp] theorem keepsHv_divBody (o : Operand) (c : Cx) (r : Regs) : KeepsHv (divBody o c r) := by simp [divBody]
@[simp] theorem keepsHv_factors (c : Cx) (r : Regs) (o : Operand) : KeepsHv (factors c r o) := by simp [factors]

@[simp] theorem keepsHv_mulBody (keep sign : Int) (o : Operand) (c : Cx) (r : Regs) : KeepsHv (mulBody keep sign o c r) := by
  simp [mulBody]

@[simp] theorem keepsHv_tapFactors (c : Cx) (r : Regs) : KeepsHv (tapFactors c r) := by simp [tapFactors]
@[simp] theorem keepsHv_tapBody (c : Cx) (r : Regs) : KeepsHv (tapBody c r) := by simp [tapBody]

@[simp] theorem keepsHv_tapmMove (c : Cx) (y' : DAddr) (w : Word) : KeepsHv (tapmMove c y' w) := by
  intro s
  unfold tapmMove
  split
  · split <;> simp
  · split <;> simp

@[simp] theorem keepsHv_tapmBody (c : Cx) (r : Regs) : KeepsHv (tapmBody c r) := by simp [tapmBody]

@[simp] theorem goesOn_execAdd (u : Agent) (p : Prefix) (o : Operand) (s : State) : GoesOn s (execAdd u p o s) := by
  simp [execAdd]

@[simp] theorem goesOn_execSub (u : Agent) (p : Prefix) (o : Operand) (s : State) : GoesOn s (execSub u p o s) := by
  simp [execSub]

@[simp] theorem goesOn_execCmp (u : Agent) (p : Prefix) (o : Operand) (s : State) : GoesOn s (execCmp u p o s) := by
  simp [execCmp]

@[simp] theorem goesOn_execAnd (u : Agent) (p : Prefix) (o : Operand) (s : State) : GoesOn s (execAnd u p o s) := by
  simp [execAnd]

@[simp] theorem goesOn_execOr (u : Agent) (p : Prefix) (o : Operand) (s : State) : GoesOn s (execOr u p o s) := by simp [execOr]

@[simp] theorem goesOn_execXor (u : Agent) (p : Prefix) (o : Operand) (s : State) : GoesOn s (execXor u p o s) := by
  simp [execXor]

@[simp] theorem goesOn_execNeg (u : Agent) (p : Prefix) (s : State) : GoesOn s (execNeg u p s) := by simp [execNeg]
@[simp] theorem goesOn_execAbs (u : Agent) (p : Prefix) (s : State) : GoesOn s (execAbs u p s) := by simp [execAbs]

@[simp] theorem goesOn_execDiv (u : Agent) (p : Prefix) (o : Operand) (s : State) : GoesOn s (execDiv u p o s) := by
  simp [execDiv]

@[simp] theorem goesOn_execRnd (u : Agent) (p : Prefix) (s : State) : GoesOn s (execRnd u p s) := by simp [execRnd]
@[simp] theorem goesOn_execSata (u : Agent) (p : Prefix) (s : State) : GoesOn s (execSata u p s) := by simp [execSata]

@[simp] theorem goesOn_execMul (u : Agent) (p : Prefix) (o : Operand) (s : State) : GoesOn s (execMul u p o s) := by
  simp [execMul]

@[simp] theorem goesOn_execMac (u : Agent) (p : Prefix) (o : Operand) (s : State) : GoesOn s (execMac u p o s) := by
  simp [execMac]

@[simp] theorem goesOn_execMsu (u : Agent) (p : Prefix) (o : Operand) (s : State) : GoesOn s (execMsu u p o s) := by
  simp [execMsu]

@[simp] theorem goesOn_execTap (u : Agent) (p : Prefix) (s : State) : GoesOn s (execTap u p s) := by simp [execTap]
@[simp] theorem goesOn_execTapm (u : Agent) (p : Prefix) (s : State) : GoesOn s (execTapm u p s) := by simp [execTapm]

@[simp] theorem goesOn_execBfx (u : Agent) (p : Prefix) (pos width : Byte) (s : State) : GoesOn s (execBfx u p pos width s) := by
  simp [execBfx]

@[simp] theorem goesOn_execBfi (u : Agent) (p : Prefix) (pos width : Byte) (s : State) : GoesOn s (execBfi u p pos width s) := by
  simp [execBfi]

@[simp] theorem goesOn_execClz (u : Agent) (p : Prefix) (s : State) : GoesOn s (execClz u p s) := by simp [execClz]

@[simp] theorem goesOn_execPerm (u : Agent) (p : Prefix) (sel : Byte) (s : State) : GoesOn s (execPerm u p sel s) := by
  simp [execPerm]

/-! ### Splice -/

@[simp] theorem pending_splRefuse (p status : Nat) (s : State) : (splRefuse p status s).pending = s.pending := by
  simp [splRefuse]

@[simp] theorem pending_splGuardRefuse (p : Nat) (s : State) : (splGuardRefuse p s).1.pending = s.pending := by
  simp [splGuardRefuse]

@[simp] theorem pending_spliceAccept (p seq : Nat) (atSlate copy : Bool) (s : State) :
    (spliceAccept p seq atSlate copy s).pending = s.pending := by
  simp [spliceAccept]

@[simp] theorem pending_spliceRequest (p seq : Nat) (atSlate copy : Bool) (s : State) :
    (spliceRequest p seq atSlate copy s).1.pending = s.pending := by
  simp [spliceRequest]

@[simp] theorem pending_spliceCancelMask (p : Nat) (s : State) : (spliceCancelMask p s).1.pending = s.pending := by
  simp [spliceCancelMask]

@[simp] theorem pending_writeSplCtrl (p pair : Nat) (s : State) : (writeSplCtrl p pair s).1.pending = s.pending := by
  simp [writeSplCtrl]

@[simp] theorem pending_copyStep (n : Nat) (c : Copy) (s : State) : (copyStep n c s).pending = s.pending := by
  unfold copyStep
  dsimp only
  repeat' split
  all_goals simp

@[simp] theorem goesOn_execSpliceCopyWord (n : Fin 64) (s : State) : GoesOn s (execSpliceCopyWord n s) := by
  refine goesOn_clocked _ s fun s => ?_
  split <;> simp

@[simp] theorem pending_writeBitmap (n b : Nat) (s : State) : (writeBitmap n b s).1.pending = s.pending := by simp [writeBitmap]

/-! ### Sched -/

@[simp] theorem pending_putHome (slot k : Nat) (w : Word) (s : State) : (putHome slot k w s).pending = s.pending := by
  unfold putHome
  dsimp only
  split <;> simp

@[simp] theorem pending_bindNode (slot : Nat) (h : List Word) (s : State) : (bindNode slot h s).pending = s.pending := by
  simp [bindNode]

@[simp] theorem pending_startNode (slot : Nat) (h : List Word) (s : State) : (startNode slot h s).pending = s.pending := by
  simp [startNode]

@[simp] theorem pending_releaseFiring (f : Firing) (s : State) : (releaseFiring f s).pending = s.pending := by
  simp [releaseFiring]

@[simp] theorem pending_stopNode (slot : Nat) (s : State) : (stopNode slot s).pending = s.pending := by simp [stopNode]

@[simp] theorem pending_writeNodeEnable (slot v : Nat) (s : State) : (writeNodeEnable slot v s).1.pending = s.pending := by
  unfold writeNodeEnable
  dsimp only
  repeat' split
  all_goals simp

@[simp] theorem pending_nodeClearBits (slot v : Nat) (s : State) : (nodeClearBits slot v s).pending = s.pending := by
  simp [nodeClearBits]

@[simp] theorem pending_writeEdgeEnable (e v : Nat) (s : State) : (writeEdgeEnable e v s).1.pending = s.pending := by
  simp [writeEdgeEnable]

@[simp] theorem pending_enableRing (r : Nat) (s : State) : (enableRing r s).pending = s.pending := by simp [enableRing]

@[simp] theorem pending_writeRpEnable (r v : Nat) (s : State) : (writeRpEnable r v s).1.pending = s.pending := by
  simp [writeRpEnable]

@[simp] theorem pending_schClearBits (v : Nat) (s : State) : (schClearBits v s).pending = s.pending := by simp [schClearBits]
@[simp] theorem pending_putFiring (f : Firing) (s : State) : (putFiring f s).pending = s.pending := by simp [putFiring]

@[simp] theorem goesOn_execClassEPrefetch (s : State) : GoesOn s (execClassEPrefetch s) := by
  unfold execClassEPrefetch
  dsimp only
  repeat' split
  all_goals simp

@[simp] theorem pending_handOver (f : Firing) (c : Nat) (s : State) : (handOver f c s).pending = s.pending := by simp [handOver]

@[simp] theorem goesOn_execClassSHandover (s : State) : GoesOn s (execClassSHandover s) := by
  unfold execClassSHandover
  dsimp only
  repeat' split
  all_goals simp

@[simp] theorem goesOn_execSchDone (c : Fin 8) (w : Word) (s : State) : GoesOn s (execSchDone c w s) := by simp [execSchDone]
@[simp] theorem goesOn_execSchPost (c : Fin 8) (w : Word) (s : State) : GoesOn s (execSchPost c w s) := by simp [execSchPost]
@[simp] theorem goesOn_execSchTake (c : Fin 8) (w : Word) (s : State) : GoesOn s (execSchTake c w s) := by simp [execSchTake]

/-! ### Engines -/

@[simp] theorem pending_engWrite (f : Firing) (unit a : Nat) (ws : List Word) (s : State) :
    (engWrite f unit a ws s).pending = s.pending := by
  simp [engWrite]

@[simp] theorem pending_finishOp (f : Firing) (status : Nat) (s : State) : (finishOp f status s).pending = s.pending := by
  simp [finishOp]

theorem pending_engDenied {f : Firing} {unit : Nat} {s t : State} {l : List (Option (FabResult × Nat))}
    (h : engDenied f unit s l = some t) : t.pending = s.pending := by
  induction l with
  | nil => cases h
  | cons x l ih =>
    match x, h with
    | none, h => exact ih h
    | some (.ok, _), h => exact ih h
    | some (.wait, _), h =>
      cases h
      rfl
    | some (.deny code, a), h =>
      cases h
      simp

@[simp] theorem pending_engReads (f : Firing) (unit : Nat) (rs : List (Nat × Nat)) (run : State → State) (s : State)
    (h : KeepsQueue run) : (engReads f unit rs run s).pending = s.pending := by
  unfold engReads
  split
  · simp
  · exact (h _).trans (by simp)

@[simp] theorem pending_engRun (f : Firing) (own : Nat) (reads writes : List (Nat × Nat)) (run : State → State) (s : State)
    (h : KeepsQueue run) : (engRun f own reads writes run s).pending = s.pending := by
  unfold engRun
  split
  · exact pending_engDenied ‹_›
  · exact pending_engReads f own reads run s h

@[simp] theorem pending_badOp (f : Firing) (unit : Nat) (s : State) : (badOp f unit s).pending = s.pending := by simp [badOp]

@[simp] theorem pending_runUserOp (f : Firing) (e : Nat) (s : State) : (runUserOp f e s).pending = s.pending := by
  simp [runUserOp]

@[simp] theorem pending_userTailDone (f : Firing) (s : State) : (userTailDone f s).pending = s.pending := by simp [userTailDone]

/-! ### Paths -/

@[simp] theorem pending_showRungs (q : Nat) (rs : List Rung) (s : State) : (showRungs q rs s).pending = s.pending := by
  simp [showRungs]

@[simp] theorem pending_enablePath (q : Nat) (s : State) : (enablePath q s).pending = s.pending := by simp [enablePath]

@[simp] theorem pending_writeCpEnable (q v : Nat) (s : State) : (writeCpEnable q v s).1.pending = s.pending := by
  simp [writeCpEnable]

@[simp] theorem pending_pathFault (code q : Nat) (s : State) : (pathFault code q s).pending = s.pending := by simp [pathFault]

@[simp] theorem pending_putWords (a : Nat) (ws : List Word) (s : State) : (putWords a ws s).pending = s.pending := by
  simp [putWords]

@[simp] theorem pending_tailZero (q : Nat) (f : Firing) (e : Nat) (s : State) : (tailZero q f e s).pending = s.pending := by
  unfold tailZero
  dsimp only
  split <;> simp

@[simp] theorem pending_tailUpper (q k : Nat) (f : Firing) (e : Nat) (s : State) : (tailUpper q k f e s).pending = s.pending := by
  unfold tailUpper
  dsimp only
  split <;> simp

@[simp] theorem pending_runTail (q e : Nat) (f : Firing) (s : State) : (runTail q e f s).pending = s.pending := by
  unfold runTail
  split <;> simp

@[simp] theorem pending_fireRungs (q : Nat) (s : State) : (fireRungs q s).pending = s.pending := by simp [fireRungs]

@[simp] theorem pending_tailLast (q k : Nat) (f : Firing) (s : State) : (tailLast q k f s).pending = s.pending := by
  simp [tailLast]

@[simp] theorem pending_tailDone (q : Nat) (f : Firing) (s : State) : (tailDone q f s).pending = s.pending := by simp [tailDone]

@[simp] theorem pending_runCrystallizer (code e : Nat) (s : State) : (runCrystallizer code e s).pending = s.pending := by
  unfold runCrystallizer
  split <;> simp

@[simp] theorem goesOn_execCxFwd (e : Fin 16) (s : State) : GoesOn s (execCxFwd e s) := by simp [execCxFwd]
@[simp] theorem goesOn_execCxInv (e : Fin 16) (s : State) : GoesOn s (execCxInv e s) := by simp [execCxInv]
@[simp] theorem goesOn_execCxSmac (e : Fin 16) (s : State) : GoesOn s (execCxSmac e s) := by simp [execCxSmac]
@[simp] theorem goesOn_execCxTail (e : Fin 16) (s : State) : GoesOn s (execCxTail e s) := by simp [execCxTail]

@[simp] theorem pending_startIrLoad (p : Nat) (s : State) : (startIrLoad p s).1.pending = s.pending := by
  simp only [startIrLoad, fst_ite, pending_ite, pending_wr, pending_inc, pending_issueHandle, ite_self]

@[simp] theorem pending_putSpectra (q : Nat) (ws : List Word) (s : State) : (putSpectra q ws s).pending = s.pending := by
  simp [putSpectra]

@[simp] theorem pending_loadSpectra (q source fmt : Nat) (s : State) : (loadSpectra q source fmt s).1.pending = s.pending := by
  unfold loadSpectra
  dsimp only
  repeat' split
  all_goals simp

@[simp] theorem pending_showSpectraRefused (q : Nat) (ws : List Word) (s : State) :
    (showSpectraRefused q ws s).1.pending = s.pending := by
  unfold showSpectraRefused
  split
  · rfl
  · split
    · rfl
    · split <;> simp

@[simp] theorem pending_showSpectra (q : Nat) (ws : List Word) (s : State) : (showSpectra q ws s).pending = s.pending := by
  simp [showSpectra]

@[simp] theorem goesOn_execIrLoadComplete (s : State) : GoesOn s (execIrLoadComplete s) := by
  refine goesOn_clocked _ s fun s => ?_
  dsimp only
  split
  · rfl
  · split <;> simp

/-! ### Asrc -/

@[simp] theorem pending_writeAsEnable (v on : Nat) (s : State) : (writeAsEnable v on s).1.pending = s.pending := by
  simp only [writeAsEnable, fst_ite, pending_ite, pending_wr, pending_setConv, pending_stopNode, pending_startNode,
    pending_ownEdge, ite_self]

@[simp] theorem goesOn_execAsrcLocked (v : Fin 16) (s : State) : GoesOn s (execAsrcLocked v s) := by simp [execAsrcLocked]

@[simp] theorem pending_convertBlock (v : Nat) (f : Firing) (s : State) : (convertBlock v f s).pending = s.pending := by
  unfold convertBlock
  dsimp only
  split
  · exact pending_engDenied ‹_›
  · exact pending_engReads f _ _ _ s fun t => by simp

@[simp] theorem goesOn_execAsrcConvert (v : Fin 16) (s : State) : GoesOn s (execAsrcConvert v s) := by
  unfold execAsrcConvert
  split <;> simp

@[simp] theorem pending_convConsume (v k : Nat) (s : State) : (convConsume v k s).pending = s.pending := by
  unfold convConsume
  split <;> simp

@[simp] theorem pending_convSlips (code : Nat) (r : Reg) (n v : Nat) (s : State) :
    (convSlips code r n v s).pending = s.pending := by
  simp [convSlips]

@[simp] theorem pending_convDone (v : Nat) (f : Firing) (s : State) : (convDone v f s).pending = s.pending := by simp [convDone]
@[simp] theorem pending_engineDone (f : Firing) (s : State) : (engineDone f s).pending = s.pending := by simp [engineDone]

@[simp] theorem goesOn_execFiringComplete (slot : Fin 512) (rung : Fin 8) (s : State) :
    GoesOn s (execFiringComplete slot rung s) := by
  unfold execFiringComplete
  split <;> simp

/-! ### Takes -/

@[simp] theorem goesOn_execHouseTick (edge : Nat) (s : State) : GoesOn s (execHouseTick edge s) := by simp [execHouseTick]
@[simp] theorem pending_closeTake (n : Nat) (s : State) : (closeTake n s).pending = s.pending := by simp [closeTake]

@[simp] theorem goesOn_execBusyWindowEnd (n : Fin 64) (s : State) : GoesOn s (execBusyWindowEnd n s) := by
  simp [execBusyWindowEnd]

@[simp] theorem pending_endLoad (n : Nat) (s : State) : (endLoad n s).pending = s.pending := by simp [endLoad]

@[simp] theorem goesOn_execLaneLoadComplete (n : Fin 64) (s : State) : GoesOn s (execLaneLoadComplete n s) := by
  simp [execLaneLoadComplete]

@[simp] theorem pending_laneClearBits (n v : Nat) (s : State) : (laneClearBits n v s).pending = s.pending := by
  simp [laneClearBits]

@[simp] theorem pending_putGrant (n v : Nat) (s : State) : (putGrant n v s).pending = s.pending := by
  unfold putGrant
  dsimp only
  split <;> simp

/-! ### Pans -/

@[simp] theorem pending_clearGroup (g : Nat) (s : State) : (clearGroup g s).pending = s.pending := by simp [clearGroup]

@[simp] theorem pending_writePgOwner (g v : Nat) (s : State) : (writePgOwner g v s).1.pending = s.pending := by
  simp [writePgOwner]

@[simp] theorem pending_finishHandover (g : Nat) (s : State) : (finishHandover g s).pending = s.pending := by
  simp [finishHandover]

@[simp] theorem goesOn_execPgHandoverComplete (g : Fin 8) (s : State) : GoesOn s (execPgHandoverComplete g s) := by
  simp [execPgHandoverComplete]

@[simp] theorem pending_clearRows (g n : Nat) (s : State) : (clearRows g n s).pending = s.pending := by simp [clearRows]
@[simp] theorem pending_clearOn (n : Nat) (s : State) : (clearOn n s).pending = s.pending := by simp [clearOn]

@[simp] theorem goesOn_execPgGroupClearComplete (g : Fin 8) (s : State) : GoesOn s (execPgGroupClearComplete g s) := by
  simp [execPgGroupClearComplete]

@[simp] theorem pending_powerUpGroup (g : Nat) (s : State) : (powerUpGroup g s).pending = s.pending := by simp [powerUpGroup]
@[simp] theorem pending_powerUp (g : Nat) (s : State) : (powerUp g s).pending = s.pending := by simp [powerUp]

@[simp] theorem pending_writePgPower (g v : Nat) (s : State) : (writePgPower g v s).1.pending = s.pending := by
  simp [writePgPower]

@[simp] theorem goesOn_execPgPowerTransitionComplete (g : Fin 8) (s : State) : GoesOn s (execPgPowerTransitionComplete g s) := by
  unfold execPgPowerTransitionComplete
  dsimp only
  repeat' split
  all_goals simp

@[simp] theorem pending_writePgCompat (g v : Nat) (s : State) : (writePgCompat g v s).1.pending = s.pending := by
  simp [writePgCompat]

@[simp] theorem pending_pgClearBits (g v : Nat) (s : State) : (pgClearBits g v s).pending = s.pending := by simp [pgClearBits]

@[simp] theorem pending_writeFarGrant (n v : Nat) (s : State) : (writeFarGrant n v s).1.pending = s.pending := by
  simp [writeFarGrant]

/-! ### Dma -/

@[simp] theorem pending_dmaFault (k ch status : Nat) (s : State) : (dmaFault k ch status s).pending = s.pending := by
  simp [dmaFault]

@[simp] theorem pending_dmaStop (ch status : Nat) (s : State) : (dmaStop ch status s).pending = s.pending := by simp [dmaStop]

@[simp] theorem pending_dmaHaltWriteback (ch : Nat) (s : State) : (dmaHaltWriteback ch s).pending = s.pending := by
  simp [dmaHaltWriteback]

@[simp] theorem pending_putStatus (ch status side : Nat) (s : State) : (putStatus ch status side s).pending = s.pending := by
  simp [putStatus]

@[simp] theorem pending_writebackError (ch code : Nat) (s : State) : (writebackError ch code s).pending = s.pending := by
  simp [writebackError]

@[simp] theorem pending_haltNow (ch : Nat) (s : State) : (haltNow ch s).pending = s.pending := by
  unfold haltNow
  dsimp only
  split <;> simp

@[simp] theorem pending_dmaHalt (ch k side : Nat) (s : State) : (dmaHalt ch k side s).pending = s.pending := by simp [dmaHalt]

@[simp] theorem pending_beatError (ch : Nat) (write : Bool) (code a : Nat) (s : State) :
    (beatError ch write code a s).pending = s.pending := by
  simp [beatError]

@[simp] theorem pending_headRead (ch : Nat) (s : State) : (headRead ch s).pending = s.pending := by
  unfold headRead
  dsimp only
  split <;> simp

@[simp] theorem pending_dmaReadNow (ch : Nat) (s : State) : (dmaReadNow ch s).pending = s.pending := by
  unfold dmaReadNow
  dsimp only
  split <;> simp

/-- A shadow word of lane `n` that a DMA beat covers in part: refused where it belongs to a marked pair, else written. -/
def storePart (n : Nat) (val : Nat → Word) (b : Nat) (s : State) : State :=
  let k := (b % 0x40000 - 0x20000) / 4
  if marked s n k || (0 < k && marked s n (k - 1)) then raise 0x9005 masterDma 0 b s
  else (noteShadowWrite n k s).setMemWord (physAddr s b) (val b)

theorem keepsQueue_storePart (n : Nat) (val : Nat → Word) (b : Nat) : KeepsQueue (storePart n val b) := by
  intro s
  have h (k : Nat) (w : Word) : (if marked s n k || (0 < k && marked s n (k - 1)) then raise 0x9005 masterDma 0 b s
      else (noteShadowWrite n k s).setMemWord (physAddr s b) w).pending = s.pending := by
    split <;> simp
  exact h _ _

@[simp] theorem pending_dmaPut (a : Nat) (bytes : List Byte) (s : State) : (dmaPut a bytes s).pending = s.pending := by
  unfold dmaPut
  split
  · exact (pending_forList _ (storePart _ _) _ fun b => keepsQueue_storePart _ _ b).trans (pending_fabWrite _ _ _)
  · exact pending_panStoreBytes a bytes s

@[simp] theorem pending_dmaWriteNow (ch : Nat) (s : State) : (dmaWriteNow ch s).pending = s.pending := by
  unfold dmaWriteNow
  dsimp only
  repeat' split
  all_goals simp

@[simp] theorem pending_statusNow (ch : Nat) (s : State) : (statusNow ch s).pending = s.pending := by
  unfold statusNow
  dsimp only
  split <;> simp

@[simp] theorem pending_clearOwn (ch : Nat) (s : State) : (clearOwn ch s).pending = s.pending := by simp [clearOwn]

@[simp] theorem pending_ownNow (ch : Nat) (s : State) : (ownNow ch s).pending = s.pending := by
  unfold ownNow
  split <;> simp

@[simp] theorem pending_advanceHead (ch : Nat) (s : State) : (advanceHead ch s).pending = s.pending := by simp [advanceHead]

@[simp] theorem pending_skipNow (ch : Nat) (s : State) : (skipNow ch s).pending = s.pending := by
  unfold skipNow
  split <;> simp

@[simp] theorem pending_arbTake (e ch : Nat) (s : State) : (arbTake e ch s).pending = s.pending := by simp [arbTake]
@[simp] theorem pending_arbEnd (e ch : Nat) (s : State) : (arbEnd e ch s).pending = s.pending := by simp [arbEnd]

@[simp] theorem pending_dmaBeat (e ch : Nat) (due : Bool) (beat : State → State) (s : State) (h : KeepsQueue beat) :
    (dmaBeat e ch due beat s).pending = s.pending := by
  unfold dmaBeat
  split
  · exact (h _).trans (by simp)
  · rfl

@[simp] theorem pending_abortReport (ch : Nat) (sup : Bool) (s : State) : (abortReport ch sup s).pending = s.pending := by
  simp [abortReport]

@[simp] theorem goesOn_execDmaHeadPoll (ch : Fin 32) (s : State) : GoesOn s (execDmaHeadPoll ch s) := by simp [execDmaHeadPoll]
@[simp] theorem pending_readStep (ch : Nat) (s : State) : (readStep ch s).pending = s.pending := by simp [readStep]
@[simp] theorem goesOn_execDmaReadBeat (ch : Fin 32) (s : State) : GoesOn s (execDmaReadBeat ch s) := by simp [execDmaReadBeat]

@[simp] theorem goesOn_execDmaWriteBeat (ch : Fin 32) (s : State) : GoesOn s (execDmaWriteBeat ch s) := by
  simp [execDmaWriteBeat]

@[simp] theorem pending_retryWrite (ch : Nat) (s : State) : (retryWrite ch s).pending = s.pending := by
  unfold retryWrite
  dsimp only
  split <;> simp

@[simp] theorem goesOn_execDmaBeatRetry (ch : Fin 32) (s : State) : GoesOn s (execDmaBeatRetry ch s) := by
  simp [execDmaBeatRetry]

@[simp] theorem goesOn_execDmaStatusWriteback (ch : Fin 32) (s : State) : GoesOn s (execDmaStatusWriteback ch s) := by
  simp [execDmaStatusWriteback]

@[simp] theorem goesOn_execDmaOwnClear (ch : Fin 32) (s : State) : GoesOn s (execDmaOwnClear ch s) := by simp [execDmaOwnClear]

@[simp] theorem goesOn_execDmaHeadAdvance (ch : Fin 32) (s : State) : GoesOn s (execDmaHeadAdvance ch s) := by
  simp [execDmaHeadAdvance]

@[simp] theorem goesOn_execDmaAbortSettle (ch : Fin 32) (s : State) : GoesOn s (execDmaAbortSettle ch s) := by
  simp [execDmaAbortSettle]

@[simp] theorem pending_dmaAbort (ch : Nat) (sup : Bool) (s : State) : (dmaAbort ch sup s).pending = s.pending := by
  simp [dmaAbort]

@[simp] theorem pending_writeDmaEnable (ch v : Nat) (s : State) : (writeDmaEnable ch v s).1.pending = s.pending := by
  simp [writeDmaEnable]

@[simp] theorem pending_dmaSkip (ch : Nat) (s : State) : (dmaSkip ch s).pending = s.pending := by simp [dmaSkip]

@[simp] theorem pending_writeDmaCmd (ch v : Nat) (s : State) : (writeDmaCmd ch v s).1.pending = s.pending := by
  unfold writeDmaCmd
  split <;> simp

@[simp] theorem pending_dmaClearBits (ch v : Nat) (s : State) : (dmaClearBits ch v s).pending = s.pending := by
  simp [dmaClearBits]

/-! ### Shifts -/

@[simp] theorem keepsHv_shiftMemBody (k : Shift) (o : Operand) (n : Byte) (c : Cx) (r : Regs) :
    KeepsHv (shiftMemBody k o n c r) := by
  simp [shiftMemBody]

@[simp] theorem goesOn_runShift (k : Shift) (u : Agent) (p : Prefix) (n : Byte) (s : State) : GoesOn s (runShift k u p n s) := by
  simp [runShift]

@[simp] theorem goesOn_runShiftMem (k : Shift) (u : Agent) (p : Prefix) (o : Operand) (n : Byte) (s : State) :
    GoesOn s (runShiftMem k u p o n s) := by
  simp [runShiftMem]

@[simp] theorem goesOn_execLsl (u : Agent) (p : Prefix) (n : Byte) (s : State) : GoesOn s (execLsl u p n s) := by simp [execLsl]
@[simp] theorem goesOn_execLsr (u : Agent) (p : Prefix) (n : Byte) (s : State) : GoesOn s (execLsr u p n s) := by simp [execLsr]
@[simp] theorem goesOn_execAsr (u : Agent) (p : Prefix) (n : Byte) (s : State) : GoesOn s (execAsr u p n s) := by simp [execAsr]
@[simp] theorem goesOn_execRol (u : Agent) (p : Prefix) (n : Byte) (s : State) : GoesOn s (execRol u p n s) := by simp [execRol]

@[simp] theorem goesOn_execLslMem (u : Agent) (p : Prefix) (o : Operand) (n : Byte) (s : State) :
    GoesOn s (execLslMem u p o n s) := by
  simp [execLslMem]

@[simp] theorem goesOn_execLsrMem (u : Agent) (p : Prefix) (o : Operand) (n : Byte) (s : State) :
    GoesOn s (execLsrMem u p o n s) := by
  simp [execLsrMem]

@[simp] theorem goesOn_execAsrMem (u : Agent) (p : Prefix) (o : Operand) (n : Byte) (s : State) :
    GoesOn s (execAsrMem u p o n s) := by
  simp [execAsrMem]

@[simp] theorem goesOn_execRolMem (u : Agent) (p : Prefix) (o : Operand) (n : Byte) (s : State) :
    GoesOn s (execRolMem u p o n s) := by
  simp [execRolMem]

/-! ### UserOps -/

@[simp] theorem keepsHv_readUop (c : Cx) (o : Operand) (arg : Word) (form : Nat) (b : UserSt) (u : Nat) :
    KeepsHv (readUop c o arg form b u) := by
  unfold readUop
  dsimp only
  split <;> simp

/-- A fold whose steps leave the queue as it is leaves it. -/
theorem keepsHv_foldlM {α β : Type} (f : β → α → Hv β) (h : ∀ b a, KeepsHv (f b a)) (l : List α) (b : β) :
    KeepsHv (l.foldlM f b) := by
  induction l generalizing b with
  | nil => exact keepsHv_pure b
  | cons a l ih =>
    rw [List.foldlM_cons]
    exact keepsHv_bind _ _ (h b a) ih

@[simp] theorem keepsHv_runStep (c : Cx) (o : Operand) (arg : Word) (form : Nat) (st : List Nat) (b : UserSt) :
    KeepsHv (runStep c o arg form st b) := by
  unfold runStep
  dsimp only
  refine keepsHv_bind _ _ (keepsHv_foldlM _ (fun x u => by simp) _ _) fun x => ?_
  split
  · exact keepsHv_bind _ _ (by simp) fun _ => keepsHv_bind _ _ (keepsHv_dWrites c _) fun _ => keepsHv_pure _
  · exact keepsHv_bind _ _ (keepsHv_dWrites c _) fun _ => keepsHv_pure _

@[simp] theorem keepsHv_farStep (c : Cx) (b : UserSt) : KeepsHv (farStep c b) := by
  unfold farStep
  split
  · simp
  · exact keepsHv_bind _ _ (by simp) fun _ => keepsHv_bind _ _ keepsHv_get fun _ => keepsHv_pure _

@[simp] theorem keepsHv_runSteps (c : Cx) (o : Operand) (arg : Word) (form : Nat) (l : List (List Nat)) (b : UserSt)
    (ws : List (DAddr × Word)) : KeepsHv (runSteps c o arg form l b ws) := by
  induction l generalizing c b ws with
  | nil => exact keepsHv_pure _
  | cons st rest ih =>
    exact keepsHv_bind _ _ (keepsHv_farStep c b) fun b => keepsHv_bind _ _ (keepsHv_runStep c o arg form st b) fun x => ih _ x _

@[simp] theorem keepsHv_userBody (e : Nat) (o : Operand) (arg : Word) (c : Cx) (r : Regs) : KeepsHv (userBody e o arg c r) := by
  unfold userBody
  dsimp only
  refine keepsHv_bind _ _ (keepsHv_runSteps c o arg _ _ _ _) fun x => ?_
  split
  · exact keepsHv_bind _ _ (by simp) fun _ => keepsHv_pure _
  · exact keepsHv_pure _

@[simp] theorem goesOn_execUserOpcode (u : Agent) (p : Prefix) (i : Fin 16) (arg : UserArg) (s : State) :
    GoesOn s (execUserOpcode u p i arg s) := by
  simp [execUserOpcode]

/-! ### Loader -/

@[simp] theorem pending_clearUd (n : Nat) (s : State) : (clearUd n s).pending = s.pending := by simp [clearUd]

@[simp] theorem pending_loadLane (n : Nat) (bs : List Byte) (s : State) : (loadLane n bs s).pending = s.pending := by
  simp [loadLane]

/-! ### Tables -/

@[simp] theorem pending_writeDtEntry (core : Bool) (k i e : Nat) (s : State) :
    (writeDtEntry core k i e s).1.pending = s.pending := by
  simp [writeDtEntry]

@[simp] theorem pending_writeDtClear (core : Bool) (k : Nat) (s : State) : (writeDtClear core k s).1.pending = s.pending := by
  simp [writeDtClear]

/-! ### Supervise -/

@[simp] theorem pending_writeCoreCmd (c v : Nat) (s : State) : (writeCoreCmd c v s).1.pending = s.pending := by
  simp [writeCoreCmd]

@[simp] theorem pending_coreClearBits (c v : Nat) (s : State) : (coreClearBits c v s).pending = s.pending := by
  simp [coreClearBits]

@[simp] theorem goesOn_execRing (c : Fin 8) (w : Word) (s : State) : GoesOn s (execRing c w s) := by simp [execRing]
@[simp] theorem goesOn_execIclr (c : Fin 8) (w : Word) (s : State) : GoesOn s (execIclr c w s) := by simp [execIclr]
@[simp] theorem goesOn_execTcmp (c : Fin 8) (w : Word) (s : State) : GoesOn s (execTcmp c w s) := by simp [execTcmp]
@[simp] theorem goesOn_execTimerCompare (c : Fin 8) (s : State) : GoesOn s (execTimerCompare c s) := by simp [execTimerCompare]

@[simp] theorem goesOn_execSchHoldLimitExpiry (slot : Fin 512) (s : State) : GoesOn s (execSchHoldLimitExpiry slot s) := by
  unfold execSchHoldLimitExpiry
  split <;> simp

@[simp] theorem goesOn_execSupGraceExpiry (c : Fin 8) (s : State) : GoesOn s (execSupGraceExpiry c s) := by
  simp [execSupGraceExpiry]

@[simp] theorem goesOn_execSupEngineLimitExpiry (e : Engine) (s : State) : GoesOn s (execSupEngineLimitExpiry e s) := by
  simp [execSupEngineLimitExpiry]

@[simp] theorem pending_writeSupCmd (v : Nat) (s : State) : (writeSupCmd v s).1.pending = s.pending := by
  unfold writeSupCmd
  dsimp only
  repeat' split
  all_goals simp

@[simp] theorem pending_writeHandleCancel (h : Nat) (s : State) : (writeHandleCancel h s).1.pending = s.pending := by
  unfold writeHandleCancel
  split
  · rfl
  · split
    · rfl
    · split <;> simp

@[simp] theorem pending_wdtRestart (s : State) : (wdtRestart s).pending = s.pending := by simp [wdtRestart]
@[simp] theorem goesOn_execWatchdogRestart (s : State) : GoesOn s (execWatchdogRestart s) := by simp [execWatchdogRestart]

@[simp] theorem pending_clearBitsOf (p : Nat → Bool) (base bits : Nat) (r : Reg) (s : State) :
    (clearBitsOf p base bits r s).pending = s.pending := by
  simp [clearBitsOf]

@[simp] theorem pending_fltClear (v : Nat) (s : State) : (fltClear v s).pending = s.pending := by simp [fltClear]

@[simp] theorem pending_writeFltClear (v : Nat) (s : State) : (writeFltClear v s).1.pending = s.pending := by
  simp [writeFltClear]

@[simp] theorem pending_putTemps (t0 t1 : BitVec 16) (s : State) : (putTemps t0 t1 s).pending = s.pending := by simp [putTemps]

@[simp] theorem goesOn_execJunctionWarning (t0 t1 : BitVec 16) (s : State) : GoesOn s (execJunctionWarning t0 t1 s) := by
  simp [execJunctionWarning]

@[simp] theorem goesOn_execJunctionCooled (t0 t1 : BitVec 16) (s : State) : GoesOn s (execJunctionCooled t0 t1 s) := by
  simp [execJunctionCooled]

@[simp] theorem goesOn_execSensorImplausible (t0 t1 : BitVec 16) (s : State) : GoesOn s (execSensorImplausible t0 t1 s) := by
  simp [execSensorImplausible]

/-! ### Power -/

@[simp] theorem pending_enterHoldSafe (s : State) : (enterHoldSafe s).pending = s.pending := by simp [enterHoldSafe]

@[simp] theorem pending_supplyWarning (code unit : Nat) (mv : BitVec 16) (s : State) :
    (supplyWarning code unit mv s).pending = s.pending := by
  simp [supplyWarning]

@[simp] theorem pending_holdRecovery (s : State) : (holdRecovery s).pending = s.pending := by simp [holdRecovery]
@[simp] theorem pending_putVin (mv : BitVec 16) (s : State) : (putVin mv s).pending = s.pending := by simp [putVin]
@[simp] theorem pending_putCore (mv : BitVec 16) (s : State) : (putCore mv s).pending = s.pending := by simp [putCore]
@[simp] theorem goesOn_execVinWarning (mv : BitVec 16) (s : State) : GoesOn s (execVinWarning mv s) := by simp [execVinWarning]

@[simp] theorem goesOn_execVinRecovery (mv : BitVec 16) (s : State) : GoesOn s (execVinRecovery mv s) := by
  simp [execVinRecovery]

@[simp] theorem goesOn_execVinHigh (mv : BitVec 16) (s : State) : GoesOn s (execVinHigh mv s) := by simp [execVinHigh]

@[simp] theorem goesOn_execCoreRailWarning (mv : BitVec 16) (s : State) : GoesOn s (execCoreRailWarning mv s) := by
  simp [execCoreRailWarning]

@[simp] theorem goesOn_execCoreRailRecovery (mv : BitVec 16) (s : State) : GoesOn s (execCoreRailRecovery mv s) := by
  simp [execCoreRailRecovery]

@[simp] theorem goesOn_execHoldSafeEnd (s : State) : GoesOn s (execHoldSafeEnd s) := by simp [execHoldSafeEnd]
@[simp] theorem goesOn_execPllUnlock (i : Fin 3) (s : State) : GoesOn s (execPllUnlock i s) := by simp [execPllUnlock]
@[simp] theorem goesOn_execPllLockHeld (i : Fin 3) (s : State) : GoesOn s (execPllLockHeld i s) := by simp [execPllLockHeld]
@[simp] theorem pending_wrapCount (s : State) : (wrapCount s).pending = s.pending := by simp [wrapCount]
@[simp] theorem goesOn_execCounterWrap (s : State) : GoesOn s (execCounterWrap s) := by simp [execCounterWrap]
@[simp] theorem pending_noteBusy (n : Nat) (s : State) : (noteBusy n s).pending = s.pending := by simp [noteBusy]
@[simp] theorem pending_passTicks (n : Nat) (s : State) : (passTicks n s).pending = s.pending := by simp [passTicks]
@[simp] theorem pending_tick (s : State) : (tick s).pending = s.pending := by simp [tick]
@[simp] theorem pending_toAlignment (s : State) : (toAlignment s).pending = s.pending := by simp [toAlignment]

@[simp] theorem pending_writePwrRequest (v : Nat) (s : State) : (writePwrRequest v s).1.pending = s.pending := by
  simp [writePwrRequest]

@[simp] theorem pending_exitDormant (cause : Nat) (s : State) : (exitDormant cause s).pending = s.pending := by
  simp [exitDormant]

@[simp] theorem pending_wakeBy (sources : Nat) (s : State) : (wakeBy sources s).pending = s.pending := by
  unfold wakeBy
  split <;> simp

@[simp] theorem pending_dropHold (s : State) : (dropHold s).pending = s.pending := by simp [dropHold]
@[simp] theorem goesOn_execNapEntryComplete (s : State) : GoesOn s (execNapEntryComplete s) := by simp [execNapEntryComplete]
@[simp] theorem goesOn_execWakeEvent (sources : Byte) (s : State) : GoesOn s (execWakeEvent sources s) := by simp [execWakeEvent]
@[simp] theorem goesOn_execWakeTimerExpiry (s : State) : GoesOn s (execWakeTimerExpiry s) := by simp [execWakeTimerExpiry]
@[simp] theorem goesOn_execServiceNHoldWake (s : State) : GoesOn s (execServiceNHoldWake s) := by simp [execServiceNHoldWake]
@[simp] theorem goesOn_execWakeComplete (s : State) : GoesOn s (execWakeComplete s) := by simp [execWakeComplete]

@[simp] theorem goesOn_execGpEdge (k : Fin 16) (level : Bool) (s : State) : GoesOn s (execGpEdge k level s) := by
  simp [execGpEdge]

@[simp] theorem pending_clearGpEdge (w : Nat) (s : State) : (clearGpEdge w s).pending = s.pending := by simp [clearGpEdge]

@[simp] theorem pending_supplyClearBits (v : Nat) (s : State) : (supplyClearBits v s).pending = s.pending := by
  simp [supplyClearBits]

/-! ### Identity -/

@[simp] theorem pending_noteImage (a : Nat) (x : Source) (s : State) : (noteImage a x s).pending = s.pending := by
  simp [noteImage]

@[simp] theorem pending_writeCustKey (n key : Nat) (s : State) : (writeCustKey n key s).1.pending = s.pending := by
  simp [writeCustKey]

@[simp] theorem pending_writeShowQuorum (v : Nat) (s : State) : (writeShowQuorum v s).1.pending = s.pending := by
  simp [writeShowQuorum]

@[simp] theorem pending_writeFullErase (p v : Nat) (s : State) : (writeFullErase p v s).1.pending = s.pending := by
  simp [writeFullErase]

@[simp] theorem goesOn_execFullEraseComplete (s : State) : GoesOn s (execFullEraseComplete s) := by
  refine goesOn_clocked _ s fun s => ?_
  repeat' split
  all_goals simp

@[simp] theorem pending_writeAttNonce (nonce : Nat) (s : State) : (writeAttNonce nonce s).1.pending = s.pending := by
  simp [writeAttNonce]

@[simp] theorem goesOn_execAttestationComplete (s : State) : GoesOn s (execAttestationComplete s) := by
  simp [execAttestationComplete]

@[simp] theorem pending_writeDbgToken (t : List Byte) (s : State) : (writeDbgToken t s).1.pending = s.pending := by
  simp [writeDbgToken]

@[simp] theorem pending_startVerify (p : Nat) (s : State) : (startVerify p s).1.pending = s.pending := by simp [startVerify]

@[simp] theorem goesOn_execVfyComplete (s : State) : GoesOn s (execVfyComplete s) := by
  refine goesOn_clocked _ s fun s => ?_
  repeat' split
  all_goals simp

@[simp] theorem pending_setTap (code : Byte) (s : State) : (setTap code s).pending = s.pending := by simp [setTap]

@[simp] theorem pending_tapScoped (code : Byte) (bit : Nat) (s : State) : (tapScoped code bit s).pending = s.pending := by
  simp [tapScoped]

@[simp] theorem goesOn_execExtest (s : State) : GoesOn s (execExtest s) := by simp [execExtest]
@[simp] theorem goesOn_execSamplePreload (s : State) : GoesOn s (execSamplePreload s) := by simp [execSamplePreload]
@[simp] theorem goesOn_execIdcode (s : State) : GoesOn s (execIdcode s) := by simp [execIdcode]

@[simp] theorem goesOn_execBypass (code : Byte) (s : State) : GoesOn s (execBypass code s) := by
  unfold execBypass
  split <;> simp

@[simp] theorem goesOn_execDbgCore (s : State) : GoesOn s (execDbgCore s) := by simp [execDbgCore]
@[simp] theorem goesOn_execDbgFabric (s : State) : GoesOn s (execDbgFabric s) := by simp [execDbgFabric]
@[simp] theorem goesOn_execDbgTrace (s : State) : GoesOn s (execDbgTrace s) := by simp [execDbgTrace]
@[simp] theorem goesOn_execTapReset (s : State) : GoesOn s (execTapReset s) := by simp [execTapReset]

/-! ### Show -/

@[simp] theorem pending_applyTables (ss : List ShowSection) (s : State) : (applyTables ss s).pending = s.pending := by
  unfold applyTables
  refine pending_forList _ _ _ fun x t => ?_
  split <;> simp

@[simp] theorem pending_loadPrograms (ss : List ShowSection) (s : State) : (loadPrograms ss s).1.pending = s.pending := by
  fun_induction loadPrograms ss s with
  | case1 => rfl
  | case2 => rfl
  | case3 _ _ _ _ _ _ _ _ ih => exact ih.trans (pending_loadLane _ _ _)
  | case4 _ _ _ _ ih => exact ih

@[simp] theorem pending_applyRest (ss : List ShowSection) (s : State) : (applyRest ss s).pending = s.pending := by
  unfold applyRest
  refine pending_forList _ _ _ fun x t => ?_
  split <;> simp

@[simp] theorem pending_spectraRefused (ss : List ShowSection) (s : State) : (spectraRefused ss s).1.pending = s.pending := by
  fun_induction spectraRefused ss s with
  | case1 => rfl
  | case2 _ _ _ s _ _ h _ => exact (congrArg (fun x => x.1.pending) h).symm.trans (pending_showSpectraRefused _ _ s)
  | case3 _ _ _ _ _ _ _ _ ih => exact ih
  | case4 _ _ _ _ ih => exact ih

@[simp] theorem pending_applySections (p : Nat) (ss : List ShowSection) (s : State) :
    (applySections p ss s).1.pending = s.pending := by
  simp [applySections]

@[simp] theorem pending_startLoad (p source : Nat) (boot : Bool) (s : State) :
    (startLoad p source boot s).pending = s.pending := by
  simp [startLoad]

@[simp] theorem pending_showUnadmitted (s : State) : (showUnadmitted s).1.pending = s.pending := by simp [showUnadmitted]

@[simp] theorem pending_writeShowLoad (p v : Nat) (s : State) : (writeShowLoad p v s).1.pending = s.pending := by
  simp [writeShowLoad]

@[simp] theorem goesOn_execShowSlotWriteComplete (s : State) : GoesOn s (execShowSlotWriteComplete s) := by
  refine goesOn_clocked _ s fun s => ?_
  repeat' split
  all_goals simp

@[simp] theorem pending_finishLoad (h : Handle) (s : State) : (finishLoad h s).pending = s.pending := by
  unfold finishLoad
  split <;> simp

/-! ### Service -/

@[simp] theorem goesOn_execMeterUpdate (s : State) : GoesOn s (execMeterUpdate s) := by simp [execMeterUpdate]
@[simp] theorem goesOn_execLevelUpdate (s : State) : GoesOn s (execLevelUpdate s) := by simp [execLevelUpdate]

@[simp] theorem pending_putLevelChannel (v : Nat) (s : State) : (putLevelChannel v s).pending = s.pending := by
  simp [putLevelChannel]

@[simp] theorem pending_toneCause (b : Bool) (c : Nat) (s : State) : (toneCause b c s).pending = s.pending := by simp [toneCause]

@[simp] theorem pending_aimTone (v : Nat) (s : State) : (aimTone v s).pending = s.pending := by
  unfold aimTone
  dsimp only
  split <;> simp

@[simp] theorem pending_writeToneChannel (v : Nat) (s : State) : (writeToneChannel v s).1.pending = s.pending := by
  simp [writeToneChannel]

@[simp] theorem goesOn_execToneSwitch (s : State) : GoesOn s (execToneSwitch s) := by simp [execToneSwitch]

@[simp] theorem goesOn_execServiceNRise (s : State) : GoesOn s (execServiceNRise s) := by
  unfold execServiceNRise
  dsimp only
  split <;> simp

@[simp] theorem pending_startBist (p : Nat) (s : State) : (startBist p s).1.pending = s.pending := by simp [startBist]

@[simp] theorem goesOn_execBistComplete (failDetail : Option Word) (s : State) : GoesOn s (execBistComplete failDetail s) := by
  refine goesOn_clocked _ s fun s => ?_
  repeat' split
  all_goals simp

/-! ### Codec -/

@[simp] theorem pending_setCodec (c : Codec) (s : State) : (setCodec c s).pending = s.pending := by simp [setCodec]

@[simp] theorem pending_writeCdcEntry (v : Nat) (s : State) : (writeCdcEntry v s).1.pending = s.pending := by
  simp [writeCdcEntry]

@[simp] theorem pending_startWord (e : BitVec 64) (s : State) : (startWord e s).pending = s.pending := by simp [startWord]

@[simp] theorem pending_nextWord (s : State) : (nextWord s).pending = s.pending := by
  unfold nextWord
  split <;> simp

@[simp] theorem goesOn_execCodecEntryStart (s : State) : GoesOn s (execCodecEntryStart s) := by simp [execCodecEntryStart]
@[simp] theorem pending_dropEntry (s : State) : (dropEntry s).pending = s.pending := by simp [dropEntry]

@[simp] theorem pending_betweenWords (e : BitVec 64) (s : State) : (betweenWords e s).pending = s.pending := by
  simp [betweenWords]

@[simp] theorem pending_pushReply (e : BitVec 64) (rx : Word) (s : State) : (pushReply e rx s).pending = s.pending := by
  simp [pushReply]

@[simp] theorem goesOn_execCodecWordComplete (rx : Word) (s : State) : GoesOn s (execCodecWordComplete rx s) := by
  unfold execCodecWordComplete
  dsimp only
  repeat' split
  all_goals simp

@[simp] theorem pending_flushCodec (v : Nat) (s : State) : (flushCodec v s).pending = s.pending := by simp [flushCodec]

@[simp] theorem pending_readRxWord (s : State) : (readRxWord s).2.pending = s.pending := by
  unfold readRxWord
  split <;> simp

@[simp] theorem pending_readRxBlock (s : State) : (readRxBlock s).2.pending = s.pending := by simp [readRxBlock]

/-! ### Persist -/

@[simp] theorem pending_writeStore (p sub v : Nat) (s : State) : (writeStore p sub v s).1.pending = s.pending := by
  simp [writeStore]

@[simp] theorem pending_writeRestore (p sub v : Nat) (s : State) : (writeRestore p sub v s).1.pending = s.pending := by
  simp [writeRestore]

@[simp] theorem pending_putSet (m : Map Nat) (s : State) : (putSet m s).pending = s.pending := by simp [putSet]
@[simp] theorem pending_patchSet (m : Map Nat) (s : State) : (patchSet m s).pending = s.pending := by simp [patchSet]
@[simp] theorem pending_canStart (s : State) : (canStart s).pending = s.pending := by simp [canStart]
@[simp] theorem pending_endSilence (s : State) : (endSilence s).pending = s.pending := by simp [endSilence]

@[simp] theorem goesOn_execStoreComplete (ok : Bool) (s : State) : GoesOn s (execStoreComplete ok s) := by
  refine goesOn_clocked _ s fun s => ?_
  repeat' split
  all_goals simp

@[simp] theorem goesOn_execRestoreComplete (s : State) : GoesOn s (execRestoreComplete s) := by
  refine goesOn_clocked _ s fun s => ?_
  repeat' split
  all_goals simp

/-! ### Views -/

@[simp] theorem pending_dictRead (p idx sub : Nat) (s : State) : (dictRead p idx sub s).2.1.pending = s.pending := by
  unfold dictRead
  split
  · rfl
  · dsimp only
    repeat' split
    all_goals simp

@[simp] theorem pending_answer (p key abort : Nat) (value : List Byte) (s : State) :
    (answer p key abort value s).pending = s.pending := by
  simp [answer]

/-! ### Dict -/

@[simp] theorem pending_afterWrite (idx sub v : Nat) (s : State) : (afterWrite idx sub v s).pending = s.pending := by
  simp [afterWrite]

@[simp] theorem pending_writeHvTail (v : Nat) (s : State) : (writeHvTail v s).1.pending = s.pending := by simp [writeHvTail]
@[simp] theorem pending_lockDebug (s : State) : (lockDebug s).pending = s.pending := by simp [lockDebug]

@[simp] theorem pending_putPortEnable (g v : Nat) (s : State) : (putPortEnable g v s).1.pending = s.pending := by
  simp [putPortEnable]

/-- A write that may be a command leaves the queue as it is. -/
def AnswerKeeps (s : State) (o : Option (State × Nat)) : Prop := ∀ x, o = some x → x.1.pending = s.pending

@[simp] theorem answerKeeps_none (s : State) : AnswerKeeps s none := fun _ h => nomatch h

@[simp] theorem answerKeeps_some (s : State) (x : State × Nat) : AnswerKeeps s (some x) ↔ x.1.pending = s.pending :=
  ⟨fun h => h x rfl, fun h _ e => Option.some.inj e ▸ h⟩

theorem AnswerKeeps.ite {s : State} {a b : Option (State × Nat)} (c : Prop) [Decidable c] (ha : AnswerKeeps s a)
    (hb : AnswerKeeps s b) : AnswerKeeps s (if c then a else b) := by
  split
  · exact ha
  · exact hb

theorem AnswerKeeps.getD {s : State} {o : Option (State × Nat)} {d : State × Nat} (h : AnswerKeeps s o)
    (hd : d.1.pending = s.pending) : (o.getD d).1.pending = s.pending := by
  cases o with
  | none => exact hd
  | some x => exact h x rfl

theorem answerKeeps_command0 (p idx sub v : Nat) (s : State) : AnswerKeeps s (command0 p idx sub v s) := by
  unfold command0
  dsimp only
  repeat' refine AnswerKeeps.ite _ ?_ ?_
  any_goals simp
  · split <;> simp
  · split <;> simp

theorem answerKeeps_command1 (p item idx sub v : Nat) (s : State) : AnswerKeeps s (command1 p item idx sub v s) := by
  unfold command1
  dsimp only
  repeat' refine AnswerKeeps.ite _ ?_ ?_
  any_goals simp
  split <;> simp

theorem answerKeeps_command2 (p idx sub v : Nat) (data : List Byte) (s : State) : AnswerKeeps s (command2 p idx sub v data s) := by
  unfold command2
  dsimp only
  repeat' refine AnswerKeeps.ite _ ?_ ?_
  all_goals simp

theorem answerKeeps_command (p item idx sub v : Nat) (data : List Byte) (s : State) :
    AnswerKeeps s (command p item idx sub v data s) := by
  unfold command
  repeat' split
  · exact answerKeeps_command0 p idx sub v s
  · exact answerKeeps_command1 p item idx sub v s
  · exact answerKeeps_command2 p idx sub v data s

@[simp] theorem pending_writePlain (p item : Nat) (r : ObjRow) (idx sub v : Nat) (s : State) :
    (writePlain p item r idx sub v s).1.pending = s.pending := by
  unfold writePlain
  split <;> simp

@[simp] theorem pending_writeValue (p item : Nat) (r : ObjRow) (idx sub v : Nat) (data : List Byte) (s : State) :
    (writeValue p item r idx sub v data s).1.pending = s.pending := by
  unfold writeValue
  dsimp only
  split
  · rfl
  · cases hc : command p item idx sub (dropReserved r idx sub v) data s with
    | none =>
      dsimp only
      split <;> simp
    | some x =>
      dsimp only
      split
      · rfl
      · exact answerKeeps_command _ _ _ _ _ _ _ _ hc

@[simp] theorem pending_guardMismatch (p idx sub : Nat) (s : State) : (guardMismatch p idx sub s).pending = s.pending := by
  simp [guardMismatch]

@[simp] theorem pending_dictWrite (p idx sub : Nat) (data : List Byte) (s : State) :
    (dictWrite p idx sub data s).1.pending = s.pending := by
  unfold dictWrite
  split <;> simp

@[simp] theorem pending_serveLink (s : State) : (serveLink s).pending = s.pending := by
  unfold serveLink
  dsimp only
  split
  · rfl
  · repeat' split
    all_goals simp

@[simp] theorem pending_readObject (p idx sub : Nat) (s : State) : (readObject p idx sub s).pending = s.pending := by
  simp [readObject]

@[simp] theorem pending_writeObject (p : Path) (idx sub : Nat) (data : List Byte) (s : State) :
    (writeObject p idx sub data s).pending = s.pending := by
  simp [writeObject]

@[simp] theorem pending_writeNat (p : Path) (idx sub n v : Nat) (s : State) : (writeNat p idx sub n v s).pending = s.pending := by
  simp [writeNat]

/-! ### Boot -/

@[simp] theorem pending_storedFault (code k : Nat) (s : State) : (storedFault code k s).pending = s.pending := by
  simp [storedFault]

@[simp] theorem pending_applyIndex (xs : List (Nat × Nat)) (s : State) : (applyIndex xs s).pending = s.pending := by
  simp [applyIndex]

@[simp] theorem pending_applyGroup (g : Nat) (s : State) : (applyGroup g s).pending = s.pending := by
  unfold applyGroup
  dsimp only
  repeat' split
  all_goals simp

@[simp] theorem pending_applyUnits (s : State) : (applyUnits s).pending = s.pending := by simp [applyUnits]

@[simp] theorem pending_applyEnable (again : Bool) (x : Nat × Nat) (s : State) : (applyEnable again x s).pending = s.pending := by
  have h := (answerKeeps_command1 0 (keyItem x.1) (keyIndex x.1) (keySub x.1) x.2 s).getD
    ((answerKeeps_command0 0 (keyIndex x.1) (keySub x.1) x.2 s).getD (d := (s, abNone)) rfl)
  unfold applyEnable
  dsimp only
  split
  · simp
  · split
    · split <;> simp
    · repeat' split
      all_goals simpa using h

@[simp] theorem pending_applyStored (s : State) : (applyStored s).pending = s.pending := by simp [applyStored]
@[simp] theorem pending_applyDeferred (s : State) : (applyDeferred s).pending = s.pending := by simp [applyDeferred]
@[simp] theorem pending_enterRecovery (s : State) : (enterRecovery s).pending = s.pending := by simp [enterRecovery]
@[simp] theorem pending_endBoot (s : State) : (endBoot s).pending = s.pending := by simp [endBoot]
@[simp] theorem pending_bootShow (s : State) : (bootShow s).pending = s.pending := by simp [bootShow]

@[simp] theorem pending_runFirmware (k bootTime : Nat) (s : State) : (runFirmware k bootTime s).pending = s.pending := by
  simp [runFirmware]

@[simp] theorem goesOn_execBootFirmwareStart (bootTime : Word) (s : State) : GoesOn s (execBootFirmwareStart bootTime s) := by
  refine (goesOn_next _ _).2 ?_
  repeat' split
  all_goals simp

@[simp] theorem pending_bootShowEnded (h : Handle) (s : State) : (bootShowEnded h s).pending = s.pending := by
  unfold bootShowEnded
  split <;> simp

@[simp] theorem goesOn_execShowLoadComplete (s : State) : GoesOn s (execShowLoadComplete s) := by
  refine goesOn_clocked _ s fun s => ?_
  split <;> simp

@[simp] theorem goesOn_execDramClearComplete (s : State) : GoesOn s (execDramClearComplete s) := by simp [execDramClearComplete]

@[simp] theorem pending_rcvReport (state status : Nat) (s : State) : (rcvReport state status s).pending = s.pending := by
  simp [rcvReport]

@[simp] theorem goesOn_execRecoveryPoll (s : State) : GoesOn s (execRecoveryPoll s) := by simp [execRecoveryPoll]
@[simp] theorem goesOn_execRcvProgram (s : State) : GoesOn s (execRcvProgram s) := by simp [execRcvProgram]

@[simp] theorem goesOn_execRcvProgramComplete (s : State) : GoesOn s (execRcvProgramComplete s) := by
  unfold execRcvProgramComplete
  dsimp only
  repeat' split
  all_goals simp

@[simp] theorem goesOn_execRcvEnd (boot : BitVec 2) (s : State) : GoesOn s (execRcvEnd boot s) := by simp [execRcvEnd]

/-! ### Can -/

@[simp] theorem pending_setCan (c : Can) (s : State) : (setCan c s).pending = s.pending := by simp [setCan]
@[simp] theorem pending_canHeard (s : State) : (canHeard s).pending = s.pending := by simp [canHeard]

@[simp] theorem pending_heard (s : State) (run : State → State) (h : KeepsQueue run) : (heard s run).pending = s.pending :=
  (h _).trans (pending_canHeard s)

@[simp] theorem pending_endSession (client : Byte) (s : State) : (endSession client s).pending = s.pending := by
  simp [endSession]

@[simp] theorem goesOn_execUsdoDownload (client : Byte) (index : BitVec 16) (sub : Byte) (data : List Byte) (more : Bool)
    (s : State) :
    GoesOn s (execUsdoDownload client index sub data more s) := by
  simp [execUsdoDownload]

@[simp] theorem goesOn_execUsdoUpload (client : Byte) (index : BitVec 16) (sub : Byte) (s : State) :
    GoesOn s (execUsdoUpload client index sub s) := by
  simp [execUsdoUpload]

@[simp] theorem goesOn_execUsdoIdleTimeout (client : Byte) (s : State) : GoesOn s (execUsdoIdleTimeout client s) := by
  simp [execUsdoIdleTimeout]

@[simp] theorem pending_applyPdo (l : List (Nat × List Byte)) (s : State) : (applyPdo l s).1.pending = s.pending := by
  induction l generalizing s with
  | nil => rfl
  | cons x l ih => exact (ih _).trans (pending_dictWrite _ _ _ _ s)

@[simp] theorem pending_pdoGuardFaults (es : List (Nat × List Byte)) (s : State) : (pdoGuardFaults es s).pending = s.pending := by
  unfold pdoGuardFaults
  refine pending_forList _ _ _ fun x t => ?_
  split <;> simp

@[simp] theorem pending_fieldFault (code node : Nat) (s : State) : (fieldFault code node s).pending = s.pending := by
  simp [fieldFault]

@[simp] theorem pending_takeRpdo (k : Nat) (data : List Byte) (s : State) : (takeRpdo k data s).pending = s.pending := by
  simp [takeRpdo]

@[simp] theorem goesOn_execRpdoReceive (k : Fin 16) (data : List Byte) (s : State) : GoesOn s (execRpdoReceive k data s) := by
  simp [execRpdoReceive]

@[simp] theorem pending_samplePdo (l : List Nat) (s : State) : (samplePdo l s).2.pending = s.pending := by
  induction l generalizing s with
  | nil => rfl
  | cons e l ih => exact (ih _).trans (pending_dictRead _ _ _ s)

@[simp] theorem pending_putSample (k : Nat) (d : List Byte) (s : State) : (putSample k d s).pending = s.pending := by
  simp [putSample]

@[simp] theorem pending_sendTpdo (k : Nat) (d : List Byte) (s : State) : (sendTpdo k d s).pending = s.pending := by
  simp [sendTpdo]

@[simp] theorem pending_offerTpdo (k : Nat) (d : List Byte) (s : State) : (offerTpdo k d s).pending = s.pending := by
  simp [offerTpdo]

@[simp] theorem goesOn_execTpdoValueSample (s : State) : GoesOn s (execTpdoValueSample s) := by simp [execTpdoValueSample]

@[simp] theorem goesOn_execTpdoEventTimer (k : Fin 16) (s : State) : GoesOn s (execTpdoEventTimer k s) := by
  simp [execTpdoEventTimer]

@[simp] theorem goesOn_execTpdoInhibitTimeExpiry (k : Fin 16) (s : State) : GoesOn s (execTpdoInhibitTimeExpiry k s) := by
  simp [execTpdoInhibitTimeExpiry]

@[simp] theorem goesOn_execCompletionTpdoSend (s : State) : GoesOn s (execCompletionTpdoSend s) := by
  unfold execCompletionTpdoSend
  dsimp only
  repeat' split
  all_goals simp

@[simp] theorem pending_noteChange (k : Nat) (s : State) : (noteChange k s).pending = s.pending := by simp [noteChange]
@[simp] theorem pending_watchTpdos (s : State) : (watchTpdos s).pending = s.pending := by simp [watchTpdos]
@[simp] theorem pending_syncTpdo (k : Nat) (s : State) : (syncTpdo k s).pending = s.pending := by simp [syncTpdo]
@[simp] theorem pending_takeSync (s : State) : (takeSync s).pending = s.pending := by simp [takeSync]

@[simp] theorem goesOn_execSyncReceive (counter : Option Byte) (s : State) : GoesOn s (execSyncReceive counter s) := by
  simp [execSyncReceive]

@[simp] theorem goesOn_execSyncProduce (s : State) : GoesOn s (execSyncProduce s) := by simp [execSyncProduce]
@[simp] theorem pending_nmtGo (st node : Byte) (s : State) : (nmtGo st node s).pending = s.pending := by simp [nmtGo]

@[simp] theorem goesOn_execNmtStartRemoteNode (node : Byte) (s : State) : GoesOn s (execNmtStartRemoteNode node s) := by
  simp [execNmtStartRemoteNode]

@[simp] theorem goesOn_execNmtStopRemoteNode (node : Byte) (s : State) : GoesOn s (execNmtStopRemoteNode node s) := by
  simp [execNmtStopRemoteNode]

@[simp] theorem goesOn_execNmtEnterPreOperational (node : Byte) (s : State) : GoesOn s (execNmtEnterPreOperational node s) := by
  simp [execNmtEnterPreOperational]

@[simp] theorem goesOn_execNmtResetNode (node : Byte) (s : State) : GoesOn s (execNmtResetNode node s) := by
  simp [execNmtResetNode]

@[simp] theorem goesOn_execNmtResetCommunication (node : Byte) (s : State) : GoesOn s (execNmtResetCommunication node s) := by
  simp [execNmtResetCommunication]

@[simp] theorem pending_lssReply (cs : Byte) (data : List Byte) (s : State) : (lssReply cs data s).pending = s.pending := by
  simp [lssReply]

@[simp] theorem goesOn_execLssSwitchStateGlobal (mode : Byte) (s : State) : GoesOn s (execLssSwitchStateGlobal mode s) := by
  simp [execLssSwitchStateGlobal]

@[simp] theorem goesOn_execLssSwitchStateSelective (vendor product revision serial : Word) (s : State) :
    GoesOn s (execLssSwitchStateSelective vendor product revision serial s) := by
  simp [execLssSwitchStateSelective]

@[simp] theorem goesOn_execLssConfigureNodeId (node : Byte) (s : State) : GoesOn s (execLssConfigureNodeId node s) := by
  simp [execLssConfigureNodeId]

@[simp] theorem goesOn_execLssConfigureBitTiming (table index : Byte) (s : State) :
    GoesOn s (execLssConfigureBitTiming table index s) := by
  unfold execLssConfigureBitTiming
  split <;> simp

@[simp] theorem goesOn_execLssActivateBitTiming (_delay : BitVec 16) (s : State) :
    GoesOn s (execLssActivateBitTiming _delay s) := by
  simp [execLssActivateBitTiming]

@[simp] theorem goesOn_execLssStoreConfiguration (s : State) : GoesOn s (execLssStoreConfiguration s) := by
  simp [execLssStoreConfiguration]

@[simp] theorem goesOn_execLssInquireIdentity (cs : Byte) (s : State) : GoesOn s (execLssInquireIdentity cs s) := by
  simp [execLssInquireIdentity]

@[simp] theorem goesOn_execLssIdentifyRemoteSlave (vendor product revLow revHigh serLow serHigh : Word) (s : State) :
    GoesOn s (execLssIdentifyRemoteSlave vendor product revLow revHigh serLow serHigh s) := by
  simp [execLssIdentifyRemoteSlave]

@[simp] theorem goesOn_execLssIdentifyNonConfiguredSlave (s : State) : GoesOn s (execLssIdentifyNonConfiguredSlave s) := by
  simp [execLssIdentifyNonConfiguredSlave]

@[simp] theorem goesOn_execEmcyTransmit (s : State) : GoesOn s (execEmcyTransmit s) := by
  unfold execEmcyTransmit
  dsimp only
  repeat' split
  all_goals simp

@[simp] theorem goesOn_execHeartbeatProduce (s : State) : GoesOn s (execHeartbeatProduce s) := by simp [execHeartbeatProduce]

@[simp] theorem goesOn_execHeartbeatReceive (node : Byte) (s : State) : GoesOn s (execHeartbeatReceive node s) := by
  simp [execHeartbeatReceive]

@[simp] theorem pending_errBehaviour (s : State) : (errBehaviour s).pending = s.pending := by
  unfold errBehaviour
  split <;> simp

@[simp] theorem goesOn_execHeartbeatTimeout (i : Fin 4) (s : State) : GoesOn s (execHeartbeatTimeout i s) := by
  simp [execHeartbeatTimeout]

@[simp] theorem goesOn_execBusOff (s : State) : GoesOn s (execBusOff s) := by simp [execBusOff]
@[simp] theorem goesOn_execBusOffRecovery (s : State) : GoesOn s (execBusOffRecovery s) := by simp [execBusOffRecovery]
@[simp] theorem goesOn_execErrorPassive (s : State) : GoesOn s (execErrorPassive s) := by simp [execErrorPassive]

/-! ### Link -/

@[simp] theorem pending_addFlags (fl : BitVec 4) (s : State) : (addFlags fl s).pending = s.pending := by simp [addFlags]
@[simp] theorem pending_clearIrq (w : Word) (s : State) : (clearIrq w s).pending = s.pending := by simp [clearIrq]

@[simp] theorem pending_winWrite (a : Nat) (v : Word) (s : State) : (winWrite a v s).pending = s.pending := by
  unfold winWrite
  split <;> simp

@[simp] theorem pending_memWords (f : Frame) (l : List Nat) (slow : Bool) (s : State) :
    (memWords f l slow s).2.pending = s.pending := by
  induction l generalizing slow s with
  | nil => rfl
  | cons k l ih =>
    unfold memWords
    dsimp only
    rw [ih]
    split
    · simp
    · split <;> simp

@[simp] theorem pending_readWords (cmd : Nat) (f : Frame) (s : State) : (readWords cmd f s).2.pending = s.pending := by
  unfold readWords
  split <;> simp

@[simp] theorem pending_startWrite (guarded : Bool) (f : Frame) (s : State) : (startWrite guarded f s).pending = s.pending := by
  simp [startWrite]

@[simp] theorem pending_postRequest (key : Nat) (data : Option (List Byte)) (s : State) :
    (postRequest key data s).pending = s.pending := by
  simp [postRequest]

@[simp] theorem pending_acknowledge (n : Nat) (s : State) : (acknowledge n s).pending = s.pending := by simp [acknowledge]

@[simp] theorem pending_runFrame (cmd : Nat) (f : Frame) (s : State) : (runFrame cmd f s).pending = s.pending := by
  unfold runFrame
  split <;> simp

@[simp] theorem pending_setS0 (w : Word) (s : State) : (setS0 w s).pending = s.pending := by simp [setS0]

@[simp] theorem pending_refuseFrame (cmd : Nat) (f : Frame) (bit : Nat) (s : State) :
    (refuseFrame cmd f bit s).pending = s.pending := by
  simp [refuseFrame]

@[simp] theorem pending_frameFault (f : Frame) (s : State) : (frameFault f s).pending = s.pending := by simp [frameFault]

@[simp] theorem pending_acceptFrame (cmd : Nat) (f : Frame) (s : State) : (acceptFrame cmd f s).pending = s.pending := by
  simp [acceptFrame]

@[simp] theorem pending_checkFrame (cmd : Nat) (f : Frame) (busy : Bool) (s : State) :
    (checkFrame cmd f busy s).pending = s.pending := by
  simp [checkFrame]

@[simp] theorem pending_frameRun (cmd : Nat) (f : Frame) (s : State) : (frameRun cmd f s).pending = s.pending := by
  simp [frameRun]

@[simp] theorem goesOn_execReadWin (f : Frame) (s : State) : GoesOn s (execReadWin f s) := by simp [execReadWin]
@[simp] theorem goesOn_execWriteWin (f : Frame) (s : State) : GoesOn s (execWriteWin f s) := by simp [execWriteWin]
@[simp] theorem goesOn_execReadMem (f : Frame) (s : State) : GoesOn s (execReadMem f s) := by simp [execReadMem]
@[simp] theorem goesOn_execWriteMem (f : Frame) (s : State) : GoesOn s (execWriteMem f s) := by simp [execWriteMem]
@[simp] theorem goesOn_execOdRead (f : Frame) (s : State) : GoesOn s (execOdRead f s) := by simp [execOdRead]
@[simp] theorem goesOn_execOdWrite (f : Frame) (s : State) : GoesOn s (execOdWrite f s) := by simp [execOdWrite]
@[simp] theorem goesOn_execOdFetch (f : Frame) (s : State) : GoesOn s (execOdFetch f s) := by simp [execOdFetch]
@[simp] theorem goesOn_execHarvest (f : Frame) (s : State) : GoesOn s (execHarvest f s) := by simp [execHarvest]
@[simp] theorem goesOn_execStatus (f : Frame) (s : State) : GoesOn s (execStatus f s) := by simp [execStatus]
@[simp] theorem goesOn_execWriteGuarded (f : Frame) (s : State) : GoesOn s (execWriteGuarded f s) := by simp [execWriteGuarded]

@[simp] theorem goesOn_execReservedCommandFrame (cmd : Byte) (f : Frame) (s : State) :
    GoesOn s (execReservedCommandFrame cmd f s) := by
  simp [execReservedCommandFrame]

@[simp] theorem goesOn_execUaminWriteLanded (s : State) : GoesOn s (execUaminWriteLanded s) := by
  unfold execUaminWriteLanded
  split <;> simp

@[simp] theorem goesOn_execOdRequestComplete (s : State) : GoesOn s (execOdRequestComplete s) := by simp [execOdRequestComplete]

@[simp] theorem goesOn_execUlIrqPendClear (w : Word) (s : State) : GoesOn s (execUlIrqPendClear w s) := by
  simp [execUlIrqPendClear]

/-! ### Console -/

@[simp] theorem pending_say (o : ConOut) (s : State) : (say o s).pending = s.pending := by simp [say]
@[simp] theorem pending_reply (o : ConOut) (s : State) : (reply o s).pending = s.pending := by simp [reply]

@[simp] theorem goesOn_execConsoleCharacter (ch : Byte) (s : State) : GoesOn s (execConsoleCharacter ch s) := by
  simp [execConsoleCharacter]

@[simp] theorem pending_dropLine (s : State) : (dropLine s).pending = s.pending := by simp [dropLine]
@[simp] theorem pending_lineDone (s : State) : (lineDone s).pending = s.pending := by simp [lineDone]

@[simp] theorem goesOn_runLine (run : State → State × ConOut) (s : State)
    (h : ∀ s, (run s).1.pending = s.pending) : GoesOn s (runLine run s) := by
  refine (goesOn_next _ _).2 ?_
  split
  · rfl
  · simp [h]

@[simp] theorem pending_refuseLine (a : Nat) (s : State) : (refuseLine a s).pending = s.pending := by simp [refuseLine]

@[simp] theorem goesOn_runGated (shut : Bool) (run : State → State × ConOut) (s : State)
    (h : ∀ s, (run s).1.pending = s.pending) : GoesOn s (runGated shut run s) := by
  unfold runGated
  split
  · simp
  · exact goesOn_runLine run s h

@[simp] theorem pending_conPut (idx sub : Nat) (data : List Byte) (s : State) :
    (conPut idx sub data s).1.pending = s.pending := by
  simp [conPut]

@[simp] theorem pending_conPuts (l : List (Nat × Nat × Nat × Nat)) (s : State) : (conPuts l s).1.pending = s.pending := by
  induction l generalizing s with
  | nil => rfl
  | cons x l ih =>
    unfold conPuts
    dsimp only
    split <;> simp [ih]

@[simp] theorem goesOn_execConInfo (s : State) : GoesOn s (execConInfo s) := by simp [execConInfo]
@[simp] theorem goesOn_execConSt (s : State) : GoesOn s (execConSt s) := by simp [execConSt]

@[simp] theorem goesOn_execConRd (index : BitVec 16) (sub : Byte) (s : State) : GoesOn s (execConRd index sub s) := by
  simp [execConRd]

@[simp] theorem goesOn_execConWr (index : BitVec 16) (sub : Byte) (value : Nat) (s : State) :
    GoesOn s (execConWr index sub value s) := by
  simp [execConWr]

@[simp] theorem goesOn_execConLog (n : Nat) (s : State) : GoesOn s (execConLog n s) := by simp [execConLog]
@[simp] theorem goesOn_execConClr (code : BitVec 16) (s : State) : GoesOn s (execConClr code s) := by simp [execConClr]

@[simp] theorem goesOn_execConMeter (mode : Byte) (channel : Option Byte) (s : State) :
    GoesOn s (execConMeter mode channel s) := by
  simp [execConMeter]

@[simp] theorem goesOn_execConLvl (channel : Byte) (s : State) : GoesOn s (execConLvl channel s) := by simp [execConLvl]
@[simp] theorem goesOn_execConLvlReport (s : State) : GoesOn s (execConLvlReport s) := by simp [execConLvlReport]

@[simp] theorem goesOn_execConTone (channel : Byte) (hz dbfs : BitVec 16) (s : State) :
    GoesOn s (execConTone channel hz dbfs s) := by
  simp [execConTone]

@[simp] theorem goesOn_execConToneOff (s : State) : GoesOn s (execConToneOff s) := by simp [execConToneOff]

@[simp] theorem goesOn_execConBist (test : Byte) (arg : BitVec 64) (s : State) : GoesOn s (execConBist test arg s) := by
  simp [execConBist]

@[simp] theorem goesOn_execConBistQuery (s : State) : GoesOn s (execConBistQuery s) := by simp [execConBistQuery]
@[simp] theorem goesOn_execConReset (s : State) : GoesOn s (execConReset s) := by simp [execConReset]

@[simp] theorem goesOn_execConBadLine (tooLong : Bool) (s : State) : GoesOn s (execConBadLine tooLong s) := by
  simp [execConBadLine]

/-! ### Control -/

@[simp] theorem goesOn_runBranch (cond : Nat) (u : Agent) (p : Prefix) (disp : Word) (s : State) :
    GoesOn s (runBranch cond u p disp s) := by
  unfold runBranch
  cases u with
  | core c => simp
  | lane n =>
    dsimp only
    split
    · obtain ⟨t, ht, hp⟩ := goesOn_runInstr (.lane n) p (shapeB (.lane n) p disp) 1 (fun _ _ => pure {}) (by simp) s
      rw [ht]
      simpa using hp
    · simp

@[simp] theorem keepsHv_retBody (c : Cx) (r : Regs) : KeepsHv (retBody c r) := by simp [retBody]

@[simp] theorem keepsHv_loopBody (len : Nat) (level : Fin 4) (o : Operand) (disp : BitVec 16) (c : Cx) (r : Regs) :
    KeepsHv (loopBody len level o disp c r) := by
  simp [loopBody]

@[simp] theorem keepsHv_getwBody (rd : Fin 32) (len : Nat) (c : Cx) (r : Regs) : KeepsHv (getwBody rd len c r) := by
  unfold getwBody
  split
  · refine keepsHv_bind _ _ (keepsHv_modify _ fun s => ?_) fun _ => keepsHv_pure _
    dsimp only
    split <;> simp
  · simp

@[simp] theorem keepsHv_rtiBody (c : Cx) (r : Regs) : KeepsHv (rtiBody c r) := by
  unfold rtiBody
  split
  · exact keepsHv_bind _ _ keepsHv_get fun _ => keepsHv_bind _ _ (by simp) fun _ => keepsHv_pure _
  · simp

@[simp] theorem keepsHv_haltBody (c : Cx) (r : Regs) : KeepsHv (haltBody c r) := by
  unfold haltBody
  split <;> simp

@[simp] theorem goesOn_execBra (u : Agent) (p : Prefix) (d : Word) (s : State) : GoesOn s (execBra u p d s) := by simp [execBra]
@[simp] theorem goesOn_execBeq (u : Agent) (p : Prefix) (d : Word) (s : State) : GoesOn s (execBeq u p d s) := by simp [execBeq]
@[simp] theorem goesOn_execBne (u : Agent) (p : Prefix) (d : Word) (s : State) : GoesOn s (execBne u p d s) := by simp [execBne]
@[simp] theorem goesOn_execBmi (u : Agent) (p : Prefix) (d : Word) (s : State) : GoesOn s (execBmi u p d s) := by simp [execBmi]
@[simp] theorem goesOn_execBpl (u : Agent) (p : Prefix) (d : Word) (s : State) : GoesOn s (execBpl u p d s) := by simp [execBpl]
@[simp] theorem goesOn_execBvs (u : Agent) (p : Prefix) (d : Word) (s : State) : GoesOn s (execBvs u p d s) := by simp [execBvs]
@[simp] theorem goesOn_execBvc (u : Agent) (p : Prefix) (d : Word) (s : State) : GoesOn s (execBvc u p d s) := by simp [execBvc]
@[simp] theorem goesOn_execBc (u : Agent) (p : Prefix) (d : Word) (s : State) : GoesOn s (execBc u p d s) := by simp [execBc]
@[simp] theorem goesOn_execBnc (u : Agent) (p : Prefix) (d : Word) (s : State) : GoesOn s (execBnc u p d s) := by simp [execBnc]
@[simp] theorem goesOn_execBge (u : Agent) (p : Prefix) (d : Word) (s : State) : GoesOn s (execBge u p d s) := by simp [execBge]
@[simp] theorem goesOn_execBlt (u : Agent) (p : Prefix) (d : Word) (s : State) : GoesOn s (execBlt u p d s) := by simp [execBlt]
@[simp] theorem goesOn_execBgt (u : Agent) (p : Prefix) (d : Word) (s : State) : GoesOn s (execBgt u p d s) := by simp [execBgt]
@[simp] theorem goesOn_execBle (u : Agent) (p : Prefix) (d : Word) (s : State) : GoesOn s (execBle u p d s) := by simp [execBle]
@[simp] theorem goesOn_execBsr (u : Agent) (p : Prefix) (d : Word) (s : State) : GoesOn s (execBsr u p d s) := by simp [execBsr]
@[simp] theorem goesOn_execRet (u : Agent) (p : Prefix) (s : State) : GoesOn s (execRet u p s) := by simp [execRet]

@[simp] theorem goesOn_execLoop (u : Agent) (p : Prefix) (level : Fin 4) (o : Operand) (disp : BitVec 16) (s : State) :
    GoesOn s (execLoop u p level o disp s) := by
  simp [execLoop]

@[simp] theorem goesOn_execGetw (u : Agent) (p : Prefix) (rd : Fin 32) (s : State) : GoesOn s (execGetw u p rd s) := by
  simp [execGetw]

@[simp] theorem goesOn_execRti (u : Agent) (p : Prefix) (s : State) : GoesOn s (execRti u p s) := by simp [execRti]
@[simp] theorem goesOn_execHalt (u : Agent) (p : Prefix) (s : State) : GoesOn s (execHalt u p s) := by simp [execHalt]
@[simp] theorem goesOn_execPhase (u : Agent) (p : Prefix) (s : State) : GoesOn s (execPhase u p s) := by simp [execPhase]

@[simp] theorem goesOn_execUndefinedOpcode (u : Agent) (reason : Byte) (len : Fin 16) (s : State) :
    GoesOn s (execUndefinedOpcode u reason len s) := by
  unfold execUndefinedOpcode
  split <;> simp

@[simp] theorem goesOn_execInterruptEntry (c : Fin 8) (s : State) : GoesOn s (execInterruptEntry c s) := by
  unfold execInterruptEntry
  split <;> simp

@[simp] theorem goesOn_execFarAccessPerformed (n : Fin 64) (s : State) : GoesOn s (execFarAccessPerformed n s) := by
  simp [execFarAccessPerformed]

@[simp] theorem goesOn_execFarReadDelivery (n : Fin 64) (s : State) : GoesOn s (execFarReadDelivery n s) := by
  simp [execFarReadDelivery]

@[simp] theorem goesOn_execTapmMoveWrite (u : Agent) (s : State) : GoesOn s (execTapmMoveWrite u s) := by
  unfold execTapmMoveWrite
  split <;> simp

/-! ### DictRows -/

@[simp] theorem pending_supCommand (p : Path) (action arg : Nat) (s : State) :
    (supCommand p action arg s).pending = s.pending := by
  simp [supCommand]

@[simp] theorem pending_startTest (p : Path) (test : Nat) (s : State) : (startTest p test s).pending = s.pending := by
  simp [startTest]

@[simp] theorem goesOn_execSafeRequestForce (p : Path) (n : Fin 64) (s : State) : GoesOn s (execSafeRequestForce p n s) := by
  simp [execSafeRequestForce]

@[simp] theorem goesOn_execSafeRequestRelease (p : Path) (n : Fin 64) (s : State) : GoesOn s (execSafeRequestRelease p n s) := by
  simp [execSafeRequestRelease]

@[simp] theorem goesOn_execLaneEnableWrite (p : Path) (n : Fin 64) (v : Byte) (s : State) :
    GoesOn s (execLaneEnableWrite p n v s) := by
  simp [execLaneEnableWrite]

@[simp] theorem goesOn_execLaneClearFaults (p : Path) (n : Fin 64) (s : State) : GoesOn s (execLaneClearFaults p n s) := by
  simp [execLaneClearFaults]

@[simp] theorem goesOn_execLaneClearCounters (p : Path) (n : Fin 64) (s : State) : GoesOn s (execLaneClearCounters p n s) := by
  simp [execLaneClearCounters]

@[simp] theorem goesOn_execFarGrantWrite (p : Path) (n : Fin 64) (v : Byte) (s : State) :
    GoesOn s (execFarGrantWrite p n v s) := by
  simp [execFarGrantWrite]

@[simp] theorem goesOn_execObjectWrite (p : Path) (index : BitVec 16) (sub : Byte) (data : List Byte) (s : State) :
    GoesOn s (execObjectWrite p index sub data s) := by
  simp [execObjectWrite]

@[simp] theorem goesOn_execSpliceRequestFlipOnly (p : Path) (seq : BitVec 16) (atSlate : Bool) (s : State) :
    GoesOn s (execSpliceRequestFlipOnly p seq atSlate s) := by
  simp [execSpliceRequestFlipOnly]

@[simp] theorem goesOn_execSpliceRequestFlipAndCopy (p : Path) (seq : BitVec 16) (atSlate : Bool) (s : State) :
    GoesOn s (execSpliceRequestFlipAndCopy p seq atSlate s) := by
  simp [execSpliceRequestFlipAndCopy]

@[simp] theorem goesOn_execSpliceCancel (p : Path) (seq : BitVec 16) (s : State) : GoesOn s (execSpliceCancel p seq s) := by
  simp [execSpliceCancel]

@[simp] theorem goesOn_execDtEntryWrite (p : Path) (core : Bool) (k : Fin 8) (i : Fin 16) (entry : BitVec 160) (s : State) :
    GoesOn s (execDtEntryWrite p core k i entry s) := by
  simp [execDtEntryWrite]

@[simp] theorem goesOn_execDtClear (p : Path) (core : Bool) (k : Fin 8) (s : State) : GoesOn s (execDtClear p core k s) := by
  simp [execDtClear]

@[simp] theorem goesOn_execPortEnableWrite (p : Path) (g : Fin 6) (v : Byte) (s : State) :
    GoesOn s (execPortEnableWrite p g v s) := by
  simp [execPortEnableWrite]

@[simp] theorem goesOn_execPortTestWrite (p : Path) (g : Fin 6) (v : Byte) (s : State) :
    GoesOn s (execPortTestWrite p g v s) := by
  simp [execPortTestWrite]

@[simp] theorem goesOn_execPortClearFaults (p : Path) (g : Fin 6) (s : State) : GoesOn s (execPortClearFaults p g s) := by
  simp [execPortClearFaults]

@[simp] theorem goesOn_execPortClearCounters (p : Path) (g : Fin 6) (s : State) : GoesOn s (execPortClearCounters p g s) := by
  simp [execPortClearCounters]

@[simp] theorem goesOn_execStreamEnableWrite (p : Path) (g : Fin 6) (v : Byte) (s : State) :
    GoesOn s (execStreamEnableWrite p g v s) := by
  simp [execStreamEnableWrite]

@[simp] theorem goesOn_execOutputOperandWrite (p : Path) (op : OutOperand) (c : Fin 96) (v : Pair) (s : State) :
    GoesOn s (execOutputOperandWrite p op c v s) := by
  simp [execOutputOperandWrite]

@[simp] theorem goesOn_execLeaderWrite (p : Path) (v : Byte) (s : State) : GoesOn s (execLeaderWrite p v s) := by
  simp [execLeaderWrite]

@[simp] theorem goesOn_execSchClearFaults (p : Path) (s : State) : GoesOn s (execSchClearFaults p s) := by
  simp [execSchClearFaults]

@[simp] theorem goesOn_execSchClearCounters (p : Path) (s : State) : GoesOn s (execSchClearCounters p s) := by
  simp [execSchClearCounters]

@[simp] theorem goesOn_execNodeEnableWrite (p : Path) (v : Byte) (s : State) : GoesOn s (execNodeEnableWrite p v s) := by
  simp [execNodeEnableWrite]

@[simp] theorem goesOn_execNodeClear (p : Path) (s : State) : GoesOn s (execNodeClear p s) := by simp [execNodeClear]

@[simp] theorem goesOn_execEdgeEnableWrite (p : Path) (v : Byte) (s : State) : GoesOn s (execEdgeEnableWrite p v s) := by
  simp [execEdgeEnableWrite]

@[simp] theorem goesOn_execEdgeClear (p : Path) (s : State) : GoesOn s (execEdgeClear p s) := by simp [execEdgeClear]

@[simp] theorem goesOn_execRpEnableWrite (p : Path) (r : Fin 256) (v : Byte) (s : State) :
    GoesOn s (execRpEnableWrite p r v s) := by
  simp [execRpEnableWrite]

@[simp] theorem goesOn_execCpEnableWrite (p : Path) (q : Fin 256) (v : Byte) (s : State) :
    GoesOn s (execCpEnableWrite p q v s) := by
  simp [execCpEnableWrite]

@[simp] theorem goesOn_execIrLoadStart (p : Path) (s : State) : GoesOn s (execIrLoadStart p s) := by simp [execIrLoadStart]

@[simp] theorem goesOn_execAsEnableWrite (p : Path) (v : Fin 16) (on : Byte) (s : State) :
    GoesOn s (execAsEnableWrite p v on s) := by
  simp [execAsEnableWrite]

@[simp] theorem goesOn_execCoreHoldReset (p : Path) (c : Fin 8) (s : State) : GoesOn s (execCoreHoldReset p c s) := by
  simp [execCoreHoldReset]

@[simp] theorem goesOn_execCoreRelease (p : Path) (c : Fin 8) (s : State) : GoesOn s (execCoreRelease p c s) := by
  simp [execCoreRelease]

@[simp] theorem goesOn_execCoreClearFaults (p : Path) (c : Fin 8) (s : State) : GoesOn s (execCoreClearFaults p c s) := by
  simp [execCoreClearFaults]

@[simp] theorem goesOn_execCoreClearResets (p : Path) (c : Fin 8) (s : State) : GoesOn s (execCoreClearResets p c s) := by
  simp [execCoreClearResets]

@[simp] theorem goesOn_execPgOwnerWrite (p : Path) (g : Fin 8) (v : Byte) (s : State) : GoesOn s (execPgOwnerWrite p g v s) := by
  simp [execPgOwnerWrite]

@[simp] theorem goesOn_execPgPowerOff (p : Path) (g : Fin 8) (s : State) : GoesOn s (execPgPowerOff p g s) := by
  simp [execPgPowerOff]

@[simp] theorem goesOn_execPgPowerOn (p : Path) (g : Fin 8) (s : State) : GoesOn s (execPgPowerOn p g s) := by
  simp [execPgPowerOn]

@[simp] theorem goesOn_execPgPowerRetention (p : Path) (g : Fin 8) (s : State) : GoesOn s (execPgPowerRetention p g s) := by
  simp [execPgPowerRetention]

@[simp] theorem goesOn_execPgClear (p : Path) (g : Fin 8) (s : State) : GoesOn s (execPgClear p g s) := by simp [execPgClear]

@[simp] theorem goesOn_execDmaEnableWrite (p : Path) (ch : Fin 32) (v : Byte) (s : State) :
    GoesOn s (execDmaEnableWrite p ch v s) := by
  simp [execDmaEnableWrite]

@[simp] theorem goesOn_execDmaKick (p : Path) (ch : Fin 32) (s : State) : GoesOn s (execDmaKick p ch s) := by simp [execDmaKick]

@[simp] theorem goesOn_execDmaAbort (p : Path) (ch : Fin 32) (s : State) : GoesOn s (execDmaAbort p ch s) := by
  simp [execDmaAbort]

@[simp] theorem goesOn_execDmaRestart (p : Path) (ch : Fin 32) (s : State) : GoesOn s (execDmaRestart p ch s) := by
  simp [execDmaRestart]

@[simp] theorem goesOn_execDmaSkip (p : Path) (ch : Fin 32) (s : State) : GoesOn s (execDmaSkip p ch s) := by simp [execDmaSkip]

@[simp] theorem goesOn_execDmaClearFaults (p : Path) (ch : Fin 32) (s : State) : GoesOn s (execDmaClearFaults p ch s) := by
  simp [execDmaClearFaults]

@[simp] theorem goesOn_execDmaClearCounters (p : Path) (ch : Fin 32) (s : State) : GoesOn s (execDmaClearCounters p ch s) := by
  simp [execDmaClearCounters]

@[simp] theorem goesOn_execErrorFieldClear (p : Path) (s : State) : GoesOn s (execErrorFieldClear p s) := by
  simp [execErrorFieldClear]

@[simp] theorem goesOn_execSoftResetCommand (p : Path) (s : State) : GoesOn s (execSoftResetCommand p s) := by
  simp [execSoftResetCommand]

@[simp] theorem goesOn_execHandleCancelWrite (p : Path) (h : BitVec 16) (s : State) : GoesOn s (execHandleCancelWrite p h s) := by
  simp [execHandleCancelWrite]

@[simp] theorem goesOn_execHvTailWrite (p : Path) (v : Byte) (s : State) : GoesOn s (execHvTailWrite p v s) := by
  simp [execHvTailWrite]

@[simp] theorem goesOn_execStoreParameters (p : Path) (sub : Byte) (s : State) : GoesOn s (execStoreParameters p sub s) := by
  simp [execStoreParameters]

@[simp] theorem goesOn_execRestoreDefaults (p : Path) (sub : Byte) (s : State) : GoesOn s (execRestoreDefaults p sub s) := by
  simp [execRestoreDefaults]

@[simp] theorem goesOn_execCdcEntryAppend (p : Path) (entry : BitVec 64) (s : State) :
    GoesOn s (execCdcEntryAppend p entry s) := by
  simp [execCdcEntryAppend]

@[simp] theorem goesOn_execCdcFlushQueue (p : Path) (s : State) : GoesOn s (execCdcFlushQueue p s) := by simp [execCdcFlushQueue]
@[simp] theorem goesOn_execCdcEmptyReply (p : Path) (s : State) : GoesOn s (execCdcEmptyReply p s) := by simp [execCdcEmptyReply]
@[simp] theorem goesOn_execCdcFlushBoth (p : Path) (s : State) : GoesOn s (execCdcFlushBoth p s) := by simp [execCdcFlushBoth]
@[simp] theorem goesOn_execCdcRxWordRead (p : Path) (s : State) : GoesOn s (execCdcRxWordRead p s) := by simp [execCdcRxWordRead]

@[simp] theorem goesOn_execCdcRxBlockRead (p : Path) (s : State) : GoesOn s (execCdcRxBlockRead p s) := by
  simp [execCdcRxBlockRead]

@[simp] theorem goesOn_execPwrRequestNap (p : Path) (s : State) : GoesOn s (execPwrRequestNap p s) := by simp [execPwrRequestNap]

@[simp] theorem goesOn_execPwrRequestDormant (p : Path) (s : State) : GoesOn s (execPwrRequestDormant p s) := by
  simp [execPwrRequestDormant]

@[simp] theorem goesOn_execVinMinReset (p : Path) (s : State) : GoesOn s (execVinMinReset p s) := by simp [execVinMinReset]

@[simp] theorem goesOn_execHoldCountClear (p : Path) (s : State) : GoesOn s (execHoldCountClear p s) := by
  simp [execHoldCountClear]

@[simp] theorem goesOn_execGpEdgeClr (p : Path) (w : BitVec 16) (s : State) : GoesOn s (execGpEdgeClr p w s) := by
  simp [execGpEdgeClr]

@[simp] theorem goesOn_execShowLoadSlot (p : Path) (i : Fin 4) (s : State) : GoesOn s (execShowLoadSlot p i s) := by
  simp [execShowLoadSlot]

@[simp] theorem goesOn_execShowLoadSource (p : Path) (s : State) : GoesOn s (execShowLoadSource p s) := by
  simp [execShowLoadSource]

@[simp] theorem goesOn_execShowSlotWrite (p : Path) (i : Fin 4) (s : State) : GoesOn s (execShowSlotWrite p i s) := by
  simp [execShowSlotWrite]

@[simp] theorem goesOn_execFltClearWrite (p : Path) (code : BitVec 16) (s : State) : GoesOn s (execFltClearWrite p code s) := by
  simp [execFltClearWrite]

@[simp] theorem goesOn_execSupRevokeClear (p : Path) (g : Fin 8) (s : State) : GoesOn s (execSupRevokeClear p g s) := by
  simp [execSupRevokeClear]

@[simp] theorem goesOn_execSupRevokeKeep (p : Path) (g : Fin 8) (s : State) : GoesOn s (execSupRevokeKeep p g s) := by
  simp [execSupRevokeKeep]

@[simp] theorem goesOn_execSupAbortDma (p : Path) (ch : Fin 32) (s : State) : GoesOn s (execSupAbortDma p ch s) := by
  simp [execSupAbortDma]

@[simp] theorem goesOn_execSupResetCore (p : Path) (c : Fin 8) (s : State) : GoesOn s (execSupResetCore p c s) := by
  simp [execSupResetCore]

@[simp] theorem goesOn_execSupResetEngine (p : Path) (e : Engine) (s : State) : GoesOn s (execSupResetEngine p e s) := by
  simp [execSupResetEngine]

@[simp] theorem goesOn_execSupForceSafe (p : Path) (n : Fin 64) (s : State) : GoesOn s (execSupForceSafe p n s) := by
  simp [execSupForceSafe]

@[simp] theorem goesOn_execSupReleaseSafe (p : Path) (n : Fin 64) (s : State) : GoesOn s (execSupReleaseSafe p n s) := by
  simp [execSupReleaseSafe]

@[simp] theorem goesOn_execSupCancelHandle (p : Path) (h : BitVec 16) (s : State) : GoesOn s (execSupCancelHandle p h s) := by
  simp [execSupCancelHandle]

@[simp] theorem goesOn_execCustKeyWrite (p : Path) (i : Fin 4) (key : BitVec 256) (s : State) :
    GoesOn s (execCustKeyWrite p i key s) := by
  simp [execCustKeyWrite]

@[simp] theorem goesOn_execShowQuorumWrite (p : Path) (v : Byte) (s : State) : GoesOn s (execShowQuorumWrite p v s) := by
  simp [execShowQuorumWrite]

@[simp] theorem goesOn_execFullErase (p : Path) (s : State) : GoesOn s (execFullErase p s) := by simp [execFullErase]

@[simp] theorem goesOn_execAttNonceWrite (p : Path) (nonce : BitVec 256) (s : State) :
    GoesOn s (execAttNonceWrite p nonce s) := by
  simp [execAttNonceWrite]

@[simp] theorem goesOn_execDbgTokenWrite (p : Path) (token : List Byte) (s : State) : GoesOn s (execDbgTokenWrite p token s) := by
  simp [execDbgTokenWrite]

@[simp] theorem goesOn_execDbgLockWrite (p : Path) (s : State) : GoesOn s (execDbgLockWrite p s) := by simp [execDbgLockWrite]
@[simp] theorem goesOn_execVfyStart (p : Path) (s : State) : GoesOn s (execVfyStart p s) := by simp [execVfyStart]

@[simp] theorem goesOn_execToneChannelWrite (p : Path) (v : Byte) (s : State) : GoesOn s (execToneChannelWrite p v s) := by
  simp [execToneChannelWrite]

@[simp] theorem goesOn_execBistPanMarch (p : Path) (s : State) : GoesOn s (execBistPanMarch p s) := by simp [execBistPanMarch]
@[simp] theorem goesOn_execBistDram (p : Path) (s : State) : GoesOn s (execBistDram p s) := by simp [execBistDram]

@[simp] theorem goesOn_execBistLaneSelfTest (p : Path) (s : State) : GoesOn s (execBistLaneSelfTest p s) := by
  simp [execBistLaneSelfTest]

@[simp] theorem goesOn_execBistCrystallizerAsrc (p : Path) (s : State) : GoesOn s (execBistCrystallizerAsrc p s) := by
  simp [execBistCrystallizerAsrc]

@[simp] theorem goesOn_execBistPortInternalLoopback (p : Path) (s : State) : GoesOn s (execBistPortInternalLoopback p s) := by
  simp [execBistPortInternalLoopback]

@[simp] theorem goesOn_execBistPortExternalLoopback (p : Path) (s : State) : GoesOn s (execBistPortExternalLoopback p s) := by
  simp [execBistPortExternalLoopback]

@[simp] theorem goesOn_execBistCanLoopback (p : Path) (s : State) : GoesOn s (execBistCanLoopback p s) := by
  simp [execBistCanLoopback]

@[simp] theorem goesOn_execBistRefSteeringRange (p : Path) (s : State) : GoesOn s (execBistRefSteeringRange p s) := by
  simp [execBistRefSteeringRange]

@[simp] theorem goesOn_execBistTemperatureSensors (p : Path) (s : State) : GoesOn s (execBistTemperatureSensors p s) := by
  simp [execBistTemperatureSensors]

/-! ### Moves -/

@[simp] theorem keepsHv_issueFar (c : Cx) (write : Bool) (a : DAddr × Option DAddr) (dest : Fin 32) (w : Word) :
    KeepsHv (issueFar c write a dest w) := by
  refine keepsHv_modify _ fun s => ?_
  split <;> simp

@[simp] theorem keepsHv_loadBody (dest : Fin 32) (o : Operand) (c : Cx) (r : Regs) : KeepsHv (loadBody dest o c r) := by
  unfold loadBody
  dsimp only
  split <;> simp

@[simp] theorem keepsHv_staBody (o : Operand) (c : Cx) (r : Regs) : KeepsHv (staBody o c r) := by
  unfold staBody
  dsimp only
  split <;> simp

@[simp] theorem keepsHv_ldiBody (o : Operand) (c : Cx) (r : Regs) : KeepsHv (ldiBody o c r) := by
  refine keepsHv_bind _ _ (keepsHv_operand c r o) fun x => ?_
  dsimp only
  split
  · intro s
    change (leftBy ((if _ then _ else throw (0x20, s) : Hv Eff) s)).pending = s.pending
    split <;> rfl
  · simp

@[simp] theorem keepsHv_inBody (rd : Fin 32) (pa : Nat) (c : Cx) (r : Regs) : KeepsHv (inBody rd pa c r) := by
  unfold inBody
  split <;> simp

@[simp] theorem keepsHv_outBody (rs : Fin 32) (pa : Nat) (c : Cx) (r : Regs) : KeepsHv (outBody rs pa c r) := by
  unfold outBody
  dsimp only
  split <;> simp

@[simp] theorem keepsHv_popBody (rd : Fin 32) (c : Cx) (r : Regs) : KeepsHv (popBody rd c r) := by simp [popBody]
@[simp] theorem keepsHv_movBody (rd : Fin 32) (o : Operand) (c : Cx) (r : Regs) : KeepsHv (movBody rd o c r) := by simp [movBody]
@[simp] theorem goesOn_execNop (u : Agent) (p : Prefix) (s : State) : GoesOn s (execNop u p s) := by simp [execNop]

@[simp] theorem goesOn_execLda (u : Agent) (p : Prefix) (o : Operand) (s : State) : GoesOn s (execLda u p o s) := by
  simp [execLda]

@[simp] theorem goesOn_execSta (u : Agent) (p : Prefix) (o : Operand) (s : State) : GoesOn s (execSta u p o s) := by
  simp [execSta]

@[simp] theorem goesOn_execLdx (u : Agent) (p : Prefix) (o : Operand) (s : State) : GoesOn s (execLdx u p o s) := by
  simp [execLdx]

@[simp] theorem goesOn_execLdy (u : Agent) (p : Prefix) (o : Operand) (s : State) : GoesOn s (execLdy u p o s) := by
  simp [execLdy]

@[simp] theorem goesOn_execStx (u : Agent) (p : Prefix) (o : Operand) (s : State) : GoesOn s (execStx u p o s) := by
  simp [execStx]

@[simp] theorem goesOn_execSty (u : Agent) (p : Prefix) (o : Operand) (s : State) : GoesOn s (execSty u p o s) := by
  simp [execSty]

@[simp] theorem goesOn_execLdi (u : Agent) (p : Prefix) (o : Operand) (s : State) : GoesOn s (execLdi u p o s) := by
  simp [execLdi]

@[simp] theorem goesOn_execInp (u : Agent) (p : Prefix) (rd : Fin 32) (pa : BitVec 16) (s : State) :
    GoesOn s (execInp u p rd pa s) := by
  simp [execInp]

@[simp] theorem goesOn_execOut (u : Agent) (p : Prefix) (rs : Fin 32) (pa : BitVec 16) (s : State) :
    GoesOn s (execOut u p rs pa s) := by
  simp [execOut]

@[simp] theorem goesOn_execPush (u : Agent) (p : Prefix) (rs : Fin 32) (s : State) : GoesOn s (execPush u p rs s) := by
  simp [execPush]

@[simp] theorem goesOn_execPop (u : Agent) (p : Prefix) (rd : Fin 32) (s : State) : GoesOn s (execPop u p rd s) := by
  simp [execPop]

@[simp] theorem goesOn_execMov (u : Agent) (p : Prefix) (rd : Fin 32) (o : Operand) (s : State) :
    GoesOn s (execMov u p rd o s) := by
  simp [execMov]

/-! ### Dispatch -/

@[simp] theorem goesOn_exec (i : Instr) (s : State) : GoesOn s (exec i s) := by
  unfold exec
  split <;> simp

/-! ### Idle -/

@[simp] theorem pending_idle (s : State) : (idle s).pending = s.pending := by simp [idle]

/-! ## A step -/

/-- With a command at the front the queue gives that command up; with none, time passes. -/
theorem step_goesOn (s : State) : ∃ t, step s = .next t ∧ t.pending = s.pending.tail := by
  unfold step
  split
  · rename_i h
    exact ⟨idle s, rfl, by simp [h]⟩
  · rename_i c rest h
    obtain ⟨t, ht, hp⟩ := goesOn_exec c { s with pending := rest }
    exact ⟨t, ht, by simp [h, hp]⟩

/-- Settles O59: every command goes on and leaves the queue behind it as it is (`goesOn_exec`), and so does a tick of the system
counter (`pending_idle`). -/
theorem stepGoesOn : Obligations.StepGoesOn := step_goesOn

end Sys2Proof.Machine
end

section
/-! What an instruction leaves, said once for the control cores and once for the lanes (R84, R85, R91). -/

namespace Sys2Proof.Machine
open Sys2Proof Sys2Proof.Claims

/-! ## What a delayed load and the flags leave alone -/

/-- No register code writes PC (R65). -/
theorem writeReg_pc (lane : Bool) (code : Nat) (w : Word) (r : Regs) : (writeReg lane code w r).pc = r.pc := by
  unfold writeReg
  split
  case h_18 => split <;> [rfl; (split <;> [rfl; (split <;> rfl)])]
  all_goals rfl

theorem landLoad_pc (lane : Bool) (d : Option Load) (r : Regs) : (landLoad lane d r).pc = r.pc := by
  cases d with
  | none => rfl
  | some l => exact writeReg_pc lane l.reg.val l.value r

theorem landUnder_pc (lane : Bool) (fl : FlagSet) (d : Option Load) (r : Regs) : (landUnder lane fl d r).pc = r.pc := by
  unfold landUnder
  dsimp only
  split
  · exact landLoad_pc lane d r
  · exact landLoad_pc lane d r

/-- An instruction that sets no flag lets every delayed load land, and leaves F as it then stands. -/
theorem landUnder_noFlags (lane : Bool) (d : Option Load) (r : Regs) : landUnder lane {} d r = landLoad lane d r := rfl

theorem apply_noFlags (f : BitVec 16) : ({} : FlagSet).apply f = f := rfl

/-! ## One instruction on a control core -/

theorem coreTakes_lpe {s : State} {c : Fin 8} {p : Prefix} {sh : Shape} (h : CoreTakes s c p sh) : ictlLpe (s.core c.val) = false :=
  h.2.2.2.2.2.2.2

/-- What reading operands leaves of a core is as much as an OUT leaves of it. -/
theorem sameRegs_of_sameCore {s s' : State} {c : Fin 8} {p : Prefix} {sh : Shape} (h : CoreTakes s c p sh) (hs : SameCore s s' c) :
    SameRegs s s' c := by
  obtain ⟨ht, hr, hd, hm, hi, hc⟩ := hs
  refine ⟨ht, hr, hd, hm, ?_, hc⟩
  have hl := coreTakes_lpe h
  unfold ictlLpe at hl ⊢
  rw [hi, hl]

theorem sameRegs_refl {s : State} {c : Fin 8} {p : Prefix} {sh : Shape} (h : CoreTakes s c p sh) : SameRegs s s c :=
  ⟨h.1, rfl, rfl, h.2.2.2.2.2.2.1, coreTakes_lpe h, rfl⟩

/-- A core commits an instruction whose writes are made (R91). -/
theorem commit_core_of_dWrites {s t : State} {cx : Cx} {c : Fin 8} {e : Eff} (hu : cx.u = .core c) (h : s.tidy = true)
    (hm : (s.core c.val).moves = []) (hw : (dWrites cx e.writes).run s = .ok ((), t)) (ht : t.tidy = true) (hmv : e.move = none) :
    (commit cx e).run s = .ok ((), committed c e t) := by
  have hc := ((tidy_iff t).1 ht).cores
  have hf : flushMoves (.core c) cx.slot e.writes s = s := flushMoves_of_none (.core c) _ _ h hm
  unfold commit
  rw [hu, hmv]
  refine (bind_ok (modify_ok hf)).trans ((bind_ok hw).trans (modify_ok ?_))
  simp only [putDelayed, putRegs, noteSat, State.core_setCore_self c.val _ hc, State.setCore_core_twice c.val _ _ hc, delayedOf,
    regsOf, Agent.isLane, committed]

/-- A body that reads its operands in `s` and ends in `s₁`, and whose writes end in `t`. -/
def CoreGives (s s₁ t : State) (c : Fin 8) (p : Prefix) (body : Cx → Regs → Hv Eff) (e : Eff) : Prop :=
  (body (coreCx s c p) (s.core c.val).regs).run s = .ok (e, s₁) ∧ s₁.tidy = true ∧ (s₁.core c.val).moves = [] ∧
    (dWrites (coreCx s c p) e.writes).run s₁ = .ok ((), t) ∧ e.move = none ∧ e.dz = false

/-- A body without writes. -/
theorem coreGives_of_run {s s' : State} {c : Fin 8} {p : Prefix} {body : Cx → Regs → Hv Eff} {e : Eff}
    (hb : (body (coreCx s c p) (s.core c.val).regs).run s = .ok (e, s')) (hs : SameRegs s s' c) (hw : e.writes = [])
    (hmv : e.move = none) (hdz : e.dz = false) : CoreGives s s' s' c p body e :=
  ⟨hb, hs.1, hs.2.2.2.1, by rw [hw]; exact dWrites_core_nil c p _ _ s', hmv, hdz⟩

theorem runInstr_core_of_gives {s s₁ t : State} {c : Fin 8} {p : Prefix} {sh : Shape} {body : Cx → Regs → Hv Eff} {e : Eff}
    (h : CoreTakes s c p sh) (cost : Nat) (hg : CoreGives s s₁ t c p body e) (ht : t.tidy = true) :
    runInstr (.core c) p sh cost body s = .next (coreFinish c (decodedLen p sh) e (committed c e t)) := by
  obtain ⟨hb, h₁, hm, hw, hmv, hdz⟩ := hg
  have hp : p.rep = none := h.2.2.2.1
  have hrun : (runOnce (coreCx s c p) 1 body).run s = .ok (e, committed c e t) :=
    (bind_ok (t := s) rfl).trans ((bind_ok hb).trans ((bind_ok (t := s₁) rfl).trans
      (bind_ok (commit_core_of_dWrites rfl h₁ hm hw ht hmv))))
  simp only [runInstr_core h, runCore_once hp, hrun, hdz, Bool.false_and, Bool.false_eq_true, if_false]

/-- A core that goes on at the next instruction. -/
theorem coreFinish_done {s t : State} {c : Fin 8} (len : Nat) {e : Eff} (hs : SameRegs s t c) (hdest : e.dest = none)
    (hmv : e.move = none) (hpc : ∀ r, (e.upd r).pc = r.pc) :
    coreFinish c len e (committed c e t) = coreDone c len e.upd e.fl e.load t := by
  obtain ⟨ht, hr, -, -, hl, -⟩ := hs
  have hc := ((tidy_iff t).1 ht).cores
  unfold ictlLpe at hl
  simp only [coreFinish, committed, hdest, hmv, ictlLpe, hl, Bool.not_false, Bool.or_true, if_true, Option.isSome_none, Bool.or_false,
    State.core_setCore_self c.val _ hc, State.setCore_core_twice c.val _ _ hc, coreDone, hpc, landUnder_pc]

/-- A core that goes on elsewhere, by an instruction that sets no flag and owes no load. -/
theorem coreFinish_to {t : State} {c : Fin 8} (len : Nat) {e : Eff} {d : BitVec 20} (ht : t.tidy = true) (hdest : e.dest = some d)
    (hmv : e.move = none) (hfl : e.fl = {}) (hl : e.load = none) :
    coreFinish c len e (committed c e t) = coreTo c d e.upd t := by
  have hc := ((tidy_iff t).1 ht).cores
  simp only [coreFinish, committed, hdest, hmv, hfl, hl, Option.isSome_none, Bool.or_false, landUnder_noFlags, apply_noFlags,
    State.core_setCore_self c.val _ hc, State.setCore_core_twice c.val _ _ hc, coreTo]

theorem runInstr_core_done {s s' : State} {c : Fin 8} {p : Prefix} {sh : Shape} {body : Cx → Regs → Hv Eff} {e : Eff}
    (h : CoreTakes s c p sh) (cost : Nat) (hb : (body (coreCx s c p) (s.core c.val).regs).run s = .ok (e, s')) (hs : SameRegs s s' c)
    (hw : e.writes = []) (hmv : e.move = none) (hdz : e.dz = false) (hdest : e.dest = none) (hpc : ∀ r, (e.upd r).pc = r.pc) :
    runInstr (.core c) p sh cost body s = .next (coreDone c (decodedLen p sh) e.upd e.fl e.load s') := by
  rw [runInstr_core_of_gives h cost (coreGives_of_run hb hs hw hmv hdz) hs.1, coreFinish_done _ hs hdest hmv hpc]

theorem runInstr_core_to {s s₁ t : State} {c : Fin 8} {p : Prefix} {sh : Shape} {body : Cx → Regs → Hv Eff} {e : Eff}
    {d : BitVec 20} (h : CoreTakes s c p sh) (cost : Nat) (hg : CoreGives s s₁ t c p body e) (ht : t.tidy = true)
    (hdest : e.dest = some d) (hfl : e.fl = {}) (hl : e.load = none) :
    runInstr (.core c) p sh cost body s = .next (coreTo c d e.upd t) := by
  rw [runInstr_core_of_gives h cost hg ht, coreFinish_to _ ht hdest hg.2.2.2.2.1 hfl hl]

/-! ## One instruction on a lane -/

theorem laneTakes_tidy {s : State} {n : Fin 64} {p : Prefix} {sh : Shape} (h : LaneTakes s n p sh) : s.tidy = true := h.1

/-- What a lane shows an instruction that leaves it alone: the parts of it that an instruction's end reads. -/
theorem sameLane_refl {s : State} {n : Fin 64} {p : Prefix} {sh : Shape} (h : LaneTakes s n p sh) : SameLane s s n :=
  ⟨h.1, rfl, rfl, h.2.2.2.2.2, h.2.2.2.2.1⟩

/-- A lane commits what an instruction without writes gives it. -/
def laneCommitted (n : Fin 64) (e : Eff) (s : State) : State :=
  let l := s.lane n.val
  let r := e.upd (landUnder true e.fl l.delayed l.regs)
  noteSat (.lane n) e.fl.sv (s.setLane n.val { l with regs := { r with f := e.fl.apply r.f }, delayed := e.load })

theorem dWrites_lane_nil (n : Fin 64) (p : Prefix) (slot : Nat) (sat : Bool) (s : State) :
    (dWrites ⟨.lane n, p, slot, sat⟩ []).run s = .ok ((), s) := rfl

theorem commit_lane {s : State} {n : Fin 64} {e : Eff} (h : s.tidy = true) (hm : (s.lane n.val).moves = []) (hw : e.writes = [])
    (hmv : e.move = none) (p : Prefix) (slot : Nat) (sat : Bool) :
    (commit ⟨.lane n, p, slot, sat⟩ e).run s = .ok ((), laneCommitted n e s) := by
  have hl := ((tidy_iff s).1 h).lanes
  have hf : flushMoves (.lane n) slot [] s = s := flushMoves_of_none (.lane n) _ _ h hm
  unfold commit
  rw [hw, hmv]
  refine (bind_ok (modify_ok hf)).trans ((bind_ok (dWrites_lane_nil n p slot sat s)).trans (modify_ok ?_))
  simp only [putDelayed, putRegs, State.lane_setLane_self n.val _ hl, State.setLane_lane_twice n.val _ _ hl, delayedOf,
    regsOf, Agent.isLane, laneCommitted]

theorem runInstr_lane {s : State} {n : Fin 64} {p : Prefix} {sh : Shape} (h : LaneTakes s n p sh) (cost : Nat)
    (body : Cx → Regs → Hv Eff) : runInstr (.lane n) p sh cost body s = .next (runLane n p cost body s) := by
  obtain ⟨-, hr, hu, -, -, -⟩ := h
  simp [runInstr, hr, hu]

/-- An instruction without REP, of a lane with nothing in flight, whose body gives `e` and leaves no far access due. -/
theorem runLane_once {s s' : State} {n : Fin 64} {p : Prefix} {sh : Shape} (h : LaneTakes s n p sh) (cost : Nat)
    {body : Cx → Regs → Hv Eff} {e : Eff} (hb : (body (laneCx s n p) (s.lane n.val).regs).run s = .ok (e, s'))
    (hdue : farDue n.val ((s.lane n.val).regs.pc.toNat + cost - 1) s' = s') (ht : s'.tidy = true)
    (hm : (s'.lane n.val).moves = []) (hw : e.writes = []) (hmv : e.move = none) :
    runLane n p cost body s = lanePc n.val ((s.lane n.val).regs.pc.toNat + cost) (laneCommitted n e s') := by
  obtain ⟨hs, -, -, hp, hfar, hmoves⟩ := h
  have hfl : flushMoves (.lane n) ((s.lane n.val).regs.pc.toNat - 1) [] s = s := flushMoves_of_none (.lane n) _ _ hs hmoves
  have hrun : (runOnce ⟨.lane n, p, (s.lane n.val).regs.pc.toNat, true⟩ cost body).run s = .ok (e, laneCommitted n e s') :=
    (bind_ok (t := s) rfl).trans ((bind_ok hb).trans ((bind_ok (modify_ok hdue)).trans
      (bind_ok (commit_lane ht hm hw hmv p _ true))))
  simp only [runLane, hp, laneReps, farDue_of_none n.val _ hfar, hfl, hrun, if_true, Nat.one_mul]

theorem lanePc_wr (n pc : Nat) (r : Reg) (v : Nat) (s : State) : lanePc n pc (s.wr r v) = (lanePc n pc s).wr r v := rfl

theorem lanePc_noteSat {s : State} (n : Fin 64) (pc : Nat) (sv : Bool) (l : Lane) (h : s.tidy = true) :
    lanePc n.val pc (noteSat (.lane n) sv (s.setLane n.val l)) =
      let t := s.setLane n.val { l with regs := { l.regs with pc := BitVec.ofNat 20 pc }, satTaken := l.satTaken || sv }
      if sv && !l.satTaken then t.inc (Obj.satTakes n.val) else t := by
  have hl := ((tidy_iff s).1 h).lanes
  simp only [noteSat, State.lane_setLane_self n.val _ hl, State.setLane_lane_twice n.val _ _ hl]
  cases sv with
  | false =>
    simp only [Bool.false_eq_true, false_and, if_false, Bool.false_and, Bool.or_false, lanePc, State.lane_setLane_self n.val _ hl,
      State.setLane_lane_twice n.val _ _ hl]
  | true =>
    cases hx : l.satTaken with
    | false =>
      simp only [Bool.not_false, and_self, if_true, Bool.and_true, Bool.or_true, State.inc, lanePc_wr]
      simp only [lanePc, State.lane_setLane_self n.val _ hl, State.setLane_lane_twice n.val _ _ hl, State.setLane_rd]
    | true =>
      simp only [Bool.not_true, Bool.false_eq_true, and_false, if_false, Bool.and_false, Bool.or_true, lanePc,
        State.lane_setLane_self n.val _ hl, State.setLane_lane_twice n.val _ _ hl, hx]

/-- PC set past the instruction's slots, a committed lane is done with it. -/
theorem lanePc_laneCommitted {s s' : State} {n : Fin 64} (cost : Nat) (e : Eff) (ht : s'.tidy = true)
    (hr : (s'.lane n.val).regs = (s.lane n.val).regs) :
    lanePc n.val ((s.lane n.val).regs.pc.toNat + cost) (laneCommitted n e s') = laneDone n cost e.upd e.fl e.load s' := by
  simp only [laneCommitted, lanePc_noteSat n _ _ _ ht, laneDone, hr]

/-- An instruction whose body gives `e` and issues no far access due in its own slots. -/
theorem runInstr_lane_gives {s s' : State} {n : Fin 64} {p : Prefix} {sh : Shape} {body : Cx → Regs → Hv Eff} {e : Eff}
    (h : LaneTakes s n p sh) (cost : Nat) (hb : (body (laneCx s n p) (s.lane n.val).regs).run s = .ok (e, s'))
    (hdue : farDue n.val ((s.lane n.val).regs.pc.toNat + cost - 1) s' = s') (ht : s'.tidy = true)
    (hr : (s'.lane n.val).regs = (s.lane n.val).regs) (hm : (s'.lane n.val).moves = []) (hw : e.writes = []) (hmv : e.move = none) :
    runInstr (.lane n) p sh cost body s = .next (laneDone n cost e.upd e.fl e.load s') := by
  rw [runInstr_lane h, runLane_once h cost hb hdue ht hm hw hmv, lanePc_laneCommitted cost e ht hr]

theorem runInstr_lane_done {s s' : State} {n : Fin 64} {p : Prefix} {sh : Shape} {body : Cx → Regs → Hv Eff} {e : Eff}
    (h : LaneTakes s n p sh) (cost : Nat) (hb : (body (laneCx s n p) (s.lane n.val).regs).run s = .ok (e, s')) (hs : SameLane s s' n)
    (hw : e.writes = []) (hmv : e.move = none) :
    runInstr (.lane n) p sh cost body s = .next (laneDone n cost e.upd e.fl e.load s') := by
  obtain ⟨ht, hr, -, hm, hfar⟩ := hs
  exact runInstr_lane_gives h cost hb (farDue_of_none n.val _ hfar) ht hr hm hw hmv

end Sys2Proof.Machine
end

section
/-! IN and OUT (R47, R48, R72), branches, subroutines and loops (R34, R82, R104), and the control of a unit by its own program
(R37, R218, R238, R244). -/

namespace Sys2Proof.Machine
open Sys2Proof Sys2Proof.Claims

/-! ## The output channel registers (R49) -/

/-- `t` differs from `s` at most where a write of an output channel register may write: the registers, the pin channels, and what a
fault of their operands reports. -/
def OutputOnly (s t : State) : Prop :=
  { t with od := s.od, faultLog := s.faultLog, active := s.active, onceKeys := s.onceKeys, link := s.link, cores := s.cores,
           can := s.can, oc := s.oc, outCh := s.outCh } = s

theorem OutputOnly.trans {s t u : State} (h : OutputOnly s t) (k : OutputOnly t u) : OutputOnly s u := by
  unfold OutputOnly at *
  rw [← k] at h
  exact h

theorem OutputOnly.of_fault {s t : State} (h : FaultOnly s t) : OutputOnly s t := by
  unfold FaultOnly at h
  unfold OutputOnly
  rw [← h]

theorem OutputOnly.lane {s t : State} (h : OutputOnly s t) (n : Nat) : t.lane n = s.lane n :=
  (congrArg (fun x : State => x.lane n) h :)

theorem OutputOnly.setOutchan (s : State) (c : Nat) (x : OutChan) : OutputOnly s (s.setOutchan c x) := rfl

theorem checkOperands_only (c : Nat) (s : State) : OutputOnly s (checkOperands c s) := by
  unfold checkOperands
  dsimp only
  split
  · split
    · exact OutputOnly.setOutchan s _ _
    · exact OutputOnly.of_fault (FaultOnly.refl s)
  · exact (OutputOnly.setOutchan s _ _).trans (OutputOnly.of_fault
      (forList_keep (FaultOnly _) _ _ (fun k _ t h => h.trans (FaultOnly.raiseOnce _ _ _ _ _ t)) _ (FaultOnly.refl _)))

theorem tidy_checkOperands {s : State} (c : Nat) (h : s.tidy = true) : (checkOperands c s).tidy = true := by
  unfold checkOperands
  dsimp only
  split
  · split
    · exact tidy_setOutchan _ _ h
    · exact h
  · exact forList_keep (fun t => t.tidy = true) _ _ (fun k _ t ht => tidy_raiseOnce _ _ _ _ _ ht) _ (tidy_setOutchan _ _ h)

theorem tidy_oc {s : State} (k : Nat) (w : Word) (h : s.tidy = true) : State.tidy { s with oc := s.oc.set 0 k w } = true :=
  (tidy_iff _).2 { (tidy_iff _).1 h with oc := Map.wf_set _ _ ((tidy_iff _).1 h).oc }

theorem writeOC_only (k : Nat) (w : Word) (s : State) : OutputOnly s (writeOC k w s) := by
  refine forUpto_keep (OutputOnly s) 96 _ (fun c _ t h => ?_) _ rfl
  dsimp only
  split
  · exact h.trans (checkOperands_only c t)
  · exact h

theorem tidy_writeOC {s : State} (k : Nat) (w : Word) (h : s.tidy = true) : (writeOC k w s).tidy = true := by
  refine forUpto_keep (fun t => t.tidy = true) 96 _ (fun c _ t ht => ?_) _ (tidy_oc k w h)
  dsimp only
  split
  · exact tidy_checkOperands c ht
  · exact ht

/-- An output channel register is none of the lane. -/
theorem sameLane_writeOC {s : State} {n : Fin 64} {p : Prefix} {sh : Shape} (h : LaneTakes s n p sh) (k : Nat) (w : Word) :
    SameLane s (writeOC k w s) n := by
  unfold SameLane
  rw [(writeOC_only k w s).lane]
  exact ⟨tidy_writeOC k w h.1, rfl, rfl, h.2.2.2.2.2, h.2.2.2.2.1⟩

/-! ## IN and OUT -/

theorem exec_inp_core {s s' : State} {c : Fin 8} {p : Prefix} {rd : Fin 32} {pa : BitVec 16} {w : Word}
    (h : CoreTakes s c p (shapeP (destReasons (.core c) rd) pa)) (hin : (coreIn c.val pa.toNat).run s = .ok (w, s'))
    (hs : SameCore s s' c) :
    exec (.inp (.core c) p rd pa) s =
      .next (coreDone c (decodedLen p (shapeP (destReasons (.core c) rd) pa)) id {} (some ⟨rd, w⟩) s') :=
  runInstr_core_done (e := { load := some ⟨rd, w⟩ }) h 1 ((bind_ok hin).trans rfl) (sameRegs_of_sameCore h hs) rfl rfl rfl rfl
    (fun _ => rfl)

theorem exec_inp_lane {s : State} {n : Fin 64} {p : Prefix} {rd : Fin 32} {pa : BitVec 16}
    (h : LaneTakes s n p (shapeP (destReasons (.lane n) rd) pa)) (ok : laneInOk pa.toNat = true) :
    exec (.inp (.lane n) p rd pa) s = .next (laneDone n 1 id {} (some ⟨rd, laneIn s n.val pa.toNat⟩) s) := by
  show execInp _ p rd pa s = _
  unfold execInp
  rw [if_neg (by simp [ok])]
  exact runInstr_lane_done (e := { load := some ⟨rd, laneIn s n.val pa.toNat⟩ }) h 1 rfl (sameLane_refl h) rfl rfl

theorem exec_out_core {s s' : State} {c : Fin 8} {p : Prefix} {rs : Fin 32} {pa : BitVec 16}
    (h : CoreTakes s c p (shapeP (regReasons (.core c) rs.val) pa))
    (hout : (coreOut c.val pa.toNat (readReg (coreCx s c p).sat (s.core c.val).regs rs.val).1).run s = .ok ((), s'))
    (hs : SameRegs s s' c) :
    exec (.out (.core c) p rs pa) s = .next (coreDone c (decodedLen p (shapeP (regReasons (.core c) rs.val) pa)) id
      (viewFlags (readReg (coreCx s c p).sat (s.core c.val).regs rs.val).2) none s') :=
  runInstr_core_done (e := { fl := viewFlags (readReg (coreCx s c p).sat (s.core c.val).regs rs.val).2 }) h 1
    ((bind_ok hout).trans rfl) hs rfl rfl rfl rfl (fun _ => rfl)

theorem exec_out_lane {s : State} {n : Fin 64} {p : Prefix} {rs : Fin 32} {pa : BitVec 16}
    (h : LaneTakes s n p (shapeP (regReasons (.lane n) rs.val) pa)) (ok : laneOutOk pa.toNat = true) :
    exec (.out (.lane n) p rs pa) s = .next (laneDone n 1 id (viewFlags (readReg true (s.lane n.val).regs rs.val).2) none
      (writeOC (pa.toNat - 0x80) (readReg true (s.lane n.val).regs rs.val).1 s)) := by
  show execOut _ p rs pa s = _
  unfold execOut
  rw [if_neg (by simp [ok])]
  exact runInstr_lane_done (e := { fl := viewFlags (readReg true (s.lane n.val).regs rs.val).2 }) h 1
    ((bind_ok (modify_ok rfl)).trans rfl) (sameLane_writeOC h _ _) rfl rfl

/-- Settles O6: each instruction from the word that its P register reads as, or from the state that its write of it leaves. -/
theorem portMoves : Obligations.PortMoves :=
  ⟨fun _ _ _ _ _ _ _ h hin hs => exec_inp_core h hin hs, fun _ _ _ _ _ h ok => exec_inp_lane h ok,
    fun _ _ _ _ _ _ h hout hs => exec_out_core h hout hs, fun _ _ _ _ _ h ok => exec_out_lane h ok⟩

/-! ## Branches (R34, R82) -/

theorem exec_branch_core {i : Instr} {c : Fin 8} {p : Prefix} {d : Word} {k : Nat} {s : State}
    (hi : branchOp i = some (.core c, p, d, k)) (h : CoreTakes s c p (shapeB (.core c) p d)) :
    let x := s.core c.val
    let len := decodedLen p (shapeB (.core c) p d)
    exec i s = .next (if condHolds x.regs.f k = true then coreTo c (x.regs.pc + BitVec.ofNat 20 len + (dispOf p d).truncate 20) id s
      else coreDone c len id {} none s) := by
  intro x len
  have hs := sameRegs_refl h
  rw [exec_branchOp hi]
  cases hc : condHolds x.regs.f k with
  | true =>
    simp only [runBranch, regsOf, hc, x, if_true]
    exact runInstr_core_to (e := { dest := some (x.regs.pc + BitVec.ofNat 20 len + (dispOf p d).truncate 20) }) h 1
      (coreGives_of_run rfl hs rfl rfl rfl) h.1 rfl rfl rfl
  | false =>
    simp only [runBranch, regsOf, hc, x, Bool.false_eq_true, if_false]
    exact runInstr_core_done (e := {}) h 1 rfl hs rfl rfl rfl rfl (fun _ => rfl)

theorem exec_branch_lane {i : Instr} {n : Fin 64} {p : Prefix} {d : Word} {k : Nat} {s : State}
    (hi : branchOp i = some (.lane n, p, d, k)) (h : LaneTakes s n p (shapeB (.lane n) p d)) :
    let l := s.lane n.val
    let len := decodedLen p (shapeB (.lane n) p d)
    exec i s = .next (if condHolds l.regs.f k = true then lanePc n.val (laneTarget l len (dispOf p d)) (laneDone n 1 id {} none s)
      else laneDone n 1 id {} none s) := by
  intro l len
  have hrun : runInstr (.lane n) p (shapeB (.lane n) p d) 1 (fun _ _ => pure {}) s = .next (laneDone n 1 id {} none s) :=
    runInstr_lane_done (e := {}) h 1 rfl (sameLane_refl h) rfl rfl
  obtain ⟨-, hr, hu, -, -, -⟩ := h
  rw [exec_branchOp hi]
  cases hc : condHolds l.regs.f k with
  | true => simp only [runBranch, regsOf, hrun, hr, hu, hc, l, Option.isNone_none, Bool.and_self, if_true, len]
  | false => simp only [runBranch, regsOf, hrun, hc, l, Bool.and_false, Bool.false_eq_true, if_false]

/-! ## BSR, RET and LOOP (R104, R245) -/

/-- A core's write of one word (R78). -/
theorem dWrites_core_one {s : State} {cx : Cx} {c : Fin 8} {a : DAddr} {f : Nat} (w : Word) (hu : cx.u = .core c)
    (ha : coreAddr s c.val true a = .ok f) : (dWrites cx [(a, w)]).run s = .ok ((), coreWrite c.val [(f, w)] s) := by
  have hm : [(a, w)].mapM (fun x : DAddr × Word => ((coreAddr s c.val true x.1).map fun f => (f, x.2)).mapError
      fun r => (r, noteCoreRefusal r x.1 s)) = .ok [(f, w)] := by
    simp only [List.mapM_cons, List.mapM_nil, ha]
    rfl
  simp only [StateT.run, dWrites, hu, hm]
  split <;> rfl

theorem dRead_core {s : State} {cx : Cx} {c : Fin 8} {a : DAddr} {f : Nat} (hu : cx.u = .core c)
    (ha : coreAddr s c.val false a = .ok f) : (dRead cx a).run s = .ok (fabRead s f, noteReads (0x10 + c.val) [(f, 4)] s) := by
  simp only [StateT.run, dRead, hu, ha]

theorem exec_bsr_core {s : State} {c : Fin 8} {p : Prefix} {d : Word} {f : Nat} (h : CoreTakes s c p (bsrShape p)) :
    let x := s.core c.val
    let next := x.regs.pc + BitVec.ofNat 20 (decodedLen p (bsrShape p))
    coreAddr s c.val true (x.regs.sp - 1) = .ok f →
    let s' := coreWrite c.val [(f, next.zeroExtend 32)] s
    SameCore s s' c →
    exec (.bsr (.core c) p d) s = .next (coreTo c (next + (dispOf p d).truncate 20) (fun t => { t with sp := x.regs.sp - 1 }) s') := by
  intro x next ha s' hs
  have hg : CoreGives s s s' c p (fun cx r => pure (bsrBody (decodedLen p (bsrShape p)) (dispOf p d) cx r))
      (bsrBody (decodedLen p (bsrShape p)) (dispOf p d) (coreCx s c p) x.regs) :=
    ⟨rfl, h.1, h.2.2.2.2.2.2.1, dWrites_core_one _ rfl ha, rfl, rfl⟩
  exact runInstr_core_to h 1 hg hs.1 rfl rfl rfl

theorem exec_ret_core {s : State} {c : Fin 8} {p : Prefix} {f : Nat} (h : CoreTakes s c p soloShape) :
    let x := s.core c.val
    coreAddr s c.val false x.regs.sp = .ok f →
    let s' := noteReads (0x10 + c.val) [(f, 4)] s
    SameCore s s' c →
    exec (.ret (.core c) p) s = .next (coreTo c ((fabRead s f).truncate 20) (fun t => { t with sp := x.regs.sp + 1 }) s') := by
  intro x ha s' hs
  exact runInstr_core_to (e := { upd := fun t => { t with sp := x.regs.sp + 1 }, dest := some ((fabRead s f).truncate 20) }) h 1
    (coreGives_of_run ((bind_ok (dRead_core rfl ha)).trans rfl) (sameRegs_of_sameCore h hs) rfl rfl rfl) hs.1 rfl rfl rfl

theorem exec_loop_core {s s' : State} {c : Fin 8} {p : Prefix} {k : Fin 4} {o : Operand} {disp : BitVec 16} {w : Word} {ov : Bool}
    (h : CoreTakes s c p (loopShape p o disp)) :
    let x := s.core c.val
    let next := x.regs.pc + BitVec.ofNat 20 (decodedLen p (loopShape p o disp))
    (operand (coreCx s c p) x.regs o).run s = .ok ((w, ov), s') → SameCore s s' c →
    exec (.loop (.core c) p k o disp) s = .next (coreDone c (decodedLen p (loopShape p o disp)) (fun t => { t with
      ls := t.ls.set k.val next, le := t.le.set k.val (next + disp.zeroExtend 20), lc := t.lc.set k.val w }) {} none s') := by
  intro x next ho hs
  exact runInstr_core_done (e := { upd := fun t => { t with
      ls := t.ls.set k.val next, le := t.le.set k.val (next + disp.zeroExtend 20), lc := t.lc.set k.val w } }) h 1
    ((bind_ok ho).trans rfl) (sameRegs_of_sameCore h hs) rfl rfl rfl rfl (fun _ => rfl)

theorem branches : Branches :=
  ⟨fun _ _ _ _ _ _ hi h => exec_branch_core hi h, fun _ _ _ _ _ _ hi h => exec_branch_lane hi h⟩

theorem callsAndLoops : CallsAndLoops :=
  ⟨fun _ _ _ _ _ h => exec_bsr_core h, fun _ _ _ _ h => exec_ret_core h, fun _ _ _ _ _ _ _ _ _ h => exec_loop_core h⟩

/-- Settles O38: each clause from what the instruction's body gives. -/
theorem controlFlow : Obligations.ControlFlow := ⟨branches, callsAndLoops⟩

/-! ## HALT, RTI, GETW and PHASE -/

theorem exec_halt_core {s : State} {c : Fin 8} {p : Prefix} (h : CoreTakes s c p soloShape) :
    exec (.halt (.core c) p) s = .next (coreDone c (decodedLen p soloShape) id {} none (s.wr (Obj.coreState c.val) 3)) := by
  obtain ⟨ht, hr, hd, hm, hl, hc⟩ := sameRegs_refl h
  exact runInstr_core_done (e := {}) h 1 ((bind_ok (modify_ok rfl)).trans rfl) ⟨tidy_wr _ _ ht, hr, hd, hm, hl, hc⟩ rfl rfl rfl rfl
    (fun _ => rfl)

/-- PHASE takes the slots to the end of its phase (R36, R37). -/
theorem exec_phase_lane {s : State} {n : Fin 64} {p : Prefix} (h : LaneTakes s n p { len := 1, rep := false, core := false }) :
    let slot := (s.lane n.val).regs.pc.toNat
    exec (.phase (.lane n) p) s = .next (laneDone n (phaseEnd s (laneGroup s n.val) slot - slot) id {} none s) := by
  intro slot
  exact runInstr_lane_done (e := {}) h _ rfl (sameLane_refl h) rfl rfl

/-- What RTI gives. -/
def rtiEff (x : Core) : Eff := { upd := fun t => { t with f := x.ef }, dest := some x.regs.epc, xfer := true }

theorem exec_rti_core {s : State} {c : Fin 8} {p : Prefix} (h : CoreTakes s c p soloShape) :
    exec (.rti (.core c) p) s =
      .next (coreTo c (s.core c.val).regs.epc (fun t => { t with f := (s.core c.val).ef }) (returnFrom c.val s)) := by
  have hc := ((tidy_iff s).1 h.1).cores
  have hg : CoreGives s (returnFrom c.val s) (returnFrom c.val s) c p rtiBody (rtiEff (s.core c.val)) :=
    ⟨rfl, tidy_setCore _ _ h.1, by rw [returnFrom, State.core_setCore_self c.val _ hc]; exact h.2.2.2.2.2.2.1,
      dWrites_core_nil c p _ _ _, rfl, rfl⟩
  exact runInstr_core_to h 1 hg (tidy_setCore _ _ h.1) rfl rfl rfl

/-- A core that goes on elsewhere has its registers as the instruction leaves them, PC at its destination. -/
theorem core_coreTo {s : State} (c : Fin 8) (pc : BitVec 20) (upd : Regs → Regs) (h : s.tidy = true) :
    (coreTo c pc upd s).core c.val = { s.core c.val with
      regs := { upd (landLoad false (s.core c.val).delayed (s.core c.val).regs) with pc := pc }, delayed := none
      count := (s.core c.val).count + 256, noIrq := false } :=
  State.core_setCore_self c.val _ ((tidy_iff s).1 h).cores

theorem coreTo_rd (c : Fin 8) (pc : BitVec 20) (upd : Regs → Regs) (s : State) (q : Reg) : (coreTo c pc upd s).rd q = s.rd q := rfl
theorem coreTo_mem (c : Fin 8) (pc : BitVec 20) (upd : Regs → Regs) (s : State) : (coreTo c pc upd s).mem = s.mem := rfl

/-- The core after RTI (R244). -/
def returned (x : Core) : Core :=
  { x with
    regs := { landLoad false x.delayed { x.regs with pc := x.regs.epc, f := x.ef } with f := x.ef, pc := x.regs.epc }
    ictl := BitVec.ofNat 5 ((if x.ictl.getLsbD 3 then 12 else 0) + (if x.ictl.getLsbD 1 then 3 else 0))
    delayed := none, count := x.count + 256, noIrq := false }

theorem coreTo_returnFrom {s : State} (c : Fin 8) (h : s.tidy = true) :
    coreTo c (s.core c.val).regs.epc (fun t => { t with f := (s.core c.val).ef }) (returnFrom c.val s) =
      s.setCore c.val (returned (s.core c.val)) := by
  have hc := ((tidy_iff s).1 h).cores
  simp only [coreTo, returnFrom, State.core_setCore_self c.val _ hc, State.setCore_core_twice c.val _ _ hc, returned]

/-- A core's update is none of the rest of the state. -/
theorem setCore_rest (s : State) (c : Nat) (x : Core) : { s.setCore c x with cores := s.cores } = s := rfl

/-- ICTL after RTI: PGIE and PLPE in GIE and LPE, and EXC clear (R244). -/
theorem ictl_return (plpe pgie : Bool) :
    let b := BitVec.ofNat 5 ((if plpe then 12 else 0) + (if pgie then 3 else 0))
    b.getLsbD 4 = false ∧ b.getLsbD 0 = pgie ∧ b.getLsbD 2 = plpe := by
  cases plpe <;> cases pgie <;> decide

theorem does_rti {s : State} {c : Fin 8} {p : Prefix} (h : CoreTakes s c p soloShape) :
    let x := s.core c.val
    Does (.rti (.core c) p) s fun t =>
      (t.core c.val).regs.pc = x.regs.epc ∧ (t.core c.val).regs.f = x.ef ∧ ictlExc (t.core c.val) = false ∧
      ictlGie (t.core c.val) = x.ictl.getLsbD 1 ∧ ictlLpe (t.core c.val) = x.ictl.getLsbD 3 ∧
      { t with cores := s.cores } = s := by
  intro x
  obtain ⟨hexc, hgie, hlpe⟩ := ictl_return (x.ictl.getLsbD 3) (x.ictl.getLsbD 1)
  refine ⟨_, exec_rti_core h, ?_⟩
  rw [coreTo_returnFrom c h.1]
  refine ⟨?_, ?_, ?_, ?_, ?_, setCore_rest _ _ _⟩ <;> rw [State.core_setCore_self c.val _ ((tidy_iff s).1 h.1).cores]
  · rfl
  · rfl
  · exact hexc
  · exact hgie
  · exact hlpe

/-- A core that holds no node has joined the waiting set (R218, R246). -/
def waiting (s : State) (c : Nat) (rd : Fin 32) (len : Nat) : State :=
  State.wr { s.setCore c { s.core c with getwReg := rd, getwLen := len, waitSince := s.waitSeq } with waitSeq := s.waitSeq + 1 }
    (Obj.coreState c) 2

theorem tidy_waiting {s : State} (c : Nat) (rd : Fin 32) (len : Nat) (h : s.tidy = true) : (waiting s c rd len).tidy = true :=
  tidy_wr _ _ (tidy_setCore c _ h :)

theorem core_waiting {s : State} (c : Nat) (rd : Fin 32) (len : Nat) (h : s.tidy = true) :
    (waiting s c rd len).core c = { s.core c with getwReg := rd, getwLen := len, waitSince := s.waitSeq } :=
  State.core_setCore_self c _ ((tidy_iff s).1 h).cores

theorem coreState_waiting {s : State} (c : Nat) (rd : Fin 32) (len : Nat) (h : s.tidy = true) :
    (waiting s c rd len).rd (Obj.coreState c) = 2 := by
  have ht : Tidy { s.setCore c { s.core c with getwReg := rd, getwLen := len, waitSince := s.waitSeq } with waitSeq := s.waitSeq + 1 } :=
    (tidy_iff _).1 (tidy_setCore c _ h :)
  exact State.rd_wr_self _ _ ht.od

/-- The shape of GETW. -/
def getwShape (c : Fin 8) (rd : Fin 32) : Shape := { len := 2, rep := false, lane := false, reasons := regReasons (.core c) rd.val }

theorem exec_getw_core {s : State} {c : Fin 8} {p : Prefix} {rd : Fin 32} (h : CoreTakes s c p (getwShape c rd))
    (hf : heldFiring s c.val = none) :
    exec (.getw (.core c) p rd) s =
      .next (coreTo c (s.core c.val).regs.pc id (waiting s c.val rd (decodedLen p (getwShape c rd)))) := by
  have ht := tidy_waiting c.val rd (decodedLen p (getwShape c rd)) h.1
  have hb : (getwBody rd (decodedLen p (getwShape c rd)) (coreCx s c p) (s.core c.val).regs).run s =
      .ok ({ dest := some (s.core c.val).regs.pc, xfer := true }, waiting s c.val rd (decodedLen p (getwShape c rd))) :=
    (bind_ok (modify_ok (by simp only [hf]; rfl))).trans rfl
  have hg : CoreGives s _ (waiting s c.val rd (decodedLen p (getwShape c rd))) c p (getwBody rd (decodedLen p (getwShape c rd))) _ :=
    ⟨hb, ht, by rw [core_waiting c.val rd _ h.1]; exact h.2.2.2.2.2.2.1, dWrites_core_nil c p _ _ _, rfl, rfl⟩
  exact runInstr_core_to h 1 hg ht rfl rfl rfl

theorem does_getw {s : State} {c : Fin 8} {p : Prefix} {rd : Fin 32} (h : CoreTakes s c p (getwShape c rd))
    (hf : heldFiring s c.val = none) :
    Does (.getw (.core c) p rd) s fun t =>
      t.rd (Obj.coreState c.val) = 2 ∧ (t.core c.val).regs.pc = (s.core c.val).regs.pc ∧ (t.core c.val).getwReg = rd ∧
      (t.core c.val).waitSince = s.waitSeq ∧ t.mem = s.mem := by
  refine ⟨_, exec_getw_core h hf, ?_, ?_⟩
  · rw [coreTo_rd, coreState_waiting c.val rd _ h.1]
  · rw [coreTo_mem, core_coreTo c _ _ (tidy_waiting c.val rd _ h.1), core_waiting c.val rd _ h.1]
    exact ⟨rfl, rfl, rfl, rfl⟩

/-- Settles O7: HALT and PHASE as they end; RTI and GETW from the state in which they leave the core. -/
theorem coreControl : Obligations.CoreControl :=
  ⟨fun _ _ _ h => exec_halt_core h, fun _ _ _ h => does_rti h, fun _ _ _ _ h hf => does_getw h hf, fun _ _ _ h => exec_phase_lane h⟩

end Sys2Proof.Machine
end

section
/-! A dictionary write that is a command (R289, R293), and the writes of a lane's own objects (R43, R54, R58, R380). -/

namespace Sys2Proof.Machine
open Sys2Proof Sys2Proof.Claims

/-! ## A write whose object is a command -/

/-- Where no request of the link waits, the server has none to serve first (R289). -/
theorem serveLink_of_ready {s : State} (h : Ready s) : serveLink s = s := by
  have hnone : (!served s || s.link.reqState != 1 || s.link.odServed) = true := by
    rcases h.2.2.2 with hr | ho
    · rw [bne_iff_ne.2 hr, Bool.or_true, Bool.true_or]
    · rw [ho, Bool.or_true]
  unfold serveLink
  rw [if_pos hnone]

theorem bistRefuses_of_none {s : State} (s' : State) (idx sub v : Nat) (h : s.service.bist = none) :
    bistRefuses s s' idx sub v = false := by
  unfold bistRefuses
  split
  · rfl
  · rw [h]

/-- A write that reaches its command is answered with what the command answers. -/
theorem writeObject_command {p : Path} {idx sub a : Nat} {data : List Byte} {s t : State} {r : ObjRow} (hs : Ready s)
    (hl : lookup idx sub = .ok r) (hacc : r.acc ≠ .ro ∧ r.acc ≠ .const) (hlen : lengthAbort r idx sub data = abNone)
    (hty : r.type ≠ .guard32) (hdom : domGood r (ofLe data) = true)
    (hc : command (pathCode p) (selected s (pathCode p) idx) idx sub (dropReserved r idx sub (ofLe data)) data s = some (t, a)) :
    writeObject p idx sub data s = answer (pathCode p) (idx * 256 + sub) a [] t := by
  have hw : dictWrite (pathCode p) idx sub data s = (t, a) := by
    simp [dictWrite, hl, hacc.1, hacc.2, hlen, hty, writeValue, hdom, hc, bistRefuses_of_none t idx sub _ hs.2.2.1]
  simp only [writeObject, hs.2.1, serveLink_of_ready hs, hw, Bool.not_true, Bool.false_eq_true, if_false]

/-! ## The objects of a lane -/

/-- A command object of the lanes: a value of one byte that may be written. -/
structure LaneRow (sub : Nat) (r : ObjRow) : Prop where
  found : ∀ n : Fin 64, lookup (0x2600 + n.val) sub = .ok r
  writable : r.acc ≠ .ro ∧ r.acc ≠ .const
  byte : r.type.bytes = 1 ∧ r.type ≠ .guard32

theorem laneRow_enable : LaneRow 3 ⟨0x2600, 64, 1, 3, 1, .bool, .rws, 1, .range 0 1⟩ :=
  ⟨by decide +kernel, by decide, by decide⟩

theorem laneRow_clear : LaneRow 10 ⟨0x2600, 64, 1, 10, 1, .uint 1, .wo, 0, .bits 3⟩ :=
  ⟨by decide +kernel, by decide, by decide⟩

theorem laneRow_safe : LaneRow 12 ⟨0x2600, 64, 1, 12, 1, .uint 1, .wo, 0, .range 1 2⟩ :=
  ⟨by decide +kernel, by decide, by decide⟩

theorem laneRow_grant : LaneRow 13 ⟨0x2600, 64, 1, 13, 1, .uint 1, .rws, 0, .any⟩ :=
  ⟨by decide +kernel, by decide, by decide⟩

/-- No object of a lane has reserved bits but those that its row names (R10). -/
theorem dropReserved_lane {n : Nat} (hn : n < 64) (r : ObjRow) (sub v : Nat) (hd : ∀ m, r.dom = .bits m → v &&& m = v) :
    dropReserved r (0x2600 + n) sub v = v := by
  unfold dropReserved
  rw [if_neg (by omega), if_neg (by omega), if_neg (by omega), if_neg (by omega), if_neg (by omega), if_neg (by omega)]
  split
  next m hm => exact hd m hm
  next => rfl

theorem ofLe_byte {v : Nat} (hv : v < 256) : ofLe (leBytes 1 v) = v := by
  simp only [leBytes, ofLe, BitVec.toNat_ofNat]
  omega

/-- The commands among the objects of a lane (R54, R58, R43). -/
theorem command_lane {n : Nat} (hn : n < 64) (p item v : Nat) (data : List Byte) (s : State) :
    command p item (0x2600 + n) 3 v data s = some (laneEnable n v s, abNone) ∧
    command p item (0x2600 + n) 10 v data s = some (laneClearBits n v s, abNone) ∧
    command p item (0x2600 + n) 12 v data s = some (if v = 1 then safeRequest 0 n s else safeRelease n s, abNone) ∧
    command p item (0x2600 + n) 13 v data s = some (writeFarGrant n v s) := by
  have hi : 0x2600 + n < 0x3000 := by omega
  have hin : 0x2600 ≤ 0x2600 + n ∧ 0x2600 + n < 0x2640 := by omega
  have hne : ∀ k, k < 0x2600 → 0x2600 + n ≠ k := by omega
  have hport : ¬(0x2200 ≤ 0x2600 + n ∧ 0x2600 + n < 0x2260) := by omega
  simp [command, command0, hi, hin, hne, hport]

theorem writeNat_lane {p : Path} {n : Fin 64} {sub v a : Nat} {s t : State} {r : ObjRow} (hs : Ready s) (hr : LaneRow sub r)
    (hv : v < 256) (hdom : domGood r v = true) (hd : ∀ m, r.dom = .bits m → v &&& m = v)
    (hc : ∀ item data, command (pathCode p) item (0x2600 + n.val) sub v data s = some (t, a)) :
    writeNat p (0x2600 + n.val) sub 1 v s = answer (pathCode p) ((0x2600 + n.val) * 256 + sub) a [] t := by
  obtain ⟨hfound, hacc, hbytes, hty⟩ := hr
  have hlen : lengthAbort r (0x2600 + n.val) sub (leBytes 1 v) = abNone := by
    unfold lengthAbort
    rw [hbytes, if_neg (by omega)]
    rfl
  refine writeObject_command hs (hfound n) hacc hlen hty ?_ ?_
  · rw [ofLe_byte hv]
    exact hdom
  · rw [ofLe_byte hv, dropReserved_lane n.isLt r sub v hd]
    exact hc _ _

theorem exec_laneEnableWrite {p : Path} {n : Fin 64} {v : Byte} {s : State} (hs : Ready s) (hv : v.toNat ≤ 1) :
    exec (.laneEnableWrite p n v) s = .next (told p (0x2600 + n.val) 3 (laneEnable n.val v.toNat s)) :=
  congrArg Host.Outcome.next (writeNat_lane hs laneRow_enable v.isLt (by simp [domGood, hv]) (by simp)
    fun _ _ => (command_lane n.isLt _ _ _ _ s).1)

theorem exec_laneClearFaults {p : Path} {n : Fin 64} {s : State} (hs : Ready s) :
    exec (.laneClearFaults p n) s = .next (told p (0x2600 + n.val) 10 (laneClearBits n.val 1 s)) :=
  congrArg Host.Outcome.next (writeNat_lane hs laneRow_clear (by omega) rfl (by rintro _ ⟨⟩; rfl)
    fun _ _ => (command_lane n.isLt _ _ _ _ s).2.1)

theorem exec_laneClearCounters {p : Path} {n : Fin 64} {s : State} (hs : Ready s) :
    exec (.laneClearCounters p n) s = .next (told p (0x2600 + n.val) 10 (laneClearBits n.val 2 s)) :=
  congrArg Host.Outcome.next (writeNat_lane hs laneRow_clear (by omega) rfl (by rintro _ ⟨⟩; rfl)
    fun _ _ => (command_lane n.isLt _ _ _ _ s).2.1)

theorem exec_safeRequestForce {p : Path} {n : Fin 64} {s : State} (hs : Ready s) :
    exec (.safeRequestForce p n) s = .next (told p (0x2600 + n.val) 12 (safeRequest 0 n.val s)) :=
  congrArg Host.Outcome.next (writeNat_lane hs laneRow_safe (by omega) rfl (by simp)
    fun _ _ => (command_lane n.isLt _ _ 1 _ s).2.2.1)

theorem exec_safeRequestRelease {p : Path} {n : Fin 64} {s : State} (hs : Ready s) :
    exec (.safeRequestRelease p n) s = .next (told p (0x2600 + n.val) 12 (safeRelease n.val s)) :=
  congrArg Host.Outcome.next (writeNat_lane hs laneRow_safe (by omega) rfl (by simp)
    fun _ _ => (command_lane n.isLt _ _ 2 _ s).2.2.1)

theorem exec_farGrantWrite {p : Path} {n : Fin 64} {v : Byte} {s : State} (hs : Ready s) :
    exec (.farGrantWrite p n v) s = .next (answer (pathCode p) ((0x2600 + n.val) * 256 + 13) (writeFarGrant n.val v.toNat s).2 []
      (writeFarGrant n.val v.toNat s).1) :=
  congrArg Host.Outcome.next (writeNat_lane hs laneRow_grant v.isLt rfl (by simp)
    fun _ _ => (command_lane n.isLt _ _ _ _ s).2.2.2)

/-! ## The states of a lane (R53, R54) -/

/-- A lane that no supervisor and no fault sends to SAFE enters it without a fault record. -/
theorem enterSafe_of_host {s : State} (n : Nat) (h : (s.lane n).safeBy = 0 ∨ (s.lane n).safeBy = 3) :
    enterSafe n s = (s.setLane n { s.lane n with safePending := false, ran := false, faded := true }).wr (Obj.laneState n) laneSafe := by
  unfold enterSafe
  rw [if_neg (by omega)]

theorem safeRequest_of_running {s : State} (n : Nat) (ht : s.tidy = true) (h : laneSt s n = laneArmed ∨ laneSt s n = laneTake) :
    safeRequest 0 n s = (s.setLane n { s.lane n with safePending := false, safeBy := 0, ran := false, faded := true }).wr
      (Obj.laneState n) laneSafe := by
  have hl := ((tidy_iff s).1 ht).lanes
  have hne : laneSt s n ≠ laneSafe := by rcases h with h | h <;> rw [h] <;> decide
  have hself := State.lane_setLane_self n { s.lane n with safePending := true, safeBy := 0 } hl
  simp only [safeRequest, if_neg hne, if_pos h]
  rw [enterSafe_of_host n (by rw [hself]; exact .inl rfl), hself, State.setLane_lane_twice n _ _ hl]

theorem safeRequest_of_safe {s : State} (n : Nat) (h : laneSt s n = laneSafe) : safeRequest 0 n s = s := by
  simp only [safeRequest, if_pos h]

theorem resting_ne {st : Nat} (h : st = laneUnloaded ∨ st = laneLoading ∨ st = laneStopped) :
    st ≠ laneSafe ∧ ¬(st = laneArmed ∨ st = laneTake) := by
  rcases h with rfl | rfl | rfl <;> decide

theorem safeRequest_of_resting {s : State} (n : Nat)
    (h : laneSt s n = laneUnloaded ∨ laneSt s n = laneLoading ∨ laneSt s n = laneStopped) :
    safeRequest 0 n s = s.setLane n { s.lane n with safePending := true, safeBy := 0 } := by
  simp only [safeRequest, if_neg (resting_ne h).1, if_neg (resting_ne h).2]

theorem safeRelease_of_safe {s : State} (n : Nat) (h : laneSt s n = laneSafe) :
    safeRelease n s = s.wr (Obj.laneState n) laneArmed := by
  simp only [safeRelease, if_pos h]

theorem safeRelease_of_running {s : State} (n : Nat) (h : laneSt s n = laneArmed ∨ laneSt s n = laneTake) : safeRelease n s = s := by
  have hne : laneSt s n ≠ laneSafe := by rcases h with h | h <;> rw [h] <;> decide
  simp only [safeRelease, if_neg hne, if_pos h]

theorem safeRelease_of_resting {s : State} (n : Nat)
    (h : laneSt s n = laneUnloaded ∨ laneSt s n = laneLoading ∨ laneSt s n = laneStopped) :
    safeRelease n s = s.setLane n { s.lane n with safePending := false } := by
  simp only [safeRelease, if_neg (resting_ne h).1, if_neg (resting_ne h).2]

theorem laneSafeRequests : LaneSafeRequests := by
  intro p n s hs
  dsimp only
  refine ⟨fun h => ?_, fun h => ?_, fun h => ?_, fun h => ?_, fun h => ?_, fun h => ?_⟩
  · rw [exec_safeRequestForce hs, safeRequest_of_running n.val hs.1 h]
  · rw [exec_safeRequestForce hs, safeRequest_of_safe n.val h]
  · rw [exec_safeRequestForce hs, safeRequest_of_resting n.val h]
  · rw [exec_safeRequestRelease hs, safeRelease_of_safe n.val h]
  · rw [exec_safeRequestRelease hs, safeRelease_of_running n.val h]
  · rw [exec_safeRequestRelease hs, safeRelease_of_resting n.val h]

/-- LANE_ENABLE is no part of the lane's state. -/
theorem laneSt_wr_laneEnable (n v : Nat) (s : State) : laneSt (s.wr (Obj.laneEnable n) v) n = laneSt s n :=
  State.rd_wr_ne s v (by simp only [Obj.laneState, Obj.laneEnable]; omega)

/-- LANE_ENABLE at 0 stops a lane that triggers may run; a lane in SAFE keeps its request (R54). -/
theorem laneEnable_zero {s : State} (n : Nat) (he : s.rd (Obj.laneEnable n) = 1)
    (h : laneSt s n = laneArmed ∨ laneSt s n = laneTake ∨ laneSt s n = laneSafe) :
    laneEnable n 0 s = ((s.wr (Obj.laneEnable n) 0).setLane n { s.lane n with
      ran := false, faded := true, safePending := (s.lane n).safePending || laneSt s n == laneSafe
      safeBy := if laneSt s n = laneSafe then 3 else (s.lane n).safeBy }).wr (Obj.laneState n) laneStopped := by
  simp only [laneEnable, he, laneSt_wr_laneEnable, if_pos h, if_neg (show ¬(0 = 1) by omega), if_true, State.wr_lane]

/-- LANE_ENABLE at 1 arms a stopped lane, or takes it to SAFE where a request waits (R54). -/
theorem laneEnable_one {s : State} (n : Nat) (he : s.rd (Obj.laneEnable n) = 0) (h : laneSt s n = laneStopped) :
    laneEnable n 1 s = if (s.lane n).safePending then enterSafe n (s.wr (Obj.laneEnable n) 1)
      else (s.wr (Obj.laneEnable n) 1).wr (Obj.laneState n) laneArmed := by
  unfold laneEnable
  dsimp only
  rw [he, laneSt_wr_laneEnable, if_neg (by decide), if_neg (by decide), if_pos h]
  rfl

theorem exec_laneLoadComplete {s : State} (n : Fin 64) (ha : awake s = true) (h : laneSt s n.val = laneLoading) :
    exec (.laneLoadComplete n) s = .next (if s.rd (Obj.laneEnable n.val) = 0 then s.wr (Obj.laneState n.val) laneStopped
      else if (s.lane n.val).safePending then enterSafe n.val s else s.wr (Obj.laneState n.val) laneArmed) := by
  show clocked (fun s => endLoad n.val s) s = _
  simp only [clocked, ha, endLoad, h, ne_eq, not_true_eq_false, if_false, if_true]

theorem laneEnables : LaneEnables := by
  intro p n s
  dsimp only
  refine ⟨fun hs h he => ?_, fun hs h he => ?_, fun hs h he hp => ?_, fun hs h he hp hb => ?_, fun ha h he => ?_,
    fun ha h he hp => ?_, fun ha h he hp hb => ?_⟩
  · have hne : laneSt s n.val ≠ laneSafe := by rcases h with h | h <;> rw [h] <;> decide
    rw [exec_laneEnableWrite hs (by decide)]
    have hz := laneEnable_zero n.val he (h.imp_right .inl)
    rw [if_neg hne, beq_false_of_ne hne, Bool.or_false] at hz
    exact congrArg (fun t => Host.Outcome.next (told p (0x2600 + n.val) 3 t)) hz
  · rw [exec_laneEnableWrite hs (by decide)]
    have hz := laneEnable_zero n.val he (.inr (.inr h))
    rw [if_pos h, show (laneSt s n.val == laneSafe) = true from beq_iff_eq.2 h, Bool.or_true] at hz
    exact congrArg (fun t => Host.Outcome.next (told p (0x2600 + n.val) 3 t)) hz
  · rw [exec_laneEnableWrite hs (by decide)]
    have hz := laneEnable_one n.val he h
    rw [hp, if_neg (by decide)] at hz
    exact congrArg (fun t => Host.Outcome.next (told p (0x2600 + n.val) 3 t)) hz
  · rw [exec_laneEnableWrite hs (by decide)]
    have hz := laneEnable_one n.val he h
    rw [if_pos hp, enterSafe_of_host (s := s.wr (Obj.laneEnable n.val) 1) n.val hb, State.wr_lane] at hz
    exact congrArg (fun t => Host.Outcome.next (told p (0x2600 + n.val) 3 t)) hz
  · rw [exec_laneLoadComplete n ha h, if_pos he]
  · rw [exec_laneLoadComplete n ha h, he, hp, if_neg (by decide), if_neg (by decide)]
  · rw [exec_laneLoadComplete n ha h, he, if_neg (by decide), if_pos hp, enterSafe_of_host n.val (.inl hb)]

/-- Settles O39: each clause from what the lane's own operation does in that state. -/
theorem laneStates : Obligations.LaneStates := ⟨laneSafeRequests, laneEnables⟩

end Sys2Proof.Machine
end

section
/-! The clears of a lane and its far grant (R43, R58, R380). -/

namespace Sys2Proof.Machine
open Sys2Proof Sys2Proof.Claims

/-! ## Repetition over lists -/

/-- What one change of a list brings about and the others keep holds after all of them. -/
theorem forList_establish {α : Type} (P : State → Prop) (l : List α) (f : α → State → State) (x : α) (hx : x ∈ l)
    (hf : ∀ s, P (f x s)) (hk : ∀ y ∈ l, ∀ s, P s → P (f y s)) (s : State) : P (forList l f s) := by
  induction l generalizing s with
  | nil => cases hx
  | cons y l ih =>
    have hk' : ∀ z ∈ l, ∀ s, P s → P (f z s) := fun z hz => hk z (List.mem_cons_of_mem y hz)
    rcases List.mem_cons.1 hx with rfl | hx
    · exact forList_keep P l f hk' _ (hf s)
    · exact ih hx hk' _

/-! ## The active flags that a clear leaves (R380) -/

/-- Every active code of `t` is one of `s`, or 0xB005, the overflow of the EMCY queue. -/
def ActiveFrom (s t : State) : Prop := ∀ a ∈ t.active, a ∈ s.active ∨ a.1.toNat = 0xB005

theorem ActiveFrom.of_eq {s t : State} (h : t.active = s.active) : ActiveFrom s t := fun _ ha => .inl (h ▸ ha)

theorem bumpRepeat_active (p : FaultRec → Bool) (s : State) : (bumpRepeat p s).active = s.active := by
  unfold bumpRepeat
  dsimp only
  split
  · rfl
  · rfl

theorem pendAll_active (k : Nat) (s : State) : (pendAll k s).active = s.active :=
  forUpto_keep (fun t => t.active = s.active) 8 (fun c => pendCore c k) (fun _ _ _ h => h) s rfl

theorem logSources_active (code : Nat) (s : State) : (logSources code s).active = s.active := by
  unfold logSources
  split
  · exact pendAll_active _ s
  · rfl

theorem logTotals_logCount_active (k code : Nat) (s : State) : (logTotals k code (logCount s)).active = s.active := by
  unfold logCount
  split
  · rfl
  · rfl

theorem logActive_mem (c : BitVec 16) (s : State) : ∀ a ∈ (logActive c s).active, a ∈ s.active ∨ a.1 = c := by
  intro a ha
  unfold logActive at ha
  split at ha
  · exact .inl ha
  · exact (List.mem_append.1 ha).imp_right fun h => by rw [List.mem_singleton.1 h]

/-- A record raises no active flag but that of its code. -/
theorem logFault_active (code unit info extra : Nat) (s : State) :
    ∀ a ∈ (logFault code unit info extra s).active, a ∈ s.active ∨ a.1 = BitVec.ofNat 16 code := by
  intro a ha
  rw [logFault_eq, logSources_active] at ha
  have h := logActive_mem _ _ a ha
  rw [logTotals_logCount_active] at h
  exact h

theorem queueEmcy_active (err code detail : Nat) (s : State) : ActiveFrom s (queueEmcy err code detail s) := by
  unfold queueEmcy
  split
  · exact ActiveFrom.of_eq rfl
  · split
    · exact ActiveFrom.of_eq rfl
    · split
      · exact ActiveFrom.of_eq (bumpRepeat_active _ s)
      · dsimp only
        split
        · exact ActiveFrom.of_eq (bumpRepeat_active _ _)
        · exact fun a ha => (logFault_active _ _ _ _ _ a ha).imp_right fun h => by rw [h]; rfl

theorem clearActive_only (p : Nat → Bool) (s : State) : FaultOnly s (clearActive p s) := by
  unfold clearActive errCleared
  split
  · refine FaultOnly.trans ?_ (FaultOnly.queueEmcy _ _ _ _)
    rfl
  · rfl

theorem clearActive_active (p : Nat → Bool) (s : State) :
    ∀ a ∈ (clearActive p s).active, (a ∈ s.active ∧ p a.1.toNat = false) ∨ a.1.toNat = 0xB005 := by
  have hfilter : ∀ a ∈ s.active.filter (fun a => !p a.1.toNat), a ∈ s.active ∧ p a.1.toNat = false := fun a ha => by
    simpa using List.mem_filter.1 ha
  intro a ha
  unfold clearActive errCleared at ha
  split at ha
  · exact (queueEmcy_active _ _ _ _ a ha).imp_left (hfilter a)
  · exact .inl (hfilter a ha)

theorem rd_clearActive {q : Reg} (h : OffLog q) (p : Nat → Bool) (s : State) : (clearActive p s).rd q = s.rd q := by
  unfold clearActive errCleared
  split
  · exact rd_queueEmcy h _ _ _ _
  · rfl

theorem tidy_clearActive {s : State} (p : Nat → Bool) (h : s.tidy = true) : (clearActive p s).tidy = true := by
  unfold clearActive errCleared
  split
  · exact tidy_queueEmcy _ _ _ h
  · exact h

/-! ## A clear of the fault bits of a lane (R58, R380) -/

/-- Whether code 0x4001 + `k` is no lane's any more once lane `n`'s fault bits are cleared. -/
def lastHolder (n k : Nat) (s : State) : Bool :=
  ((List.range 64).map Obj.laneFaults).any (fun r => (s.rd r).testBit k) &&
    !((List.range 64).map Obj.laneFaults).any (fun r => ((s.wr (Obj.laneFaults n) 0).rd r).testBit k)

/-- Clear the active flag of code 0x4001 + `k` where lane `n` was the last that held it. -/
def clearFlag (n : Nat) (s : State) (k : Nat) (t : State) : State :=
  if lastHolder n k s then clearActive (fun c => c == 0x4001 + k) t else t

/-- The fault bits of lane `n` clear, with the active flags they held last. -/
def clearLaneFaults (n : Nat) (s : State) : State := forUpto 9 (clearFlag n s) (s.wr (Obj.laneFaults n) 0)

theorem laneClearBits_one (n : Nat) (s : State) : laneClearBits n 1 s =
    ((clearLaneFaults n s).setLane n { (clearLaneFaults n s).lane n with clearFlags := true }).wr (Obj.firstUdSlot n) 0xFFFF := rfl

theorem clearFlag_only (n : Nat) (s : State) (k : Nat) (t : State) : FaultOnly t (clearFlag n s k t) := by
  unfold clearFlag
  split
  · exact clearActive_only _ t
  · exact FaultOnly.refl t

theorem clearLaneFaults_only (n : Nat) (s : State) : FaultOnly s (clearLaneFaults n s) :=
  forUpto_keep (FaultOnly s) 9 _ (fun k _ t h => h.trans (clearFlag_only n s k t)) _ (FaultOnly.wr s _ _)

theorem tidy_clearLaneFaults {s : State} (n : Nat) (h : s.tidy = true) : (clearLaneFaults n s).tidy = true := by
  refine forUpto_keep (fun t => t.tidy = true) 9 _ (fun k _ t ht => ?_) _ (tidy_wr _ _ h)
  unfold clearFlag
  split
  · exact tidy_clearActive _ ht
  · exact ht

theorem laneFaults_clearLaneFaults {s : State} {n : Nat} (hn : n < 64) (h : s.tidy = true) :
    (clearLaneFaults n s).rd (Obj.laneFaults n) = 0 := by
  refine forUpto_keep (fun t => t.rd (Obj.laneFaults n) = 0) 9 _ (fun k _ t ht => ?_) _ (State.rd_wr_self _ _ ((tidy_iff s).1 h).od)
  unfold clearFlag
  split
  · exact (rd_clearActive (laneFaults_offLog hn) _ t).trans ht
  · exact ht

/-- Lane `n` was the last to hold a code that it held and no other lane does. -/
theorem lastHolder_of_alone {s : State} {n k : Nat} (hn : n < 64) (h : s.tidy = true)
    (hk : (s.rd (Obj.laneFaults n)).testBit k = true)
    (ho : ∀ m, m < 64 → m ≠ n → (s.rd (Obj.laneFaults m)).testBit k = false) : lastHolder n k s = true := by
  have hnone : ∀ m < 64, ((s.wr (Obj.laneFaults n) 0).rd (Obj.laneFaults m)).testBit k = false := fun m hm => by
    by_cases e : m = n
    · rw [e, State.rd_wr_self _ _ ((tidy_iff s).1 h).od, Nat.zero_testBit]
    · rw [State.rd_wr_ne s _ (by simp only [Obj.laneFaults]; omega), ho m hm e]
  simp only [lastHolder, List.any_map, Bool.and_eq_true, List.any_eq_true, List.mem_range, Function.comp_apply,
    Bool.not_eq_true', List.any_eq_false, Bool.not_eq_true]
  exact ⟨⟨n, hn, hk⟩, hnone⟩

theorem active_clearLaneFaults {s : State} {n k : Nat} (hk : k < 9) (hl : lastHolder n k s = true) :
    ∀ a ∈ (clearLaneFaults n s).active, a.1.toNat ≠ 0x4001 + k := by
  refine forList_establish (fun t => ∀ a ∈ t.active, a.1.toNat ≠ 0x4001 + k) (List.range 9) (clearFlag n s) k (List.mem_range.2 hk)
    (fun t a ha => ?_) (fun j _ t ht a ha => ?_) _
  · rw [clearFlag, if_pos hl] at ha
    rcases clearActive_active _ t a ha with ⟨-, hp⟩ | hb
    · simpa using hp
    · omega
  · unfold clearFlag at ha
    split at ha
    · rcases clearActive_active _ t a ha with ⟨ha, -⟩ | hb
      · exact ht a ha
      · omega
    · exact ht a ha

theorem FaultOnly.lane {s t : State} (h : FaultOnly s t) (n : Nat) : t.lane n = s.lane n :=
  (congrArg (fun x : State => x.lane n) h :)

/-- The answer to a write is none of the registers, lanes and memory. -/
@[simp] theorem told_rd (p : Path) (idx sub : Nat) (s : State) (q : Reg) : (told p idx sub s).rd q = s.rd q := rfl
@[simp] theorem told_lane (p : Path) (idx sub : Nat) (s : State) (n : Nat) : (told p idx sub s).lane n = s.lane n := rfl
theorem told_rest (p : Path) (idx sub : Nat) (s t : State) :
    { told p idx sub t with od := s.od, answers := s.answers } = { t with od := s.od, answers := s.answers } := rfl

/-- An accepted write leaves abort code 0. -/
theorem accepted_told {s : State} (p : Path) (idx sub : Nat) (h : s.tidy = true) : Accepted p (told p idx sub s) := by
  unfold Accepted told answer
  rw [Map.get_set_self _ _ ((tidy_iff s).1 h).answers]
  rfl

theorem writes_clearFaults {p : Path} {n : Fin 64} {s : State} (hs : Ready s) :
    Writes (.laneClearFaults p n) p s (fun t =>
      t.rd (Obj.laneFaults n.val) = 0 ∧ t.rd (Obj.firstUdSlot n.val) = 0xFFFF ∧ (t.lane n.val).clearFlags = true ∧
      (∀ k, k < 9 → (s.rd (Obj.laneFaults n.val)).testBit k = true →
        (∀ m, m < 64 → m ≠ n.val → (s.rd (Obj.laneFaults m)).testBit k = false) →
        ∀ a ∈ t.active, a.1.toNat ≠ 0x4001 + k) ∧
      t.mem = s.mem ∧ t.lane n.val = { s.lane n.val with clearFlags := true }) := by
  have ho := clearLaneFaults_only n.val s
  have ht := tidy_clearLaneFaults n.val hs.1
  have hl := tidy_setLane n.val { (clearLaneFaults n.val s).lane n.val with clearFlags := true } ht
  have hlane : (told p (0x2600 + n.val) 10 (laneClearBits n.val 1 s)).lane n.val = { s.lane n.val with clearFlags := true } := by
    rw [told_lane, laneClearBits_one, State.wr_lane, State.lane_setLane_self n.val _ ((tidy_iff _).1 ht).lanes, ho.lane]
  refine ⟨_, exec_laneClearFaults hs, accepted_told p _ _ (tidy_wr _ _ hl), ?_, ?_, ?_, ?_, ho.mem, hlane⟩
  · rw [told_rd, laneClearBits_one, State.rd_wr_ne _ _ (by simp [Obj.laneFaults, Obj.firstUdSlot]), State.setLane_rd,
      laneFaults_clearLaneFaults n.isLt hs.1]
  · rw [told_rd, laneClearBits_one, State.rd_wr_self _ _ ((tidy_iff _).1 hl).od]
  · rw [hlane]
  · exact fun k hk hbit hother => active_clearLaneFaults hk (lastHolder_of_alone n.isLt hs.1 hbit hother)

/-! ## A clear of the counters of a lane (R58) -/

theorem tidy_zeroRegs {s : State} (rs : List Reg) (h : s.tidy = true) : (zeroRegs rs s).tidy = true :=
  forList_keep (fun t => t.tidy = true) rs _ (fun r _ _ ht => tidy_wr r 0 ht) s h

theorem zeroRegs_rest (rs : List Reg) (s : State) : { zeroRegs rs s with od := s.od, answers := s.answers } = s :=
  forList_keep (fun t => { t with od := s.od, answers := s.answers } = s) rs (fun r t => t.wr r 0) (fun _ _ _ h => h) s rfl

theorem rd_zeroRegs_ne (rs : List Reg) (s : State) (r : Reg) (h : ∀ q ∈ rs, r.key ≠ q.key) : (zeroRegs rs s).rd r = s.rd r :=
  forList_keep (fun t => t.rd r = s.rd r) rs _ (fun q hq t ht => (State.rd_wr_ne t 0 (h q hq)).trans ht) s rfl

/-- Registers of different keys that are set to 0 read 0. -/
theorem rd_zeroRegs_mem {rs : List Reg} (hd : rs.Pairwise fun r q => r.key ≠ q.key) {s : State} (h : s.tidy = true) :
    ∀ r ∈ rs, (zeroRegs rs s).rd r = 0 := by
  induction rs generalizing s with
  | nil => simp
  | cons q rs ih =>
    obtain ⟨hq, hd⟩ := List.pairwise_cons.1 hd
    have hw := tidy_wr q 0 h
    intro r hr
    rcases List.mem_cons.1 hr with rfl | hr
    · exact (rd_zeroRegs_ne rs (s.wr r 0) r hq).trans (State.rd_wr_self r 0 ((tidy_iff s).1 h).od)
    · exact ih hd hw r hr

/-- The counters that LANE_CLEAR clears. -/
def laneCounters (n : Nat) : List Reg :=
  [Obj.missedTakes n, Obj.lastMissSlate n, Obj.farRefused n, Obj.xchRefused n, Obj.udCount n, Obj.drangeCount n, Obj.guardCount n,
    Obj.safeTakes n, Obj.satTakes n]

theorem laneClearBits_two (n : Nat) (s : State) : laneClearBits n 2 s = zeroRegs (laneCounters n) s := rfl

theorem laneCounters_pairwise (n : Nat) : (laneCounters n).Pairwise fun r q => r.key ≠ q.key := by
  simp [laneCounters, Obj.missedTakes, Obj.lastMissSlate, Obj.farRefused, Obj.xchRefused, Obj.udCount, Obj.drangeCount,
    Obj.guardCount, Obj.safeTakes, Obj.satTakes]

theorem writes_clearCounters {p : Path} {n : Fin 64} {s : State} (hs : Ready s) :
    Writes (.laneClearCounters p n) p s (fun t => (∀ r ∈ laneCounters n.val, t.rd r = 0) ∧ RegsBut s t (laneCounters n.val) ∧
      { t with od := s.od, answers := s.answers } = s) := by
  have he := exec_laneClearCounters (p := p) (n := n) hs
  rw [laneClearBits_two] at he
  refine ⟨_, he, accepted_told p _ _ (tidy_zeroRegs _ hs.1), fun r hr => ?_, fun r hr => ?_, ?_⟩
  · rw [told_rd, rd_zeroRegs_mem (laneCounters_pairwise n.val) hs.1 r hr]
  · rw [told_rd, rd_zeroRegs_ne _ s r hr]
  · rw [told_rest, zeroRegs_rest]

/-! ## FAR_GRANT (R43) -/

theorem writeFarGrant_fits {n v : Nat} {s : State} (hf : grantFits n v s = true)
    (hg : ∀ g, g < 8 → v.testBit g = true → s.rd (Obj.pgState g) = 1 ∨ s.rd (Obj.pgState g) = 2) :
    writeFarGrant n v s = (putGrant n v s, abNone) := by
  have hon : ¬((List.range 8).any fun g => v.testBit g && s.rd (Obj.pgState g) != 1 && s.rd (Obj.pgState g) != 2) = true := by
    simp only [List.any_eq_true, List.mem_range, Bool.and_eq_true, bne_iff_ne, not_exists, not_and, and_imp]
    intro g hlt hbit h1 h2
    exact (hg g hlt hbit).elim h1 h2
  unfold writeFarGrant
  rw [hf, if_neg (by decide), if_neg hon]

theorem writeFarGrant_beyond {n v : Nat} {s : State} (hf : grantFits n v s = false) : writeFarGrant n v s = (s, abValue) := by
  unfold writeFarGrant
  rw [hf, if_pos (by decide)]

/-- Settles O10: a clear of fault bits by what each step of it does to the active flags, a clear of counters by what zeroing
registers leaves, FAR_GRANT by its checks. -/
theorem laneClears : Obligations.LaneClears := by
  intro p n v s hs
  refine ⟨writes_clearFaults hs, writes_clearCounters hs, fun hf hg => ?_, fun hf => ?_⟩
  · rw [exec_farGrantWrite hs, writeFarGrant_fits hf hg, putGrant, BitVec.ofNat_toNat, BitVec.setWidth_eq]
    rfl
  · rw [exec_farGrantWrite hs, writeFarGrant_beyond hf]
    rfl

/-! ## Reset -/

/-- Settles O57: every map of the reset state but that of the flash is empty, so every object reads its default. -/
theorem resetState : Obligations.ResetState := by
  have hq : QueueFits State.reset := by
    intro c hc
    cases hc
  exact ⟨⟨hq, rfl⟩, rfl, fun _ => rfl, rfl, fun _ _ => ⟨rfl, rfl⟩, fun _ _ => rfl, fun _ _ => ⟨rfl, rfl⟩, rfl, rfl, rfl, rfl, rfl, rfl,
    rfl, rfl, rfl, rfl, rfl, rfl⟩

end Sys2Proof.Machine
end

section
/-! The far window of a lane: the issue of a far load, its access and its delivery (R44, R45, R46, R73). -/

namespace Sys2Proof.Machine
open Sys2Proof Sys2Proof.Claims

/-! ## The issue of a far load -/

/-- A lane's far operand without GUARD is its effective address. -/
theorem farOperand_lane {cx : Cx} {r : Regs} {o : Operand} {ea ea' : DAddr} (hu : Agent.isLane cx.u = true)
    (hg : cx.p.guard = false) (he : effAddr r o = some (ea, ea')) (hf : isFar ea = true) : farOperand cx r o = some (ea, none) := by
  simp only [farOperand, he, hu, hf, hg, Bool.and_self, if_true, Bool.false_eq_true, if_false]

/-- The lane with `x` as its only far access. -/
def withFar (n : Nat) (x : FarAcc) (s : State) : State := s.setLane n { s.lane n with far := [x] }

theorem tidy_withFar {s : State} (n : Nat) (x : FarAcc) (h : s.tidy = true) : (withFar n x s).tidy = true := tidy_setLane n _ h

theorem lane_withFar {s : State} (n : Nat) (x : FarAcc) (h : s.tidy = true) :
    (withFar n x s).lane n = { s.lane n with far := [x] } := State.lane_setLane_self n _ ((tidy_iff s).1 h).lanes

theorem withFar_mem (n : Nat) (x : FarAcc) (s : State) : (withFar n x s).mem = s.mem := rfl

/-- A far load of a granted group, the only far access of its lane, takes a place (R45). -/
theorem farIssue_load {s : State} {n slot : Nat} {a : DAddr} (dest : Fin 32) (hfar : (s.lane n).far = []) (hf : isFar a = true)
    (hg : farGranted s n a = true) (hr : returnRingAt s a.toNat = none) :
    farIssue n slot false a none dest 0 s = withFar n ⟨slot, false, false, a, none, dest, 0, false⟩ s := by
  simp [farIssue, farInFlight, hfar, hf, hg, hr, withFar]

/-- A lane whose only far access waits at slot `slot` has none due there. -/
theorem farDue_of_waiting {s : State} {n slot : Nat} {x : FarAcc} (hfar : (s.lane n).far = [x]) (hd : x.done = false)
    (hs : slot ≤ x.slot + 11) : farDue n slot s = s := by
  simp [farDue, farCatchUp, hfar, hd, hs]

theorem loadBody_far {cx : Cx} {n : Fin 64} {r : Regs} {o : Operand} {a : DAddr} {s t : State} (dest : Fin 32) (hu : cx.u = .lane n)
    (ho : farOperand cx r o = some (a, none)) (ht : farIssue n.val cx.slot false a none dest 0 s = t) :
    (loadBody dest o cx r).run s = .ok ({ upd := postMod r o }, t) := by
  have hi : (issueFar cx false (a, none) dest 0).run s = .ok ((), t) := modify_ok (by rw [hu]; exact ht)
  unfold loadBody
  rw [ho]
  exact (bind_ok hi).trans rfl

/-- Post-modification leaves A alone. -/
theorem postMod_a (r : Regs) (o : Operand) (t : Regs) : (postMod r o t).a = t.a := by
  unfold postMod
  split <;> rfl

/-- What an instruction that sets no flag leaves of its lane. -/
theorem lane_laneDone {s : State} (n : Fin 64) (cost : Nat) (upd : Regs → Regs) (load : Option Load) (h : s.tidy = true) :
    (laneDone n cost upd {} load s).lane n.val = { s.lane n.val with
      regs := { upd (landLoad true (s.lane n.val).delayed (s.lane n.val).regs) with
        pc := BitVec.ofNat 20 ((s.lane n.val).regs.pc.toNat + cost) }
      delayed := load, satTaken := (s.lane n.val).satTaken || false } :=
  State.lane_setLane_self n.val _ ((tidy_iff s).1 h).lanes

theorem laneDone_mem (n : Fin 64) (cost : Nat) (upd : Regs → Regs) (load : Option Load) (s : State) :
    (laneDone n cost upd {} load s).mem = s.mem := rfl

/-- A granted far load without GUARD, of a lane with nothing in flight, is queued at its slot (R44, R73). -/
theorem exec_lda_far {s : State} {n : Fin 64} {p : Prefix} {o : Operand} {ea ea' : DAddr}
    (h : LaneTakes s n p (shapeD (.lane n) p true true true o)) (hp : p.guard = false)
    (he : effAddr (s.lane n.val).regs o = some (ea, ea')) (hf : isFar ea = true) (hg : farGranted s n.val ea = true)
    (hr : returnRingAt s ea.toNat = none) :
    exec (.lda (.lane n) p o) s = .next (laneDone n 1 (postMod (s.lane n.val).regs o) {} none
      (withFar n.val ⟨(s.lane n.val).regs.pc.toNat, false, false, ea, none, 0, 0, false⟩ s)) := by
  have hb := loadBody_far (cx := laneCx s n p) 0 rfl (farOperand_lane rfl hp he hf) (farIssue_load 0 h.2.2.2.2.1 hf hg hr)
  refine runInstr_lane_gives h 1 hb (farDue_of_waiting (by rw [lane_withFar _ _ h.1]) rfl ?_) (tidy_withFar _ _ h.1)
    (by rw [lane_withFar _ _ h.1]) (by rw [lane_withFar _ _ h.1]; exact h.2.2.2.2.2) rfl rfl
  show (s.lane n.val).regs.pc.toNat + 1 - 1 ≤ (s.lane n.val).regs.pc.toNat + 11
  omega

theorem does_lda_far {s : State} {n : Fin 64} {p : Prefix} {o : Operand} {ea ea' : DAddr}
    (h : LaneTakes s n p (shapeD (.lane n) p true true true o)) (hp : p.guard = false) :
    let l := s.lane n.val
    effAddr l.regs o = some (ea, ea') → isFar ea = true → farGranted s n.val ea = true → returnRingAt s ea.toNat = none →
    Does (.lda (.lane n) p o) s fun t =>
      (t.lane n.val).far = [⟨l.regs.pc.toNat, false, false, ea, none, 0, 0, false⟩] ∧
      (t.lane n.val).regs.a = (landLoad true l.delayed l.regs).a ∧ t.mem = s.mem := by
  intro l he hf hg hr
  refine ⟨_, exec_lda_far h hp he hf hg hr, ?_⟩
  beta_reduce
  rw [lane_laneDone n 1 _ _ (tidy_withFar _ _ h.1), lane_withFar n.val _ h.1, laneDone_mem, withFar_mem]
  exact ⟨rfl, postMod_a _ _ _, rfl⟩

/-! ## The access and the delivery -/

/-- What the access of lane `n`'s far read `x` returns (R44, R46). -/
def farValue (s : State) (n : Nat) (x : FarAcc) : Word := if x.refused then 0 else lanePortWord s n x.slot (farByte x.addr.toNat)

theorem exec_farRead {s : State} {n : Fin 64} {x : FarAcc} {rest : List FarAcc} (hfar : (s.lane n.val).far = x :: rest)
    (hd : x.done = false) (hw : x.write = false)
    (hx : x.refused = true ∨ x.second = none ∧ returnRingAt s x.addr.toNat = none) :
    exec (.farAccessPerformed n) s = .next (s.setLane n.val { s.lane n.val with
      far := { x with done := true, value := farValue s n.val x } :: rest }) := by
  have hp : farPerform n.val s = ([], s.setLane n.val { s.lane n.val with
      far := { x with done := true, value := farValue s n.val x } :: rest }) := by
    cases hr : x.refused with
    | true => simp [farPerform, hfar, List.findIdx?_cons, hd, hw, hr, farValue]
    | false =>
      obtain ⟨hsec, hring⟩ := hx.resolve_left (by simp [hr])
      simp [farPerform, hfar, List.findIdx?_cons, hd, hw, hr, farValue, hsec, farReadWord, hring]
  show Host.Outcome.next (blockTicks (farPerform n.val s).1 (farPerform n.val s).2) = _
  rw [hp]
  rfl

/-- The write of a far word that no other access of the tick meets. -/
theorem lanePortPut_alone {s : State} {a : Nat} (n slot : Nat) (w : Word) (h : panWrite s a = none) :
    lanePortPut n slot a w s = panPut a w (some n) (laneGroup s n) ((s.lane n).trigSlate.toNat + slot) s := by
  simp only [lanePortPut, h]

theorem panPut_lanes (a : Nat) (w : Word) (lane : Option Nat) (group slot : Nat) (s : State) :
    (panPut a w lane group slot s).lanes = s.lanes := rfl
theorem panPut_lane (a : Nat) (w : Word) (lane : Option Nat) (group slot : Nat) (s : State) (n : Nat) :
    (panPut a w lane group slot s).lane n = s.lane n := rfl
theorem panPut_mem (a : Nat) (w : Word) (lane : Option Nat) (group slot : Nat) (s : State) :
    (panPut a w lane group slot s).mem = (s.setMemWord a w).mem := rfl

theorem does_farWrite {s : State} {n : Fin 64} {x : FarAcc} {rest : List FarAcc} (h : s.tidy = true)
    (hfar : (s.lane n.val).far = x :: rest) (hd : x.done = false) (hw : x.write = true) (hr : x.refused = false)
    (hsec : x.second = none) (hring : sendRingsAt s x.addr.toNat = []) (hpan : panWrite s (farByte x.addr.toNat) = none) :
    Does (.farAccessPerformed n) s fun t => (t.lane n.val).far = rest ∧
      t.mem = (s.setMemWord (farByte x.addr.toNat) x.value).mem := by
  have hp : farPerform n.val s =
      ([], (lanePortPut n.val x.slot (farByte x.addr.toNat) x.value s).setLane n.val
        { (lanePortPut n.val x.slot (farByte x.addr.toNat) x.value s).lane n.val with
          far := ((lanePortPut n.val x.slot (farByte x.addr.toNat) x.value s).lane n.val).far.eraseIdx 0 }) := by
    simp [farPerform, hfar, List.findIdx?_cons, hd, hw, hr, hsec, farWriteWord, hring]
  refine ⟨blockTicks (farPerform n.val s).1 (farPerform n.val s).2, rfl, ?_⟩
  rw [hp, lanePortPut_alone n.val x.slot x.value hpan]
  refine ⟨?_, panPut_mem _ _ _ _ _ s⟩
  show ((State.setLane _ n.val _).lane n.val).far = rest
  rw [State.lane_setLane_self n.val _ (by rw [panPut_lanes]; exact ((tidy_iff s).1 h).lanes), panPut_lane, hfar]
  rfl

theorem exec_farDelivery {s : State} {n : Fin 64} {x : FarAcc} {rest : List FarAcc} (hfar : (s.lane n.val).far = x :: rest)
    (hd : x.done = true) :
    exec (.farReadDelivery n) s = .next (s.setLane n.val { s.lane n.val with
      far := rest, regs := writeReg true x.dest.val x.value (s.lane n.val).regs }) := by
  show Host.Outcome.next (farDeliver n.val s) = _
  simp only [farDeliver, hfar, hd, if_true]

/-- Settles O9: the issue from what queuing an access leaves, the access and the delivery from the oldest access of the lane. -/
theorem farAccess : Obligations.FarAccess :=
  ⟨fun _ _ _ _ _ _ h hp => does_lda_far h hp, fun _ _ _ _ _ hfar hd hw hx => exec_farRead hfar hd hw hx,
    fun _ _ _ _ h hfar hd hw hr hsec hring hpan => does_farWrite h hfar hd hw hr hsec hring hpan,
    fun _ _ _ _ _ hfar hd => exec_farDelivery hfar hd⟩

end Sys2Proof.Machine
end

section
/-! House ticks and the end of a busy window (R29, R30, R31, R52): a trigger of one lane is followed through the lanes that trigger
with it by what it leaves of every other lane. -/

namespace Sys2Proof.Machine
open Sys2Proof Sys2Proof.Claims

/-! ## The cases of a trigger -/

/-- A trigger of a busy lane is missed (R52). -/
def missTake (n : Nat) (s : State) : State := (laneFault n 0 (slotNow n s) s).wr (Obj.lastMissSlate n) s.slate.toNat

/-- A take of a lane in SAFE (R55). -/
def safeTake (n : Nat) (s : State) : State := (s.setLane n { s.lane n with busy := true, ran := false }).inc (Obj.safeTakes n)

/-- A trigger of a lane in ARMED, TAKE or SAFE, its fault action done. -/
def triggered (n : Nat) (s : State) : State :=
  if (s.lane n).busy then missTake n (spliceTrigger n (laneSt s n != laneSafe) s)
  else if laneSt s n = laneSafe then safeTake n (spliceTrigger n false s)
  else startTake n (spliceTrigger n false s)

theorem laneTrigger_eq (n : Nat) (s : State) : laneTrigger n s =
    if laneSt s n = laneUnloaded ∨ laneSt s n = laneLoading then s
    else if laneSt s n = laneStopped then spliceTrigger n false s
    else triggered n (if (s.lane n).safePending ∧ (s.lane n).safeBy = 2 then enterSafe n s else s) := by
  unfold laneTrigger triggered
  rfl

/-! ## What the trigger of another lane leaves of a lane -/

/-- `t` leaves lane `n` of `s` aside: its hardware, the registers of its object, the memory and the counters of time are as they
were, and no splice request comes to wait on it. -/
structure Aside (n : Nat) (s t : State) : Prop where
  tidy : s.tidy = true → t.tidy = true
  mem : t.mem = s.mem
  slate : t.slate = s.slate
  edge : t.houseEdge = s.houseEdge
  lane : t.lane n = s.lane n
  rd : ∀ q : Reg, q.key / 256 = 0x2600 + n → t.rd q = s.rd q
  splice : pendingSplice s n = none → pendingSplice t n = none

theorem Aside.refl (n : Nat) (s : State) : Aside n s s := ⟨id, rfl, rfl, rfl, rfl, fun _ _ => rfl, id⟩

theorem Aside.trans {n : Nat} {s t u : State} (h : Aside n s t) (k : Aside n t u) : Aside n s u :=
  ⟨fun x => k.tidy (h.tidy x), k.mem.trans h.mem, k.slate.trans h.slate, k.edge.trans h.edge, k.lane.trans h.lane,
    fun q hq => (k.rd q hq).trans (h.rd q hq), fun x => k.splice (h.splice x)⟩

theorem Aside.wr (n : Nat) (s : State) {r : Reg} (v : Nat) (h : r.key / 256 ≠ 0x2600 + n) : Aside n s (s.wr r v) :=
  ⟨tidy_wr r v, rfl, rfl, rfl, rfl, fun q hq => State.rd_wr_ne s v fun e => h (by rw [← e, hq]), id⟩

theorem Aside.inc (n : Nat) (s : State) {r : Reg} (h : r.key / 256 ≠ 0x2600 + n) : Aside n s (s.inc r) := Aside.wr n s _ h
theorem Aside.inc64 (n : Nat) (s : State) {r : Reg} (h : r.key / 256 ≠ 0x2600 + n) : Aside n s (s.inc64 r) := Aside.wr n s _ h

theorem Aside.setLane {n m : Nat} (s : State) (l : Lane) (h : n ≠ m) : Aside n s (s.setLane m l) :=
  ⟨tidy_setLane m l, rfl, rfl, rfl, State.lane_setLane_ne s l h, fun _ _ => rfl, id⟩

theorem Aside.of_fault {n : Nat} {s t : State} (hf : FaultOnly s t) (ht : s.tidy = true → t.tidy = true)
    (hr : ∀ q : Reg, q.key / 256 = 0x2600 + n → t.rd q = s.rd q) : Aside n s t :=
  ⟨ht, hf.mem, hf.slate, (congrArg State.houseEdge hf :), hf.lane n, hr,
    fun h => (congrArg (fun x : State => pendingSplice x n) hf :).trans h⟩

theorem Aside.ite {n : Nat} {s a b : State} {c : Prop} [Decidable c] (ha : Aside n s a) (hb : Aside n s b) :
    Aside n s (if c then a else b) := by
  split
  · exact ha
  · exact hb

theorem Aside.forList {α : Type} {n : Nat} (l : List α) (f : α → State → State) (h : ∀ x ∈ l, ∀ s, Aside n s (f x s)) (s : State) :
    Aside n s (forList l f s) :=
  forList_keep (Aside n s) l f (fun x hx t ht => ht.trans (h x hx t)) s (Aside.refl n s)

/-- A register of a lane is none of the fault log. -/
theorem offLog_of_lane {n : Nat} {q : Reg} (hn : n ≤ 64) (h : q.key / 256 = 0x2600 + n) : OffLog q := by
  unfold OffLog
  omega

theorem Aside.raiseSticky {n : Nat} (s : State) {r : Reg} (bit code unit info extra : Nat) (hn : n ≤ 64)
    (h : r.key / 256 ≠ 0x2600 + n) : Aside n s (raiseSticky r bit code unit info extra s) :=
  Aside.of_fault (FaultOnly.raiseSticky r bit code unit info extra s) (tidy_raiseSticky r bit code unit info extra)
    fun _ hq => rd_raiseSticky_ne (offLog_of_lane hn hq) (fun e => h (by rw [← e, hq])) _ _ _ _ _ s

theorem Aside.pendAll (n k : Nat) (s : State) : Aside n s (pendAll k s) :=
  Aside.of_fault (FaultOnly.pendAll k s) (tidy_pendAll k) fun q _ => rd_pendAll k s q

/-! ### Faults and states -/

/-- The counters of a lane's faults are registers of its object. -/
theorem laneCounter_index {m bit : Nat} {r : Reg} (h : laneCounter m bit = some r) : r.key / 256 = 0x2600 + m := by
  unfold laneCounter at h
  split at h
  case h_9 => cases h
  all_goals
    cases h
    simp only [Obj.missedTakes, Obj.udCount, Obj.farRefused, Obj.xchRefused, Obj.drangeCount, Obj.guardCount]
    omega

section
variable {n m : Nat} (hn : n ≤ 64) (hne : n ≠ m)
include hne

theorem aside_startTake (s : State) : Aside n s (startTake m s) :=
  ((Aside.setLane s _ hne).trans (Aside.wr n _ _ (by simp only [Obj.laneState]; omega))).trans
    (Aside.inc64 n _ (by simp only [Obj.takeCount]; omega))

include hn

theorem aside_laneFault (bit slot : Nat) (s : State) : Aside n s (laneFault m bit slot s) := by
  have hcount : Aside n s (countLaneFault m bit s) := by
    unfold countLaneFault
    split
    next r hr => exact Aside.inc n s (by have := laneCounter_index hr; omega)
    next => exact Aside.refl n s
  have hfirst : ∀ t, Aside n t (noteFirstUd m bit slot t) := fun t =>
    Aside.ite (Aside.wr n t _ (by simp only [Obj.firstUdSlot]; omega)) (Aside.refl n t)
  have hask : ∀ t, Aside n t (askSafe m bit t) := fun t =>
    Aside.ite ((Aside.setLane t _ hne).trans (Aside.inc n _ (by simp only [Obj.supActions]; omega))) (Aside.refl n t)
  rw [laneFault_eq]
  exact ((hcount.trans (hfirst _)).trans (Aside.raiseSticky _ _ _ _ _ _ hn (by simp only [Obj.laneFaults]; omega))).trans (hask _)

theorem aside_enterSafe (s : State) : Aside n s (enterSafe m s) := by
  have hs : ∀ l, Aside n s ((s.setLane m l).wr (Obj.laneState m) laneSafe) := fun l =>
    (Aside.setLane s l hne).trans (Aside.wr n _ _ (by simp only [Obj.laneState]; omega))
  unfold enterSafe
  exact Aside.ite ((hs _).trans (aside_laneFault hn hne _ _ _)) (hs _)

end

/-! ### Records -/

theorem aside_queueTpdo16 {n : Nat} (hn : n ≤ 64) (r : Record) (s : State) : Aside n s (queueTpdo16 r s) := by
  have hcan : ∀ c : Can, Aside n s { s with can := c } := fun c => ⟨id, rfl, rfl, rfl, rfl, fun _ _ => rfl, id⟩
  unfold queueTpdo16
  exact Aside.ite (Aside.ite (hcan _) ((hcan _).trans (Aside.inc n _ (by simp only [Obj.hvTpdoLost]; omega)))) (Aside.refl n s)

theorem aside_postRecord {n : Nat} (hn : n ≤ 64) (status handle detail : Nat) (slate : Slate) (s : State) :
    Aside n s (postRecord status handle detail slate s) := by
  have hrec : ∀ (k : Nat) (r : Record), Aside n s { s with records := s.records.insert k r } := fun k r =>
    ⟨fun h => (tidy_iff _).2 { (tidy_iff s).1 h with records := rising_insert k r ((tidy_iff s).1 h).records },
      rfl, rfl, rfl, rfl, fun _ _ => rfl, id⟩
  have hirq : ∀ t, Aside n t (ulIrq 1 t) := fun t => ⟨id, rfl, rfl, rfl, rfl, fun _ _ => rfl, id⟩
  unfold postRecord
  exact ((((hrec _ _).trans (Aside.wr n _ _ (by simp only [Obj.hvHead]; omega))).trans
    (Aside.wr n _ _ (by simp only [Obj.hvUsed]; omega))).trans ((hirq _).trans (Aside.pendAll n 7 _))).trans
    (aside_queueTpdo16 hn _ _)

theorem aside_completeHandle {n : Nat} (hn : n ≤ 64) (h : Handle) (status detail : Nat) (slate : Slate) (s : State) :
    Aside n s (completeHandle h status detail slate s) := by
  have hhandles : ∀ hs : List Handle, Aside n s { s with handles := hs } := fun hs => ⟨id, rfl, rfl, rfl, rfl, fun _ _ => rfl, id⟩
  have hprint : ∀ t, Aside n t (printTest h status detail slate t) := by
    intro t
    unfold printTest
    split
    · exact Aside.ite ⟨id, rfl, rfl, rfl, rfl, fun _ _ => rfl, id⟩ (Aside.refl n t)
    · exact Aside.refl n t
  unfold completeHandle
  exact ((hhandles _).trans (aside_postRecord hn _ _ _ _ _)).trans (hprint _)

/-! ### Splices -/

/-- No splice request waits on a lane when none of its requests names it. -/
theorem pendingSplice_none {s : State} {n : Nat} : pendingSplice s n = none ↔ ∀ r ∈ s.splices, r.waiting.contains n = false := by
  simp only [pendingSplice, List.find?_eq_none, Bool.not_eq_true]

theorem splices_ite {c : Prop} [Decidable c] {s a b : State} (ha : a.splices = s.splices) (hb : b.splices = s.splices) :
    (if c then a else b).splices = s.splices := by
  split
  · exact ha
  · exact hb

/-- A list of requests in which lane `n` does not come to wait. -/
theorem Aside.splices {n : Nat} {s : State} {rs : List Splice}
    (h : (∀ r ∈ s.splices, r.waiting.contains n = false) → ∀ r ∈ rs, r.waiting.contains n = false) :
    Aside n s { s with splices := rs } :=
  ⟨id, rfl, rfl, rfl, rfl, fun _ _ => rfl, fun hs => pendingSplice_none.2 (h (pendingSplice_none.1 hs))⟩

theorem aside_putSplice {n : Nat} (r : Splice) (s : State) (hr : pendingSplice s n = none → r.waiting.contains n = false) :
    Aside n s (putSplice r s) := by
  refine Aside.splices fun hs q hq => ?_
  obtain ⟨q', hq', rfl⟩ := List.mem_map.1 hq
  split
  · exact hr (pendingSplice_none.2 hs)
  · exact hs q' hq'

theorem aside_settleSplice {n : Nat} (hn : n ≤ 64) (id : Nat) (s : State) : Aside n s (settleSplice id s) := by
  have hfilter : ∀ p : Splice → Bool, Aside n s { s with splices := s.splices.filter p } := fun p =>
    Aside.splices fun hs q hq => hs q (List.mem_filter.1 hq).1
  unfold settleSplice
  split
  · exact Aside.refl n s
  · refine Aside.ite (Aside.refl n s) ?_
    dsimp only
    split
    · exact hfilter _
    · exact (hfilter _).trans (aside_completeHandle hn _ _ _ _ _)

section
variable {n m : Nat} (hn : n ≤ 64) (hne : n ≠ m)
include hn hne

/-- What a flip writes beside its request: the lane and the registers of its splice object. -/
theorem flipLane_eq (r : Splice) (s : State) : ∃ t copying first, Aside n s t ∧ t.splices = s.splices ∧
    flipLane m r s = settleSplice r.id
      (putSplice { r with waiting := r.waiting.filter (· != m), copying := copying, first := first } t) := by
  refine ⟨_, _, _, ?_, ?_, rfl⟩
  · have hwr : ∀ (t : State) (q : Reg) (v : Nat), q.key / 256 = 0x28C0 + m → Aside n t (t.wr q v) := fun t q v hq =>
      Aside.wr n t v (by omega)
    have hflip : ∀ (t : State) (side slate : Nat),
        Aside n t (((t.wr (Obj.liveSide m) side).wr (Obj.flipSlate m) slate).inc (Obj.flipCount m)) := fun t side slate =>
      ((hwr t _ _ (by simp only [Obj.liveSide]; omega)).trans (hwr _ _ _ (by simp only [Obj.flipSlate]; omega))).trans
        (hwr _ _ _ (by simp only [Obj.flipCount]; omega))
    refine Aside.trans (Aside.trans (Aside.trans (((Aside.setLane s _ hne).trans (Aside.setLane _ _ hne)).trans (hflip _ _ _))
      (Aside.ite ?_ (Aside.refl n _))) (Aside.ite ?_ (Aside.refl n _))) (Aside.ite ?_ (Aside.refl n _))
    · exact hwr _ _ _ (by simp only [Obj.lateFlips]; omega)
    · exact hwr _ _ _ (by simp only [Obj.spliceSlips]; omega)
    · exact hwr _ _ _ (by simp only [Obj.copyWords]; omega)
  · refine (splices_ite (State.wr_splices _ _ _) rfl).trans ((splices_ite (State.wr_splices _ _ _) rfl).trans
      ((splices_ite (State.wr_splices _ _ _) rfl).trans ?_))
    simp only [State.inc, State.wr_splices, stepGlides, State.setLane_splices]

theorem aside_flipLane (r : Splice) (s : State) (hr : pendingSplice s n = none → r.waiting.contains n = false) :
    Aside n s (flipLane m r s) := by
  obtain ⟨t, copying, first, ht, hs, e⟩ := flipLane_eq hn hne r s
  rw [e]
  refine (ht.trans (aside_putSplice _ t fun h => ?_)).trans (aside_settleSplice hn _ _)
  unfold pendingSplice at h
  rw [hs] at h
  have := hr h
  simp_all

theorem aside_spliceTrigger (missed : Bool) (s : State) : Aside n s (spliceTrigger m missed s) := by
  have hstep : ∀ t : State, Aside n t (if missed then t.setLane m { t.lane m with
      glides := (t.lane m).glides.map fun g => { g with behind := g.behind + 1 } } else stepGlides m 1 t) := fun t =>
    Aside.ite (Aside.setLane t _ hne) (Aside.setLane t _ hne)
  unfold spliceTrigger
  dsimp only
  split
  next => exact hstep s
  next r hr =>
    refine Aside.ite (hstep s) (Aside.ite ((Aside.setLane s _ hne).trans (hstep _)) (aside_flipLane hn hne r s fun h => ?_))
    exact pendingSplice_none.1 h r (List.mem_of_find?_eq_some hr)

theorem aside_triggered (s : State) : Aside n s (triggered m s) := by
  have hbusy : ∀ t : State, Aside n t (missTake m t) := fun t =>
    (aside_laneFault hn hne 0 _ t).trans (Aside.wr n _ _ (by simp only [Obj.lastMissSlate]; omega))
  have hsafe : ∀ t : State, Aside n t (safeTake m t) := fun t =>
    (Aside.setLane t _ hne).trans (Aside.inc n _ (by simp only [Obj.safeTakes]; omega))
  unfold triggered
  exact Aside.ite ((aside_spliceTrigger hn hne _ s).trans (hbusy _))
    (Aside.ite ((aside_spliceTrigger hn hne false s).trans (hsafe _)) ((aside_spliceTrigger hn hne false s).trans (aside_startTake hne _)))

/-- A trigger of one lane leaves every other lane aside. -/
theorem aside_laneTrigger (s : State) : Aside n s (laneTrigger m s) := by
  rw [laneTrigger_eq]
  exact Aside.ite (Aside.refl n s) (Aside.ite (aside_spliceTrigger hn hne false s)
    ((Aside.ite (aside_enterSafe hn hne s) (Aside.refl n s)).trans (aside_triggered hn hne _)))

end

/-! ## What the trigger of a lane does to it -/

/-- With no splice request waiting, a trigger that is no miss only steps the glides. -/
theorem spliceTrigger_of_none {s : State} {n : Nat} (h : pendingSplice s n = none) : spliceTrigger n false s = stepGlides n 1 s := by
  unfold spliceTrigger
  dsimp only
  rw [h]
  exact if_neg Bool.false_ne_true

/-- The lane with every running glide a trigger further behind. -/
def glidesBehind (n : Nat) (s : State) : State :=
  s.setLane n { s.lane n with glides := (s.lane n).glides.map fun g => { g with behind := g.behind + 1 } }

/-- With no splice request waiting, a missed trigger only leaves the glides behind. -/
theorem spliceTrigger_missed_of_none {s : State} {n : Nat} (h : pendingSplice s n = none) :
    spliceTrigger n true s = glidesBehind n s := by
  unfold spliceTrigger
  dsimp only
  rw [h]
  exact if_pos rfl

/-- A trigger of an armed lane with no request waiting starts a take. -/
theorem laneTrigger_armed {s : State} {n : Nat} (hst : laneSt s n = laneArmed) (hb : (s.lane n).busy = false)
    (hp : (s.lane n).safePending = false) (hs : pendingSplice s n = none) :
    laneTrigger n s = startTake n (stepGlides n 1 s) := by
  simp [laneTrigger_eq, triggered, hst, hb, hp, spliceTrigger_of_none hs, laneArmed, laneUnloaded, laneLoading, laneStopped, laneSafe]

/-- A trigger of a lane in a take, its window still open, is missed. -/
theorem laneTrigger_take {s : State} {n : Nat} (hst : laneSt s n = laneTake) (hb : (s.lane n).busy = true)
    (hp : (s.lane n).safePending = false) (hs : pendingSplice s n = none) :
    laneTrigger n s = missTake n (glidesBehind n s) := by
  simp [laneTrigger_eq, triggered, hst, hb, hp, spliceTrigger_missed_of_none hs, laneTake, laneUnloaded, laneLoading, laneStopped,
    laneSafe]

theorem tidy_stepGlides (n k : Nat) {s : State} (h : s.tidy = true) : (stepGlides n k s).tidy = true := tidy_setLane n _ h
theorem tidy_glidesBehind (n : Nat) {s : State} (h : s.tidy = true) : (glidesBehind n s).tidy = true := tidy_setLane n _ h

theorem regs_glidesBehind (n : Nat) {s : State} (h : s.tidy = true) : ((glidesBehind n s).lane n).regs = (s.lane n).regs := by
  rw [glidesBehind, State.lane_setLane_self n _ ((tidy_iff s).1 h).lanes]

/-! ### The start of a take (R30, R66) -/

section
variable {s : State} (n : Nat) (h : s.tidy = true)
include h

theorem laneSt_startTake : laneSt (startTake n s) n = laneTake :=
  (State.rd_wr_ne _ _ (by simp [Obj.laneState, Obj.takeCount])).trans (State.rd_wr_self _ _ ((tidy_iff s).1 h).od)

theorem takeCount_startTake : (startTake n s).rd (Obj.takeCount n) = (s.rd (Obj.takeCount n) + 1) % 2 ^ 64 :=
  (State.rd_wr_self _ _ ((tidy_iff _).1 (tidy_wr (s := s) (Obj.laneState n) laneTake h)).od).trans
    (congrArg (fun x => (x + 1) % 2 ^ 64) (State.rd_wr_ne s laneTake (by simp [Obj.laneState, Obj.takeCount])))

/-- A started take is busy at slot 0, its trigger at the present slate. -/
theorem lane_startTake : ((startTake n s).lane n).busy = true ∧ ((startTake n s).lane n).regs.pc = 0 ∧
    ((startTake n s).lane n).trigSlate = s.slate := by
  have hl : ∃ f tn, (startTake n s).lane n = { s.lane n with
      regs := { (s.lane n).regs with pc := 0, f := f }, clearFlags := false, busy := true, ran := true, satTaken := false
      trigSlate := s.slate, takeNumber := tn } := ⟨_, _, State.lane_setLane_self n _ ((tidy_iff s).1 h).lanes⟩
  obtain ⟨f, tn, e⟩ := hl
  rw [e]
  exact ⟨rfl, rfl, rfl⟩

end

/-! ### A missed trigger (R52, R56) -/

/-- A fault on lane `m` keeps the canonical form. -/
theorem tidy_laneFault {m : Nat} (hm : m < 64) (bit slot : Nat) {s : State} (h : s.tidy = true) : (laneFault m bit slot s).tidy = true :=
  (aside_laneFault (n := 64) (Nat.le_refl 64) (by omega) bit slot s).tidy h

section
variable {s : State} {n : Nat} (slot : Nat) (hn : n < 64) (h : s.tidy = true)
include hn h

theorem missedTakes_laneFault : (laneFault n 0 slot s).rd (Obj.missedTakes n) = min (s.rd (Obj.missedTakes n) + 1) 0xFFFFFFFF :=
  calc (laneFault n 0 slot s).rd (Obj.missedTakes n)
      = (noteFirstUd n 0 slot (s.inc (Obj.missedTakes n))).rd (Obj.missedTakes n) :=
        (askSafe_rd n 0 _ (by simp only [Obj.missedTakes, Obj.supActions]; omega)).trans
          (rd_raiseSticky_ne (offLog_of_lane (n := n) (by omega) (by simp only [Obj.missedTakes]; omega))
            (by simp [Obj.missedTakes, Obj.laneFaults]) _ _ _ _ _ _)
    _ = (s.inc (Obj.missedTakes n)).rd (Obj.missedTakes n) := by simp [noteFirstUd]
    _ = min (s.rd (Obj.missedTakes n) + 1) 0xFFFFFFFF := State.rd_wr_self _ _ ((tidy_iff s).1 h).od

theorem missSticky_laneFault : ((laneFault n 0 slot s).rd (Obj.laneFaults n)).testBit 0 = true := by
  have ht : (noteFirstUd n 0 slot (s.inc (Obj.missedTakes n))).tidy = true := by
    simpa [noteFirstUd] using tidy_inc (Obj.missedTakes n) h
  exact (congrArg (Nat.testBit · 0) (askSafe_rd n 0 _ (by simp only [Obj.laneFaults, Obj.supActions]; omega))).trans
    (testBit_raiseSticky (laneFaults_offLog hn) _ _ _ _ _ ht)

end

/-- A missed trigger counts, sticks and notes its slate, and leaves the registers of the take. -/
theorem missTake_says {s : State} {n : Nat} (hn : n < 64) (h : s.tidy = true) :
    ((missTake n s).lane n).regs = (s.lane n).regs ∧
    (missTake n s).rd (Obj.missedTakes n) = min (s.rd (Obj.missedTakes n) + 1) 0xFFFFFFFF ∧
    (missTake n s).rd (Obj.lastMissSlate n) = s.slate.toNat ∧ ((missTake n s).rd (Obj.laneFaults n)).testBit 0 = true := by
  refine ⟨laneFault_regs n 0 _ h, ?_, ?_, ?_⟩
  · rw [missTake, State.rd_wr_ne _ _ (by simp [Obj.missedTakes, Obj.lastMissSlate]), missedTakes_laneFault _ hn h]
  · exact State.rd_wr_self _ _ ((tidy_iff _).1 (tidy_laneFault hn 0 _ h)).od
  · rw [missTake, State.rd_wr_ne _ _ (by simp [Obj.laneFaults, Obj.lastMissSlate]), missSticky_laneFault _ hn h]

/-! ## A house tick (R29) -/

/-- The lanes that a house tick at an edge triggers. -/
def tickLanes (s : State) (edge : Nat) : List Nat :=
  (List.range 64).filter fun n => ((List.range 64).filter (tickAt s edge)).contains (laneGroup s n)

theorem mem_tickLanes {s : State} {edge n : Nat} (hn : n < 64) :
    n ∈ tickLanes s edge ↔ laneGroup s n < 64 ∧ tickAt s edge (laneGroup s n) = true := by
  simp [tickLanes, hn]

theorem lt_of_mem_tickLanes {s : State} {edge n : Nat} (h : n ∈ tickLanes s edge) : n < 64 :=
  List.mem_range.1 (List.mem_filter.1 h).1

theorem nodup_tickLanes (s : State) (edge : Nat) : (tickLanes s edge).Nodup := List.nodup_range.filter _

/-- The state in which the lanes of a house tick trigger: the edge is noted, the exchange pan holds `xch`. -/
def atEdge (edge : Nat) (xch : List XchAcc) (s : State) : State := { s with houseEdge := edge, xch := xch }

/-- A house tick triggers its lanes one by one, after the exchange pans of the idle groups are emptied. -/
theorem houseTick_next {s : State} {edge : Nat} (he : s.houseEdge < edge) (hs : houseStopped s = false) :
    ∃ x, exec (.houseTick edge) s = .next (forList (tickLanes s edge) laneTrigger (atEdge edge x s)) := by
  have hs' : houseStopped (atEdge edge s.xch s) = false := hs
  have hexec : exec (.houseTick edge) s = .next (triggerGroups (tickAt (atEdge edge s.xch s) edge) (atEdge edge s.xch s)) :=
    (if_neg (by omega : ¬ edge ≤ s.houseEdge)).trans
      (congrArg Host.Outcome.next (if_neg (ne_true_of_eq_false hs')))
  exact ⟨_, hexec⟩

/-- The triggers of a list of lanes without `n` leave lane `n` aside. -/
theorem aside_triggers {n : Nat} (hn : n ≤ 64) {l : List Nat} (h : n ∉ l) (s : State) : Aside n s (forList l laneTrigger s) :=
  Aside.forList l laneTrigger (fun _ hm t => aside_laneTrigger hn (fun e => h (e ▸ hm)) t) s

/-- The triggers of a list of lanes reach lane `n` of the list once: before and after its own trigger it is left aside. -/
theorem forList_laneTrigger_mem {n : Nat} (hn : n ≤ 64) {l : List Nat} (hl : l.Nodup) (h : n ∈ l) (s : State) :
    ∃ u, Aside n s u ∧ Aside n (laneTrigger n u) (forList l laneTrigger s) := by
  obtain ⟨l₁, l₂, rfl⟩ := List.append_of_mem h
  have hl₁ : n ∉ l₁ := fun hm => (List.nodup_append.1 hl).2.2 n hm n List.mem_cons_self rfl
  have hl₂ : n ∉ l₂ := (List.nodup_cons.1 (List.nodup_append.1 hl).2.1).1
  refine ⟨forList l₁ laneTrigger s, aside_triggers hn hl₁ s, ?_⟩
  have happ : forList (l₁ ++ n :: l₂) laneTrigger s = forList l₂ laneTrigger (laneTrigger n (forList l₁ laneTrigger s)) :=
    List.foldl_append
  rw [happ]
  exact aside_triggers hn hl₂ _

theorem Aside.laneSt {n : Nat} {s t : State} (h : Aside n s t) : laneSt t n = laneSt s n :=
  h.rd (Obj.laneState n) (by simp only [Obj.laneState]; omega)

/-- An armed lane that triggers is in its take, at slot 0. -/
theorem takeStarted_of_aside {s u t : State} {n : Nat} (h : s.tidy = true) (hu : Aside n s u) (ht : Aside n (laneTrigger n u) t)
    (hst : laneSt s n = laneArmed) (hb : (s.lane n).busy = false) (hp : (s.lane n).safePending = false)
    (hs : pendingSplice s n = none) :
    laneSt t n = laneTake ∧ (t.lane n).busy = true ∧ (t.lane n).regs.pc = 0 ∧ (t.lane n).trigSlate = s.slate ∧
      t.rd (Obj.takeCount n) = (s.rd (Obj.takeCount n) + 1) % 2 ^ 64 := by
  have hcount : (Obj.takeCount n).key / 256 = 0x2600 + n := by simp only [Obj.takeCount]; omega
  have hg := tidy_stepGlides n 1 (hu.tidy h)
  rw [laneTrigger_armed (hu.laneSt.trans hst) (by rw [hu.lane, hb]) (by rw [hu.lane, hp]) (hu.splice hs)] at ht
  obtain ⟨hbusy, hpc, htrig⟩ := lane_startTake n hg
  rw [ht.laneSt, ht.lane, ht.rd _ hcount, takeCount_startTake n hg, ← hu.rd _ hcount, ← hu.slate]
  exact ⟨laneSt_startTake n hg, hbusy, hpc, htrig, rfl⟩

/-- A lane that triggers in its take counts the miss. -/
theorem takeMissed_of_aside {s u t : State} {n : Nat} (hn : n < 64) (h : s.tidy = true) (hu : Aside n s u)
    (ht : Aside n (laneTrigger n u) t) (hst : laneSt s n = laneTake) (hb : (s.lane n).busy = true)
    (hp : (s.lane n).safePending = false) (hs : pendingSplice s n = none) :
    (t.lane n).regs = (s.lane n).regs ∧ t.rd (Obj.missedTakes n) = min (s.rd (Obj.missedTakes n) + 1) 0xFFFFFFFF ∧
      t.rd (Obj.lastMissSlate n) = s.slate.toNat ∧ (t.rd (Obj.laneFaults n)).testBit 0 = true := by
  have hmissed : (Obj.missedTakes n).key / 256 = 0x2600 + n := by simp only [Obj.missedTakes]; omega
  have hlast : (Obj.lastMissSlate n).key / 256 = 0x2600 + n := by simp only [Obj.lastMissSlate]; omega
  have hfaults : (Obj.laneFaults n).key / 256 = 0x2600 + n := by simp only [Obj.laneFaults]; omega
  rw [laneTrigger_take (hu.laneSt.trans hst) (by rw [hu.lane, hb]) (by rw [hu.lane, hp]) (hu.splice hs)] at ht
  obtain ⟨hregs, hcount, hslate, hsticky⟩ := missTake_says hn (tidy_glidesBehind n (hu.tidy h))
  rw [ht.lane, ht.rd _ hmissed, ht.rd _ hlast, ht.rd _ hfaults]
  rw [regs_glidesBehind n (hu.tidy h), hu.lane] at hregs
  exact ⟨hregs, hcount.trans (congrArg (fun x => min (x + 1) 0xFFFFFFFF) (hu.rd _ hmissed)),
    hslate.trans (congrArg BitVec.toNat hu.slate), hsticky⟩

/-! ## The end of a busy window (R31) -/

/-- Where no far access and no move is under way, the closing cycles do nothing. -/
theorem closeTake_of_none {s : State} (n : Fin 64) (h : s.tidy = true) (hf : (s.lane n.val).far = [])
    (hm : (s.lane n.val).moves = []) : closeTake n.val s = s := by
  unfold closeTake
  rw [farDue_of_none n.val _ hf, Fin.ofNat_val_eq_self n]
  exact flushMoves_of_none (.lane n) _ _ h hm

theorem busyWindowEnd_next {s : State} (n : Fin 64) (h : s.tidy = true) (hb : (s.lane n.val).busy = true)
    (hf : (s.lane n.val).far = []) (hm : (s.lane n.val).moves = []) :
    exec (.busyWindowEnd n) s = .next (endBusy n.val s) :=
  (if_pos hb).trans (congrArg (fun t => Host.Outcome.next (endBusy n.val t)) (closeTake_of_none n h hf hm))

/-- Settles O11: a trigger leaves the other lanes aside, so each lane of a tick is as its own trigger leaves it. -/
theorem takesStartAndEnd : Obligations.TakesStartAndEnd := by
  refine ⟨fun edge s h he hstop => ?_, fun n s h => ?_⟩
  case refine_1 =>
    obtain ⟨x, e⟩ := houseTick_next he hstop
    have h₀ : (atEdge edge x s).tidy = true := h
    have hall := aside_triggers (n := 64) (l := tickLanes s edge) (Nat.le_refl 64)
      (fun hm => Nat.lt_irrefl 64 (lt_of_mem_tickLanes hm)) (atEdge edge x s)
    refine ⟨_, e, hall.edge, hall.mem, fun n hn => ?_⟩
    have hrun := fun hg ht => forList_laneTrigger_mem (n := n) (by omega) (nodup_tickLanes s edge)
      ((mem_tickLanes hn).2 ⟨hg, ht⟩) (atEdge edge x s)
    refine ⟨fun hno => ?_, fun hg ht hst hb hp hs => ?_, fun hg ht hst hb hp hs => ?_⟩
    · have hout : n ∉ tickLanes s edge := fun hm => by
        obtain ⟨hg, ht⟩ := (mem_tickLanes hn).1 hm
        rcases hno with hno | hno
        · omega
        · exact Bool.false_ne_true (hno.symm.trans ht)
      have ha := aside_triggers (by omega) hout (atEdge edge x s)
      exact ⟨ha.lane, ha.laneSt⟩
    · obtain ⟨u, hu, hu'⟩ := hrun hg ht
      exact takeStarted_of_aside (s := atEdge edge x s) h₀ hu hu' hst hb hp hs
    · obtain ⟨u, hu, hu'⟩ := hrun hg ht
      exact takeMissed_of_aside (s := atEdge edge x s) hn h₀ hu hu' hst hb hp hs
  case refine_2 =>
    intro l hb hf hm u
    exact busyWindowEnd_next n h hb hf hm

end Sys2Proof.Machine
end

section
/-! Loads, stores, moves and the stack (R65, R70, R78, R85, R91, R95, R127): what each body gives, and the end of an instruction that
writes memory. -/

namespace Sys2Proof.Machine
open Sys2Proof Sys2Proof.Claims

/-! ## An instruction on a core that writes D words -/

/-- A list of checks that all pass gives the same values, however its faults are reported. -/
theorem mapM_mapError_ok {α β ε δ : Type} {f : α → Except ε β} (g : α → ε → δ) {l : List α} {bs : List β}
    (h : l.mapM f = .ok bs) : l.mapM (fun x => (f x).mapError (g x)) = .ok bs := by
  induction l generalizing bs with
  | nil => cases h; rfl
  | cons a l ih =>
    rw [List.mapM_cons] at h ⊢
    cases ha : f a with
    | error e => rw [ha] at h; cases h
    | ok b =>
      rw [ha] at h
      change (l.mapM f >>= fun cs => pure (b :: cs)) = _ at h
      change (l.mapM (fun x => (f x).mapError (g x)) >>= fun cs => pure (b :: cs)) = _
      cases hl : l.mapM f with
      | error e => rw [hl] at h; cases h
      | ok cs =>
        rw [hl] at h
        cases h
        rw [ih hl]
        rfl

/-- The writes of a core whose words all lie in D space that it may write (R78, R127). -/
theorem dWrites_core {s : State} {cx : Cx} {c : Fin 8} {ws : List (DAddr × Word)} {fs : List (Nat × Word)} (hu : cx.u = .core c)
    (h : coreStores s c ws = .ok fs) : (dWrites cx ws).run s = .ok ((), coreWrites c cx.p.guard fs s) := by
  have hm := mapM_mapError_ok (fun x r => (r, noteCoreRefusal r x.1 s)) h
  simp only [StateT.run, dWrites, hu, hm, coreWrites]
  split <;> rfl

/-- An instruction without transfer of control whose writes end in `t` and leave the core's registers. -/
theorem runInstr_core_writes {s s₁ t : State} {c : Fin 8} {p : Prefix} {sh : Shape} {body : Cx → Regs → Hv Eff} {e : Eff}
    (h : CoreTakes s c p sh) (cost : Nat) (hg : CoreGives s s₁ t c p body e) (hs : SameCore s t c) (hdest : e.dest = none)
    (hpc : ∀ r, (e.upd r).pc = r.pc) :
    runInstr (.core c) p sh cost body s = .next (coreDone c (decodedLen p sh) e.upd e.fl e.load t) := by
  have ⟨_, _, _, _, hmv, _⟩ := hg
  rw [runInstr_core_of_gives h cost hg hs.1, coreFinish_done _ (sameRegs_of_sameCore h hs) hdest hmv hpc]

/-! ## An instruction on a lane that writes D words -/

/-- A lane commits an instruction whose writes are made (R91). -/
theorem commit_lane_of_dWrites {s t : State} {cx : Cx} {n : Fin 64} {e : Eff} (hu : cx.u = .lane n) (h : s.tidy = true)
    (hm : (s.lane n.val).moves = []) (hw : (dWrites cx e.writes).run s = .ok ((), t)) (ht : t.tidy = true) (hmv : e.move = none) :
    (commit cx e).run s = .ok ((), laneCommitted n e t) := by
  have hl := ((tidy_iff t).1 ht).lanes
  have hf : flushMoves (.lane n) cx.slot e.writes s = s := flushMoves_of_none (.lane n) _ _ h hm
  unfold commit
  rw [hu, hmv]
  refine (bind_ok (modify_ok hf)).trans ((bind_ok hw).trans (modify_ok ?_))
  simp only [putDelayed, putRegs, State.lane_setLane_self n.val _ hl, State.setLane_lane_twice n.val _ _ hl, delayedOf, regsOf,
    Agent.isLane, laneCommitted]

/-- An instruction whose body leaves the state as it is, and whose writes end in `t` and leave the lane's registers. -/
theorem runInstr_lane_writes {s t : State} {n : Fin 64} {p : Prefix} {sh : Shape} {body : Cx → Regs → Hv Eff} {e : Eff}
    (h : LaneTakes s n p sh) (cost : Nat) (hb : (body (laneCx s n p) (s.lane n.val).regs).run s = .ok (e, s))
    (hw : (dWrites (laneCx s n p) e.writes).run s = .ok ((), t)) (ht : t.tidy = true)
    (hr : (t.lane n.val).regs = (s.lane n.val).regs) (hmv : e.move = none) :
    runInstr (.lane n) p sh cost body s = .next (laneDone n cost e.upd e.fl e.load t) := by
  have ⟨hs, _, _, hp, hfar, hmoves⟩ := h
  have hfl : flushMoves (.lane n) ((s.lane n.val).regs.pc.toNat - 1) [] s = s := flushMoves_of_none (.lane n) _ _ hs hmoves
  have hrun : (runOnce (laneCx s n p) cost body).run s = .ok (e, laneCommitted n e t) :=
    (bind_ok (t := s) rfl).trans ((bind_ok hb).trans ((bind_ok (modify_ok (farDue_of_none n.val _ hfar))).trans
      (bind_ok (commit_lane_of_dWrites rfl hs hmoves hw ht hmv))))
  unfold laneCx at hrun
  rw [runInstr_lane h, ← lanePc_laneCommitted cost e ht hr]
  simp only [runLane, hp, laneReps, farDue_of_none n.val _ hfar, hfl, hrun, if_true, Nat.one_mul]

/-! ## The write of a D word of a lane -/

/-- A lane's write of its reel or coefficient memory sets one word, and of the lane no more than its glides (R42, R125). -/
theorem laneWrite_own {s : State} {n slot : Nat} {a : DAddr} (w : Word) (free : Bool) (ha : a.toNat < 0xA000) (h : s.tidy = true) :
    ∃ l b, laneWrite n slot a w free s = (s.setLane n l).setMemWord b w ∧ l.regs = (s.lane n).regs := by
  by_cases hreel : a.toNat < 0x8000
  · refine ⟨s.lane n, n * 0x40000 + 4 * a.toNat, ?_, rfl⟩
    rw [laneWrite, if_pos hreel, State.lane_setLane_get n ((tidy_iff s).1 h).lanes]
  · rw [laneWrite, if_neg hreel, if_pos ha]
    exact ⟨_, _, rfl, rfl⟩

theorem tidy_laneWrite_own {s : State} {n slot : Nat} {a : DAddr} (w : Word) (free : Bool) (ha : a.toNat < 0xA000)
    (h : s.tidy = true) : (laneWrite n slot a w free s).tidy = true := by
  obtain ⟨l, b, e, -⟩ := laneWrite_own (slot := slot) w free ha h
  rw [e]
  exact tidy_setMemWord _ _ (tidy_setLane _ _ h)

theorem laneWrite_own_regs {s : State} {n slot : Nat} {a : DAddr} (w : Word) (free : Bool) (ha : a.toNat < 0xA000)
    (h : s.tidy = true) : ((laneWrite n slot a w free s).lane n).regs = (s.lane n).regs := by
  obtain ⟨l, b, e, hr⟩ := laneWrite_own (slot := slot) w free ha h
  rw [e, State.setMemWord_lane, State.lane_setLane_self n l ((tidy_iff s).1 h).lanes, hr]

/-! ## Loads (R85, R95) -/

theorem loadBody_run {cx : Cx} {r : Regs} {o : Operand} {s s' : State} {w : Word} {ov : Bool} (dest : Fin 32)
    (hf : farOperand cx r o = none) (ho : (operand cx r o).run s = .ok ((w, ov), s')) :
    (loadBody dest o cx r).run s = .ok ({ upd := postMod r o, load := some ⟨dest, w⟩, fl := viewFlags ov }, s') := by
  unfold loadBody
  rw [hf]
  exact (bind_ok ho).trans rfl

/-- Settles O1: a load's body gives the operand word as the load owed, on a core and, off the far window, on a lane. -/
theorem loads : Obligations.Loads := by
  refine ⟨fun i c p o d s s' w ov hi h ho hs => ?_, fun i n p o d s s' w ov hi h hf ho hs => ?_⟩
  · rw [exec_loadOp hi]
    exact runInstr_core_done h 1 (loadBody_run d (farOperand_core rfl _ o) ho) (sameRegs_of_sameCore h hs) rfl rfl rfl rfl
      (postMod_pc _ o)
  · rw [exec_loadOp hi]
    exact runInstr_lane_done h 1 (loadBody_run d hf ho) hs rfl rfl

/-! ## Stores (R78, R91, R95, R127) -/

/-- What a store of the word and overflow `f` gives. -/
def storeEff (o : Operand) (f : Bool → Regs → Word × Bool) (cx : Cx) (r : Regs) : Eff :=
  { writes := storeTo cx r o (f cx.sat r).1, upd := postMod r o, fl := viewFlags (f cx.sat r).2 }

/-- Each store's body gives `storeEff`, off the far window. -/
theorem storeOp_body {i : Instr} {u : Agent} {p : Prefix} {o : Operand} {f : Bool → Regs → Word × Bool}
    (h : storeOp i = some (u, p, o, f)) :
    ∃ body, (∀ s, exec i s = runInstr u p (shapeD u p false false true o) 1 body s) ∧
      ∀ cx r s, farOperand cx r o = none → (body cx r).run s = .ok (storeEff o f cx r, s) := by
  unfold storeOp at h
  split at h
  case h_1 =>
    cases h
    refine ⟨staBody o, fun _ => rfl, fun cx r s hf => ?_⟩
    unfold staBody
    rw [hf]
    rfl
  case h_2 => cases h; exact ⟨fun c r => pure (storeIndexBody r.x o c r), fun _ => rfl, fun _ _ _ _ => rfl⟩
  case h_3 => cases h; exact ⟨fun c r => pure (storeIndexBody r.y o c r), fun _ => rfl, fun _ _ _ _ => rfl⟩
  case h_4 => cases h

theorem storesOnCore : StoresOnCore := by
  intro i c p o f s fs hi h x w hst hs
  obtain ⟨body, he, hb⟩ := storeOp_body hi
  obtain ⟨ht, -, -, hm, -⟩ := sameRegs_refl h
  have hg : CoreGives s s (coreWrites c p.guard fs s) c p body (storeEff o f (coreCx s c p) x.regs) :=
    ⟨hb _ _ s (farOperand_core rfl _ o), ht, hm, dWrites_core rfl hst, rfl, rfl⟩
  rw [he]
  exact runInstr_core_writes h 1 hg hs rfl (postMod_pc _ o)

/-- An address off the far window makes no far operand. -/
theorem farOperand_near {cx : Cx} {r : Regs} {o : Operand} {ea ea' : DAddr} (he : effAddr r o = some (ea, ea'))
    (hf : isFar ea = false) : farOperand cx r o = none := by
  simp only [farOperand, he, hf, Bool.and_false, Bool.false_eq_true, if_false]

/-- Without GUARD a store writes one word, at its effective address. -/
theorem storeTo_unguarded {cx : Cx} {r : Regs} {o : Operand} {ea ea' : DAddr} (w : Word) (he : effAddr r o = some (ea, ea'))
    (hg : cx.p.guard = false) : storeTo cx r o w = [(ea, w)] := by
  simp only [storeTo, he, hg, Bool.false_eq_true, if_false]

theorem dWrites_lane_one {cx : Cx} {n : Fin 64} (hu : cx.u = .lane n) (a : DAddr) (w : Word) (s : State) :
    (dWrites cx [(a, w)]).run s = .ok ((), laneWrite n.val cx.slot a w false s) := by
  simp only [StateT.run, dWrites, hu, forList_cons, forList_nil]

theorem storesOnLane : StoresOnLane := by
  intro i n p o f s ea ea' hi h hea hfar _ hown x w hp
  obtain ⟨body, he, hb⟩ := storeOp_body hi
  have hw : (dWrites (laneCx s n p) (storeEff o f (laneCx s n p) x.regs).writes).run s =
      .ok ((), laneWrite n.val x.regs.pc.toNat ea w.1 false s) := by
    unfold storeEff
    rw [storeTo_unguarded _ hea hp]
    exact dWrites_lane_one rfl ea w.1 s
  rw [he]
  exact runInstr_lane_writes h 1 (hb _ _ s (farOperand_near hea hfar)) hw (tidy_laneWrite_own _ _ hown h.1)
    (laneWrite_own_regs _ _ hown h.1) rfl

/-- Settles O37: a store's body gives its writes, and the unit makes them before its registers change. -/
theorem stores : Obligations.Stores := ⟨storesOnCore, storesOnLane⟩

/-! ## Reads of a core leave memory as it is -/

/-- Where it ends without a fault, an access leaves memory as it is. -/
def LeavesMem {α : Type} (m : Hv α) : Prop := ∀ s a t, m.run s = .ok (a, t) → t.mem = s.mem

theorem leavesMem_pure {α : Type} (a : α) : LeavesMem (pure a : Hv α) := fun _ _ _ h => by cases h; rfl

theorem leavesMem_bind {α β : Type} {m : Hv α} {k : α → Hv β} (hm : LeavesMem m) (hk : ∀ a, LeavesMem (k a)) :
    LeavesMem (m >>= k) := by
  intro s b u h
  cases e : m.run s with
  | error x => rw [bind_error e] at h; cases h
  | ok x =>
    obtain ⟨a, t⟩ := x
    rw [bind_ok e] at h
    exact (hk a t b u h).trans (hm s a t e)

theorem leavesMem_dRead {cx : Cx} {c : Fin 8} (hu : cx.u = .core c) (a : DAddr) (free : Bool) : LeavesMem (dRead cx a free) := by
  intro s w t h
  cases ha : coreAddr s c.val false a with
  | error r => simp only [StateT.run, dRead, hu, ha] at h; cases h
  | ok f =>
    simp only [StateT.run, dRead, hu, ha] at h
    cases h
    exact (FaultOnly.noteReads _ _ s).mem

theorem guardMiss_mem {cx : Cx} {c : Fin 8} (hu : cx.u = .core c) (s : State) : (guardMiss cx s).mem = s.mem := by
  simp only [guardMiss, hu]
  exact (FaultOnly.raise _ _ _ _ s).mem

theorem leavesMem_dOperand {cx : Cx} {c : Fin 8} (hu : cx.u = .core c) (guarded : Bool) (ea ea' : DAddr) :
    LeavesMem (dOperand cx guarded ea ea') := by
  refine leavesMem_bind (leavesMem_dRead hu ea false) fun v => ?_
  split
  · refine leavesMem_bind (leavesMem_dRead hu ea' _) fun k => ?_
    split
    · exact leavesMem_pure v
    · intro s a t h
      cases h
      exact guardMiss_mem hu s
  · exact leavesMem_pure v

theorem leavesMem_operand {cx : Cx} {c : Fin 8} (hu : cx.u = .core c) (r : Regs) (o : Operand) : LeavesMem (operand cx r o) := by
  unfold operand
  split
  · exact leavesMem_pure _
  · exact leavesMem_pure _
  · split
    · exact leavesMem_bind (leavesMem_dOperand hu _ _ _) fun v => leavesMem_pure _
    · exact leavesMem_pure _

/-! ## MOV, PUSH, POP and LDI (R65, R70, R95) -/

theorem movBody_run {cx : Cx} {r : Regs} {o : Operand} {s s' : State} {w : Word} {ov : Bool} (rd : Fin 32)
    (ho : (operand cx r o).run s = .ok ((w, ov), s')) :
    (movBody rd o cx r).run s = .ok ({ upd := writeReg (Agent.isLane cx.u) rd.val w, fl := viewFlags ov }, s') :=
  (bind_ok ho).trans rfl

theorem exec_mov_core {s s' : State} {c : Fin 8} {p : Prefix} {rd : Fin 32} {o : Operand} {w : Word} {ov : Bool} :
    let sh := shapeD (.core c) p true true false o
    let sh := { sh with reasons := sh.reasons ++ destReasons (.core c) rd }
    CoreTakes s c p sh → (operand (coreCx s c p) (s.core c.val).regs o).run s = .ok ((w, ov), s') → SameCore s s' c →
    exec (.mov (.core c) p rd o) s = .next (coreDone c (decodedLen p sh) (writeReg false rd.val w) (viewFlags ov) none s') :=
  fun h ho hs => runInstr_core_done h 1 (movBody_run rd ho) (sameRegs_of_sameCore h hs) rfl rfl rfl rfl (writeReg_pc _ _ _)

theorem exec_mov_lane {s s' : State} {n : Fin 64} {p : Prefix} {rd : Fin 32} {o : Operand} {w : Word} {ov : Bool} :
    let sh := shapeD (.lane n) p true true false o
    let sh := { sh with reasons := sh.reasons ++ destReasons (.lane n) rd }
    LaneTakes s n p sh → (operand (laneCx s n p) (s.lane n.val).regs o).run s = .ok ((w, ov), s') → SameLane s s' n →
    exec (.mov (.lane n) p rd o) s = .next (laneDone n 1 (writeReg true rd.val w) (viewFlags ov) none s') :=
  fun h ho hs => runInstr_lane_done h 1 (movBody_run rd ho) hs rfl rfl

theorem exec_push_core {s : State} {c : Fin 8} {p : Prefix} {rs : Fin 32} {f : Nat}
    (h : CoreTakes s c p { len := 2, lane := false, reasons := regReasons (.core c) rs.val }) :
    let x := s.core c.val
    let w := readReg (coreCx s c p).sat x.regs rs.val
    coreAddr s c.val true (x.regs.sp - 1) = .ok f →
    let s' := coreWrite c.val [(f, w.1)] s
    SameCore s s' c →
    exec (.push (.core c) p rs) s = .next (coreDone c (decodedLen p { len := 2, lane := false, reasons := regReasons (.core c) rs.val })
      (fun t => { t with sp := x.regs.sp - 1 }) (viewFlags w.2) none s') := by
  intro x w ha s' hs
  obtain ⟨ht, -, -, hm, -⟩ := sameRegs_refl h
  have hg : CoreGives s s s' c p (fun cx r => pure (pushBody rs cx r)) (pushBody rs (coreCx s c p) x.regs) :=
    ⟨rfl, ht, hm, dWrites_core_one _ rfl ha, rfl, rfl⟩
  exact runInstr_core_writes h 1 hg hs rfl (fun _ => rfl)

theorem exec_pop_core {s : State} {c : Fin 8} {p : Prefix} {rd : Fin 32} {f : Nat}
    (h : CoreTakes s c p { len := 2, lane := false, reasons := destReasons (.core c) rd }) :
    let x := s.core c.val
    coreAddr s c.val false x.regs.sp = .ok f →
    let s' := noteReads (0x10 + c.val) [(f, 4)] s
    SameCore s s' c →
    exec (.pop (.core c) p rd) s = .next (coreDone c (decodedLen p { len := 2, lane := false, reasons := destReasons (.core c) rd })
      (fun t => writeReg false rd.val (fabRead s f) { t with sp := x.regs.sp + 1 }) {} none s') := by
  intro x ha s' hs
  have hb : (popBody rd (coreCx s c p) x.regs).run s =
      .ok ({ upd := fun t => writeReg false rd.val (fabRead s f) { t with sp := x.regs.sp + 1 } }, s') :=
    (bind_ok (dRead_core rfl ha)).trans rfl
  exact runInstr_core_done h 1 hb (sameRegs_of_sameCore h hs) rfl rfl rfl rfl (fun _ => writeReg_pc _ _ _ _)

theorem ldiBody_run {cx : Cx} {c : Fin 8} {r : Regs} {o : Operand} {s s' : State} {w : Word} {ov : Bool} (hu : cx.u = .core c)
    (ho : (operand cx r o).run s = .ok ((w, ov), s')) (ha : iImplemented (w &&& 0xFFFFC).toNat = true) :
    (ldiBody o cx r).run s = .ok ({ load := some ⟨0, iWord s c.val (w &&& 0xFFFFC).toNat⟩, fl := viewFlags ov }, s') := by
  rw [← iWord_of_mem (leavesMem_operand hu r o s _ s' ho)]
  refine (bind_ok ho).trans ?_
  dsimp only
  rw [hu]
  refine (bind_ok (t := s') (a := s') rfl).trans ?_
  rw [if_pos ha]
  rfl

theorem exec_ldi_core {s s' : State} {c : Fin 8} {p : Prefix} {o : Operand} {w : Word} {ov : Bool} :
    let sh := { shapeD (.core c) p true true false o with lane := false }
    CoreTakes s c p sh → (operand (coreCx s c p) (s.core c.val).regs o).run s = .ok ((w, ov), s') → SameCore s s' c →
    let a := (w &&& 0xFFFFC).toNat
    iImplemented a = true →
    exec (.ldi (.core c) p o) s = .next (coreDone c (decodedLen p sh) id (viewFlags ov) (some ⟨0, iWord s c.val a⟩) s') :=
  fun h ho hs ha => runInstr_core_done h 1 (ldiBody_run rfl ho ha) (sameRegs_of_sameCore h hs) rfl rfl rfl rfl (fun _ => rfl)

/-- Settles O5: each instruction from what its body gives; the word of LDI is that before its operand was read, as a core's reads
leave memory as it is. -/
theorem movesAndStack : Obligations.MovesAndStack :=
  ⟨fun _ _ _ _ _ _ _ _ => exec_mov_core, fun _ _ _ _ _ _ _ _ => exec_mov_lane, fun _ _ _ _ _ h => exec_push_core h,
    fun _ _ _ _ _ h => exec_pop_core h, fun _ _ _ _ _ _ _ => exec_ldi_core⟩

end Sys2Proof.Machine
end

section
/-! Arithmetic on A (R96, R97, R100 to R102): what the body of each instruction gives, and the instructions that end in it. -/

namespace Sys2Proof.Machine
open Sys2Proof Sys2Proof.Claims

/-! ## The end of an instruction that may divide by zero (R101) -/

/-- A load of F that is owed to an instruction which writes F does not change it (R85). -/
theorem landUnder_f {fl : FlagSet} (lane : Bool) (d : Option Load) (r : Regs) (h : fl.writes = true) :
    (landUnder lane fl d r).f = r.f := by
  unfold landUnder
  rw [if_pos h]

theorem writes_of_dz {fl : FlagSet} (h : fl.dz = true) : fl.writes = true := by
  simp only [FlagSet.writes, h, Bool.or_true]

theorem withRead_dz (fl : FlagSet) (ov : Bool) : (fl.withRead ov).dz = fl.dz := by
  cases ov <;> rfl

/-- An instruction without writes goes on, but where it divides by zero under the trap enable. -/
theorem runInstr_core_untrapped {s s' : State} {c : Fin 8} {p : Prefix} {sh : Shape} {body : Cx → Regs → Hv Eff} {e : Eff}
    (h : CoreTakes s c p sh) (cost : Nat) (hb : (body (coreCx s c p) (s.core c.val).regs).run s = .ok (e, s'))
    (hs : SameRegs s s' c) (hw : e.writes = []) (hmv : e.move = none) (hdest : e.dest = none) (hpc : ∀ r, (e.upd r).pc = r.pc)
    (hf : (e.dz && ((committed c e s').core c.val).regs.f.getLsbD 9) = false) :
    runInstr (.core c) p sh cost body s = .next (coreDone c (decodedLen p sh) e.upd e.fl e.load s') := by
  have ⟨ht, _, _, hm, _, _⟩ := hs
  have hp : p.rep = none := h.2.2.2.1
  simp only [runInstr_core h, runCore_once hp, runOnce_core hb ht hm hw hmv, hf, Bool.false_eq_true, if_false,
    coreFinish_done _ hs hdest hmv hpc]

/-! ## ADD, SUB, AND, OR, XOR and DIV (R96, R97, R100, R101) -/

/-- What an instruction gives whose result of A and its operand word is `f`. -/
def accEff (o : Operand) (f : Bool → Acc → Word → Acc × FlagSet) (sat : Bool) (r : Regs) (w : Word) (ov : Bool) : Eff :=
  { upd := fun t => { postMod r o t with a := (f sat r.a w).1 }, fl := (f sat r.a w).2.withRead ov, dz := (f sat r.a w).2.dz }

/-- The body `body` reads its operand and gives `accEff`. -/
def GivesAcc (o : Operand) (f : Bool → Acc → Word → Acc × FlagSet) (body : Cx → Regs → Hv Eff) : Prop :=
  ∀ (cx : Cx) (r : Regs) (s s' : State) (w : Word) (ov : Bool), (operand cx r o).run s = .ok ((w, ov), s') →
    (body cx r).run s = .ok (accEff o f cx.sat r w ov, s')

theorem givesAcc_accBody {f : Bool → Acc → Word → Acc × FlagSet} (o : Operand) (hf : ∀ sat a w, (f sat a w).2.dz = false) :
    GivesAcc o f (accBody f o) := by
  intro cx r s s' w ov ho
  unfold accEff
  rw [hf]
  exact (bind_ok ho).trans rfl

/-- DIV notes a division by zero where its operand word is zero. -/
theorem aluDiv_dz (sat : Bool) (h w : Word) : (aluDiv sat h w).2.dz = (w == 0) := by
  unfold aluDiv
  by_cases hw : w = 0
  · rw [if_pos hw, hw]
    rfl
  · rw [if_neg hw, beq_eq_false_iff_ne.2 hw]
    rfl

theorem givesAcc_divBody (o : Operand) :
    GivesAcc o (fun sat a w => (extAcc (aluDiv sat (accH a) w).1, (aluDiv sat (accH a) w).2)) (divBody o) := by
  intro cx r s s' w ov ho
  rw [divBody_run ho, divEff, ← aluDiv_dz cx.sat (accH r.a) w]
  rfl

theorem accOp_body {i : Instr} {u : Agent} {p : Prefix} {o : Operand} {k : Nat} {f : Bool → Acc → Word → Acc × FlagSet}
    (h : accOp i = some (u, p, o, k, f)) :
    ∃ body, (∀ s, exec i s = runInstr u p (shapeD u p true true true o) k body s) ∧ GivesAcc o f body := by
  unfold accOp at h
  split at h
  case h_1 => cases h; exact ⟨accBody aluAdd o, fun _ => rfl, givesAcc_accBody o fun _ _ _ => rfl⟩
  case h_2 => cases h; exact ⟨accBody aluSub o, fun _ => rfl, givesAcc_accBody o fun _ _ _ => rfl⟩
  case h_3 => cases h; exact ⟨wordBody (logic (· &&& ·)) o, fun _ => rfl, givesAcc_accBody o fun _ _ _ => rfl⟩
  case h_4 => cases h; exact ⟨wordBody (logic (· ||| ·)) o, fun _ => rfl, givesAcc_accBody o fun _ _ _ => rfl⟩
  case h_5 => cases h; exact ⟨wordBody (logic (· ^^^ ·)) o, fun _ => rfl, givesAcc_accBody o fun _ _ _ => rfl⟩
  case h_6 => cases h; exact ⟨divBody o, fun _ => rfl, givesAcc_divBody o⟩
  case h_7 => cases h

/-- No result of A changes the trap enable, and a division by zero keeps F from a load that is owed to it. -/
theorem accEff_trapEnable {s : State} {c : Fin 8} {o : Operand} {f : Bool → Acc → Word → Acc × FlagSet} {sat : Bool} {r : Regs}
    {w : Word} {ov : Bool} (ht : s.tidy = true) (hdz : (f sat r.a w).2.dz = true → (s.core c.val).regs.f.getLsbD 9 = false) :
    ((accEff o f sat r w ov).dz && ((committed c (accEff o f sat r w ov) s).core c.val).regs.f.getLsbD 9) = false := by
  cases hz : (f sat r.a w).2.dz with
  | false => rw [accEff, hz, Bool.false_and]
  | true =>
    have hwr : ((f sat r.a w).2.withRead ov).writes = true := writes_of_dz ((withRead_dz _ ov).trans hz)
    rw [committed, State.core_setCore_self c.val _ ((tidy_iff s).1 ht).cores]
    simp only [accEff, trapEnable_apply, postMod_f, landUnder_f _ _ _ hwr, hdz hz, Bool.and_false]

theorem aluOnCore : AluOnCore := by
  intro i c p o k f s s' w ov hi h ho hs x r hdz
  obtain ⟨body, he, hb⟩ := accOp_body hi
  have ⟨ht, hr, _⟩ := hs
  rw [he]
  exact runInstr_core_untrapped h k (hb _ _ _ _ _ _ ho) (sameRegs_of_sameCore h hs) rfl rfl rfl (postMod_pc _ o)
    (accEff_trapEnable ht fun hz => by rw [hr]; exact hdz hz)

theorem aluOnLane : AluOnLane := by
  intro i n p o k f s s' w ov hi h ho hs x r
  obtain ⟨body, he, hb⟩ := accOp_body hi
  rw [he]
  exact runInstr_lane_done h k (hb _ _ _ _ _ _ ho) hs rfl rfl

/-- Settles O34: the body of each instruction gives its result of A and the operand word; without the trap enable a core goes on
after a division by zero as after any other. -/
theorem arithmetic : Obligations.Arithmetic := ⟨aluOnCore, aluOnLane⟩

/-! ## MUL, MAC and MSU (R92, R96, R97) -/

/-- The flags of a product beside those of the read of its operand. -/
theorem aluMac_withRead (sat : Bool) (base k : Int) (x y : Word) (ov : Bool) :
    let r := toAcc sat (base + k * 2 * x.toInt * y.toInt)
    (aluMac sat base k x y).2.withRead ov =
      { z := some (r.1 == 0), n := some r.1.msb, c := some false, v := some (r.2 || ov), sv := r.2 || ov } := by
  intro r
  cases ov with
  | false =>
    rw [Bool.or_false]
    rfl
  | true =>
    rw [Bool.or_true]
    rfl

/-- What a multiplication of the operand word `w` and the word `d` at X gives. -/
def mulEff (keep sign : Int) (o : Operand) (sat : Bool) (r : Regs) (w d : Word) (ov : Bool) : Eff :=
  { upd := fun t => { postMod r o t with a := (aluMac sat (keep * r.a.toInt) sign w d).1 }
    fl := (aluMac sat (keep * r.a.toInt) sign w d).2.withRead ov }

theorem mulBody_run {keep sign : Int} {cx : Cx} {r : Regs} {o : Operand} {s s' : State} {w d : Word} {ov : Bool}
    (h : (factors cx r o).run s = .ok (((w, ov), d), s')) :
    (mulBody keep sign o cx r).run s = .ok (mulEff keep sign o cx.sat r w d ov, s') :=
  (bind_ok h).trans rfl

theorem mulOp_body {i : Instr} {u : Agent} {p : Prefix} {o : Operand} {keep sign : Int} (h : mulOp i = some (u, p, o, keep, sign))
    (s : State) : exec i s = runInstr u p (shapeD u p true true true o) 1 (mulBody keep sign o) s := by
  unfold mulOp at h
  split at h
  case h_4 => cases h
  all_goals (cases h; rfl)

/-- Settles O3: a multiplication's body gives the product of its two factors. -/
theorem multiplies : Obligations.Multiplies := by
  constructor
  · intro i c p o keep sign s s' w d ov hi h x hf hs r
    rw [mulOp_body hi, ← aluMac_withRead]
    exact runInstr_core_done h 1 (mulBody_run hf) (sameRegs_of_sameCore h hs) rfl rfl rfl rfl (postMod_pc _ o)
  · intro i n p o keep sign s s' w d ov hi h x hf hs r
    rw [mulOp_body hi, ← aluMac_withRead]
    exact runInstr_lane_done h 1 (mulBody_run hf) hs rfl rfl

/-! ## CMP and NOP (R95, R96) -/

theorem cmpBody_run {cx : Cx} {r : Regs} {o : Operand} {s s' : State} {w : Word} {ov : Bool}
    (h : (operand cx r o).run s = .ok ((w, ov), s')) :
    (cmpBody o cx r).run s = .ok ({ upd := postMod r o, fl := (aluCmp r.a w).withRead ov }, s') :=
  (bind_ok h).trans rfl

theorem compareAndNop : CompareAndNop :=
  ⟨fun _ _ o _ _ _ _ h ho hs =>
      runInstr_core_done h 1 (cmpBody_run ho) (sameRegs_of_sameCore h hs) rfl rfl rfl rfl (postMod_pc _ o),
    fun _ _ _ _ _ _ _ h ho hs => runInstr_lane_done h 1 (cmpBody_run ho) hs rfl rfl,
    fun _ _ _ h => runInstr_core_done (e := {}) h 1 rfl (sameRegs_refl h) rfl rfl rfl rfl fun _ => rfl,
    fun _ _ _ h => runInstr_lane_done (e := {}) h 1 rfl (sameLane_refl h) rfl rfl⟩

/-! ## Operations on A alone (R96, R100, R102, R103) -/

/-- What an operation gives that makes `g` of A. -/
def ownEff (g : Acc → (Acc → Acc) × FlagSet) (r : Regs) : Eff := { upd := fun t => { t with a := (g r.a).1 t.a }, fl := (g r.a).2 }

/-- The body of such an operation. -/
def ownBody (f : Bool → Acc → (Acc → Acc) × FlagSet) (c : Cx) (r : Regs) : Hv Eff := pure (ownEff (f c.sat) r)

theorem exec_ownBody {i : Instr} {u : Agent} {p : Prefix} {sh : Shape} {f : Bool → Acc → (Acc → Acc) × FlagSet}
    (h : ownOp i = some (u, p, sh, f)) (s : State) : exec i s = runInstr u p sh 1 (ownBody f) s := by
  unfold ownOp at h
  split at h
  case h_13 => cases h
  all_goals (cases h; rfl)

theorem ownOps : OwnOps := by
  constructor
  · intro i c p sh f s hi h r
    rw [exec_ownBody hi]
    exact runInstr_core_done h 1 (body := ownBody f) rfl (sameRegs_refl h) rfl rfl rfl rfl fun _ => rfl
  · intro i n p sh f s hi h r
    rw [exec_ownBody hi]
    exact runInstr_lane_done h 1 (body := ownBody f) rfl (sameLane_refl h) rfl rfl

end Sys2Proof.Machine
end

section
/-! Shifts of a memory word (R103), and what the reads of an operand leave of a control core. -/

namespace Sys2Proof.Machine
open Sys2Proof Sys2Proof.Claims

/-! ## Reads of a core leave the core but for its pending interrupts (R240) -/

/-- The state is in canonical form and core `c` is `x`, but for the interrupts that are pending. -/
def CoreIs (c : Nat) (x : Core) (s : State) : Prop := s.tidy = true ∧ { s.core c with ipend := x.ipend } = x

theorem coreIs_self {c : Nat} {s : State} (h : s.tidy = true) : CoreIs c (s.core c) s := ⟨h, rfl⟩

theorem CoreIs.moves {c : Nat} {x : Core} {s : State} (h : CoreIs c x s) : (s.core c).moves = x.moves :=
  (congrArg Core.moves h.2 :)

section
variable {c : Nat} {x : Core} {s : State}

/-- A change that leaves the cores. -/
theorem CoreIs.of_cores {t : State} (h : CoreIs c x s) (ht : t.tidy = true) (hc : t.cores = s.cores) : CoreIs c x t := by
  have e : t.core c = s.core c := by unfold State.core; rw [hc]
  exact ⟨ht, by rw [e]; exact h.2⟩

theorem CoreIs.pendCore (d k : Nat) (h : CoreIs c x s) : CoreIs c x (pendCore d k s) := by
  obtain ⟨ht, hx⟩ := h
  refine ⟨tidy_pendCore d k ht, ?_⟩
  unfold Machine.pendCore
  by_cases hd : c = d
  · subst hd
    rw [State.core_setCore_self c _ ((tidy_iff s).1 ht).cores]
    exact hx
  · rw [State.core_setCore_ne s _ hd]
    exact hx

theorem CoreIs.pendAll (k : Nat) (h : CoreIs c x s) : CoreIs c x (pendAll k s) :=
  forUpto_keep (CoreIs c x) 8 _ (fun d _ _ ht => ht.pendCore d k) s h

theorem CoreIs.logFault (code unit info extra : Nat) (h : CoreIs c x s) : CoreIs c x (logFault code unit info extra s) := by
  have hput := tidy_logTotals (s.rd Obj.fltLogHead) code (tidy_logCount (tidy_faultLog (s.rd Obj.fltLogHead)
    ⟨BitVec.ofNat 16 code, 0, BitVec.ofNat 8 unit, BitVec.ofNat 16 info, BitVec.ofNat 64 extra, s.slate⟩ h.1))
  have hcount : ∀ t : State, (logCount t).cores = t.cores := fun t => by unfold logCount; split <;> rfl
  have hactive : ∀ (k : BitVec 16) (t : State), (logActive k t).cores = t.cores := fun k t => by unfold logActive; split <;> rfl
  have hlog := h.of_cores (tidy_ulIrq 2 (tidy_logActive (BitVec.ofNat 16 code) hput)) ((hactive _ _).trans (hcount _))
  rw [logFault_eq]
  unfold logSources
  split
  · exact hlog.pendAll _
  · exact hlog

theorem CoreIs.repeatFault (code unit info : Nat) (h : CoreIs c x s) : CoreIs c x (repeatFault code unit info s) := by
  refine h.of_cores (tidy_repeatFault code unit info h.1) ?_
  unfold Machine.repeatFault bumpRepeat
  dsimp only
  split <;> rfl

theorem CoreIs.queueEmcy (err code detail : Nat) (h : CoreIs c x s) : CoreIs c x (queueEmcy err code detail s) := by
  unfold Machine.queueEmcy
  split
  · exact h
  · split
    · exact h
    · split
      · exact h.repeatFault _ _ _
      · dsimp only
        split
        · exact CoreIs.repeatFault (s := { s with can := { s.can with emcyDrop := true } }) _ _ _ h
        · exact CoreIs.logFault (s := { s with
            onceKeys := s.onceKeys ++ [(0xB005, 0)], can := { s.can with emcyDrop := true, emcyOwed := true } }) _ _ _ _ h

theorem CoreIs.raise (code unit info extra : Nat) (h : CoreIs c x s) : CoreIs c x (raise code unit info extra s) :=
  (h.logFault code unit info extra).queueEmcy _ _ _

theorem CoreIs.raiseOnce (key code unit info extra : Nat) (h : CoreIs c x s) :
    CoreIs c x (raiseOnce key code unit info extra s) := by
  unfold Machine.raiseOnce
  split
  · exact h.repeatFault _ _ _
  · exact CoreIs.raise (s := { s with onceKeys := s.onceKeys ++ [(BitVec.ofNat 16 code, key)] }) _ _ _ _ h

theorem CoreIs.wr (r : Reg) (v : Nat) (h : CoreIs c x s) : CoreIs c x (s.wr r v) := h.of_cores (tidy_wr r v h.1) rfl

theorem CoreIs.fabReport (code unit info a : Nat) (h : CoreIs c x s) : CoreIs c x (fabReport code unit info a s) := by
  unfold Machine.fabReport
  refine CoreIs.raiseOnce _ _ _ _ _ ?_
  split
  · split
    · exact h.wr _ _
    · exact h
  · split
    · exact h.wr _ _
    · exact h.wr _ _
  · exact h

theorem CoreIs.noteReads (unit : Nat) (rs : List (Nat × Nat)) (h : CoreIs c x s) : CoreIs c x (noteReads unit rs s) := by
  refine forList_keep (CoreIs c x) _ _ (fun y _ t ht => ?_) s h
  split
  · exact ht.wr _ _
  · exact ht.fabReport _ _ _ _

end

/-- Where it ends without a fault, an access leaves core `c` but for its pending interrupts. -/
def LeavesCore (c : Nat) {α : Type} (m : Hv α) : Prop :=
  ∀ (x : Core) (s t : State) (a : α), CoreIs c x s → m.run s = .ok (a, t) → CoreIs c x t

theorem leavesCore_pure {c : Nat} {α : Type} (a : α) : LeavesCore c (pure a : Hv α) := fun _ _ _ _ h e => by cases e; exact h

theorem leavesCore_bind {c : Nat} {α β : Type} {m : Hv α} {k : α → Hv β} (hm : LeavesCore c m) (hk : ∀ a, LeavesCore c (k a)) :
    LeavesCore c (m >>= k) := by
  intro x s u b h e
  cases hrun : m.run s with
  | error f => rw [bind_error hrun] at e; cases e
  | ok y =>
    obtain ⟨a, t⟩ := y
    rw [bind_ok hrun] at e
    exact hk a x t u b (hm x s t a h hrun) e

section
variable {cx : Cx} {c : Fin 8} (hu : cx.u = .core c)
include hu

theorem leavesCore_dRead (a : DAddr) (free : Bool) : LeavesCore c.val (dRead cx a free) := by
  intro x s t w h e
  cases ha : coreAddr s c.val false a with
  | error r => simp only [StateT.run, dRead, hu, ha] at e; cases e
  | ok f =>
    simp only [StateT.run, dRead, hu, ha] at e
    cases e
    exact h.noteReads _ _

theorem CoreIs.guardMiss {x : Core} {s : State} (h : CoreIs c.val x s) : CoreIs c.val x (guardMiss cx s) := by
  simp only [Machine.guardMiss, hu]
  exact h.raise _ _ _ _

theorem leavesCore_dOperand (guarded : Bool) (ea ea' : DAddr) : LeavesCore c.val (dOperand cx guarded ea ea') := by
  refine leavesCore_bind (leavesCore_dRead hu ea false) fun v => ?_
  split
  · refine leavesCore_bind (leavesCore_dRead hu ea' _) fun k => ?_
    split
    · exact leavesCore_pure v
    · intro x s t a h e
      cases e
      exact h.guardMiss hu
  · exact leavesCore_pure v

theorem leavesCore_operand (r : Regs) (o : Operand) : LeavesCore c.val (operand cx r o) := by
  unfold operand
  split
  · exact leavesCore_pure _
  · exact leavesCore_pure _
  · split
    · exact leavesCore_bind (leavesCore_dOperand hu _ _ _) fun v => leavesCore_pure _
    · exact leavesCore_pure _

end

/-! ## Shifts of a memory word -/

/-- What a shift of the memory word `w` gives. -/
def shiftMemEff (k : Shift) (o : Operand) (n : Byte) (cx : Cx) (r : Regs) (w : Word) : Eff :=
  { writes := storeTo cx r o (shiftBits k w n.toNat).1, upd := postMod r o
    fl := shiftFlags (shiftBits k w n.toNat).1 (shiftBits k w n.toNat).2.1 (shiftBits k w n.toNat).2.2 }

theorem shiftMemBody_run {k : Shift} {o : Operand} {n : Byte} {cx : Cx} {r : Regs} {s s' : State} {w : Word} {ov : Bool}
    (h : (operand cx r o).run s = .ok ((w, ov), s')) : (shiftMemBody k o n cx r).run s = .ok (shiftMemEff k o n cx r w, s') :=
  (bind_ok h).trans rfl

theorem shiftMemOp_body {i : Instr} {u : Agent} {p : Prefix} {o : Operand} {n : Byte} {k : Shift}
    (h : shiftMemOp i = some (u, p, o, n, k)) (s : State) :
    exec i s = runInstr u p (shiftMemShape u p o n) 1 (shiftMemBody k o n) s := by
  unfold shiftMemOp at h
  split at h
  case h_5 => cases h
  all_goals (cases h; rfl)

/-- Settles O2: a shift's body reads its word and gives the shifted one as its write, which the unit makes before its registers
change. -/
theorem memoryShifts : Obligations.MemoryShifts := by
  constructor
  · intro i c p o n k s s' w ov fs hi h x ho r hst hs
    obtain ⟨ht, -, -, hm, -⟩ := sameRegs_refl h
    have hc := leavesCore_operand (cx := coreCx s c p) rfl x.regs o x s s' _ (coreIs_self ht) ho
    have hg : CoreGives s s' (coreWrites c p.guard fs s') c p (shiftMemBody k o n) (shiftMemEff k o n (coreCx s c p) x.regs w) :=
      ⟨shiftMemBody_run ho, hc.1, hc.moves.trans hm, dWrites_core rfl hst, rfl, rfl⟩
    rw [shiftMemOp_body hi]
    exact runInstr_core_writes h 1 hg hs rfl (postMod_pc _ o)
  · intro i l p o n k s ea ea' w ov hi h x hea hown hp ho r
    have hw : (dWrites (laneCx s l p) (storeTo (laneCx s l p) x.regs o r.1)).run s =
        .ok ((), laneWrite l.val x.regs.pc.toNat ea r.1 false s) := by
      rw [storeTo_unguarded (cx := laneCx s l p) r.1 hea hp]
      exact dWrites_lane_one rfl ea r.1 s
    rw [shiftMemOp_body hi]
    exact runInstr_lane_writes h 1 (shiftMemBody_run ho) hw (tidy_laneWrite_own _ _ hown h.1) (laneWrite_own_regs _ _ hown h.1) rfl

end Sys2Proof.Machine
end

section
/-! TAP and TAPM (R92, R98, R99): the product of two words, the step of both indices, and the move that TAPM owes. -/

namespace Sys2Proof.Machine
open Sys2Proof Sys2Proof.Claims

/-! ## What the bodies give -/

/-- What TAP gives of the words `a` and `b`; TAPM also owes the move `m`. -/
def tapEff (sat : Bool) (r : Regs) (a b : Word) (m : Option (DAddr × Word)) : Eff :=
  { upd := fun t => { t with a := (aluMac sat r.a.toInt 1 a b).1, x := stepX r r.ox.toInt, y := stepY r r.oy.toInt }
    fl := (aluMac sat r.a.toInt 1 a b).2, move := m }

theorem tapBody_run {cx : Cx} {r : Regs} {s s' : State} {a b : Word} (h : (tapFactors cx r).run s = .ok ((a, b), s')) :
    (tapBody cx r).run s = .ok (tapEff cx.sat r a b none, s') :=
  (bind_ok h).trans rfl

theorem tapmBody_run {cx : Cx} {r : Regs} {s s' t : State} {a b : Word} {m : Option (DAddr × Word)}
    (h : (tapFactors cx r).run s = .ok ((a, b), s')) (hm : (tapmMove cx (stepY r r.oy.toInt) b).run s' = .ok (m, t)) :
    (tapmBody cx r).run s = .ok (tapEff cx.sat r a b m, t) :=
  (bind_ok h).trans ((bind_ok hm).trans rfl)

theorem tapmMove_core {cx : Cx} {c : Fin 8} {y : DAddr} {f : Nat} {s : State} (w : Word) (hu : cx.u = .core c)
    (hy : coreAddr s c.val true y = .ok f) : (tapmMove cx y w).run s = .ok (some (y, w), s) := by
  simp only [StateT.run, tapmMove, hu, hy]

theorem tapmMove_near {cx : Cx} {n : Fin 64} {y : DAddr} (w : Word) (s : State) (hu : cx.u = .lane n) (hy : isFar y = false) :
    (tapmMove cx y w).run s = .ok (some (y, w), s) := by
  simp only [StateT.run, tapmMove, hu, hy, Bool.false_eq_true, if_false]

theorem tapmMove_far {cx : Cx} {n : Fin 64} {y : DAddr} (w : Word) (s : State) (hu : cx.u = .lane n) (hy : isFar y = true) :
    (tapmMove cx y w).run s = .ok (none, laneFault n.val 3 cx.slot s) := by
  simp only [StateT.run, tapmMove, hu, hy, if_true]

/-! ## TAP -/

theorem exec_tap_core {s s' : State} {c : Fin 8} {p : Prefix} {a b : Word} (h : CoreTakes s c p { len := 1, guard := true })
    (hf : (tapFactors (coreCx s c p) (s.core c.val).regs).run s = .ok ((a, b), s')) (hs : SameCore s s' c) :
    let e := tapEff (coreCx s c p).sat (s.core c.val).regs a b none
    exec (.tap (.core c) p) s = .next (coreDone c (decodedLen p { len := 1, guard := true }) e.upd e.fl none s') :=
  runInstr_core_done h 1 (tapBody_run hf) (sameRegs_of_sameCore h hs) rfl rfl rfl rfl fun _ => rfl

theorem exec_tap_lane {s s' : State} {n : Fin 64} {p : Prefix} {a b : Word} (h : LaneTakes s n p { len := 1, guard := true })
    (hf : (tapFactors (laneCx s n p) (s.lane n.val).regs).run s = .ok ((a, b), s')) (hs : SameLane s s' n) :
    let e := tapEff true (s.lane n.val).regs a b none
    exec (.tap (.lane n) p) s = .next (laneDone n 1 e.upd e.fl none s') :=
  runInstr_lane_done h 1 (tapBody_run hf) hs rfl rfl

/-! ## TAPM on a core -/

/-- A core commits an instruction that owes a move (R99). -/
theorem commit_core_move {s : State} {cx : Cx} {c : Fin 8} {e : Eff} {y : DAddr} {w : Word} (hu : cx.u = .core c)
    (h : s.tidy = true) (hm : (s.core c.val).moves = []) (hw : e.writes = []) (hmv : e.move = some (y, w)) :
    (commit cx e).run s = .ok ((), putMoves (.core c) [⟨cx.slot + 1, y, w⟩] (committed c e s)) := by
  have hc := ((tidy_iff s).1 h).cores
  have hf : flushMoves (.core c) cx.slot [] s = s := flushMoves_of_none (.core c) _ _ h hm
  have hd : (dWrites cx []).run s = .ok ((), s) := by
    obtain ⟨u, p, slot, sat⟩ := cx
    cases hu
    exact dWrites_core_nil c p slot sat s
  unfold commit
  rw [hu, hw, hmv]
  refine (bind_ok (modify_ok hf)).trans ((bind_ok hd).trans (modify_ok ?_))
  simp only [putDelayed, putRegs, putMoves, movesOf, noteSat, State.core_setCore_self c.val _ hc,
    State.setCore_core_twice c.val _ _ hc, delayedOf, regsOf, Agent.isLane, hm, List.nil_append, committed]

/-- A core that goes on at the next instruction and owes a move. -/
theorem coreFinish_move {s t : State} {c : Fin 8} (len : Nat) {e : Eff} (ms : List Move) (hs : SameRegs s t c)
    (hdest : e.dest = none) (hmv : e.move.isSome = true) (hpc : ∀ r, (e.upd r).pc = r.pc) :
    coreFinish c len e (putMoves (.core c) ms (committed c e t)) =
      (coreDone c len e.upd e.fl e.load t).setCore c.val
        { (coreDone c len e.upd e.fl e.load t).core c.val with moves := ms, noIrq := true } := by
  obtain ⟨ht, -, -, -, hl, -⟩ := hs
  have hc := ((tidy_iff t).1 ht).cores
  unfold ictlLpe at hl
  simp only [coreFinish, putMoves, committed, coreDone, hdest, hmv, ictlLpe, hl, Bool.not_false, Bool.or_true, if_true,
    State.core_setCore_self c.val _ hc, State.setCore_core_twice c.val _ _ hc, hpc, landUnder_pc]

theorem exec_tapm_core {s s' : State} {c : Fin 8} {p : Prefix} {a b : Word} {f : Nat}
    (h : CoreTakes s c p { len := 1, guard := true })
    (hf : (tapFactors (coreCx s c p) (s.core c.val).regs).run s = .ok ((a, b), s')) (hs : SameCore s s' c) :
    let x := s.core c.val
    let y' := stepY x.regs x.regs.oy.toInt
    let e := tapEff (coreCx s c p).sat x.regs a b none
    let t := coreDone c (decodedLen p { len := 1, guard := true }) e.upd e.fl none s'
    coreAddr s' c.val true y' = .ok f →
    exec (.tapm (.core c) p) s =
      .next (t.setCore c.val { t.core c.val with moves := [⟨x.count + 1, y', b⟩], noIrq := true }) := by
  intro x y' e t hy
  have hr := sameRegs_of_sameCore h hs
  have ⟨ht, _, _, hm, _, _⟩ := hr
  have hp : p.rep = none := h.2.2.2.1
  have hb : (tapmBody (coreCx s c p) x.regs).run s = .ok (tapEff (coreCx s c p).sat x.regs a b (some (y', b)), s') :=
    tapmBody_run hf (tapmMove_core b rfl hy)
  have hrun : (runOnce (coreCx s c p) 1 tapmBody).run s = .ok (tapEff (coreCx s c p).sat x.regs a b (some (y', b)),
      putMoves (.core c) [⟨x.count + 1, y', b⟩] (committed c (tapEff (coreCx s c p).sat x.regs a b (some (y', b))) s')) :=
    (bind_ok (t := s) rfl).trans ((bind_ok hb).trans ((bind_ok (t := s') rfl).trans
      (bind_ok (commit_core_move rfl ht hm rfl rfl))))
  have hdz : (tapEff (coreCx s c p).sat x.regs a b (some (y', b))).dz = false := rfl
  show runInstr (.core c) p _ 1 tapmBody s = _
  simp only [runInstr_core h, runCore_once hp, hrun, hdz, Bool.false_and, Bool.false_eq_true, if_false]
  rw [coreFinish_move _ _ hr rfl rfl fun _ => rfl]
  rfl

/-! ## A lane whose take saturated is counted once (R56) -/

/-- The counter of the takes of lane `n` that saturated counts where `hit` says so. -/
def countSat (n : Nat) (hit : Bool) (s : State) : State := if hit then s.inc (Obj.satTakes n) else s

theorem countSat_lane (n k : Nat) (hit : Bool) (s : State) : (countSat n hit s).lane k = s.lane k := by
  cases hit <;> rfl

theorem countSat_mem (n : Nat) (hit : Bool) (s : State) : (countSat n hit s).mem = s.mem := by
  cases hit <;> rfl

theorem countSat_setLane (n k : Nat) (hit : Bool) (l : Lane) (s : State) :
    (countSat n hit s).setLane k l = countSat n hit (s.setLane k l) := by
  cases hit <;> rfl

theorem tidy_countSat {s : State} (n : Nat) (hit : Bool) (h : s.tidy = true) : (countSat n hit s).tidy = true := by
  cases hit
  · exact h
  · exact tidy_inc _ h

theorem noteSat_setLane {s : State} (n : Fin 64) (sv : Bool) (l : Lane) (h : s.tidy = true) :
    noteSat (.lane n) sv (s.setLane n.val l) =
      countSat n.val (sv && !l.satTaken) (s.setLane n.val { l with satTaken := l.satTaken || sv }) := by
  have hl := ((tidy_iff s).1 h).lanes
  simp only [noteSat, State.lane_setLane_self n.val _ hl, State.setLane_lane_twice n.val _ _ hl]
  cases sv with
  | false => simp [countSat]
  | true =>
    cases hx : l.satTaken with
    | false => simp [countSat]
    | true => simp [countSat, ← hx]

theorem lanePc_countSat {s : State} (n pc : Nat) (hit : Bool) (l : Lane) (h : s.tidy = true) :
    lanePc n pc (countSat n hit (s.setLane n l)) =
      countSat n hit (s.setLane n { l with regs := { l.regs with pc := BitVec.ofNat 20 pc } }) := by
  have hl := ((tidy_iff s).1 h).lanes
  simp only [lanePc, countSat_lane, countSat_setLane, State.lane_setLane_self n _ hl, State.setLane_lane_twice n _ _ hl]

/-! ## TAPM on a lane -/

/-- A lane commits what an instruction without writes gives it, and owes the moves `ms`. -/
def laneOwing (n : Fin 64) (e : Eff) (ms : List Move) (s : State) : State :=
  let l := s.lane n.val
  let r := e.upd (landUnder true e.fl l.delayed l.regs)
  noteSat (.lane n) e.fl.sv (s.setLane n.val { l with regs := { r with f := e.fl.apply r.f }, delayed := e.load, moves := ms })

/-- A lane commits an instruction that owes a move (R99). -/
theorem commit_lane_move {s : State} {n : Fin 64} {e : Eff} {y : DAddr} {w : Word} (h : s.tidy = true)
    (hm : (s.lane n.val).moves = []) (hw : e.writes = []) (hmv : e.move = some (y, w)) (p : Prefix) (slot : Nat) (sat : Bool) :
    (commit ⟨.lane n, p, slot, sat⟩ e).run s = .ok ((), laneOwing n e [⟨slot + 1, y, w⟩] s) := by
  have hl := ((tidy_iff s).1 h).lanes
  have hf : flushMoves (.lane n) slot [] s = s := flushMoves_of_none (.lane n) _ _ h hm
  unfold commit
  rw [hw, hmv]
  refine (bind_ok (modify_ok hf)).trans ((bind_ok (dWrites_lane_nil n p slot sat s)).trans (modify_ok ?_))
  simp only [putDelayed, putRegs, putMoves, movesOf, State.lane_setLane_self n.val _ hl, State.setLane_lane_twice n.val _ _ hl,
    delayedOf, regsOf, Agent.isLane, hm, List.nil_append, laneOwing]

/-- A lane that is done with an instruction and owes moves. -/
theorem lanePc_laneOwing {s s' : State} {n : Fin 64} (cost : Nat) (e : Eff) (ms : List Move) (ht : s'.tidy = true)
    (hr : (s'.lane n.val).regs = (s.lane n.val).regs) :
    let t := laneDone n cost e.upd e.fl e.load s'
    lanePc n.val ((s.lane n.val).regs.pc.toNat + cost) (laneOwing n e ms s') =
      t.setLane n.val { t.lane n.val with moves := ms } := by
  intro t
  have hl := ((tidy_iff s').1 ht).lanes
  have hdone : t = countSat n.val (e.fl.sv && !(s'.lane n.val).satTaken) (s'.setLane n.val _) := rfl
  simp only [hdone, laneOwing, noteSat_setLane n _ _ ht, lanePc_countSat _ _ _ _ ht, countSat_lane, countSat_setLane,
    State.lane_setLane_self n.val _ hl, State.setLane_lane_twice n.val _ _ hl, hr]

theorem exec_tapm_lane {s s' : State} {n : Fin 64} {p : Prefix} {a b : Word} (h : LaneTakes s n p { len := 1, guard := true })
    (hf : (tapFactors (laneCx s n p) (s.lane n.val).regs).run s = .ok ((a, b), s')) (hs : SameLane s s' n) :
    let x := s.lane n.val
    let y' := stepY x.regs x.regs.oy.toInt
    let e := tapEff true x.regs a b none
    let t := laneDone n 1 e.upd e.fl none s'
    isFar y' = false →
    exec (.tapm (.lane n) p) s =
      .next (t.setLane n.val { t.lane n.val with moves := [⟨x.regs.pc.toNat + 1, y', b⟩] }) := by
  intro x y' e t hy
  obtain ⟨ht, hr, -, hm, hfar⟩ := hs
  have ⟨hs, _, _, hp, hfar₀, hm₀⟩ := h
  have hfl : flushMoves (.lane n) (x.regs.pc.toNat - 1) [] s = s := flushMoves_of_none (.lane n) _ _ hs hm₀
  have hb : (tapmBody (laneCx s n p) x.regs).run s = .ok (tapEff true x.regs a b (some (y', b)), s') :=
    tapmBody_run hf (tapmMove_near b s' rfl hy)
  have hrun : (runOnce ⟨.lane n, p, x.regs.pc.toNat, true⟩ 1 tapmBody).run s = .ok (tapEff true x.regs a b (some (y', b)),
      laneOwing n (tapEff true x.regs a b (some (y', b))) [⟨x.regs.pc.toNat + 1, y', b⟩] s') :=
    (bind_ok (t := s) rfl).trans ((bind_ok hb).trans ((bind_ok (modify_ok (farDue_of_none n.val _ hfar))).trans
      (bind_ok (commit_lane_move ht hm rfl rfl p _ true))))
  show runInstr (.lane n) p _ 1 tapmBody s = _
  rw [runInstr_lane h]
  simp only [runLane, hp, laneReps, farDue_of_none n.val _ hfar₀]
  rw [hfl, hrun]
  exact congrArg _ (lanePc_laneOwing 1 _ _ ht hr)

/-! ### A far Y' (R46, R98) -/

/-- A fault of a lane may ask for SAFE, and leaves the rest of the lane. -/
theorem laneFault_lane (n bit slot : Nat) {s : State} (h : s.tidy = true) :
    ∃ b k, (laneFault n bit slot s).lane n = { s.lane n with safePending := b, safeBy := k } := by
  obtain ⟨t, ht, e⟩ := laneFault_only n bit slot s
  have hl : t.lane n = s.lane n := by unfold State.lane; rw [ht.lanes]
  have hwf : Map.wf {} t.lanes = true := by rw [ht.lanes]; exact ((tidy_iff s).1 h).lanes
  rw [e, askSafe]
  split
  · exact ⟨true, 2, by rw [State.inc, State.wr_lane, State.lane_setLane_self n _ hwf, hl]⟩
  · exact ⟨_, _, hl⟩

theorem sameLane_laneFault {s s' : State} {n : Fin 64} (bit slot : Nat) (h : SameLane s s' n) :
    SameLane s (laneFault n.val bit slot s') n := by
  obtain ⟨ht, hrest⟩ := h
  obtain ⟨b, k, e⟩ := laneFault_lane n.val bit slot ht
  refine ⟨tidy_laneFault n.isLt bit slot ht, ?_⟩
  rw [e]
  exact hrest

theorem exec_tapm_far {s s' : State} {n : Fin 64} {p : Prefix} {a b : Word} (h : LaneTakes s n p { len := 1, guard := true })
    (hf : (tapFactors (laneCx s n p) (s.lane n.val).regs).run s = .ok ((a, b), s')) (hs : SameLane s s' n)
    (hy : isFar (stepY (s.lane n.val).regs (s.lane n.val).regs.oy.toInt) = true) :
    let e := tapEff true (s.lane n.val).regs a b none
    exec (.tapm (.lane n) p) s = .next (laneDone n 1 e.upd e.fl none (laneFault n.val 3 (laneCx s n p).slot s')) :=
  runInstr_lane_done h 1 (tapmBody_run hf (tapmMove_far b s' rfl hy)) (sameLane_laneFault 3 _ hs) rfl rfl

/-! ## TAPM_MOVE_WRITE -/

theorem exec_tapmMoveWrite {s : State} {u : Agent} {m : Move} (h : movesOf s u = [m]) :
    exec (.tapmMoveWrite u) s = .next (flushMoves u m.due [] s) := by
  show execTapmMoveWrite u s = _
  unfold execTapmMoveWrite
  rw [h]

/-- The only move that is owed is due at its own slot, and beside no other write (R99). -/
theorem exec_tapmMoveWrite_lane {s : State} {n : Fin 64} {m : Move} (h : (s.lane n.val).moves = [m]) :
    exec (.tapmMoveWrite (.lane n)) s =
      .next (laneWrite n.val m.due m.addr m.value false (s.setLane n.val { s.lane n.val with moves := [] })) := by
  rw [exec_tapmMoveWrite (u := .lane n) h]
  simp [flushMoves, movesOf, putMoves, h]

/-- A move to the reel pan of its lane. -/
theorem does_tapmMoveWrite_reel {s : State} {n : Fin 64} {m : Move} (ht : s.tidy = true) (h : (s.lane n.val).moves = [m])
    (ha : m.addr.toNat < 0x8000) :
    Does (.tapmMoveWrite (.lane n)) s fun t =>
      (t.lane n.val).moves = [] ∧ t.memWord (n.val * 0x40000 + 4 * m.addr.toNat) = m.value := by
  refine ⟨_, exec_tapmMoveWrite_lane h, ?_⟩
  rw [laneWrite, if_pos ha]
  refine ⟨?_, memWord_setMemWord_self _ _ ((tidy_iff s).1 ht).mem⟩
  rw [State.setMemWord_lane, State.lane_setLane_self n.val _ ((tidy_iff s).1 ht).lanes]

/-- The D space of a core does not turn on the moves that the core owes. -/
theorem coreAddr_putMoves {s : State} {c : Fin 8} (ms : List Move) (write : Bool) (a : DAddr) (ht : s.tidy = true) :
    coreAddr (putMoves (.core c) ms s) c.val write a = coreAddr s c.val write a := by
  unfold coreAddr putMoves
  simp only [State.core_setCore_self c.val _ ((tidy_iff s).1 ht).cores]
  rfl

theorem exec_tapmMoveWrite_core {s : State} {c : Fin 8} {m : Move} {f : Nat} (ht : s.tidy = true) (h : (s.core c.val).moves = [m])
    (ha : coreAddr s c.val true m.addr = .ok f) :
    exec (.tapmMoveWrite (.core c)) s =
      .next (coreWrite c.val [(f, m.value)] (s.setCore c.val { s.core c.val with moves := [] })) := by
  have hto : coreAddr (s.setCore c.val { s.core c.val with moves := [] }) c.val true m.addr = .ok f :=
    (coreAddr_putMoves [] true m.addr ht).trans ha
  rw [exec_tapmMoveWrite (u := .core c) h]
  simp [flushMoves, movesOf, putMoves, h, hto]

/-- Settles O4: TAP and TAPM from what their bodies give of the two words, the owed move from the flush of the moves due. -/
theorem taps : Obligations.Taps :=
  ⟨fun _ _ _ _ _ _ h hf hs => exec_tap_core h hf hs, fun _ _ _ _ _ _ _ h hf hs => exec_tapm_core h hf hs,
    fun _ _ _ _ _ _ h hf hs => exec_tap_lane h hf hs, fun _ _ _ _ _ _ h hf hs => exec_tapm_lane h hf hs,
    fun _ _ _ _ _ _ h hf hs hy => exec_tapm_far h hf hs hy, fun _ _ _ _ h => exec_tapmMoveWrite_lane h,
    fun _ _ _ ht h ha => does_tapmMoveWrite_reel ht h ha, fun _ _ _ _ ht h ha => exec_tapmMoveWrite_core ht h ha⟩

end Sys2Proof.Machine
end

section
/-! Repetition (R81, R89): an operation on A under REP on a core and on a lane, and TAP under REP down two arrays of a reel pan. -/

namespace Sys2Proof.Machine
open Sys2Proof Sys2Proof.Claims

/-! ## The flags that repetition keeps (R66) -/

theorem getLsbD_putF_self {f : BitVec 16} {k : Nat} (hk : k < 16) (b : Bool) : (putF f k b).getLsbD k = b := by
  have hbit : (BitVec.ofNat 16 (2 ^ k)).getLsbD k = true := by
    rw [BitVec.getLsbD_ofNat, Nat.testBit_two_pow_self, Bool.and_true, decide_eq_true hk]
  cases b
  · simp only [putF, Bool.false_eq_true, if_false, BitVec.getLsbD_and, BitVec.getLsbD_not, hbit, Bool.not_true, Bool.and_false]
  · simp only [putF, if_true, BitVec.getLsbD_or, hbit, Bool.or_true]

/-- Of the bits of F above V an instruction sets SV and DZ alone. -/
theorem getLsbD_apply (x : FlagSet) (f : BitVec 16) {i : Nat} (h : 3 < i) :
    (x.apply f).getLsbD i = (f.getLsbD i || (x.sv && i == 4) || (x.dz && i == 5)) := by
  have hput : (putOpt (putOpt (putOpt (putOpt f 0 x.z) 1 x.n) 2 x.c) 3 x.v).getLsbD i = f.getLsbD i := by
    rw [getLsbD_putOpt _ _ (by omega), getLsbD_putOpt _ _ (by omega), getLsbD_putOpt _ _ (by omega), getLsbD_putOpt _ _ (by omega)]
  have hset : ∀ (g : BitVec 16) (k : Nat), k < 16 → (putF g k true).getLsbD i = (g.getLsbD i || i == k) := by
    intro g k hk
    by_cases hi : i = k
    · rw [hi, getLsbD_putF_self hk, beq_self_eq_true, Bool.or_true]
    · rw [getLsbD_putF g true hi, beq_eq_false_iff_ne.2 hi, Bool.or_false]
  unfold FlagSet.apply
  cases x.sv <;> cases x.dz <;>
    simp only [Bool.false_eq_true, if_false, if_true, hset _ _ (show 4 < 16 by omega), hset _ _ (show 5 < 16 by omega), hput,
      Bool.false_and, Bool.true_and, Bool.or_false]

/-- SV stands where it is set again. -/
theorem putF_of_getLsbD {f : BitVec 16} {k : Nat} (h : f.getLsbD k = true) : putF f k true = f := by
  refine BitVec.eq_of_getLsbD_eq fun i _ => ?_
  by_cases hi : i = k
  · rw [hi, getLsbD_putF_self (BitVec.lt_of_getLsbD h), h]
  · exact getLsbD_putF f true hi

/-! ## Operations on A under REP -/

/-- `j` repetitions of an operation on A, from the registers `r`. -/
def ownRun (g : Acc → (Acc → Acc) × FlagSet) (r : Regs) (j : Nat) : Acc × BitVec 16 × Bool :=
  Nat.repeat (repOwn g) j (r.a, r.f, false)

/-- The registers `r` with A and F of a repetition. -/
def withAF (r : Regs) (y : Acc × BitVec 16 × Bool) : Regs := { r with a := y.1, f := y.2.1 }

/-- No repetition changes SM. -/
theorem ownRun_sm (g : Acc → (Acc → Acc) × FlagSet) (r : Regs) (j : Nat) : (ownRun g r j).2.1.getLsbD 8 = r.f.getLsbD 8 := by
  induction j with
  | zero => rfl
  | succ j ih =>
    refine (getLsbD_apply _ _ (by omega)).trans ?_
    simp only [Nat.reduceBEq, Bool.and_false, Bool.or_false]
    exact ih

/-- Where a repetition saturated SV is set. -/
theorem ownRun_sv (g : Acc → (Acc → Acc) × FlagSet) (r : Regs) (j : Nat) (h : (ownRun g r j).2.2 = true) :
    (ownRun g r j).2.1.getLsbD 4 = true := by
  induction j with
  | zero => cases h
  | succ j ih =>
    refine (getLsbD_apply _ _ (by omega)).trans ?_
    rcases Bool.or_eq_true_iff.1 h with h | h
    · rw [show (Nat.repeat (repOwn g) j (r.a, r.f, false)).2.1.getLsbD 4 = true from ih h, Bool.true_or, Bool.true_or]
    · rw [h, beq_self_eq_true, Bool.and_self, Bool.or_true, Bool.true_or]

/-! ### On a core -/

/-- The core with A and F of a repetition, and no load owed. -/
def coreAF (c : Fin 8) (y : Acc × BitVec 16 × Bool) (s : State) : State :=
  s.setCore c.val { s.core c.val with regs := withAF (s.core c.val).regs y, delayed := none }

theorem coreAF_start {s : State} {c : Fin 8} (g : Acc → (Acc → Acc) × FlagSet) (ht : s.tidy = true)
    (hd : (s.core c.val).delayed = none) : coreAF c (ownRun g (s.core c.val).regs 0) s = s := by
  have hx : { s.core c.val with regs := withAF (s.core c.val).regs (ownRun g (s.core c.val).regs 0), delayed := none } =
      s.core c.val := by rw [← hd]; rfl
  rw [coreAF, hx]
  exact State.core_setCore_get c.val ((tidy_iff s).1 ht).cores

section
variable {s : State} {c : Fin 8} (ht : s.tidy = true)
include ht

theorem coreAF_core (y : Acc × BitVec 16 × Bool) :
    (coreAF c y s).core c.val = { s.core c.val with regs := withAF (s.core c.val).regs y, delayed := none } :=
  State.core_setCore_self c.val _ ((tidy_iff s).1 ht).cores

theorem coreAF_setCore (y : Acc × BitVec 16 × Bool) (x : Core) : (coreAF c y s).setCore c.val x = s.setCore c.val x :=
  State.setCore_core_twice c.val _ x ((tidy_iff s).1 ht).cores

/-- A core that goes on behind its repetitions. -/
theorem coreFinish_coreAF (len : Nat) {e : Eff} (y : Acc × BitVec 16 × Bool) (hl : ictlLpe (s.core c.val) = false)
    (hd : (s.core c.val).delayed = none) (hdest : e.dest = none) (hmv : e.move = none) (hload : e.load = none) :
    coreFinish c len e (coreAF c y s) = coreDone c len (fun t => { t with a := y.1, f := y.2.1 }) {} none s := by
  unfold ictlLpe at hl
  simp only [coreFinish, coreAF_core ht, coreAF_setCore ht, coreDone, hdest, hmv, hload, hd, landUnder_none, apply_noFlags, ictlLpe,
    hl, Bool.not_false, Bool.or_true, if_true, Option.isSome_none, Bool.or_false, withAF]

theorem landNow_coreAF (y : Acc × BitVec 16 × Bool) : landNow (.core c) (coreAF c y s) = coreAF c y s := by
  have hc := ((tidy_iff s).1 ht).cores
  simp only [landNow, putDelayed, putRegs, delayedOf, regsOf, coreAF_core ht, coreAF_setCore ht, landLoad,
    State.core_setCore_self c.val _ hc, State.setCore_core_twice c.val _ _ hc]
  rfl

theorem committed_coreAF (g : Acc → (Acc → Acc) × FlagSet) (y : Acc × BitVec 16 × Bool) :
    committed c (ownEff g (withAF (s.core c.val).regs y)) (coreAF c y s) = coreAF c (repOwn g y) s := by
  simp only [committed, coreAF_core ht, coreAF_setCore ht, landUnder_none]
  rfl

variable (hm : (s.core c.val).moves = [])
include hm

/-- One repetition. -/
theorem runOnce_own_core (f : Bool → Acc → (Acc → Acc) × FlagSet) (y : Acc × BitVec 16 × Bool) (p : Prefix) (slot : Nat)
    (sat : Bool) : (runOnce ⟨.core c, p, slot, sat⟩ 1 (ownBody f)).run (coreAF c y s) =
      .ok (ownEff (f sat) (withAF (s.core c.val).regs y), coreAF c (repOwn (f sat) y) s) := by
  have hx := coreAF_core (c := c) ht y
  have hb : (ownBody f ⟨.core c, p, slot, sat⟩ (regsOf (coreAF c y s) (.core c))).run (coreAF c y s) =
      .ok (ownEff (f sat) (withAF (s.core c.val).regs y), coreAF c y s) := by
    simp only [regsOf, hx]
    rfl
  rw [← committed_coreAF ht]
  exact (bind_ok (t := coreAF c y s) rfl).trans ((bind_ok hb).trans ((bind_ok (t := coreAF c y s) rfl).trans
    (bind_ok (commit_core (tidy_setCore _ _ ht) ((congrArg Core.moves hx).trans hm) rfl rfl p slot sat))))

/-- The repetitions from one on. -/
theorem coreReps_step (f : Bool → Acc → (Acc → Acc) × FlagSet) (p : Prefix) (k done : Nat) {y : Acc × BitVec 16 × Bool} {sat : Bool}
    (hsat : saturates (.core c) p (withAF (s.core c.val).regs y) = sat) :
    coreReps c p (ownBody f) (k + 1) done none (coreAF c y s) =
      if k = 0 then (coreAF c (repOwn (f sat) y) s, .ok (none, ownEff (f sat) (withAF (s.core c.val).regs y)))
      else coreReps c p (ownBody f) k (done + 1) none (coreAF c (repOwn (f sat) y) s) := by
  have hdz : (ownEff (f sat) (withAF (s.core c.val).regs y)).dz = false := rfl
  conv_lhs => unfold coreReps
  simp only [coreAF_core ht, hsat, runOnce_own_core ht hm f, landNow_coreAF ht, hdz, Bool.false_and, Bool.false_eq_true, if_false]

/-- The repetitions of an operation on A, from the `j`th on. -/
theorem coreReps_own (f : Bool → Acc → (Acc → Acc) × FlagSet) (p : Prefix) (k j done : Nat) {sat : Bool}
    (hsat : saturates (.core c) p (s.core c.val).regs = sat) :
    coreReps c p (ownBody f) (k + 1) done none (coreAF c (ownRun (f sat) (s.core c.val).regs j) s) =
      (coreAF c (ownRun (f sat) (s.core c.val).regs (j + k + 1)) s,
        .ok (none, ownEff (f sat) (withAF (s.core c.val).regs (ownRun (f sat) (s.core c.val).regs (j + k))))) := by
  have hrun (j : Nat) : saturates (.core c) p (withAF (s.core c.val).regs (ownRun (f sat) (s.core c.val).regs j)) = sat := by
    rw [← hsat]
    simp only [saturates, withAF, ownRun_sm]
  induction k generalizing j done with
  | zero => rw [coreReps_step ht hm f p 0 done (hrun j), if_pos rfl]; rfl
  | succ k ih =>
    have h := ih (j + 1) (done + 1)
    rw [Nat.add_right_comm j 1 k, Nat.add_assoc j k 1] at h
    rw [coreReps_step ht hm f p (k + 1) done (hrun j), if_neg (Nat.succ_ne_zero k)]
    exact h

end

theorem exec_rep_core {i : Instr} {c : Fin 8} {p : Prefix} {b : Byte} {sh : Shape} {f : Bool → Acc → (Acc → Acc) × FlagSet}
    {s : State} (hi : ownOp i = some (.core c, p, sh, f)) (hp : p.rep = some b) (ht : s.tidy = true) (hr : coreRuns s c.val = true)
    (hu : undefReason (.core c) p sh = none) (hlo : iImplemented (s.core c.val).regs.pc.toNat = true)
    (hhi : iImplemented ((s.core c.val).regs.pc.toNat + decodedLen p sh - 1) = true) (hm : (s.core c.val).moves = [])
    (hl : ictlLpe (s.core c.val) = false) (hd : (s.core c.val).delayed = none) :
    let x := s.core c.val
    let y := Nat.repeat (repOwn (f (coreCx s c p).sat)) (b.toNat + 1) (x.regs.a, x.regs.f, false)
    exec i s = .next (coreDone c (decodedLen p sh) (fun t => { t with a := y.1, f := y.2.1 }) {} none s) := by
  intro x y
  have hreps := coreReps_own ht hm f p b.toNat 0 0 rfl
  rw [coreAF_start _ ht hd, Nat.zero_add] at hreps
  have hrun : runInstr (.core c) p sh 1 (ownBody f) s = .next (runCore c p (decodedLen p sh) (ownBody f) s) := by
    simp [runInstr, hr, hu, hlo, hhi]
  rw [exec_ownBody hi, hrun]
  simp only [runCore, hp, hreps]
  rw [coreFinish_coreAF ht _ _ hl hd rfl rfl rfl]
  rfl

/-! ### On a lane -/

/-- What a repetition that gives `e` makes of the registers, and whether one has saturated. -/
def repRegs (e : Eff) (x : Regs × Bool) : Regs × Bool :=
  ({ e.upd x.1 with f := e.fl.apply (e.upd x.1).f }, x.2 || e.fl.sv)

/-- The lane with the registers of a repetition and no load owed, its take counted where one has saturated. -/
def laneAt (n : Fin 64) (x : Regs × Bool) (s : State) : State :=
  let l := s.lane n.val
  countSat n.val (x.2 && !l.satTaken) (s.setLane n.val { l with regs := x.1, delayed := none, satTaken := l.satTaken || x.2 })

theorem laneAt_mem (n : Fin 64) (x : Regs × Bool) (s : State) : (laneAt n x s).mem = s.mem := countSat_mem n.val _ _

theorem laneAt_start {s : State} {n : Fin 64} (ht : s.tidy = true) (hd : (s.lane n.val).delayed = none) :
    laneAt n ((s.lane n.val).regs, false) s = s := by
  have hx : { s.lane n.val with delayed := none, satTaken := (s.lane n.val).satTaken || false } = s.lane n.val := by
    rw [← hd, Bool.or_false]
  simp only [laneAt, hx, Bool.false_and]
  exact State.lane_setLane_get n.val ((tidy_iff s).1 ht).lanes

/-- Counts of a take that saturates, one by one: the first that saturates counts. -/
theorem countSat_twice (n : Nat) (a b taken : Bool) (s : State) :
    countSat n (b && !(taken || a)) (countSat n (a && !taken) s) = countSat n ((a || b) && !taken) s := by
  cases a <;> cases b <;> cases taken <;> rfl

section
variable {s : State} {n : Fin 64} (ht : s.tidy = true)
include ht

theorem tidy_laneAt (x : Regs × Bool) : (laneAt n x s).tidy = true := tidy_countSat _ _ (tidy_setLane _ _ ht)

theorem laneAt_lane (x : Regs × Bool) : (laneAt n x s).lane n.val =
    { s.lane n.val with regs := x.1, delayed := none, satTaken := (s.lane n.val).satTaken || x.2 } := by
  rw [laneAt, countSat_lane, State.lane_setLane_self n.val _ ((tidy_iff s).1 ht).lanes]

theorem laneAt_setLane (x : Regs × Bool) (l : Lane) :
    (laneAt n x s).setLane n.val l = countSat n.val (x.2 && !(s.lane n.val).satTaken) (s.setLane n.val l) := by
  rw [laneAt, countSat_setLane, State.setLane_lane_twice n.val _ _ ((tidy_iff s).1 ht).lanes]

theorem lanePc_laneAt (pc : Nat) (x : Regs × Bool) :
    lanePc n.val pc (laneAt n x s) = laneAt n ({ x.1 with pc := BitVec.ofNat 20 pc }, x.2) s := by
  rw [laneAt, lanePc_countSat _ _ _ _ ht, laneAt]

theorem laneCommitted_laneAt {e : Eff} (x : Regs × Bool) (hload : e.load = none) :
    laneCommitted n e (laneAt n x s) = laneAt n (repRegs e x) s := by
  simp only [laneCommitted, noteSat_setLane n _ _ (tidy_laneAt ht x), laneAt_lane ht]
  simp only [laneAt_setLane ht, hload, landUnder_none, countSat_twice, Bool.or_assoc]
  rfl

theorem landNow_laneAt (x : Regs × Bool) : landNow (.lane n) (laneAt n x s) = laneAt n x s := by
  have hl := ((tidy_iff s).1 ht).lanes
  simp only [landNow, putDelayed, putRegs, delayedOf, regsOf, laneAt_lane ht, laneAt_setLane ht, landLoad, countSat_lane,
    countSat_setLane, State.lane_setLane_self n.val _ hl, State.setLane_lane_twice n.val _ _ hl]
  rfl

variable (hm : (s.lane n.val).moves = []) (hfar : (s.lane n.val).far = [])
include hm hfar

/-- One repetition, whose body gives `e` of the registers `x`. -/
theorem runOnce_laneAt {p : Prefix} {slot : Nat} {body : Cx → Regs → Hv Eff} {e : Eff} (x : Regs × Bool)
    (hb : (body ⟨.lane n, p, slot, true⟩ x.1).run (laneAt n x s) = .ok (e, laneAt n x s)) (hw : e.writes = []) (hmv : e.move = none)
    (hload : e.load = none) :
    (runOnce ⟨.lane n, p, slot, true⟩ 1 body).run (laneAt n x s) = .ok (e, laneAt n (repRegs e x) s) := by
  have hx := laneAt_lane (n := n) ht x
  have hregs : (body ⟨.lane n, p, slot, true⟩ (regsOf (laneAt n x s) (.lane n))).run (laneAt n x s) = .ok (e, laneAt n x s) := by
    simp only [regsOf, hx]
    exact hb
  rw [← laneCommitted_laneAt ht x hload]
  exact (bind_ok (t := laneAt n x s) rfl).trans ((bind_ok hregs).trans
    ((bind_ok (modify_ok (farDue_of_none n.val _ (by rw [hx]; exact hfar)))).trans
      (bind_ok (commit_lane (tidy_laneAt ht x) (by rw [hx]; exact hm) hw hmv p slot true))))

/-- Repetitions through the registers `x j`, whose bodies give `e j`. -/
theorem laneReps_laneAt {p : Prefix} {body : Cx → Regs → Hv Eff} {x : Nat → Regs × Bool} {e : Nat → Eff} (k j slot : Nat)
    (hb : ∀ i, i < j + k → ∀ slot, (body ⟨.lane n, p, slot, true⟩ (x i).1).run (laneAt n (x i) s) = .ok (e i, laneAt n (x i) s))
    (hw : ∀ i, (e i).writes = []) (hmv : ∀ i, (e i).move = none) (hload : ∀ i, (e i).load = none)
    (hx : ∀ i, x (i + 1) = repRegs (e i) (x i)) :
    laneReps (.lane n) p 1 body k slot (laneAt n (x j) s) = laneAt n (x (j + k)) s := by
  induction k generalizing j slot with
  | zero => rfl
  | succ k ih =>
    have hl := laneAt_lane (n := n) ht (x j)
    have hfl : flushMoves (.lane n) (slot - 1) [] (laneAt n (x j) s) = laneAt n (x j) s :=
      flushMoves_of_none (.lane n) _ _ (tidy_laneAt ht _) (by show ((laneAt n (x j) s).lane n.val).moves = []; rw [hl]; exact hm)
    have hrun := runOnce_laneAt ht hm hfar (x j) (hb j (by omega) slot) (hw j) (hmv j) (hload j)
    rw [← hx] at hrun
    unfold laneReps
    simp only [farDue_of_none n.val _ (show ((laneAt n (x j) s).lane n.val).far = [] by rw [hl]; exact hfar), hfl, hrun,
      landNow_laneAt ht, ite_self]
    rw [ih (j + 1) (slot + 1) (fun i hi => hb i (by omega)), Nat.add_right_comm, Nat.add_assoc]

/-- An instruction under REP on a lane to which nothing is owed. -/
theorem runInstr_laneAt {p : Prefix} {b : Byte} {sh : Shape} {body : Cx → Regs → Hv Eff} {x : Nat → Regs × Bool} {e : Nat → Eff}
    (hp : p.rep = some b) (hr : laneRuns s n.val = true) (hu : undefReason (.lane n) p sh = none)
    (hd : (s.lane n.val).delayed = none) (hx0 : x 0 = ((s.lane n.val).regs, false))
    (hb : ∀ i, i ≤ b.toNat → ∀ slot, (body ⟨.lane n, p, slot, true⟩ (x i).1).run (laneAt n (x i) s) = .ok (e i, laneAt n (x i) s))
    (hw : ∀ i, (e i).writes = []) (hmv : ∀ i, (e i).move = none) (hload : ∀ i, (e i).load = none)
    (hx : ∀ i, x (i + 1) = repRegs (e i) (x i)) :
    runInstr (.lane n) p sh 1 body s = .next (laneAt n ({ (x (b.toNat + 1)).1 with
      pc := BitVec.ofNat 20 ((s.lane n.val).regs.pc.toNat + (b.toNat + 1)) }, (x (b.toNat + 1)).2) s) := by
  have hreps := laneReps_laneAt ht hm hfar (b.toNat + 1) 0 (s.lane n.val).regs.pc.toNat (fun i hi => hb i (by omega))
    hw hmv hload hx
  rw [hx0, laneAt_start ht hd, Nat.zero_add] at hreps
  have hrun : runInstr (.lane n) p sh 1 body s = .next (runLane n p 1 body s) := by simp [runInstr, hr, hu]
  simp only [hrun, runLane, hp, hreps, lanePc_laneAt ht, Nat.mul_one]

end

/-- The registers of a lane behind `j` repetitions of an operation on A, and whether one has saturated. -/
def ownLaneRun (g : Acc → (Acc → Acc) × FlagSet) (r : Regs) (j : Nat) : Regs × Bool := (withAF r (ownRun g r j), (ownRun g r j).2.2)

theorem exec_rep_lane {i : Instr} {n : Fin 64} {p : Prefix} {b : Byte} {sh : Shape} {f : Bool → Acc → (Acc → Acc) × FlagSet}
    {s : State} (hi : ownOp i = some (.lane n, p, sh, f)) (hp : p.rep = some b) (ht : s.tidy = true) (hr : laneRuns s n.val = true)
    (hu : undefReason (.lane n) p sh = none) (hfar : (s.lane n.val).far = []) (hm : (s.lane n.val).moves = [])
    (hd : (s.lane n.val).delayed = none) :
    let l := s.lane n.val
    let y := Nat.repeat (repOwn (f true)) (b.toNat + 1) (l.regs.a, l.regs.f, false)
    exec i s = .next (laneDone n (b.toNat + 1) (fun t => { t with a := y.1, f := y.2.1 }) { sv := y.2.2 } none s) := by
  intro l y
  have hsv : ({ sv := y.2.2 } : FlagSet).apply y.2.1 = y.2.1 := by
    have h := ownRun_sv (f true) l.regs (b.toNat + 1)
    cases hy : y.2.2 with
    | false => rfl
    | true => exact putF_of_getLsbD (h hy)
  have hreps := runInstr_laneAt (body := ownBody f) (x := ownLaneRun (f true) l.regs)
    (e := fun j => ownEff (f true) (ownLaneRun (f true) l.regs j).1)
    ht hm hfar hp hr hu hd rfl (fun _ _ _ => rfl) (fun _ => rfl) (fun _ => rfl) (fun _ => rfl) (fun _ => rfl)
  have hdone : laneDone n (b.toNat + 1) (fun t => { t with a := y.1, f := y.2.1 }) { sv := y.2.2 } none s =
      laneAt n ({ withAF l.regs y with pc := BitVec.ofNat 20 (l.regs.pc.toNat + (b.toNat + 1)) }, y.2.2) s := by
    simp only [laneDone, hd, landUnder_none, hsv]
    rfl
  rw [exec_ownBody hi, hreps, hdone]
  rfl

/-! ## TAP under REP (R89, R98) -/

/-- A read of the reel pan of a lane (R42). -/
theorem dRead_reel {cx : Cx} {n : Fin 64} {a : DAddr} (s : State) (hu : cx.u = .lane n) (ha : a.toNat < 0x8000) :
    (dRead cx a).run s = .ok (s.memWord (n.val * 0x40000 + 4 * a.toNat), s) := by
  simp only [StateT.run, dRead, hu, laneRead, if_pos ha]

/-- The two words of TAP, without GUARD, where both lie in the reel pan. -/
theorem tapFactors_reel {cx : Cx} {n : Fin 64} {r : Regs} (s : State) (hu : cx.u = .lane n) (hg : cx.p.guard = false)
    (hx : r.x.toNat < 0x8000) (hy : r.y.toNat < 0x8000) :
    (tapFactors cx r).run s =
      .ok ((s.memWord (n.val * 0x40000 + 4 * r.x.toNat), s.memWord (n.val * 0x40000 + 4 * r.y.toNat)), s) := by
  have hX : (dOperand cx false r.x (stepX r 1)).run s = .ok (s.memWord (n.val * 0x40000 + 4 * r.x.toNat), s) :=
    (bind_ok (dRead_reel s hu hx)).trans rfl
  have hY := dRead_reel s hu hy
  unfold tapFactors
  rw [hg]
  dsimp only
  split
  · exact (bind_ok hX).trans ((bind_ok hY).trans rfl)
  · exact (bind_ok hY).trans ((bind_ok hX).trans rfl)

/-- What a TAP on lane `n` gives of the words of its reel pan at X and Y. -/
def reelTapEff (s : State) (n : Fin 64) (r : Regs) : Eff :=
  tapEff true r (s.memWord (n.val * 0x40000 + 4 * r.x.toNat)) (s.memWord (n.val * 0x40000 + 4 * r.y.toNat)) none

theorem exec_rep_tap {n : Fin 64} {p : Prefix} {b : Byte} {s : State} (hp : p.rep = some b) (hg : p.guard = false)
    (ht : s.tidy = true) (hr : laneRuns s n.val = true) (hu : undefReason (.lane n) p { len := 1, guard := true } = none)
    (hfar : (s.lane n.val).far = []) (hm : (s.lane n.val).moves = []) (hd : (s.lane n.val).delayed = none) :
    let at' := fun k : Nat => Nat.repeat (repTap s n) k ((s.lane n.val).regs, false)
    (∀ k ≤ b.toNat, (at' k).1.x.toNat < 0x8000 ∧ (at' k).1.y.toNat < 0x8000) →
    exec (.tap (.lane n) p) s = .next (laneAt n ({ (at' (b.toNat + 1)).1 with
      pc := BitVec.ofNat 20 ((s.lane n.val).regs.pc.toNat + (b.toNat + 1)) }, (at' (b.toNat + 1)).2) s) := by
  intro at' hreel
  refine runInstr_laneAt (x := at') (e := fun k => reelTapEff s n (at' k).1) ht hm hfar hp hr hu hd rfl (fun k hk slot => ?_)
    (fun _ => rfl) (fun _ => rfl) (fun _ => rfl) (fun _ => rfl)
  obtain ⟨hx, hy⟩ := hreel k hk
  have hmem : ∀ a, (laneAt n (at' k) s).memWord a = s.memWord a := fun a => by rw [State.memWord, laneAt_mem]; rfl
  have h := tapBody_run (tapFactors_reel (cx := ⟨.lane n, p, slot, true⟩) (laneAt n (at' k) s) rfl hg hx hy)
  rw [hmem, hmem] at h
  exact h

theorem repetitions : Repetitions := by
  refine ⟨fun _ _ _ _ _ _ _ hi hp ht hr hu hlo hhi hm hl hd => exec_rep_core hi hp ht hr hu hlo hhi hm hl hd,
    fun _ _ _ _ _ _ _ hi hp ht hr hu hfar hm hd => exec_rep_lane hi hp ht hr hu hfar hm hd, ?_⟩
  intro n p b s hp hg ht hr hu hfar hm hd at' hreel
  refine ⟨_, exec_rep_tap hp hg ht hr hu hfar hm hd hreel, laneAt_mem _ _ _, ?_⟩
  rw [laneAt_lane ht]
  exact ⟨rfl, rfl⟩

/-- Settles O35: each operation from what its body gives of A; under REP by induction on the repetitions, of which each leaves the
unit as the one before left it but for A, F and, for TAP, the indices. -/
theorem accumulatorOps : Obligations.AccumulatorOps := ⟨ownOps, compareAndNop, repetitions⟩

end Sys2Proof.Machine
end

section
/-! The splice word and its write (R109, R292), and the requests that it makes (R110, R113). -/

namespace Sys2Proof.Machine
open Sys2Proof Sys2Proof.Claims

/-! ## The splice word and its write (R109, R292) -/

/-- The bytes of a number spell it (R8). -/
theorem ofLe_leBytes {n v : Nat} (hv : v < 256 ^ n) : ofLe (leBytes n v) = v := by
  induction n generalizing v with
  | zero => simp at hv; simp [leBytes, ofLe, hv]
  | succ n ih =>
    have hq : v / 256 < 256 ^ n := by rw [Nat.pow_succ] at hv; omega
    simp only [leBytes, ofLe, BitVec.toNat_ofNat, ih hq]
    omega

theorem guardVal_guardOf {v : Nat} (hv : v < 2 ^ 32) : guardVal (guardOf v) = v := by
  unfold guardVal guardOf
  omega

theorem guardGood_guardOf {v : Nat} (hv : v < 2 ^ 32) : guardGood (guardOf v) = true := by
  simp only [guardGood, guardOf, beq_iff_eq]
  omega

/-- What a splice word says: its command, its mode, whether it flips at the staged slate, and its sequence number. -/
theorem splWord_fields {cmd mode : Nat} (hc : cmd < 16) (hm : mode < 4) (seq : BitVec 16) (at' : Bool) :
    let v := splWord seq cmd at' mode
    v < 2 ^ 32 ∧ v / 16 % 16 = cmd ∧ v % 4 = mode ∧ v / 2 ^ 16 = seq.toNat ∧ v.testBit 2 = at' := by
  have hs := seq.isLt
  cases at' <;> simp only [splWord, Nat.testBit_eq_decide_div_mod_eq, decide_eq_true_eq, decide_eq_false_iff_not,
    Bool.false_eq_true, if_true, if_false] <;> omega

/-- Where the staged masks are good pairs, a splice word is the request or the cancel that it names. -/
theorem writeSplCtrl_word {cmd mode k : Nat} {s : State} (hc : cmd = 1 ∨ cmd = 2) (hm : mode < 2) (seq : BitVec 16) (at' : Bool)
    (hlo : guardGood (s.rd (Obj.splMaskLo k)) = true) (hhi : guardGood (s.rd (Obj.splMaskHi k)) = true) :
    writeSplCtrl k (guardOf (splWord seq cmd at' mode)) s =
      if cmd = 2 then spliceCancelMask k s else spliceRequest k seq.toNat at' (mode == 1) s := by
  obtain ⟨hv, hcmd, hmode, hseq, hat⟩ := splWord_fields (cmd := cmd) (mode := mode) (by omega) (by omega) seq at'
  have hnamed : ¬((cmd ≠ 1 ∧ cmd ≠ 2) ∨ 2 ≤ mode) := by omega
  simp only [writeSplCtrl, guardVal_guardOf hv, guardGood_guardOf hv, hcmd, hmode, hseq, hat, hlo, hhi, if_neg hnamed,
    Bool.not_true, Bool.or_false, Bool.false_eq_true, if_false]

theorem length_leBytes (n v : Nat) : (leBytes n v).length = n := by
  induction n generalizing v with
  | zero => rfl
  | succ n ih => simp only [leBytes, List.length_cons, ih]

/-- SPL_CTRL: a pair that may be written. -/
def splRow : ObjRow := ⟨0x2800, 1, 1, 4, 1, .guard32, .wo, 18446744069414584320, .custom⟩

theorem splRow_parts : splRow.acc = .wo ∧ splRow.type = .guard32 ∧ splRow.dom = .custom := ⟨rfl, rfl, rfl⟩

theorem lookup_splCtrl : lookup 0x2800 4 = .ok splRow := by decide +kernel

theorem command_splCtrl (p item v : Nat) (data : List Byte) (s : State) :
    command p item 0x2800 4 v data s = some (writeSplCtrl p v s) := by
  simp [command, command0]

theorem dropReserved_splCtrl (v : Nat) : dropReserved splRow 0x2800 4 v = v := by
  simp [dropReserved, splRow]

/-- A write of a pair to SPL_CTRL reaches the splice control, which checks the pair itself (R109). -/
theorem dictWrite_splCtrl {p pair : Nat} {s : State} (hs : s.service.bist = none) (hp : pair < 2 ^ 64) :
    dictWrite p 0x2800 4 (leBytes 8 pair) s = writeSplCtrl p pair s := by
  have hlen : lengthAbort splRow 0x2800 4 (leBytes 8 pair) = abNone := by
    unfold lengthAbort
    rw [length_leBytes]
    rfl
  obtain ⟨hacc, hty, hdom⟩ := splRow_parts
  simp [dictWrite, lookup_splCtrl, hacc, hty, hlen, ofLe_leBytes (n := 8) hp, writeValue, domGood, hdom, dropReserved_splCtrl,
    command_splCtrl, bistRefuses_of_none _ _ _ _ hs]

/-- A write of a pair to SPL_CTRL is answered with what the splice control answers. -/
theorem writeNat_splCtrl {p : Path} {pair : Nat} {s : State} (hs : Ready s) (hp : pair < 2 ^ 64) :
    writeNat p 0x2800 4 8 pair s = answer (pathCode p) (0x2800 * 256 + 4) (writeSplCtrl (pathCode p) pair s).2 []
      (writeSplCtrl (pathCode p) pair s).1 := by
  simp only [writeNat, writeObject, hs.2.1, serveLink_of_ready hs, dictWrite_splCtrl hs.2.2.1 hp, Bool.not_true,
    Bool.false_eq_true, if_false]

section
variable {p : Path} {s : State} (hs : Ready s) (hlo : guardGood (s.rd (Obj.splMaskLo (pathCode p))) = true)
  (hhi : guardGood (s.rd (Obj.splMaskHi (pathCode p))) = true)
include hs hlo hhi

/-- The write of a splice word, as what the request or cancel that it names answers. -/
theorem writeNat_splWord {cmd mode : Nat} (hc : cmd = 1 ∨ cmd = 2) (hm : mode < 2) (seq : BitVec 16) (at' : Bool) :
    writeNat p 0x2800 4 8 (guardOf (splWord seq cmd at' mode)) s =
      let x := if cmd = 2 then spliceCancelMask (pathCode p) s else spliceRequest (pathCode p) seq.toNat at' (mode == 1) s
      answer (pathCode p) (0x2800 * 256 + 4) x.2 [] x.1 := by
  obtain ⟨hv, -⟩ := splWord_fields (cmd := cmd) (mode := mode) (by omega) (by omega) seq at'
  rw [writeNat_splCtrl hs (by unfold guardOf; omega), writeSplCtrl_word hc hm seq at' hlo hhi]

theorem exec_spliceRequestFlipOnly (seq : BitVec 16) (at' : Bool) :
    exec (.spliceRequestFlipOnly p seq at') s = .next (answer (pathCode p) (0x2800 * 256 + 4)
      (spliceRequest (pathCode p) seq.toNat at' false s).2 [] (spliceRequest (pathCode p) seq.toNat at' false s).1) :=
  congrArg Host.Outcome.next (writeNat_splWord hs hlo hhi (cmd := 1) (mode := 0) (.inl rfl) (by omega) seq at')

theorem exec_spliceRequestFlipAndCopy (seq : BitVec 16) (at' : Bool) :
    exec (.spliceRequestFlipAndCopy p seq at') s = .next (answer (pathCode p) (0x2800 * 256 + 4)
      (spliceRequest (pathCode p) seq.toNat at' true s).2 [] (spliceRequest (pathCode p) seq.toNat at' true s).1) :=
  congrArg Host.Outcome.next (writeNat_splWord hs hlo hhi (cmd := 1) (mode := 1) (.inl rfl) (by omega) seq at')

theorem exec_spliceCancel (seq : BitVec 16) :
    exec (.spliceCancel p seq) s = .next (answer (pathCode p) (0x2800 * 256 + 4)
      (spliceCancelMask (pathCode p) s).2 [] (spliceCancelMask (pathCode p) s).1) :=
  congrArg Host.Outcome.next (writeNat_splWord hs hlo hhi (cmd := 2) (mode := 0) (.inr rfl) (by omega) seq false)

end

/-! ## Requests (R110, R113) -/

/-- A request joins the others. -/
def withSplice (r : Splice) (s : State) : State := { s with splices := s.splices ++ [r], spliceIds := s.spliceIds + 1 }

/-- The request that path `p` makes of its staged mask and slate. -/
def requestOf (p : Nat) (seq : BitVec 16) (at' copy : Bool) (s : State) : Splice :=
  { id := s.spliceIds, seq := seq, slate := if at' then some (BitVec.ofNat 64 (s.rd (Obj.splSlate p))) else none
    late := at' && decide ((BitVec.ofNat 64 (s.rd (Obj.splSlate p))).toNat < s.slate.toNat), copy := copy
    waiting := maskLanes s p, copying := [], removed := false, first := none, accepted := s.slate }

/-- The registers in which a path finds the answer to its splice word. -/
def splAnswer (p handle : Nat) (s : State) : State := (s.wr (Obj.splResult p) 0).wr (Obj.splHandle p) handle

theorem spliceAccept_flip (p : Nat) (seq : BitVec 16) (at' : Bool) (s : State) :
    spliceAccept p seq.toNat at' false s = splAnswer p 0 (withSplice (requestOf p seq at' false s) s) := by
  simp only [spliceAccept, BitVec.ofNat_toNat, BitVec.setWidth_eq]
  rfl

theorem spliceAccept_copy (p : Nat) (seq : BitVec 16) (at' : Bool) (s : State) :
    spliceAccept p seq.toNat at' true s =
      let x := issueHandle (.splice s.spliceIds) p (withSplice (requestOf p seq at' true s) s)
      splAnswer p x.1.word x.2 := by
  simp only [spliceAccept, BitVec.ofNat_toNat, BitVec.setWidth_eq]
  rfl

theorem spliceRequest_accepted {p : Nat} {at' copy : Bool} {s : State} (seq : Nat) (h : spliceRefusal s p at' copy = 0) :
    spliceRequest p seq at' copy s = (spliceAccept p seq at' copy s, abNone) := by
  unfold spliceRequest
  rw [h]
  rfl

/-- Only a flip-and-copy is refused for want of a handle. -/
theorem spliceRefusal_flip_ne (s : State) (p : Nat) (at' : Bool) : spliceRefusal s p at' false ≠ 0x4206 := by
  simp only [spliceRefusal, Bool.false_and, Bool.false_eq_true, if_false]
  split_ifs <;> decide

theorem spliceRequest_refused {p st : Nat} {at' : Bool} {s : State} (seq : Nat) (h : spliceRefusal s p at' false = st) (hst : st ≠ 0) :
    spliceRequest p seq at' false s = (splRefuse p st s, abState) := by
  have hne := spliceRefusal_flip_ne s p at'
  unfold spliceRequest
  dsimp only
  rw [if_neg (h ▸ hst), if_neg hne, h]

theorem tidy_withSplice (r : Splice) {s : State} (h : s.tidy = true) : (withSplice r s).tidy = true := h

theorem tidy_issueHandle {s : State} (op : Op) (p : Nat) (h : s.tidy = true) : (issueHandle op p s).2.tidy = true :=
  tidy_wr _ _ ((tidy_iff _).2 { (tidy_iff s).1 h with gens := Map.wf_set _ _ ((tidy_iff s).1 h).gens })

/-- The handle that is issued is in the list and in LAST_HANDLE (R291, R303). -/
theorem rd_lastHandle_issueHandle {s : State} (op : Op) (p : Nat) (h : s.tidy = true) :
    (issueHandle op p s).2.rd (Obj.lastHandle p) = (issueHandle op p s).1.word := State.rd_wr_self _ _ ((tidy_iff s).1 h).od

/-- What a path finds after its splice word was accepted: the answer, and the rest as the request or the cancel left it. -/
theorem told_splAnswer (p : Path) (handle : Nat) {s : State} (h : s.tidy = true) :
    let t := told p 0x2800 4 (splAnswer (pathCode p) handle s)
    Accepted p t ∧ t.rd (Obj.splResult (pathCode p)) = 0 ∧ t.rd (Obj.splHandle (pathCode p)) = handle ∧
      t.rd (Obj.lastHandle (pathCode p)) = s.rd (Obj.lastHandle (pathCode p)) ∧ t.splices = s.splices ∧ t.handles = s.handles ∧
      t.mem = s.mem := by
  have hr := tidy_wr (Obj.splResult (pathCode p)) 0 h
  refine ⟨accepted_told p _ _ (tidy_wr _ _ hr), ?_, ?_, ?_, rfl, rfl, rfl⟩
  · rw [told_rd, splAnswer, State.rd_wr_ne _ _ (by simp [Obj.splResult, Obj.splHandle]), State.rd_wr_self _ _ ((tidy_iff s).1 h).od]
  · rw [told_rd, splAnswer, State.rd_wr_self _ _ ((tidy_iff _).1 hr).od]
  · rw [told_rd, splAnswer, State.rd_wr_ne _ _ (by simp [Obj.lastHandle, Obj.splHandle]),
      State.rd_wr_ne _ _ (by simp [Obj.lastHandle, Obj.splResult])]

theorem spliceRequests : SpliceRequests := by
  intro p seq at' s hs k hlo hhi
  have ht := hs.1
  refine ⟨fun hr => ?_, fun hr => ?_, fun st hr hst => ?_⟩
  · have he := exec_spliceRequestFlipOnly hs hlo hhi seq at'
    rw [spliceRequest_accepted _ hr, spliceAccept_flip] at he
    obtain ⟨hacc, hres, hhandle, -, hspl, hhs, hmem⟩ :=
      told_splAnswer p 0 (tidy_withSplice (requestOf k seq at' false s) ht)
    exact ⟨_, he, hacc, ⟨_, hspl, rfl, rfl, rfl, rfl, rfl⟩, hres, hhandle, hhs, hmem⟩
  · have he := exec_spliceRequestFlipAndCopy hs hlo hhi seq at'
    rw [spliceRequest_accepted _ hr, spliceAccept_copy] at he
    have hw := tidy_withSplice (requestOf k seq at' true s) ht
    obtain ⟨hacc, hres, hhandle, hlast, hspl, hhs, hmem⟩ :=
      told_splAnswer p _ (tidy_issueHandle (.splice s.spliceIds) k hw)
    exact ⟨_, he, hacc, ⟨_, hspl, rfl, rfl, rfl, _, hhs, rfl, hhandle, hlast.trans (rd_lastHandle_issueHandle _ k hw)⟩, hres, hmem⟩
  · rw [exec_spliceRequestFlipOnly hs hlo hhi, spliceRequest_refused _ hr hst]
    rfl

end Sys2Proof.Machine
end

section
/-! Cancels of splice requests (R110, R114, R120), with what the end of a request leaves. -/

namespace Sys2Proof.Machine
open Sys2Proof Sys2Proof.Claims

/-! ## What the end of a handle leaves -/

theorem splices_queueTpdo16 (r : Record) (s : State) : (queueTpdo16 r s).splices = s.splices := by
  unfold queueTpdo16
  exact splices_ite (splices_ite rfl rfl) rfl

theorem FaultOnly.splices {s t : State} (h : FaultOnly s t) : t.splices = s.splices :=
  (congrArg State.splices h :)

theorem splices_postRecord (status handle detail : Nat) (slate : Slate) (s : State) :
    (postRecord status handle detail slate s).splices = s.splices := by
  unfold postRecord
  rw [splices_queueTpdo16, (FaultOnly.pendAll 7 _).splices]
  rfl

theorem printTest_keeps (h : Handle) (status detail : Nat) (slate : Slate) (s : State) :
    { printTest h status detail slate s with service := s.service } = s := by
  unfold printTest
  repeat' split
  all_goals rfl

theorem splices_completeHandle (h : Handle) (status detail : Nat) (slate : Slate) (s : State) :
    (completeHandle h status detail slate s).splices = s.splices :=
  (congrArg State.splices (printTest_keeps h status detail slate _) :).trans (splices_postRecord _ _ _ _ _)

/-- A register outside the harvest ring's object 0x5F01 (R307). -/
def OffRing (q : Reg) : Prop := q.key / 256 ≠ 0x5F01

theorem rd_wr_ring {q : Reg} (h : OffRing q) (s : State) {r : Reg} (v : Nat) (hr : r.key / 256 = 0x5F01) : (s.wr r v).rd q = s.rd q :=
  State.rd_wr_ne s v fun e => h (by rw [e, hr])

theorem rd_queueTpdo16 {q : Reg} (h : OffRing q) (r : Record) (s : State) : (queueTpdo16 r s).rd q = s.rd q := by
  unfold queueTpdo16
  split
  · split
    · rfl
    · exact rd_wr_ring h _ _ rfl
  · rfl

theorem rd_ulIrq (k : Nat) (s : State) (q : Reg) : (ulIrq k s).rd q = s.rd q := rfl

theorem rd_postRecord {q : Reg} (h : OffRing q) (status handle detail : Nat) (slate : Slate) (s : State) :
    (postRecord status handle detail slate s).rd q = s.rd q := by
  unfold postRecord
  rw [rd_queueTpdo16 h, rd_pendAll, rd_ulIrq, rd_wr_ring h _ _ (r := Obj.hvUsed) rfl, rd_wr_ring h _ _ (r := Obj.hvHead) rfl]
  rfl

theorem rd_completeHandle {q : Reg} (h : OffRing q) (x : Handle) (status detail : Nat) (slate : Slate) (s : State) :
    (completeHandle x status detail slate s).rd q = s.rd q :=
  (congrArg (fun t : State => t.rd q) (printTest_keeps x status detail slate _) :).trans (rd_postRecord h _ _ _ _ _)

/-- The request `id` is taken off the list. -/
def dropSplice (id : Nat) (s : State) : State := { s with splices := s.splices.filter fun q => q.id != id }

/-- A request that is settled goes on, or goes, or goes and ends its handle. -/
theorem settleSplice_cases (id : Nat) (s : State) :
    settleSplice id s = s ∨ settleSplice id s = dropSplice id s ∨
      ∃ h status detail slate, settleSplice id s = completeHandle h status detail slate (dropSplice id s) := by
  unfold settleSplice
  split
  · exact .inl rfl
  · split
    · exact .inl rfl
    · dsimp only
      split
      · exact .inr (.inl rfl)
      · exact .inr (.inr ⟨_, _, _, _, rfl⟩)

theorem rd_settleSplice {q : Reg} (h : OffRing q) (id : Nat) (s : State) : (settleSplice id s).rd q = s.rd q := by
  rcases settleSplice_cases id s with e | e | ⟨x, status, detail, slate, e⟩ <;> rw [e]
  · rfl
  · exact rd_completeHandle h x status detail slate _

theorem splices_settleSplice (id : Nat) (s : State) : ∃ keep : Splice → Bool, (settleSplice id s).splices = s.splices.filter keep := by
  rcases settleSplice_cases id s with e | e | ⟨x, status, detail, slate, e⟩ <;> rw [e]
  · exact ⟨fun _ => true, by simp⟩
  · exact ⟨_, rfl⟩
  · exact ⟨_, splices_completeHandle x status detail slate _⟩

/-! ## The removal of a lane from its request (R114, R120) -/

/-- Two requests apart: their own identities, and no lane that waits in the one waits or copies in the other. -/
def Apart (a b : Splice) : Prop :=
  a.id ≠ b.id ∧ ∀ n, (n ∈ a.waiting → n ∉ b.waiting ∧ n ∉ b.copying) ∧ (n ∈ a.copying → n ∉ b.waiting)

theorem Apart.symm {a b : Splice} (h : Apart a b) : Apart b a := by
  obtain ⟨hid, hlanes⟩ := h
  exact ⟨hid.symm, fun n => ⟨fun hb => ⟨fun ha => ((hlanes n).1 ha).1 hb, fun ha => (hlanes n).2 ha hb⟩,
    fun hb ha => ((hlanes n).1 ha).2 hb⟩⟩

/-- A request with some of its lanes removed. -/
def Shrunk (q' q : Splice) : Prop :=
  q'.id = q.id ∧ (∀ n ∈ q'.waiting, n ∈ q.waiting) ∧ ∀ n ∈ q'.copying, n ∈ q.copying

theorem Shrunk.refl (q : Splice) : Shrunk q q := ⟨rfl, fun _ => id, fun _ => id⟩

theorem Apart.shrink {a b a' b' : Splice} (h : Apart a b) (ha : Shrunk a' a) (hb : Shrunk b' b) : Apart a' b' := by
  obtain ⟨hid, hlanes⟩ := h
  obtain ⟨hai, haw, hac⟩ := ha
  obtain ⟨hbi, hbw, hbc⟩ := hb
  refine ⟨by rw [hai, hbi]; exact hid, fun n => ⟨fun hn => ?_, fun hn hn' => ?_⟩⟩
  · obtain ⟨hw, hc⟩ := (hlanes n).1 (haw n hn)
    exact ⟨fun hn' => hw (hbw n hn'), fun hn' => hc (hbc n hn')⟩
  · exact (hlanes n).2 (hac n hn) (hbw n hn')

/-- A request without lane `n`. -/
def without (n : Nat) (r : Splice) : Splice :=
  { r with waiting := r.waiting.filter (· != n), copying := r.copying.filter (· != n), removed := true }

theorem shrunk_without (n : Nat) (r : Splice) : Shrunk (without n r) r :=
  ⟨rfl, fun _ hm => (List.mem_filter.1 hm).1, fun _ hm => (List.mem_filter.1 hm).1⟩

theorem not_waiting_without (n : Nat) (r : Splice) : n ∉ (without n r).waiting := by simp [without]

/-- The removal of lane `n` changes the request it finds, of which the lane is no part any more; the others, which are apart from
that one, do not have the lane waiting. -/
theorem splices_removeFromSplice (n : Nat) {s : State} (h : s.splices.Pairwise Apart) :
    ∃ (f : Splice → Splice) (keep : Splice → Bool), (removeFromSplice n s).splices = (s.splices.map f).filter keep ∧
      ∀ q ∈ s.splices, Shrunk (f q) q ∧ n ∉ (f q).waiting := by
  have : Std.Symm Apart := ⟨fun _ _ => Apart.symm⟩
  unfold removeFromSplice
  dsimp only
  split
  next hnone =>
    refine ⟨id, fun _ => true, by simp, fun q hq => ⟨Shrunk.refl q, ?_⟩⟩
    have := List.find?_eq_none.1 hnone q hq
    simp_all
  next r hr =>
    have hmem : r ∈ s.splices := List.mem_of_find?_eq_some hr
    have hin : n ∈ r.waiting ∨ n ∈ r.copying := by simpa using List.find?_some hr
    obtain ⟨keep, hkeep⟩ := splices_settleSplice r.id
      (putSplice (without n r) (s.setLane n { s.lane n with copy := none, slipped := false }))
    refine ⟨fun q => if q.id = r.id then without n r else q, keep, hkeep, fun q hq => ?_⟩
    by_cases hqr : q = r
    · subst hqr
      dsimp only
      rw [if_pos rfl]
      exact ⟨shrunk_without n q, not_waiting_without n q⟩
    · obtain ⟨hid, hlanes⟩ := h.forall hmem hq (Ne.symm hqr)
      dsimp only
      rw [if_neg hid.symm]
      exact ⟨Shrunk.refl q, hin.elim (fun hw => ((hlanes n).1 hw).1) (hlanes n).2⟩

theorem apart_removeFromSplice (n : Nat) {s : State} (h : s.splices.Pairwise Apart) :
    (removeFromSplice n s).splices.Pairwise Apart := by
  obtain ⟨f, keep, he, hf⟩ := splices_removeFromSplice n h
  rw [he]
  exact (List.pairwise_map.2 (h.imp_of_mem fun ha hb hab => hab.shrink (hf _ ha).1 (hf _ hb).1)).filter keep

/-- After its removal a lane waits in no request, and no lane comes to wait. -/
theorem pendingSplice_removeFromSplice {m n : Nat} {s : State} (h : s.splices.Pairwise Apart)
    (hm : m = n ∨ pendingSplice s m = none) : pendingSplice (removeFromSplice n s) m = none := by
  obtain ⟨f, keep, he, hf⟩ := splices_removeFromSplice n h
  rw [pendingSplice_none, he]
  intro q' hq'
  obtain ⟨q, hq, rfl⟩ := List.mem_map.1 (List.mem_filter.1 hq').1
  obtain ⟨⟨-, hw, -⟩, hn⟩ := hf q hq
  rw [← Bool.not_eq_true, List.contains_iff_mem]
  rcases hm with rfl | hm
  · exact hn
  · intro hin
    have := pendingSplice_none.1 hm q hq
    exact absurd (List.contains_iff_mem.2 (hw m hin)) (by rw [this]; decide)

theorem pendingSplice_removals {m : Nat} (lanes : List Nat) {s : State} (h : s.splices.Pairwise Apart)
    (hm : m ∈ lanes ∨ pendingSplice s m = none) : pendingSplice (forList lanes removeFromSplice s) m = none := by
  induction lanes generalizing s with
  | nil => exact hm.resolve_left List.not_mem_nil
  | cons n lanes ih =>
    refine ih (apart_removeFromSplice n h) ?_
    rcases hm with hm | hm
    · rcases List.mem_cons.1 hm with rfl | hm
      · exact .inr (pendingSplice_removeFromSplice h (.inl rfl))
      · exact .inl hm
    · exact .inr (pendingSplice_removeFromSplice h (.inr hm))

/-- The removal of one lane leaves every other lane aside. -/
theorem aside_removeFromSplice {m n : Nat} (hm : m ≤ 64) (hne : m ≠ n) (s : State) : Aside m s (removeFromSplice n s) := by
  have hlane := Aside.setLane s { s.lane n with copy := none, slipped := false } hne
  unfold removeFromSplice
  dsimp only
  split
  next => exact hlane
  next r hr =>
    refine (hlane.trans (aside_putSplice _ _ fun h => ?_)).trans (aside_settleSplice hm _ _)
    have := pendingSplice_none.1 h r (List.mem_of_find?_eq_some hr)
    simp_all

/-! ## Cancels (R110, R120) -/

theorem lt_of_mem_maskLanes {s : State} {p n : Nat} (h : n ∈ maskLanes s p) : n < 64 :=
  List.mem_range.1 (List.mem_filter.1 h).1

/-- The lanes of the staged mask that wait in a request. -/
def waitingLanes (s : State) (p : Nat) : List Nat := (maskLanes s p).filter fun n => (pendingSplice s n).isSome

theorem spliceCancelMask_of_waiting {s : State} {p n : Nat} (hn : n ∈ maskLanes s p) (hw : (pendingSplice s n).isSome = true) :
    spliceCancelMask p s = (splAnswer p 0 (forList (waitingLanes s p) removeFromSplice s), abNone) := by
  have hhit : n ∈ waitingLanes s p := List.mem_filter.2 ⟨hn, hw⟩
  unfold spliceCancelMask
  dsimp only
  rw [if_neg (by rw [List.isEmpty_iff]; exact List.ne_nil_of_mem hn),
    if_neg (by rw [List.isEmpty_iff]; exact List.ne_nil_of_mem hhit)]
  rfl

theorem spliceCancels {p : Path} {seq : BitVec 16} {s : State} (hs : Ready s)
    (hlo : guardGood (s.rd (Obj.splMaskLo (pathCode p))) = true) (hhi : guardGood (s.rd (Obj.splMaskHi (pathCode p))) = true)
    (hap : s.splices.Pairwise Apart) (hw : ∃ n ∈ maskLanes s (pathCode p), (pendingSplice s n).isSome = true) :
    Writes (.spliceCancel p seq) p s fun t =>
      (∀ n ∈ maskLanes s (pathCode p), pendingSplice t n = none) ∧ t.rd (Obj.splResult (pathCode p)) = 0 ∧
        t.rd (Obj.splHandle (pathCode p)) = 0 ∧ t.mem = s.mem := by
  obtain ⟨n, hn, hwait⟩ := hw
  have he := exec_spliceCancel hs hlo hhi seq
  rw [spliceCancelMask_of_waiting hn hwait] at he
  have haside : Aside 64 s (forList (waitingLanes s (pathCode p)) removeFromSplice s) :=
    Aside.forList _ _ (fun m hm => aside_removeFromSplice (Nat.le_refl 64)
      (Nat.ne_of_gt (lt_of_mem_maskLanes (List.mem_filter.1 hm).1))) s
  obtain ⟨hacc, hres, hhandle, -, hspl, -, hmem⟩ := told_splAnswer p 0 (haside.tidy hs.1)
  refine ⟨_, he, hacc, fun m hm => ?_, hres, hhandle, hmem.trans haside.mem⟩
  have hnone : pendingSplice (forList (waitingLanes s (pathCode p)) removeFromSplice s) m = none := by
    refine pendingSplice_removals _ hap ?_
    by_cases h : (pendingSplice s m).isSome = true
    · exact .inl (List.mem_filter.2 ⟨hm, h⟩)
    · exact .inr (by simpa using h)
  exact hnone

end Sys2Proof.Machine
end

section
/-! The steps of a copy (R117, R119, R128), and the splice statements together. -/

namespace Sys2Proof.Machine
open Sys2Proof Sys2Proof.Claims

/-! ## What a step of a copy does -/

/-- A word of the live side goes to the other side. -/
def copyWord (n off : Nat) (s : State) : State :=
  s.setMemWord (sideBase n (1 - liveSide s n) + 4 * off) (sideWord s n (liveSide s n) off)

/-- The copy of a lane goes on from offset `next`, or ends there. -/
def copyOn (n next : Nat) (c : Copy) (s : State) : State :=
  let s := s.wr (Obj.copyWords n) (min next 8192)
  if next < 8192 then s.setLane n { s.lane n with copy := some { next := next, written := c.written.filter (next ≤ ·) } }
  else
    let s := s.setLane n { s.lane n with copy := none }
    match s.splices.find? fun r => r.copying.contains n with
    | none => s
    | some r => settleSplice r.id (putSplice { r with copying := r.copying.filter (· != n) } s)

theorem copyStep_word {n : Nat} {c : Copy} {s : State} (h : marked s n c.next = false) :
    copyStep n c s = copyOn n (c.next + 1) c (if c.next ∈ c.written then s else copyWord n c.next s) := by
  simp only [copyStep, h, List.contains_iff_mem, Bool.false_eq_true, if_false]
  rfl

theorem copyStep_pair {n : Nat} {c : Copy} {s : State} (h : marked s n c.next = true) (hw : c.next ∉ c.written) :
    copyStep n c s = copyOn n (c.next + 2) c (copyWord n (c.next + 1) (copyWord n c.next s)) := by
  simp only [copyStep, h, List.contains_iff_mem, if_neg hw, if_true]
  rfl

theorem exec_spliceCopyWord {n : Fin 64} {c : Copy} {s : State} (ha : awake s = true) (hc : (s.lane n.val).copy = some c) :
    exec (.spliceCopyWord n) s = .next (copyStep n.val c s) := by
  show execSpliceCopyWord n s = _
  simp only [execSpliceCopyWord, clocked, ha, if_true, hc]

/-- Going on from `next` writes COPY_WORDS and the copy that the lane has under way; it leaves memory, also where the request
ends with it. -/
theorem copyOn_says {n next : Nat} (hn : n < 64) (c : Copy) {s : State} (h : s.tidy = true) :
    (copyOn n next c s).mem = s.mem ∧ (copyOn n next c s).rd (Obj.copyWords n) = min next 8192 ∧
      ((copyOn n next c s).lane n).copy =
        if next < 8192 then some ⟨next, c.written.filter (next ≤ ·)⟩ else none := by
  have hod := State.rd_wr_self (Obj.copyWords n) (min next 8192) ((tidy_iff s).1 h).od
  have hlane : ∀ l, (((s.wr (Obj.copyWords n) (min next 8192)).setLane n l).lane n) = l := fun l =>
    State.lane_setLane_self n l ((tidy_iff _).1 (tidy_wr _ _ h)).lanes
  have hoff : OffRing (Obj.copyWords n) := by unfold OffRing; simp only [Obj.copyWords]; omega
  unfold copyOn
  dsimp only
  split
  · exact ⟨rfl, hod, by rw [hlane]⟩
  · split
    · exact ⟨rfl, hod, by rw [hlane]⟩
    next r hr =>
      have hset : ∀ t, Aside n t (settleSplice r.id t) := aside_settleSplice (by omega) r.id
      refine ⟨(hset _).mem, (rd_settleSplice hoff _ _).trans hod, ?_⟩
      rw [(hset _).lane]
      exact congrArg Lane.copy (hlane _)

/-! ## The words that it moves -/

/-- A word of the live side and a word of the other side share no byte. -/
theorem sides_apart (n live : Nat) {a b : Nat} (ha : a < 8192) (hb : b < 8192) :
    sideBase n live + 4 * a + 4 ≤ sideBase n (1 - live) + 4 * b ∨ sideBase n (1 - live) + 4 * b + 4 ≤ sideBase n live + 4 * a := by
  unfold sideBase
  omega

theorem sideWord_copyWord_self {n off : Nat} {s : State} (h : s.tidy = true) :
    sideWord (copyWord n off s) n (1 - liveSide s n) off = sideWord s n (liveSide s n) off :=
  memWord_setMemWord_self _ _ ((tidy_iff s).1 h).mem

theorem sideWord_copyWord_other {n off off' : Nat} (s : State) (h : off' ≠ off) :
    sideWord (copyWord n off s) n (1 - liveSide s n) off' = sideWord s n (1 - liveSide s n) off' :=
  memWord_setMemWord_apart s _ (by omega)

theorem sideWord_copyWord_live {n off off' : Nat} (s : State) (h : off < 8192) (h' : off' < 8192) :
    sideWord (copyWord n off s) n (liveSide s n) off' = sideWord s n (liveSide s n) off' :=
  memWord_setMemWord_apart s _ (sides_apart n (liveSide s n) h' h)

theorem tidy_copyWord (n off : Nat) {s : State} (h : s.tidy = true) : (copyWord n off s).tidy = true := tidy_setMemWord _ _ h

/-- A word is read from memory alone. -/
theorem sideWord_of_mem {s t : State} (h : t.mem = s.mem) (n side off : Nat) : sideWord t n side off = sideWord s n side off := by
  unfold sideWord State.memWord
  rw [h]

theorem does_copyWord {n : Fin 64} {s : State} {c : Copy} (ht : s.tidy = true) (ha : awake s = true)
    (hc : (s.lane n.val).copy = some c) (hlt : c.next < 8192) (hm : marked s n.val c.next = false) :
    let dst := sideBase n.val (1 - liveSide s n.val) + 4 * c.next
    Does (.spliceCopyWord n) s fun t =>
      (c.next ∉ c.written → t.memWord dst = sideWord s n.val (liveSide s n.val) c.next) ∧ SameOutside s t dst (dst + 4) ∧
      (c.next ∈ c.written → t.mem = s.mem) ∧ t.rd (Obj.copyWords n.val) = c.next + 1 ∧
      (c.next < 8191 → (t.lane n.val).copy = some ⟨c.next + 1, c.written.filter (c.next + 1 ≤ ·)⟩) ∧
      (c.next = 8191 → (t.lane n.val).copy = none) := by
  intro dst
  have he := exec_spliceCopyWord (n := n) ha hc
  rw [copyStep_word hm] at he
  have hu : (if c.next ∈ c.written then s else copyWord n.val c.next s).tidy = true := by
    split
    · exact ht
    · exact tidy_copyWord n.val c.next ht
  obtain ⟨hmem, hrd, hcopy⟩ := copyOn_says (next := c.next + 1) n.isLt c hu
  refine ⟨_, he, fun hw => ?_, fun a ha => ?_, fun hw => hmem.trans (congrArg State.mem (if_pos hw)), by rw [hrd]; omega,
    fun hlast => by rw [hcopy, if_pos (by omega)], fun hlast => by rw [hcopy, if_neg (by omega)]⟩
  · exact (sideWord_of_mem (hmem.trans (congrArg State.mem (if_neg hw))) n.val _ _).trans (sideWord_copyWord_self ht)
  · rw [hmem]
    split
    · rfl
    · exact readByte_writeWord_outside s.mem _ ha

theorem does_copyPair {n : Fin 64} {s : State} {c : Copy} (ht : s.tidy = true) (ha : awake s = true)
    (hc : (s.lane n.val).copy = some c) (hlt : c.next < 8190) (hm : marked s n.val c.next = true) (hw : c.next ∉ c.written) :
    Does (.spliceCopyWord n) s fun t =>
      let dst := 1 - liveSide s n.val
      sideWord t n.val dst c.next = sideWord s n.val (liveSide s n.val) c.next ∧
      sideWord t n.val dst (c.next + 1) = sideWord s n.val (liveSide s n.val) (c.next + 1) ∧
      t.rd (Obj.copyWords n.val) = c.next + 2 := by
  have he := exec_spliceCopyWord (n := n) ha hc
  rw [copyStep_pair hm hw] at he
  have h1 := tidy_copyWord n.val c.next ht
  obtain ⟨hmem, hrd, -⟩ := copyOn_says (next := c.next + 2) n.isLt c (tidy_copyWord n.val (c.next + 1) h1)
  refine ⟨_, he, ?_, ?_, by rw [hrd]; omega⟩
  · exact (sideWord_of_mem hmem n.val _ _).trans
      ((sideWord_copyWord_other (copyWord n.val c.next s) (by omega)).trans (sideWord_copyWord_self ht))
  · exact (sideWord_of_mem hmem n.val _ _).trans
      ((sideWord_copyWord_self h1).trans (sideWord_copyWord_live s (by omega) (by omega)))

theorem spliceCancelAndCopy : SpliceCancelAndCopy := by
  refine ⟨fun p seq s hs hlo hhi hwait hcopy hw => spliceCancels hs hlo hhi ?_ hw,
    fun n s c ht ha hc hlt hm => does_copyWord ht ha hc hlt hm, fun n s c ht ha hc hlt hm hw => does_copyPair ht ha hc hlt hm hw⟩
  exact hwait.imp₂ (fun a b h hc => ⟨h.1, fun n => ⟨h.2 n, hc n⟩⟩) hcopy

/-- Settles O40: a splice word by the fields it spells and the command they name; a cancel by induction on the lanes it removes, the
requests staying apart; a step of a copy by the words it moves between two sides that lie apart. -/
theorem splices : Obligations.Splices := ⟨spliceRequests, spliceCancelAndCopy⟩

end Sys2Proof.Machine
end

section
/-! User opcodes (R135, R139, R141, R143): an entry's steps, run by its body, and the one end that a core and a lane give it. -/

namespace Sys2Proof.Machine
open Sys2Proof Sys2Proof.Claims

/-! ## The body of a user opcode -/

/-- What a user opcode writes at its end, from what its steps have made: A where a step wrote it, X and Y where the entry moves them,
and F as FLAGS says (R135, R143). Its D writes are made by its steps. -/
def userEff (e : Nat) (o : Operand) (x : UserSt) : Eff :=
  let idx := if dtForm e = 1 then postMod x.r o x.r else x.r
  { upd := fun t => { t with
      a := if x.wroteA then x.r.a else t.a
      x := if movesIndex false e o then idx.x else t.x
      y := if movesIndex true e o then idx.y else t.y }
    fl := { (if dtFlags e then x.fl else {}) with sv := x.sv } }

/-- Where the steps leave no move owed, the body ends as they end. -/
theorem userBody_run {cx : Cx} {e : Nat} {o : Operand} {w : Word} {r : Regs} {s s' : State} {x : UserSt} {ws : List (DAddr × Word)}
    (hrun : (runSteps cx o w (dtForm e) (stepsOf (dtUops e) []) { r := r } []).run s = .ok ((x, ws), s')) (ht : s'.tidy = true)
    (hm : movesOf s' cx.u = []) : (userBody e o w cx r).run s = .ok (userEff e o x, s') := by
  refine (bind_ok hrun).trans ?_
  cases hu : cx.u with
  | core c => exact bind_ok (modify_ok (flushMoves_of_none (.core c) cx.slot ws ht (hu ▸ hm)))
  | lane n => rfl

/-- A programmed user opcode runs the body of its entry on the operand that its bytes give. -/
theorem exec_userOpcode {u : Agent} {p : Prefix} {i : Fin 16} {arg : UserArg} {o : Operand} {w : Word} {s : State}
    (hfit : argFits (s.rd (dtOf u i.val)) arg = true) (harg : ArgOf arg o w) :
    exec (.userOpcode u p i arg) s = runInstr u p (userShape u p (s.rd (dtOf u i.val)) arg) (dtCost (s.rd (dtOf u i.val)))
      (userBody (s.rd (dtOf u i.val)) o w) s := by
  rcases harg with ⟨rfl, rfl, rfl⟩ | ⟨rfl, rfl⟩ | ⟨b, rfl, rfl, rfl⟩ <;> exact if_pos hfit

/-! ## The end of a lane's instruction whose steps wrote its registers -/

/-- PC set past the instruction's slots, a committed lane is done with it: of the registers only PC need stand as it stood, as the
steps of an entry may have written the others (R139). -/
theorem lanePc_laneCommitted_of_pc {s s' : State} {n : Fin 64} (cost : Nat) (e : Eff) (ht : s'.tidy = true)
    (hpc : (s'.lane n.val).regs.pc = (s.lane n.val).regs.pc) :
    lanePc n.val ((s.lane n.val).regs.pc.toNat + cost) (laneCommitted n e s') = laneDone n cost e.upd e.fl e.load s' := by
  rw [← hpc]
  exact lanePc_laneCommitted cost e ht rfl

theorem runInstr_lane_steps {s s' : State} {n : Fin 64} {p : Prefix} {sh : Shape} {body : Cx → Regs → Hv Eff} {e : Eff}
    (h : LaneTakes s n p sh) (cost : Nat) (hb : (body (laneCx s n p) (s.lane n.val).regs).run s = .ok (e, s')) (ht : s'.tidy = true)
    (hm : (s'.lane n.val).moves = []) (hfar : (s'.lane n.val).far = []) (hpc : (s'.lane n.val).regs.pc = (s.lane n.val).regs.pc)
    (hw : e.writes = []) (hmv : e.move = none) :
    runInstr (.lane n) p sh cost body s = .next (laneDone n cost e.upd e.fl e.load s') := by
  rw [runInstr_lane h, runLane_once h cost hb (farDue_of_none n.val _ hfar) ht hm hw hmv, lanePc_laneCommitted_of_pc cost e ht hpc]

/-- Settles O8: the body of an entry ends where its steps end, with the registers and flags that the entry names; a core and a lane end
the instruction as any other. That the post-modification steps the index as the steps left it (assumption 113), and that a flag which
the last flag-setting micro-operation leaves alone stays (assumption 112), are the model's choices. -/
theorem userOpcodes : Obligations.UserOpcodes := by
  refine ⟨?_, ?_⟩
  · intro c p i arg o w s s' x ws e hfit harg htakes r hrun hsame idx
    have ⟨ht, _, _, hm, _, _⟩ := hsame
    have hbody := userBody_run (cx := coreCx s c p) hrun ht hm
    rw [exec_userOpcode hfit harg]
    exact runInstr_core_done htakes (dtCost e) hbody (sameRegs_of_sameCore htakes hsame) rfl rfl rfl rfl fun _ => rfl
  · intro n p i arg o w s s' x ws e hfit harg htakes r hrun ht _ hm hfar hpc idx
    have hbody := userBody_run (cx := laneCx s n p) hrun ht hm
    rw [exec_userOpcode hfit harg]
    exact runInstr_lane_steps htakes (dtCost e) hbody ht hm hfar hpc rfl rfl

end Sys2Proof.Machine
end

section
/-! Writes of the decode tables (R11, R140, R144 to R147). -/

namespace Sys2Proof.Machine
open Sys2Proof Sys2Proof.Claims

/-! ## A write of a number whose object is a command -/

/-- The bytes of a number of the object's own length pass the check of R293. -/
theorem lengthAbort_leBytes {r : ObjRow} {n : Nat} (idx sub v : Nat) (hb : r.type.bytes = n) (hn : 0 < n) :
    lengthAbort r idx sub (leBytes n v) = abNone := by
  simp [lengthAbort, length_leBytes, hb, Nat.pos_iff_ne_zero.1 hn]

/-- A number that reaches its command is answered with what the command answers. -/
theorem writeNat_command {p : Path} {idx sub n v a : Nat} {s t : State} {r : ObjRow} (hs : Ready s) (hl : lookup idx sub = .ok r)
    (hacc : r.acc ≠ .ro ∧ r.acc ≠ .const) (hty : r.type ≠ .guard32) (hb : r.type.bytes = n) (hn : 0 < n) (hv : v < 256 ^ n)
    (hdom : domGood r v = true)
    (hc : ∀ item data, command (pathCode p) item idx sub (dropReserved r idx sub v) data s = some (t, a)) :
    writeNat p idx sub n v s = answer (pathCode p) (idx * 256 + sub) a [] t := by
  rw [← ofLe_leBytes hv] at hdom hc
  exact writeObject_command hs hl hacc (lengthAbort_leBytes idx sub v hb hn) hty hdom (hc _ _)

/-! ## The objects of a table (R144) -/

/-- The index of a table. -/
def tableIdx (core : Bool) (k : Nat) : Nat := (if core then 0x2A10 else 0x2A00) + k

/-- DT_ENTRY_0 to DT_ENTRY_15. -/
def entryRow (core : Bool) : ObjRow := ⟨tableIdx core 0, 8, 1, 1, 16, .octets 20, .rws, 0, .custom⟩

/-- DT_CLEAR. -/
def clearRow (core : Bool) : ObjRow := ⟨tableIdx core 0, 8, 1, 18, 1, .uint 1, .wo, 0, .range 1 1⟩

/-- The objects of a table, from its highest sub-index on. -/
def tableRows (core : Bool) : List ObjRow :=
  [⟨tableIdx core 0, 8, 1, 0, 1, .uint 1, .const, 18, .any⟩, entryRow core, ⟨tableIdx core 0, 8, 1, 17, 1, .uint 2, .ro, 0, .any⟩,
    clearRow core]

theorem rows_of_table : ∀ (core : Bool) (k : Fin 8), (objRows.filter fun r => r.hasIndex (tableIdx core k.val)) = tableRows core := by
  decide +kernel

/-- An object of a table is found among its rows by its sub-index alone. -/
theorem findRow_table (core : Bool) (k : Fin 8) (sub : Nat) :
    findRow (tableIdx core k.val) sub = (tableRows core).find? fun r => r.hasSub sub := by
  simp only [← rows_of_table core k, List.find?_filter, findRow, Bool.decide_and, Bool.decide_eq_true]

theorem entryRow_found : ∀ (core : Bool) (i : Fin 16), ((tableRows core).find? fun r => r.hasSub (i.val + 1)) = some (entryRow core) := by
  decide

theorem clearRow_found : ∀ core : Bool, ((tableRows core).find? fun r => r.hasSub 18) = some (clearRow core) := by
  decide

theorem lookup_entry (core : Bool) (k : Fin 8) (i : Fin 16) : lookup (tableIdx core k.val) (i.val + 1) = .ok (entryRow core) := by
  rw [lookup, findRow_table, entryRow_found]

theorem lookup_clear (core : Bool) (k : Fin 8) : lookup (tableIdx core k.val) 18 = .ok (clearRow core) := by
  rw [lookup, findRow_table, clearRow_found]

theorem tableIdx_lanes (k : Nat) : tableIdx false k = 0x2A00 + k := rfl
theorem tableIdx_core (k : Nat) : tableIdx true k = 0x2A10 + k := rfl

/-- Where a table's index lies, and how the command finds the table by it. -/
theorem tableIdx_says (core : Bool) {k : Nat} (hk : k < 8) :
    (0x2A00 ≤ tableIdx core k ∧ tableIdx core k < 0x2A18) ∧ decide (0x2A10 ≤ tableIdx core k) = core ∧
      (tableIdx core k - 0x2A00) % 16 = k := by
  cases core with
  | false =>
    rw [tableIdx_lanes, decide_eq_false_iff_not]
    omega
  | true =>
    rw [tableIdx_core, decide_eq_true_iff]
    omega

/-- The rows of a table have no reserved bits of their own: those of an entry are the entry's (R10, R134). -/
theorem dropReserved_table (core : Bool) {k : Nat} (hk : k < 8) (r : ObjRow) (sub v : Nat) (hd : ∀ m, r.dom ≠ .bits m) :
    dropReserved r (tableIdx core k) sub v = v := by
  obtain ⟨hidx, -, -⟩ := tableIdx_says core hk
  unfold dropReserved
  rw [if_neg (by omega), if_neg (by omega), if_neg (by omega), if_neg (by omega), if_neg (by omega), if_neg (by omega)]
  split
  next m hm => exact absurd hm (hd m)
  next => rfl

/-- The commands among the objects of a table. -/
theorem command_table (core : Bool) {k : Nat} (hk : k < 8) (p item sub v : Nat) (data : List Byte) (s : State) :
    command p item (tableIdx core k) sub v data s =
      some (if sub = 18 then writeDtClear core k s else writeDtEntry core k (sub - 1) v s) := by
  obtain ⟨⟨hlo, hhi⟩, hcore, hnum⟩ := tableIdx_says core hk
  have hne : ∀ j, j < 0x2A00 → tableIdx core k ≠ j := by omega
  have hport : ¬tableIdx core k < 0x2260 := by omega
  have hlane : ¬tableIdx core k < 0x2640 := by omega
  have hmap : ¬tableIdx core k < 0x28C0 := by omega
  have hlow : tableIdx core k < 0x3000 := by omega
  simp [command, command0, hlow, hne, hport, hlane, hmap, hlo, hhi, hcore, hnum, apply_ite some]

theorem exec_dtEntryWrite {s : State} (p : Path) (core : Bool) (k : Fin 8) (i : Fin 16) (e : BitVec 160) (hs : Ready s) :
    exec (.dtEntryWrite p core k i e) s = .next (answer (pathCode p) (tableIdx core k.val * 256 + (i.val + 1))
      (writeDtEntry core k.val i.val e.toNat s).2 [] (writeDtEntry core k.val i.val e.toNat s).1) := by
  have hsub : i.val + 1 ≠ 18 := by omega
  refine congrArg Host.Outcome.next (writeNat_command (idx := tableIdx core k.val) hs (lookup_entry core k i) (by simp [entryRow])
    (by simp [entryRow]) rfl (by omega) e.isLt rfl fun item data => ?_)
  rw [dropReserved_table core k.isLt _ _ _ (by simp [entryRow]), command_table core k.isLt, if_neg hsub, Nat.add_sub_cancel]

theorem exec_dtClear {s : State} (p : Path) (core : Bool) (k : Fin 8) (hs : Ready s) :
    exec (.dtClear p core k) s = .next (answer (pathCode p) (tableIdx core k.val * 256 + 18) (writeDtClear core k.val s).2 []
      (writeDtClear core k.val s).1) := by
  refine congrArg Host.Outcome.next (writeNat_command (idx := tableIdx core k.val) hs (lookup_clear core k) (by simp [clearRow])
    (by simp [clearRow]) rfl (by omega) (by omega) rfl fun item data => ?_)
  rw [dropReserved_table core k.isLt _ _ _ (by simp [clearRow]), command_table core k.isLt, if_pos rfl]

/-- The entries of a table. -/
def tableRegs (core : Bool) (k : Nat) : List Reg := (List.range 16).map (tableReg core k)

/-! ## When a table accepts a change (R145 to R147) -/

/-- A table that accepts a new header accepts every entry. -/
theorem tableOpen_of_header {s : State} {core : Bool} {k : Nat} (h : tableOpen s core k true = true) (header : Bool) :
    tableOpen s core k header = true := by
  cases header with
  | true => exact h
  | false =>
    cases core with
    | true => exact h
    | false =>
      simp only [tableOpen, groupLanes, List.all_eq_true, Bool.false_eq_true, if_false, Bool.or_eq_true] at h ⊢
      exact fun j hj => (h j hj).imp id (by simp)

/-- A control core's table accepts a change while the core is in reset or halted, whatever the change (R146). -/
theorem tableOpen_core (s : State) (k : Nat) (header : Bool) :
    tableOpen s true k header = true ↔ s.rd (Obj.coreState k) = 0 ∨ s.rd (Obj.coreState k) = 3 := by
  simp [tableOpen]

/-- A table is shut to every change: a load holds it, or its processor is where not even micro-operations may change. -/
def TableShut (s : State) (core : Bool) (k : Nat) : Prop :=
  tableLocked s (tableCode core k) = true ∨ tableOpen s core k false = false

theorem TableShut.refuses {s : State} {core : Bool} {k : Nat} (h : TableShut s core k) (header : Bool) :
    (tableLocked s (tableCode core k) || !tableOpen s core k header) = true := by
  rcases h with h | h
  · rw [h, Bool.true_or]
  · have hshut : tableOpen s core k header = false := by
      cases header with
      | false => exact h
      | true => exact Bool.eq_false_iff.2 fun ho => Bool.eq_false_iff.1 h (tableOpen_of_header ho false)
    rw [hshut, Bool.not_false, Bool.or_true]

theorem writeDtEntry_malformed {e : Nat} (core : Bool) (k i : Nat) (s : State) (h : dtEntryGood e = false) :
    writeDtEntry core k i e s = (s, abValue) := by
  simp [writeDtEntry, h]

theorem writeDtEntry_open {core : Bool} {k e : Nat} {s : State} (i : Nat) (hg : dtEntryGood e = true)
    (hl : tableLocked s (tableCode core k) = false) (ho : tableOpen s core k true = true) :
    writeDtEntry core k i e s = (s.wr (tableReg core k i) (dtClean e), abNone) := by
  simp [writeDtEntry, hg, hl, tableOpen_of_header ho]

theorem writeDtEntry_shut {core : Bool} {k e : Nat} {s : State} (i : Nat) (hg : dtEntryGood e = true) (h : TableShut s core k) :
    writeDtEntry core k i e s = (s, abState) := by
  simp only [writeDtEntry, hg, Bool.not_true, Bool.false_eq_true, if_false, h.refuses, if_true]

theorem writeDtClear_open {core : Bool} {k : Nat} {s : State} (hl : tableLocked s (tableCode core k) = false)
    (ho : tableOpen s core k true = true) :
    writeDtClear core k s = (zeroRegs (tableRegs core k) s, abNone) := by
  simp [writeDtClear, tableRegs, hl, ho]

theorem writeDtClear_shut {core : Bool} {k : Nat} {s : State} (h : TableShut s core k) : writeDtClear core k s = (s, abState) := by
  simp only [writeDtClear, h.refuses, if_true]

/-! ## A cleared table -/

/-- The entries of a table lie apart. -/
theorem tableRegs_pairwise (core : Bool) (k : Nat) : (tableRegs core k).Pairwise fun r q => r.key ≠ q.key := by
  rw [tableRegs, List.pairwise_map]
  refine List.nodup_range.imp fun hij => ?_
  cases core <;> simp only [tableReg, Obj.dtEntry, Obj.dtEntryCore, Bool.false_eq_true, if_true, if_false] <;> omega

/-- A table of which every entry reads 0 has no programmed entry. -/
theorem dtValidBits_zero {t : State} {core : Bool} {k : Nat} (h : ∀ j, j < 16 → t.rd (tableReg core k j) = 0) :
    dtValidBits t core k = 0 := by
  have hmap : (List.range 16).map (fun i => dtValid (t.rd (tableReg core k i))) = (List.range 16).map fun _ => false :=
    List.map_congr_left fun j hj => by rw [h j (List.mem_range.1 hj)]; rfl
  rw [dtValidBits, hmap]
  rfl

/-- DT_CLEAR of a table that accepts it sets its 16 entries to 0 and nothing else. -/
theorem writes_dtClear {p : Path} {core : Bool} {k : Fin 8} {s : State} (hs : Ready s)
    (hl : tableLocked s (tableCode core k.val) = false) (ho : tableOpen s core k.val true = true) :
    Writes (.dtClear p core k) p s fun t => (∀ j, j < 16 → t.rd (tableReg core k.val j) = 0) ∧ dtValidBits t core k.val = 0 ∧
      { t with od := s.od, answers := s.answers } = s := by
  have he : exec (.dtClear p core k) s = .next (told p (tableIdx core k.val) 18 (zeroRegs (tableRegs core k.val) s)) := by
    rw [exec_dtClear p core k hs, writeDtClear_open hl ho]
    rfl
  have hzero : ∀ j, j < 16 → (told p (tableIdx core k.val) 18 (zeroRegs (tableRegs core k.val) s)).rd (tableReg core k.val j) = 0 := by
    intro j hj
    rw [told_rd, rd_zeroRegs_mem (tableRegs_pairwise core k.val) hs.1 _ (List.mem_map_of_mem (List.mem_range.2 hj))]
  refine ⟨_, he, accepted_told p _ _ (tidy_zeroRegs _ hs.1), hzero, dtValidBits_zero hzero, ?_⟩
  rw [told_rest, zeroRegs_rest]

/-- Settles O12: a write of a table by the row it meets and the answers of its command; a clear by the registers it sets, which lie
apart. -/
theorem decodeTables : Obligations.DecodeTables := by
  intro p core k i e s hs idx
  refine ⟨fun hbad => ?_, fun hl ho => ⟨fun hg => ?_, writes_dtClear hs hl ho⟩, fun h => ⟨fun hg => ?_, ?_⟩, ?_⟩
  · rw [exec_dtEntryWrite p core k i e hs, writeDtEntry_malformed core k.val i.val s hbad]
    rfl
  · rw [exec_dtEntryWrite p core k i e hs, writeDtEntry_open i.val hg hl ho]
    rfl
  · rw [exec_dtEntryWrite p core k i e hs, writeDtEntry_shut i.val hg h]
    rfl
  · rw [exec_dtClear p core k hs, writeDtClear_shut h]
    rfl
  · rintro rfl header
    exact tableOpen_core s k.val header

end Sys2Proof.Machine
end

section
/-! What one state keeps of another: the rules by which the shared operations, the sluice, the converters and the steering loop leave
the port groups as they are. -/

namespace Sys2Proof.Machine
open Sys2Proof Sys2Proof.Claims

/-! ## Keeping a view and a set of registers -/

/-- `t` keeps of `s` its canonical form, every register that `regs` accepts, and what `view` shows. -/
structure Keeps {α : Type} (regs : Reg → Prop) (view : State → α) (s t : State) : Prop where
  tidy : s.tidy = true → t.tidy = true
  rd : ∀ q : Reg, regs q → t.rd q = s.rd q
  view : view t = view s

/-- The registers of the port groups and of the objects before theirs. -/
def GroupReg (q : Reg) : Prop := q.key / 256 < 0x2260

/-- The ports with their channels, and memory. -/
def portView (s : State) : List Host.Cell × Slate × Map Port × Map InChan × Map OutChan := (s.mem, s.slate, s.ports, s.inCh, s.outCh)

/-- What a frame that goes to the ring keeps of a group: its channels. -/
def chansView (s : State) : Slate × Map InChan × Map OutChan := (s.slate, s.inCh, s.outCh)

section
variable {α β : Type} {regs : Reg → Prop} {view : State → α}

theorem Keeps.refl (s : State) : Keeps regs view s s := ⟨id, fun _ _ => rfl, rfl⟩

theorem Keeps.trans {s t u : State} (h : Keeps regs view s t) (k : Keeps regs view t u) : Keeps regs view s u :=
  ⟨fun x => k.tidy (h.tidy x), fun q hq => (k.rd q hq).trans (h.rd q hq), k.view.trans h.view⟩

theorem Keeps.ite {s a b : State} {c : Prop} [Decidable c] (ha : Keeps regs view s a) (hb : Keeps regs view s b) :
    Keeps regs view s (if c then a else b) := by
  split
  · exact ha
  · exact hb

theorem Keeps.forList {γ : Type} (l : List γ) (f : γ → State → State) (h : ∀ x ∈ l, ∀ s, Keeps regs view s (f x s))
    (s : State) :
    Keeps regs view s (forList l f s) :=
  forList_keep (Keeps regs view s) l f (fun x hx t ht => ht.trans (h x hx t)) s (Keeps.refl s)

/-- What is seen of less is kept as well. -/
theorem Keeps.weaken {regs' : Reg → Prop} {s t : State} (h : Keeps regs view s t) (f : α → β) (hr : ∀ q, regs' q → regs q) :
    Keeps regs' (fun x => f (view x)) s t := ⟨h.tidy, fun q hq => h.rd q (hr q hq), congrArg f h.view⟩

theorem Keeps.wr {r : Reg} (s : State) (v : Nat) (hr : ∀ q, regs q → q.key ≠ r.key) (hv : view (s.wr r v) = view s) :
    Keeps regs view s (s.wr r v) := ⟨tidy_wr r v, fun q hq => State.rd_wr_ne s v (hr q hq), hv⟩

/-- An update that writes no register. -/
theorem Keeps.of_rd {s t : State} (ht : s.tidy = true → t.tidy = true) (hr : ∀ q, t.rd q = s.rd q) (hv : view t = view s) :
    Keeps regs view s t := ⟨ht, fun q _ => hr q, hv⟩

/-- Of the changes of a list, each of which keeps what is seen of `x`, only that of `x` itself counts for it. -/
theorem Keeps.forList_mem {γ : Type} [DecidableEq γ] {l : List γ} {x : γ} (hl : l.Nodup) (hx : x ∈ l) {f : γ → State → State}
    (h : ∀ y ∈ l, y ≠ x → ∀ s, Keeps regs view s (f y s)) (s : State) :
    ∃ u, Keeps regs view s u ∧ Keeps regs view (f x u) (Machine.forList l f s) := by
  obtain ⟨l₁, l₂, rfl⟩ := List.append_of_mem hx
  have hl₁ : x ∉ l₁ := fun hm => (List.nodup_append.1 hl).2.2 x hm x List.mem_cons_self rfl
  have hl₂ : x ∉ l₂ := (List.nodup_cons.1 (List.nodup_append.1 hl).2.1).1
  have happ : Machine.forList (l₁ ++ x :: l₂) f s = Machine.forList l₂ f (f x (Machine.forList l₁ f s)) := List.foldl_append
  rw [happ]
  exact ⟨_, Keeps.forList l₁ f (fun y hy => h y (List.mem_append_left _ hy) fun e => hl₁ (e ▸ hy)) s,
    Keeps.forList l₂ f (fun y hy => h y (List.mem_append_right _ (List.mem_cons_of_mem x hy)) fun e => hl₂ (e ▸ hy)) _⟩

end

/-- A fault keeps all but the fault log's registers. -/
theorem Keeps.of_fault {s t : State} (hf : FaultOnly s t) (ht : s.tidy = true → t.tidy = true)
    (hr : ∀ q : Reg, GroupReg q → t.rd q = s.rd q) : Keeps GroupReg portView s t := ⟨ht, hr, (congrArg portView hf :)⟩

theorem offLog_of_group {q : Reg} (h : GroupReg q) : OffLog q := by
  unfold GroupReg at h
  unfold OffLog
  omega

theorem keeps_raise (code unit info extra : Nat) (s : State) : Keeps GroupReg portView s (raise code unit info extra s) :=
  Keeps.of_fault (FaultOnly.raise code unit info extra s) (tidy_raise code unit info extra) fun _ hq =>
    rd_raise (offLog_of_group hq) _ _ _ _ s

theorem keeps_repeatFault (code unit info : Nat) (s : State) : Keeps GroupReg portView s (repeatFault code unit info s) :=
  Keeps.of_fault (FaultOnly.repeatFault code unit info s) (tidy_repeatFault code unit info) fun q _ => rd_repeatFault _ _ _ s q

/-- A register whose object comes after those of the port groups. -/
theorem keeps_wr {r : Reg} (s : State) (v : Nat) (h : 0x2260 ≤ r.key / 256) : Keeps GroupReg portView s (s.wr r v) :=
  Keeps.wr s v (fun q hq e => by unfold GroupReg at hq; rw [e] at hq; omega) rfl

/-! ## The steering loop and the converters (R174, R200, R205) -/

theorem keeps_enterHoldover (s : State) : Keeps GroupReg portView s (enterHoldover s) := by
  unfold enterHoldover
  exact Keeps.ite (Keeps.refl s) ((keeps_wr s _ (by simp [Obj.steerState])).trans (keeps_raise _ _ _ _ _))

theorem keeps_leaderStop (g : Nat) (s : State) : Keeps GroupReg portView s (leaderStop g s) :=
  Keeps.ite (keeps_enterHoldover s) (Keeps.refl s)

theorem keeps_setConv (v : Nat) (x : Converter) (s : State) : Keeps GroupReg portView s (s.setConv v x) :=
  Keeps.of_rd (tidy_setConv v x) (fun _ => rfl) rfl

theorem keeps_convFault (code v : Nat) (s : State) : Keeps GroupReg portView s (convFault code v s) :=
  Keeps.ite (keeps_repeatFault _ _ _ s) ((keeps_setConv v _ s).trans (keeps_raise _ _ _ _ _))

theorem keeps_asState (v x : Nat) (s : State) : Keeps GroupReg portView s (s.wr (Obj.asState v) x) :=
  keeps_wr s x (by simp only [Obj.asState]; omega)

theorem keeps_enterConvHold (v : Nat) (s : State) : Keeps GroupReg portView s (enterConvHold v s) :=
  (keeps_asState v _ s).trans (keeps_convFault _ v _)

theorem keeps_convGroupStop (g : Nat) (s : State) : Keeps GroupReg portView s (convGroupStop g s) :=
  Keeps.forList _ _ (fun v _ t => Keeps.ite (keeps_enterConvHold v t) (Keeps.refl t)) s

theorem keeps_convRatioTest (v : Nat) (s : State) : Keeps GroupReg portView s (convRatioTest v s) := by
  have hfault := keeps_convFault 0x5011 v s
  unfold convRatioTest
  exact Keeps.ite (Keeps.ite ((keeps_setConv v _ s).trans (keeps_asState v _ _)) (Keeps.refl s))
    (Keeps.ite hfault (hfault.trans (keeps_enterConvHold v _)))

theorem keeps_convGroupRun (g : Nat) (s : State) : Keeps GroupReg portView s (convGroupRun g s) :=
  Keeps.forList _ _ (fun v _ t => keeps_convRatioTest v t) s

/-! ## The sluice (R208, R215, R216) -/

theorem keeps_setEdge (e : Nat) (x : Edge) (s : State) : Keeps GroupReg portView s (s.setEdge e x) :=
  Keeps.of_rd (tidy_setEdge e x) (fun _ => rfl) rfl

theorem keeps_setRing (r : Nat) (x : RingPair) (s : State) : Keeps GroupReg portView s (s.setRing r x) :=
  Keeps.of_rd (tidy_setRing r x) (fun _ => rfl) rfl

theorem keeps_addToken (e : Nat) (t : Token) (s : State) : Keeps GroupReg portView s (addToken e t s) :=
  Keeps.ite (Keeps.refl s) ((keeps_setEdge e _ s).trans (keeps_wr _ _ (by simp only [Obj.edgePosted]; omega)))

theorem keeps_reserveOut (e : Nat) (c : Nat × Bool) (s : State) : Keeps GroupReg portView s (reserveOut e c s) := by
  unfold reserveOut
  dsimp only
  split
  · exact Keeps.ite (Keeps.refl s) (keeps_setRing _ _ s)
  · exact keeps_setEdge e _ s

theorem keeps_makeReady (slot index : Nat) (toks : List Token) (creds : List (Nat × Bool)) (ops : List Word) (s : State) :
    Keeps GroupReg portView s (makeReady slot index toks creds ops s) := by
  have hfire : ∀ (t : State) (fs : List Firing) (k : Nat), Keeps GroupReg portView t { t with firings := fs, fireSeq := k } :=
    fun t _ _ => Keeps.of_rd id (fun _ => rfl) rfl
  have hin : ∀ (t : State) (x : Nat × Token), Keeps GroupReg portView t (reserveIn x.1 x.2 t) := fun t x => keeps_setEdge x.1 _ t
  have hvoids : ∀ t : State, Keeps GroupReg portView t (t.inc (Obj.nodeVoids slot)) := fun t =>
    keeps_wr t _ (by simp only [Obj.nodeVoids]; omega)
  have hstate : ∀ (t : State) (v : Nat), Keeps GroupReg portView t (t.wr (Obj.nodeState slot) v) := fun t v =>
    keeps_wr t v (by simp only [Obj.nodeState]; omega)
  unfold makeReady
  exact ((((Keeps.forList _ _ (fun x _ t => hin t x) s).trans (Keeps.forList _ _ (fun x _ t => keeps_reserveOut x.1 x.2 t) _)).trans
    (Keeps.ite (hvoids _) (Keeps.refl _))).trans (hfire _ _ _)).trans (hstate _ 2)

theorem keeps_tryReady (slot : Nat) (s : State) : Keeps GroupReg portView s (tryReady slot s) := by
  unfold tryReady
  dsimp only
  refine Keeps.ite (Keeps.refl s) (Keeps.ite (Keeps.refl s) ?_)
  split
  · exact Keeps.refl s
  · split
    · exact Keeps.refl s
    · exact keeps_makeReady _ _ _ _ _ s

theorem keeps_readyScan (s : State) : Keeps GroupReg portView s (readyScan s) :=
  Keeps.forList _ _ (fun slot _ t => keeps_tryReady slot t) s

theorem keeps_postToken (e : Nat) (t : Token) (s : State) : Keeps GroupReg portView s (postToken e t s) :=
  (keeps_addToken e t s).trans (keeps_readyScan _)

/-! ## A frame on its way to the ring (R163 to R165) -/

theorem Keeps.chans {s t : State} (h : Keeps GroupReg portView s t) : Keeps GroupReg chansView s t :=
  h.weaken (fun x => (x.2.1, x.2.2.2.1, x.2.2.2.2)) fun _ => id

theorem keeps_panPut (a : Nat) (w : Word) (lane : Option Nat) (group slot : Nat) (s : State) :
    Keeps GroupReg chansView s (panPut a w lane group slot s) :=
  Keeps.of_rd (fun h => tidy_setMemWord (s := { s with panLog := _ }) a w h) (fun _ => rfl) rfl

theorem keeps_streamStore (g a : Nat) (w : Word) (s : State) : Keeps GroupReg chansView s (streamStore g a w s) := by
  have hfresh : Keeps GroupReg chansView s (sameCycle s).2 := Keeps.of_rd id (fun _ => rfl) rfl
  have hclash : ∀ (e : PanAcc) (t : State), Keeps GroupReg chansView t (panClash e t) := fun e t =>
    Keeps.trans (Keeps.ite (Keeps.refl t) (keeps_wr t _ (by simp only [Obj.pgClashes]; omega)).chans)
      (Keeps.of_rd id (fun _ => rfl) rfl)
  unfold streamStore
  refine Keeps.ite (Keeps.refl s) ?_
  split
  · exact keeps_panPut _ _ _ _ _ s
  · exact (hfresh.trans (Keeps.ite (hclash _ _) (Keeps.refl _))).trans (keeps_panPut _ _ _ _ _ _)

theorem keeps_setPort (g : Nat) (x : Port) (s : State) : Keeps GroupReg chansView s (s.setPort g x) :=
  Keeps.of_rd (tidy_setPort g x) (fun _ => rfl) rfl

theorem keeps_endInBlock (g : Nat) (hold : Bool) (s : State) : Keeps GroupReg chansView s (endInBlock g hold s) := by
  unfold endInBlock
  dsimp only
  refine Keeps.ite (keeps_setPort g _ s) ?_
  exact (((((keeps_streamStore g _ _ s).trans (keeps_streamStore g _ _ _)).trans (keeps_streamStore g _ _ _)).trans
    (keeps_streamStore g _ _ _)).trans (keeps_setPort g _ _)).trans (keeps_postToken _ _ _).chans

/-- A frame of the block in progress goes to the ring; the last one ends the block. -/
def feedFrame (g : Nat) (hold : Bool) (s : State) : State :=
  let x := s.port g
  let st := x.inS
  let bits := maskBits (s.rd (Obj.portInMask g))
  let b := streamB s g
  let n := bits.length
  let q := min (st.fadeP + 1) 4096
  let s := if st.dropped then s
    else forList (bits.zipIdx) (fun bk s =>
      let ch := s.inchan (16 * g + bk.1)
      let w := if q < ch.len then fadeWord ch.word q ch.len else ch.word
      let w := if st.reserve then reserveWord w st.frame b else w
      streamStore g (ringWord s g (s.rd (Obj.inRingAddr g)) st.pos n (4 + n * st.frame + bk.2)) w s) s
  let s := s.setPort g { s.port g with inS := { (s.port g).inS with frame := st.frame + 1, fadeP := q } }
  if st.frame + 1 = b then endInBlock g hold s else s

theorem inFrame_eq (g : Nat) (stamp hold : Bool) (s : State) : inFrame g stamp hold s =
    if !(s.port g).inS.on || (!(s.port g).inS.active && !stamp) then s
    else feedFrame g hold (if (s.port g).inS.active then s else startInBlock g s) := rfl

theorem keeps_feedFrame (g : Nat) (hold : Bool) (s : State) : Keeps GroupReg chansView s (feedFrame g hold s) := by
  have hend : ∀ (t : State) (x : Port) (c : Prop) [Decidable c],
      Keeps GroupReg chansView t (if c then endInBlock g hold (t.setPort g x) else t.setPort g x) := fun t x _ _ =>
    Keeps.ite ((keeps_setPort g x t).trans (keeps_endInBlock g hold _)) (keeps_setPort g x t)
  unfold feedFrame
  refine Keeps.trans ?_ (hend _ _ _)
  split
  · exact Keeps.refl s
  · exact Keeps.forList _ _ (fun bk _ t => keeps_streamStore g _ _ t) s

/-- Where no block may begin, a frame starts none. -/
theorem keeps_inFrame (g : Nat) (hold : Bool) (s : State) : Keeps GroupReg chansView s (inFrame g false hold s) := by
  rw [inFrame_eq]
  split
  next => exact Keeps.refl s
  next h =>
    rw [if_pos (show (s.port g).inS.active = true by simp at h; exact h.2)]
    exact keeps_feedFrame g hold s

end Sys2Proof.Machine
end

section
/-! The work on one channel of a port group leaves the others aside (R20, R50, R154, R155): input words, output words, and the loops
over the channels of a group. -/

namespace Sys2Proof.Machine
open Sys2Proof Sys2Proof.Claims

/-! ## One channel beside the others -/

/-- The tone generator as a channel hears it (R418): where it plays, and on its own channel what it plays. -/
def toneView (c : Nat) (s : State) : Nat × Option (Nat × Nat × Nat) :=
  (s.service.toneNow,
    if s.service.toneNow = c then some (s.service.toneHz, s.service.toneDb, s.service.tonePhase) else none)

/-- What the work on channel `c` rests on beside registers, and the channel. -/
def chanView (c : Nat) (s : State) := (s.inchan c, s.outchan c, toneView c s, s.mem, s.slate, s.ports, s.lanes, s.oc, s.boot)

theorem rd_raiseOnce {q : Reg} (h : OffLog q) (key code unit info extra : Nat) (s : State) :
    (raiseOnce key code unit info extra s).rd q = s.rd q := by
  unfold raiseOnce
  split
  · exact rd_repeatFault _ _ _ s q
  · exact rd_raise h _ _ _ _ _

theorem aside_guardFault (c unit op k : Nat) (s : State) : Keeps OffLog (chanView c) s (guardFault unit op k s) :=
  ⟨tidy_raiseOnce _ _ _ _ _, fun _ hq => rd_raiseOnce hq _ _ _ _ _ s, (congrArg (chanView c) (FaultOnly.raiseOnce _ _ _ _ _ s) :)⟩

section
variable {c k : Nat} (h : c ≠ k)
include h

theorem aside_setInchan (x : InChan) (s : State) : Keeps OffLog (chanView c) s (s.setInchan k x) :=
  Keeps.of_rd (tidy_setInchan k x) (fun _ => rfl)
    (congrArg (fun y => (y, s.outchan c, toneView c s, s.mem, s.slate, s.ports, s.lanes, s.oc, s.boot)) (State.inchan_setInchan_ne s x h))

theorem aside_setOutchan (o : OutChan) (s : State) : Keeps OffLog (chanView c) s (s.setOutchan k o) :=
  Keeps.of_rd (tidy_setOutchan k o) (fun _ => rfl)
    (congrArg (fun y => (s.inchan c, y, toneView c s, s.mem, s.slate, s.ports, s.lanes, s.oc, s.boot)) (State.outchan_setOutchan_ne s o h))

theorem aside_takeInLength (s : State) : Keeps OffLog (chanView c) s (takeInLength k s) := by
  have hset := fun x => aside_setInchan h x s
  unfold takeInLength
  exact Keeps.ite (aside_guardFault c _ _ _ s) (Keeps.ite (Keeps.refl s) (Keeps.ite (hset _) (Keeps.ite (hset _) (Keeps.refl s))))

theorem aside_takeLength (s : State) : Keeps OffLog (chanView c) s (takeLength k s) := by
  have hset := fun x => aside_setOutchan h x s
  unfold takeLength
  exact Keeps.ite (aside_guardFault c _ _ _ s) (Keeps.ite (Keeps.refl s) (Keeps.ite (hset _) (Keeps.ite (hset _) (Keeps.refl s))))

theorem aside_checkOperands (s : State) : Keeps OffLog (chanView c) s (checkOperands k s) := by
  have hset := fun x => aside_setOutchan h x s
  unfold checkOperands
  exact Keeps.ite (Keeps.ite (hset _) (Keeps.refl s))
    ((hset _).trans (Keeps.forList _ _ (fun _ _ t => aside_guardFault c _ _ _ t) _))

theorem aside_serveChanges (s : State) : Keeps OffLog (chanView c) s (serveChanges k s).2 := by
  have hset := fun o t => aside_setOutchan h o t
  unfold serveChanges
  dsimp only
  repeat' split
  · exact (hset _ s).trans (hset _ _)
  all_goals exact hset _ s

end

theorem aside_watchLevel (c ch : Nat) (w : Word) (s : State) : Keeps OffLog (chanView c) s (watchLevel ch w s) :=
  Keeps.ite (Keeps.refl s) (Keeps.of_rd id (fun _ => rfl) rfl)

theorem aside_putInput {c k : Nat} (h : c ≠ k) (raw : Word) (s : State) : Keeps OffLog (chanView c) s (putInput k raw s) :=
  (aside_takeInLength h s).trans
    (Keeps.ite ((aside_setInchan h _ _).trans (aside_watchLevel c _ _ _)) ((aside_setInchan h _ _).trans (aside_watchLevel c _ _ _)))

/-- A tone that plays on another channel goes on unheard. -/
theorem aside_toneStep {c k : Nat} (h : c ≠ k) {s : State} (hk : s.service.toneNow = k) (zero : Bool) :
    Keeps OffLog (chanView c) s (toneStep zero s) := by
  have hnow : (toneStep zero s).service.toneNow = s.service.toneNow := by unfold toneStep; cases zero <;> rfl
  have htone : toneView c (toneStep zero s) = toneView c s := by
    unfold toneView
    rw [hnow, hk, if_neg (Ne.symm h), if_neg (Ne.symm h)]
  refine Keeps.of_rd (fun ht => ?_) (fun _ => ?_) ?_
  · unfold toneStep; cases zero <;> exact ht
  · unfold toneStep; cases zero <;> rfl
  · unfold chanView
    rw [htone]
    unfold toneStep; cases zero <;> rfl

theorem aside_captureChannel {c k : Nat} (h : c ≠ k) (s : State) : Keeps OffLog (chanView c) s (captureChannel k s) := by
  have htone : ∀ (t : State) (zero run : Bool),
      Keeps OffLog (chanView c) t (if t.service.toneNow = k ∧ run = true then toneStep zero t else t) := fun t zero run => by
    split
    next hk => exact aside_toneStep h hk.1 zero
    next => exact Keeps.refl t
  unfold captureChannel
  exact Keeps.ite (Keeps.refl s) (((((aside_serveChanges h s).trans (aside_takeLength h _)).trans (aside_checkOperands h _)).trans
    ((aside_setOutchan h _ _).trans (aside_watchLevel c _ _ _))).trans (htone _ _ _))

/-! ## The channels of a group -/

theorem mem_groupChannels {g c : Nat} : c ∈ groupChannels g ↔ ∃ i < 16, c = 16 * g + i := by
  simp [groupChannels, eq_comm]

theorem nodup_groupChannels (g : Nat) : (groupChannels g).Nodup :=
  List.nodup_range.map fun _ _ => Nat.add_left_cancel

/-- The group's ports, with memory and time. -/
def groupView (s : State) : List Host.Cell × Slate × Map Port := (s.mem, s.slate, s.ports)

theorem Keeps.group {c : Nat} {s t : State} (h : Keeps OffLog (chanView c) s t) : Keeps OffLog groupView s t :=
  h.weaken (fun x => (x.2.2.2.1, x.2.2.2.2.1, x.2.2.2.2.2.1)) fun _ => id

/-- Work on single channels leaves the group as it is, whichever channels they are. -/
theorem keeps_channels {l : List Nat} {f : Nat → State → State}
    (h : ∀ k ∈ l, ∀ c, c ≠ k → ∀ s, Keeps OffLog (chanView c) s (f k s)) (s : State) :
    Keeps OffLog groupView s (forList l f s) :=
  Keeps.forList l f (fun k hk t => (h k hk (k + 1) (Nat.succ_ne_self k) t).group) s

/-- Where the work on a channel leaves the others aside, a channel of the list is as its own work leaves it. -/
theorem channel_mem {l : List Nat} (hl : l.Nodup) {c : Nat} (hc : c ∈ l) {f : Nat → State → State}
    (h : ∀ k c, c ≠ k → ∀ s, Keeps OffLog (chanView c) s (f k s)) (s : State) :
    ∃ u, Keeps OffLog (chanView c) s u ∧ Keeps OffLog (chanView c) (f c u) (forList l f s) :=
  Keeps.forList_mem hl hc (fun k _ hk => h k c hk.symm) s

section
variable {c : Nat} {s t : State} (h : Keeps OffLog (chanView c) s t)
include h

theorem Keeps.inchan : t.inchan c = s.inchan c := congrArg (fun x => x.1) h.view
theorem Keeps.outchan : t.outchan c = s.outchan c := congrArg (fun x => x.2.1) h.view
theorem Keeps.tone : toneView c t = toneView c s := congrArg (fun x => x.2.2.1) h.view
theorem Keeps.lanes : t.lanes = s.lanes := congrArg (fun x => x.2.2.2.2.2.2.1) h.view
theorem Keeps.oc : t.oc = s.oc := congrArg (fun x => x.2.2.2.2.2.2.2.1) h.view
theorem Keeps.boot : t.boot = s.boot := congrArg (fun x => x.2.2.2.2.2.2.2.2) h.view
theorem Keeps.ports : t.ports = s.ports := congrArg (fun x => x.2.2.2.2.2.1) h.view

end

end Sys2Proof.Machine
end

section
/-! Input words (R152, R154, R155): a channel's word under its fade, in RUN and in HOLD. -/

namespace Sys2Proof.Machine
open Sys2Proof Sys2Proof.Claims

/-! ## What the triggers of lanes leave of the input channels -/

theorem FaultOnly.inCh {s t : State} (h : FaultOnly s t) : t.inCh = s.inCh := (congrArg State.inCh h :)

theorem inCh_ite {c : Prop} [Decidable c] {s a b : State} (ha : a.inCh = s.inCh) (hb : b.inCh = s.inCh) :
    (if c then a else b).inCh = s.inCh := by
  split
  · exact ha
  · exact hb

theorem inCh_forList {α : Type} {l : List α} {f : α → State → State} (h : ∀ x s, (f x s).inCh = s.inCh) (s : State) :
    (forList l f s).inCh = s.inCh :=
  forList_keep (fun t => t.inCh = s.inCh) l f (fun x _ t ht => (h x t).trans ht) s rfl

theorem inCh_laneFault (n bit slot : Nat) (s : State) : (laneFault n bit slot s).inCh = s.inCh := by
  obtain ⟨t, ht, e⟩ := laneFault_only n bit slot s
  rw [e, ← ht.inCh]
  unfold askSafe
  exact inCh_ite rfl rfl

theorem inCh_enterSafe (n : Nat) (s : State) : (enterSafe n s).inCh = s.inCh := by
  unfold enterSafe
  exact inCh_ite (inCh_laneFault _ _ _ _) rfl

theorem inCh_postRecord (status handle detail : Nat) (slate : Slate) (s : State) :
    (postRecord status handle detail slate s).inCh = s.inCh := by
  have hqueue : ∀ (r : Record) (t : State), (queueTpdo16 r t).inCh = t.inCh := fun r t => by
    unfold queueTpdo16
    exact inCh_ite (inCh_ite rfl rfl) rfl
  unfold postRecord
  rw [hqueue, (FaultOnly.pendAll 7 _).inCh]
  rfl

theorem inCh_completeHandle (h : Handle) (status detail : Nat) (slate : Slate) (s : State) :
    (completeHandle h status detail slate s).inCh = s.inCh :=
  (congrArg State.inCh (printTest_keeps h status detail slate _) :).trans (inCh_postRecord _ _ _ _ _)

theorem inCh_settleSplice (id : Nat) (s : State) : (settleSplice id s).inCh = s.inCh := by
  rcases settleSplice_cases id s with e | e | ⟨h, status, detail, slate, e⟩ <;> rw [e]
  · rfl
  · exact inCh_completeHandle h status detail slate _

theorem inCh_flipLane (n : Nat) (r : Splice) (s : State) : (flipLane n r s).inCh = s.inCh := by
  unfold flipLane
  rw [inCh_settleSplice]
  exact (inCh_ite (State.wr_inCh _ _ _) rfl).trans ((inCh_ite (State.wr_inCh _ _ _) rfl).trans
    (inCh_ite (State.wr_inCh _ _ _) rfl))

theorem inCh_spliceTrigger (n : Nat) (missed : Bool) (s : State) : (spliceTrigger n missed s).inCh = s.inCh := by
  unfold spliceTrigger
  dsimp only
  split
  · exact inCh_ite rfl rfl
  · exact inCh_ite (inCh_ite rfl rfl) (inCh_ite (inCh_ite rfl rfl) (inCh_flipLane n _ s))

theorem inCh_triggered (n : Nat) (s : State) : (triggered n s).inCh = s.inCh := by
  unfold triggered missTake
  refine inCh_ite ?_ (inCh_ite ?_ ?_)
  · exact (inCh_laneFault n 0 _ _).trans (inCh_spliceTrigger n _ s)
  · exact inCh_spliceTrigger n false s
  · exact inCh_spliceTrigger n false s

theorem inCh_laneTrigger (n : Nat) (s : State) : (laneTrigger n s).inCh = s.inCh := by
  rw [laneTrigger_eq]
  exact inCh_ite rfl (inCh_ite (inCh_spliceTrigger n false s) ((inCh_triggered n _).trans (inCh_ite (inCh_enterSafe n s) rfl)))

theorem inCh_triggerGroups (p : Nat → Bool) (s : State) : (triggerGroups p s).inCh = s.inCh := inCh_forList inCh_laneTrigger _

/-! ## A frame leaves the input channels -/

theorem inCh_startInBlock (g : Nat) (s : State) : (startInBlock g s).inCh = s.inCh := by
  unfold startInBlock
  exact inCh_ite (FaultOnly.raiseSticky _ _ _ _ _ _ _).inCh rfl

theorem inCh_inFrame (g : Nat) (stamp hold : Bool) (s : State) : (inFrame g stamp hold s).inCh = s.inCh := by
  have hfeed : ∀ t, (feedFrame g hold t).inCh = t.inCh := fun t => congrArg (fun x => x.2.1) (keeps_feedFrame g hold t).view
  rw [inFrame_eq]
  exact inCh_ite rfl ((hfeed _).trans (inCh_ite rfl (inCh_startInBlock g s)))

/-! ## A word and its fade -/

theorem chanGroup_of_mem {g c : Nat} (h : c ∈ groupChannels g) : chanGroup c = g := by
  obtain ⟨i, hi, rfl⟩ := mem_groupChannels.1 h
  unfold chanGroup
  omega

/-- An input fade's next position: a step out where a fade-out is in force, else a step in. -/
def inStep (s : State) (c : Nat) : Nat :=
  if inputFadeOut s (chanGroup c) then (s.inchan c).p - 1 else min ((s.inchan c).p + 1) (s.inchan c).len

/-- A word at a fade position, silent at 0 (R154). -/
def fadedWord (w : Word) (p len : Nat) : Word := if p = 0 then 0 else fadeWord w p len

theorem takeInLength_of_held {s : State} {c : Nat} (h : InLenHeld s c) : takeInLength c s = s := by
  obtain ⟨hgood, hval⟩ := h
  simp [takeInLength, hgood, hval]

/-- Outside PREROLL an input channel takes its word one step on. -/
theorem inchan_putInput {s : State} {c : Nat} (ht : s.tidy = true) (hl : InLenHeld s c) (hst : portSt s (chanGroup c) ≠ portPreroll)
    (raw : Word) :
    (putInput c raw s).inchan c =
      { s.inchan c with p := inStep s c, last := raw, word := fadedWord raw (inStep s c) (s.inchan c).len } := by
  unfold putInput
  dsimp only
  rw [takeInLength_of_held hl, if_neg (fun h => hst h.1), (aside_watchLevel c _ _ _).inchan,
    State.inchan_setInchan_self _ _ ((tidy_iff s).1 ht).inCh]
  rfl

section
variable {c : Nat} {s u : State} (h : Keeps OffLog (chanView c) s u)
include h

theorem Keeps.portSt : portSt u (chanGroup c) = portSt s (chanGroup c) :=
  h.rd _ (by unfold OffLog; simp only [Obj.portState, chanGroup]; omega)

theorem Keeps.inLenHeld (hc : c < 96) (hl : InLenHeld s c) : InLenHeld u c := by
  unfold InLenHeld at hl ⊢
  rw [h.rd _ (by unfold OffLog; simp only [Obj.inFade, chanGroup, chanPos]; omega), h.inchan]
  exact hl

theorem Keeps.port (g : Nat) : u.port g = s.port g := by
  unfold State.port
  rw [h.ports]

theorem Keeps.inStep : inStep u c = inStep s c := by
  unfold Machine.inStep inputFadeOut
  rw [h.inchan, h.portSt, h.port]

theorem Keeps.latchedWord (hc : c < 96) (k : Nat) (words : List Word) : latchedWord u c k words = latchedWord s c k words := by
  unfold Machine.latchedWord
  dsimp only
  rw [h.rd _ (by unfold OffLog; simp only [Obj.portFormat, chanGroup]; omega), h.inchan, h.outchan, h.port]

end

/-! ## Words of a running group (R152) -/

/-- The words of one side of a group's lines, each into its channel. -/
def latchWords (g side : Nat) (words : List Word) (s : State) : State :=
  forUpto 8 (fun k s => putInput (16 * g + 2 * k + side) (latchedWord s (16 * g + 2 * k + side) k words) s) s

/-- The words of a whole frame become what the stream reads. -/
def takeFrame (g : Nat) (s : State) : State :=
  forList (groupChannels g) (fun c s => s.setInchan c { s.inchan c with frame := (s.inchan c).word }) s

theorem exec_inputWordLatch {g : Fin 6} {right : Bool} {words : List Word} {s : State} (h : portSt s g.val = portRun) :
    ∃ t, exec (.inputWordLatch g right words) s = .next t ∧
      t.inCh = (if right then takeFrame g.val (latchWords g.val 1 words s) else latchWords g.val 0 words s).inCh := by
  have hrun : ¬(portSt s g.val ≠ portPreroll ∧ portSt s g.val ≠ portRun ∧ portSt s g.val ≠ portRelock) := by simp [h]
  have he : exec (.inputWordLatch g right words) s = execInputWordLatch g right words s := rfl
  rw [he, execInputWordLatch]
  dsimp only
  rw [if_neg hrun]
  cases right with
  | true => exact ⟨_, rfl, (inCh_triggerGroups _ _).trans (inCh_inFrame _ _ _ _)⟩
  | false => exact ⟨_, rfl, inCh_triggerGroups _ _⟩

theorem inchan_of_inCh {s t : State} (h : t.inCh = s.inCh) (c : Nat) : t.inchan c = s.inchan c := by
  unfold State.inchan
  rw [h]

section
variable {g side c : Nat} {s : State} (hg : g < 6) (hs : side < 2) (k : Fin 8) (hc : 16 * g + 2 * k.val + side = c)
  (ht : s.tidy = true)
include hg hs hc ht

/-- The channel of line `k` is as its own word leaves it. -/
theorem inchan_latchWords (words : List Word) (hst : portSt s g = portRun) (hl : InLenHeld s c) :
    (latchWords g side words s).inchan c = { s.inchan c with
      p := inStep s c, last := latchedWord s c k.val words
      word := fadedWord (latchedWord s c k.val words) (inStep s c) (s.inchan c).len } := by
  have hgroup : chanGroup c = g := by unfold chanGroup; omega
  obtain ⟨u, hu, hend⟩ := Keeps.forList_mem (regs := OffLog) (view := chanView c) List.nodup_range (List.mem_range.2 k.isLt)
    (f := fun k s => putInput (16 * g + 2 * k + side) (latchedWord s (16 * g + 2 * k + side) k words) s)
    (fun j _ hj t => aside_putInput (by omega) _ t) s
  have hput := inchan_putInput (hu.tidy ht) (hu.inLenHeld (by omega) hl)
    (by rw [hu.portSt, hgroup, hst]; decide) (Machine.latchedWord u c k.val words)
  rw [hu.inchan, hu.inStep, hu.latchedWord (by omega)] at hput
  subst hc
  refine hend.inchan.trans ?_
  rw [hu.latchedWord (by omega)]
  exact hput

end

theorem inchan_takeFrame {g c : Nat} {s : State} (ht : s.tidy = true) (hc : c ∈ groupChannels g) :
    (takeFrame g s).inchan c = { s.inchan c with frame := (s.inchan c).word } := by
  obtain ⟨u, hu, hend⟩ := channel_mem (nodup_groupChannels g) hc
    (f := fun c s => s.setInchan c { s.inchan c with frame := (s.inchan c).word }) (fun k c h t => aside_setInchan h _ t) s
  refine hend.inchan.trans ?_
  dsimp only
  rw [State.inchan_setInchan_self c _ ((tidy_iff u).1 (hu.tidy ht)).inCh, hu.inchan]

theorem tidy_latchWords (g side : Nat) (words : List Word) {s : State} (ht : s.tidy = true) :
    (latchWords g side words s).tidy = true :=
  forUpto_keep (fun t => t.tidy = true) 8 _ (fun k _ t => (aside_putInput (Nat.succ_ne_self (16 * g + 2 * k + side)) _ t).tidy) s ht

theorem inStep_run {s : State} {c : Nat} (hst : portSt s (chanGroup c) = portRun) (hgl : (s.port (chanGroup c)).glitchRun = false)
    (hft : (s.port (chanGroup c)).fadeTest = false) : inStep s c = min ((s.inchan c).p + 1) (s.inchan c).len := by
  simp only [inStep, inputFadeOut, hst, hgl, hft]
  rfl

/-- After a latch of a running group a channel holds its faded word; its frame has it with the right side's words. -/
theorem inchan_inputWordLatch {g : Fin 6} (right : Bool) (words : List Word) (k : Fin 8) {s : State} {c : Nat}
    (hc : 16 * g.val + 2 * k.val + (if right then 1 else 0) = c) (ht : s.tidy = true)
    (hst : portSt s g.val = portRun) (hgl : (s.port g.val).glitchRun = false) (hft : (s.port g.val).fadeTest = false)
    (hl : InLenHeld s c) :
    let w := latchedWord s c k.val words
    let p := min ((s.inchan c).p + 1) (s.inchan c).len
    ∃ t f, exec (.inputWordLatch g right words) s = .next t ∧
      t.inchan c = { s.inchan c with p := p, last := w, word := fadedWord w p (s.inchan c).len, frame := f } ∧
      (right = true → f = fadedWord w p (s.inchan c).len) := by
  intro w p
  obtain ⟨t, he, hin⟩ := exec_inputWordLatch (right := right) (words := words) hst
  have hgroup : chanGroup c = g.val := by unfold chanGroup; split at hc <;> omega
  have hstep : inStep s c = p := inStep_run (by rw [hgroup, hst]) (by rw [hgroup, hgl]) (by rw [hgroup, hft])
  cases right with
  | false =>
    have hword := inchan_latchWords (side := 0) g.isLt (by omega) k hc ht words hst hl
    rw [hstep] at hword
    exact ⟨t, _, he, (inchan_of_inCh hin c).trans hword, fun h => absurd h (by decide)⟩
  | true =>
    have hword := inchan_latchWords (side := 1) g.isLt (by omega) k hc ht words hst hl
    have hframe := inchan_takeFrame (tidy_latchWords g.val 1 words ht)
      (mem_groupChannels.2 ⟨2 * k.val + 1, by omega, hc.symm⟩)
    rw [show (latchWords g.val 1 words s).inchan c = _ from hword, hstep] at hframe
    exact ⟨t, _, he, (inchan_of_inCh hin c).trans hframe, fun _ => rfl⟩

/-! ## Words in HOLD (R155, R158) -/

/-- A channel of a group in HOLD fades on from its last word. -/
def holdWord (c : Nat) (s : State) : State :=
  let s := putInput c (s.inchan c).last s
  s.setInchan c { s.inchan c with frame := (s.inchan c).word }

theorem holdStep_eq (g : Nat) (s : State) : holdStep g s = inFrame g false true (forList (groupChannels g) holdWord s) := rfl

theorem aside_holdWord {c k : Nat} (h : c ≠ k) (s : State) : Keeps OffLog (chanView c) s (holdWord k s) :=
  (aside_putInput h _ s).trans (aside_setInchan h _ _)

theorem tidy_putInput (c : Nat) (raw : Word) {s : State} (ht : s.tidy = true) : (putInput c raw s).tidy = true :=
  (aside_putInput (Nat.succ_ne_self c) raw s).tidy ht

theorem inchan_holdWord {s : State} {c : Nat} (ht : s.tidy = true) (hl : InLenHeld s c) (hst : portSt s (chanGroup c) = portHold) :
    let w := fadedWord (s.inchan c).last ((s.inchan c).p - 1) (s.inchan c).len
    (holdWord c s).inchan c = { s.inchan c with p := (s.inchan c).p - 1, word := w, frame := w } := by
  have hstep : inStep s c = (s.inchan c).p - 1 := by
    unfold inStep inputFadeOut
    rw [hst]
    rfl
  have hput := inchan_putInput ht hl (by rw [hst]; decide) (s.inchan c).last
  rw [hstep] at hput
  unfold holdWord
  dsimp only
  rw [State.inchan_setInchan_self c _ ((tidy_iff _).1 (tidy_putInput c _ ht)).inCh, hput]

/-- The channels of a group, one step on, and the state of the group. -/
theorem holdStep_says {g : Nat} (hg : g < 6) {s : State} (ht : s.tidy = true) (hst : portSt s g = portHold) :
    portSt (holdStep g s) g = portHold ∧ ∀ c ∈ groupChannels g, InLenHeld s c →
      let w := fadedWord (s.inchan c).last ((s.inchan c).p - 1) (s.inchan c).len
      (holdStep g s).inchan c = { s.inchan c with p := (s.inchan c).p - 1, word := w, frame := w } := by
  have hstate : GroupReg (Obj.portState g) := by unfold GroupReg; simp only [Obj.portState]; omega
  rw [holdStep_eq]
  refine ⟨?_, fun c hc hl => ?_⟩
  · have hloop := keeps_channels (l := groupChannels g) (fun k _ c h t => aside_holdWord h t) s
    exact ((keeps_inFrame g true _).rd _ hstate).trans ((hloop.rd _ (offLog_of_group hstate)).trans hst)
  · have hgroup := chanGroup_of_mem hc
    obtain ⟨i, hi, rfl⟩ := mem_groupChannels.1 hc
    obtain ⟨u, hu, hend⟩ := channel_mem (nodup_groupChannels g) hc (fun k c h t => aside_holdWord h t) s
    have hw := inchan_holdWord (hu.tidy ht) (hu.inLenHeld (by omega) hl) (by rw [hu.portSt, hgroup, hst])
    rw [hu.inchan] at hw
    exact (inchan_of_inCh (inCh_inFrame g false true _) _).trans (hend.inchan.trans hw)

theorem inputWords : InputWords := by
  refine ⟨fun g right words k s ht => ?_, fun g s c ht hst hc hl => ?_⟩
  · intro c x hst hgl hft hl
    obtain ⟨t, f, he, hx, hf⟩ := inchan_inputWordLatch right words k rfl ht hst hgl hft hl
    refine ⟨t, he, ?_⟩
    dsimp only
    rw [hx]
    exact ⟨rfl, rfl, rfl, hf⟩
  · obtain ⟨hst', hw⟩ := holdStep_says g.isLt ht hst
    have he : exec (.holdFadeStep g) s = .next (holdStep g.val s) := if_neg (not_not.2 hst)
    refine ⟨_, he, ?_⟩
    dsimp only
    rw [hw c hc hl]
    exact ⟨rfl, rfl, hst', rfl⟩

end Sys2Proof.Machine
end

section
/-! Output words (R20, R50, R152, R169): the stages of a channel in plain play, each of which leaves what the next one needs. -/

namespace Sys2Proof.Machine
open Sys2Proof Sys2Proof.Claims

/-! ## What the stage rests on -/

section
variable {c : Nat} {s u : State} (h : Keeps OffLog (chanView c) s u)
include h

theorem Keeps.sourceWord (hc : c < 96) (r : Pair) : sourceWord u c r = sourceWord s c r := by
  obtain ⟨hnow, hplays⟩ := Prod.mk.inj h.tone
  unfold Machine.sourceWord
  rw [hnow, h.rd _ (show OffLog (Obj.portRate (chanGroup c)) by unfold OffLog; simp only [Obj.portRate, chanGroup]; omega), h.oc, h.outchan,
    h.port]
  split
  next hc =>
    rw [hnow, if_pos hc, if_pos hc] at hplays
    obtain ⟨hhz, hdb, hphase⟩ : u.service.toneHz = s.service.toneHz ∧ u.service.toneDb = s.service.toneDb ∧
        u.service.tonePhase = s.service.tonePhase := by simpa using hplays
    rw [hhz, hdb, hphase]
  next => rfl

theorem Keeps.fadeCause : fadeCause u c = fadeCause s c := by
  have hlane : ∀ n, u.lane n = s.lane n := fun n => by unfold State.lane; rw [h.lanes]
  have howner : ∀ k, ocOwner u k = ocOwner s k := fun k => by simp only [ocOwner, hlane]
  have hsafe : u.rd Obj.holdSafe = s.rd Obj.holdSafe := h.rd _ (by simp [OffLog, Obj.holdSafe])
  simp only [Machine.fadeCause, h.outchan, hlane, howner, hsafe, h.port, h.boot]

theorem Keeps.plainPlay (hc : c < 96) (hp : PlainPlay s c) : PlainPlay u c := by
  unfold PlainPlay at hp ⊢
  rw [h.outchan, h.portSt, h.fadeCause, h.rd _ (by unfold OffLog; simp only [Obj.outFade, chanGroup, chanPos]; omega),
    h.rd _ (by unfold OffLog; simp only [Obj.portOutMask, chanGroup]; omega)]
  exact hp

end

/-! ## The stages in plain play -/

theorem groupLive_of_run {s : State} {g : Nat} (h : portSt s g = portRun) : groupLive s g = true := by
  unfold groupLive
  rw [h]
  rfl

/-- The channel with the word that it last looked at. -/
def seen (w : Word) (o : OutChan) : OutChan := { o with prev := w }

section
variable {c : Nat} {s : State} (hp : PlainPlay s c)
include hp

/-- No change waits, so the stage plays the source of the routing in use. -/
theorem serveChanges_of_plainPlay : serveChanges c s =
    (sourceWord s c (s.outchan c).route, s.setOutchan c (seen (sourceWord s c (s.outchan c).route) (s.outchan c))) := by
  obtain ⟨hrun, -, -, hpend, hcut, hpos, -, -, hcause, -⟩ := hp
  have htime : (s.outchan c).causes.timeout = false := by
    simp only [fadeCause, Bool.or_eq_false_iff] at hcause
    simp [hcause]
  have hlive : ¬((s.outchan c).p = 0 ∨ (!groupLive s (chanGroup c)) = true) := by simp [Nat.ne_of_gt hpos, groupLive_of_run hrun]
  unfold serveChanges
  dsimp only
  rw [if_neg hlive, if_neg (by rw [htime]; decide), if_neg (by rw [hcut]; decide), if_neg (by simp [hpend])]
  rfl

theorem takeLength_of_plainPlay : takeLength c s = s := by
  obtain ⟨-, -, -, -, -, -, hgood, hlen, -⟩ := hp
  simp [takeLength, hgood, hlen]

theorem checkOperands_of_plainPlay : checkOperands c s = s := by
  obtain ⟨-, hops, hbad, -⟩ := hp
  simp [checkOperands, hops, hbad]

theorem stepFade_of_plainPlay : stepFade s c = min ((s.outchan c).p + 1) (s.outchan c).len := by
  obtain ⟨-, -, -, -, -, -, -, -, hcause, -⟩ := hp
  simp [stepFade, hcause]

end

/-- Plain play does not look at the word last seen. -/
theorem plainPlay_seen {s : State} {c : Nat} (ht : s.tidy = true) (w : Word) (hp : PlainPlay s c) :
    PlainPlay (s.setOutchan c (seen w (s.outchan c))) c := by
  have hself := State.outchan_setOutchan_self c (seen w (s.outchan c)) ((tidy_iff s).1 ht).outCh
  have hcause : fadeCause (s.setOutchan c (seen w (s.outchan c))) c = fadeCause s c := by
    simp only [fadeCause, hself]
    rfl
  unfold PlainPlay
  rw [hself, hcause]
  exact hp

theorem outchan_toneStep (zero : Bool) (c : Nat) (s : State) : (toneStep zero s).outchan c = s.outchan c := by
  unfold toneStep
  cases zero <;> rfl

/-- The fade position of the word that a channel captures. -/
def nextFade (s : State) (c : Nat) : Nat :=
  if !groupLive s (chanGroup c) || (s.outchan c).guardBad then 0 else stepFade s c

/-- The word `w` as the shifter takes it at fade position `p` (R20, R152, R169). -/
def shiftedWord (s : State) (c : Nat) (w : Word) (p : Nat) : Word :=
  if !(s.rd (Obj.portOutMask (chanGroup c))).testBit (chanPos c) || p = 0 then 0
  else roundOut (fadeWord (shapeWord (s.outchan c) w) p (s.outchan c).len) (fmtWlen (s.rd (Obj.portFormat (chanGroup c))))

/-- The shifter of a channel takes a word, and the level meter and the tone go on. -/
def putOutput (c : Nat) (before w : Word) (p : Nat) (out : Word) (s : State) : State :=
  let run := groupLive s (chanGroup c)
  let s := watchLevel (0x80 + c) out (s.setOutchan c { s.outchan c with p := p, shifter := out })
  if s.service.toneNow = c ∧ run then toneStep (zeroCross w before) s else s

theorem captureChannel_eq (c : Nat) (s : State) : captureChannel c s = if portSt s (chanGroup c) = portOff then s else
    let t := checkOperands c (takeLength c (serveChanges c s).2)
    putOutput c (s.outchan c).prev (serveChanges c s).1 (nextFade t c) (shiftedWord t c (serveChanges c s).1 (nextFade t c)) t := rfl

theorem outchan_putOutput {s : State} (ht : s.tidy = true) (c : Nat) (before w : Word) (p : Nat) (out : Word) :
    (putOutput c before w p out s).outchan c = { s.outchan c with p := p, shifter := out } := by
  have hput := ((aside_watchLevel c (0x80 + c) out _).outchan).trans
    (State.outchan_setOutchan_self c { s.outchan c with p := p, shifter := out } ((tidy_iff s).1 ht).outCh)
  unfold putOutput
  dsimp only
  split
  · rw [outchan_toneStep, hput]
  · exact hput

theorem nextFade_of_plainPlay {s : State} {c : Nat} (hp : PlainPlay s c) :
    nextFade s c = min ((s.outchan c).p + 1) (s.outchan c).len := by
  have hstep := stepFade_of_plainPlay hp
  obtain ⟨hrun, -, hbad, -⟩ := hp
  rw [nextFade, groupLive_of_run hrun, hbad, hstep]
  rfl

theorem shiftedWord_of_plainPlay {s : State} {c : Nat} (hp : PlainPlay s c) (w : Word) (p : Nat) :
    shiftedWord s c w p = if p = 0 then 0
      else roundOut (fadeWord (shapeWord (s.outchan c) w) p (s.outchan c).len) (fmtWlen (s.rd (Obj.portFormat (chanGroup c)))) := by
  obtain ⟨-, -, -, -, -, -, -, -, -, hmask⟩ := hp
  simp [shiftedWord, hmask]

/-- A channel in plain play: its fade goes a step in, and the shifter takes the shaped, faded, rounded word. -/
theorem outchan_captureChannel {s : State} {c : Nat} (ht : s.tidy = true) (hp : PlainPlay s c) :
    let o := s.outchan c
    let w := sourceWord s c o.route
    let p := min (o.p + 1) o.len
    (captureChannel c s).outchan c = { seen w o with
      p := p
      shifter := if p = 0 then 0 else roundOut (fadeWord (shapeWord o w) p o.len) (fmtWlen (s.rd (Obj.portFormat (chanGroup c)))) } := by
  intro o w p
  have hp' := plainPlay_seen ht w hp
  have hself := State.outchan_setOutchan_self c (seen w o) ((tidy_iff s).1 ht).outCh
  have hrun : portSt s (chanGroup c) ≠ portOff := by rw [hp.1]; decide
  rw [captureChannel_eq, if_neg hrun, serveChanges_of_plainPlay hp]
  dsimp only
  rw [takeLength_of_plainPlay hp', checkOperands_of_plainPlay hp', nextFade_of_plainPlay hp', shiftedWord_of_plainPlay hp',
    outchan_putOutput (tidy_setOutchan c _ ht), hself]
  rfl

/-! ## A tone that switches (R418) -/

/-- The tone's fade cause goes from a channel. -/
def clearTone (k : Nat) (s : State) : State :=
  if k < 96 then s.setOutchan k { s.outchan k with causes := { (s.outchan k).causes with tone := false } } else s

theorem outchan_clearTone {s : State} (ht : s.tidy = true) (k c : Nat) :
    (clearTone k s).tidy = true ∧ ∃ x, (clearTone k s).outchan c = { s.outchan c with causes := x } := by
  unfold clearTone
  split
  · refine ⟨tidy_setOutchan k _ ht, ?_⟩
    by_cases h : c = k
    · subst h
      exact ⟨_, State.outchan_setOutchan_self c _ ((tidy_iff s).1 ht).outCh⟩
    · exact ⟨_, State.outchan_setOutchan_ne s _ h⟩
  · exact ⟨ht, _, rfl⟩

/-- The tone stays where it is, or goes on another channel, and its fade cause goes from both. -/
theorem switchTone_cases (s : State) :
    switchTone s = s ∨ ∃ k x, switchTone s = clearTone s.service.toneNow (clearTone k { s with service := x }) := by
  unfold switchTone
  split
  · exact .inl rfl
  · dsimp only
    split
    · exact .inr ⟨_, _, rfl⟩
    · exact .inl rfl

/-- A tone that switches changes no more of a channel than its fade causes. -/
theorem outchan_switchTone {s : State} (ht : s.tidy = true) (c : Nat) :
    ∃ x, (switchTone s).outchan c = { s.outchan c with causes := x } := by
  rcases switchTone_cases s with e | ⟨k, v, e⟩ <;> rw [e]
  · exact ⟨_, rfl⟩
  · obtain ⟨ht₁, x, hx⟩ := outchan_clearTone (s := { s with service := v }) ht k c
    obtain ⟨-, y, hy⟩ := outchan_clearTone ht₁ s.service.toneNow c
    exact ⟨y, hy.trans (by rw [hx]; rfl)⟩

theorem tidy_captureChannel (c : Nat) {s : State} (ht : s.tidy = true) : (captureChannel c s).tidy = true :=
  (aside_captureChannel (Nat.succ_ne_self c) s).tidy ht

theorem outputWords : OutputWords := by
  intro g right k s ht c o hp
  have hc : c < 96 := by simp only [c]; split <;> omega
  have hgroup : chanGroup c = g.val := by simp only [chanGroup, c]; split <;> omega
  obtain ⟨u, hu, hend⟩ := Keeps.forList_mem (regs := OffLog) (view := chanView c) List.nodup_range (List.mem_range.2 k.isLt)
    (f := fun k => captureChannel (16 * g.val + 2 * k + if right then 1 else 0))
    (fun j _ hj t => aside_captureChannel (by simp only [c]; omega) t) s
  have hformat : OffLog (Obj.portFormat (chanGroup c)) := by rw [hgroup]; unfold OffLog; simp only [Obj.portFormat]; omega
  have hcap := outchan_captureChannel (hu.tidy ht) (hu.plainPlay hc hp)
  dsimp only at hcap
  rw [hu.outchan, hu.sourceWord hc, hu.rd _ hformat, hgroup] at hcap
  have hloop := hend.tidy (tidy_captureChannel _ (hu.tidy ht))
  obtain ⟨x, hx⟩ := outchan_switchTone hloop c
  refine ⟨_, rfl, ?_⟩
  have hfinal := hx.trans (by rw [hend.outchan.trans hcap])
  exact ⟨congrArg OutChan.p hfinal, congrArg OutChan.shifter hfinal⟩

/-- Settles O41: a word of one channel leaves the other channels aside, so each stands as its own word leaves it. -/
theorem portWords : Obligations.PortWords := ⟨inputWords, outputWords⟩

end Sys2Proof.Machine
end

section
/-! The states of a port group (R156 to R159): what each entry writes, and what the work that follows it leaves. -/

namespace Sys2Proof.Machine
open Sys2Proof Sys2Proof.Claims

/-! ## The work that follows a change of state -/

/-- A group leaves RUN: its channels take their pending changes, and the steering loop and the converters that follow it stop. -/
def stopFollowers (g : Nat) (s : State) : State := convGroupStop g (leaderStop g (applyAll g s))

theorem Keeps.chan_in {s t : State} (h : Keeps GroupReg portView s t) (c : Nat) : t.inchan c = s.inchan c :=
  inchan_of_inCh (congrArg (fun x => x.2.2.2.1) h.view) c

theorem Keeps.chan_out {s t : State} (h : Keeps GroupReg portView s t) (c : Nat) : t.outchan c = s.outchan c := by
  have ho : t.outCh = s.outCh := congrArg (fun x => x.2.2.2.2) h.view
  unfold State.outchan
  rw [ho]

theorem Keeps.ofPorts {s t : State} (h : Keeps GroupReg portView s t) : Keeps GroupReg groupView s t :=
  h.weaken (fun x => (x.1, x.2.1, x.2.2.1)) fun _ => id

theorem Keeps.ofGroup {s t : State} (h : Keeps OffLog groupView s t) : Keeps GroupReg groupView s t :=
  h.weaken id fun _ => offLog_of_group

theorem keeps_applyAll (g : Nat) (s : State) : Keeps GroupReg groupView s (applyAll g s) :=
  (keeps_channels (fun _ _ _ h t => aside_setOutchan h _ t) s).ofGroup

theorem keeps_stopFollowers (g : Nat) (s : State) : Keeps GroupReg groupView s (stopFollowers g s) :=
  (keeps_applyAll g s).trans ((keeps_leaderStop g _).trans (keeps_convGroupStop g _)).ofPorts

section
variable {s t : State} (h : Keeps GroupReg groupView s t)
include h

theorem Keeps.group_mem : t.mem = s.mem := congrArg (fun x => x.1) h.view
theorem Keeps.group_slate : t.slate = s.slate := congrArg (fun x => x.2.1) h.view

theorem Keeps.group_port (g : Nat) : t.port g = s.port g := by
  have hp : t.ports = s.ports := congrArg (fun x => x.2.2) h.view
  unfold State.port
  rw [hp]

end

/-! ## The registers of a group -/

/-- A register of the state object of group `g` (0x2201 + 16 g). -/
def StateReg (g : Nat) (q : Reg) : Prop := q.key / 256 = 0x2201 + 16 * g

theorem StateReg.group {g : Nat} {q : Reg} (hg : g < 6) (h : StateReg g q) : GroupReg q := by
  unfold StateReg at h
  unfold GroupReg
  omega

theorem stateReg_portState (g : Nat) : StateReg g (Obj.portState g) := by unfold StateReg; simp only [Obj.portState]; omega
theorem stateReg_portRateMeas (g : Nat) : StateReg g (Obj.portRateMeas g) := by unfold StateReg; simp only [Obj.portRateMeas]; omega
theorem stateReg_portFaults (g : Nat) : StateReg g (Obj.portFaults g) := by unfold StateReg; simp only [Obj.portFaults]; omega
theorem stateReg_stopCount (g : Nat) : StateReg g (Obj.stopCount g) := by unfold StateReg; simp only [Obj.stopCount]; omega
theorem stateReg_rateChanges (g : Nat) : StateReg g (Obj.rateChanges g) := by unfold StateReg; simp only [Obj.rateChanges]; omega
theorem stateReg_glitchCount (g : Nat) : StateReg g (Obj.glitchCount g) := by unfold StateReg; simp only [Obj.glitchCount]; omega
theorem stateReg_glitchFades (g : Nat) : StateReg g (Obj.glitchFades g) := by unfold StateReg; simp only [Obj.glitchFades]; omega
theorem stateReg_sharedErrors (g : Nat) : StateReg g (Obj.sharedErrors g) := by unfold StateReg; simp only [Obj.sharedErrors]; omega

/-- A counter counts, up to its maximum. -/
theorem rd_inc_self {s : State} (r : Reg) (h : s.tidy = true) : (s.inc r).rd r = min (s.rd r + 1) 0xFFFFFFFF :=
  State.rd_wr_self r _ ((tidy_iff s).1 h).od

/-! ## Faults of a group (R180) -/

section
variable {g : Nat} (hg : g < 6) (k : Nat)
include hg

theorem rd_portFault {q : Reg} (h : StateReg g q) (hq : q.key ≠ (Obj.portFaults g).key) (s : State) : (portFault k g s).rd q = s.rd q :=
  rd_raiseSticky_ne (offLog_of_group (h.group hg)) hq _ _ _ _ _ s

/-- The fault sticks. -/
theorem testBit_portFault {s : State} (h : s.tidy = true) : ((portFault k g s).rd (Obj.portFaults g)).testBit (k - 1) = true :=
  testBit_raiseSticky (offLog_of_group ((stateReg_portFaults g).group hg)) _ _ _ _ _ h

end

theorem portFault_only (k g : Nat) (s : State) : FaultOnly s (portFault k g s) := FaultOnly.raiseSticky _ _ _ _ _ _ s

theorem tidy_portFault (k g : Nat) {s : State} (h : s.tidy = true) : (portFault k g s).tidy = true := tidy_raiseSticky _ _ _ _ _ _ h

theorem FaultOnly.port {s t : State} (h : FaultOnly s t) (g : Nat) : t.port g = s.port g :=
  (congrArg (fun x : State => x.port g) h :)

/-! ## A test mode that settles (R157, R162) -/

theorem settleTest_cases (g : Nat) (s : State) : settleTest g s = s ∨ ∃ x, settleTest g s = s.setPort g x := by
  unfold settleTest
  dsimp only
  split
  · exact .inr ⟨_, rfl⟩
  · exact .inl rfl

theorem settleTest_keeps (g : Nat) (s : State) :
    (s.tidy = true → (settleTest g s).tidy = true) ∧ (∀ q, (settleTest g s).rd q = s.rd q) ∧ (settleTest g s).mem = s.mem := by
  rcases settleTest_cases g s with e | ⟨x, e⟩ <;> rw [e]
  · exact ⟨id, fun _ => rfl, rfl⟩
  · exact ⟨tidy_setPort g x, fun _ => rfl, rfl⟩

/-! ## HOLD (R158) -/

/-- What an entry into HOLD writes before its fault. -/
def holdBegun (g : Nat) (s : State) : State :=
  let s := settleTest g s
  (((s.setPort g (resetMonitor (parkOut { s.port g with relockStep := 0 }))).wr (Obj.portState g) portHold).wr
    (Obj.portRateMeas g) 0).inc (Obj.stopCount g)

theorem enterHold_eq (g : Nat) (s : State) : enterHold g s = stopFollowers g (portFault 1 g (holdBegun g s)) := rfl

/-- A group in HOLD: its state, its rate, its fault and its count. -/
theorem enterHold_says {g : Nat} (hg : g < 6) {s : State} (ht : s.tidy = true) :
    (enterHold g s).tidy = true ∧ portSt (enterHold g s) g = portHold ∧ (enterHold g s).rd (Obj.portRateMeas g) = 0 ∧
      ((enterHold g s).rd (Obj.portFaults g)).testBit 0 = true ∧
      (enterHold g s).rd (Obj.stopCount g) = min (s.rd (Obj.stopCount g) + 1) 0xFFFFFFFF ∧ (enterHold g s).mem = s.mem := by
  obtain ⟨hts, hrd, hmem⟩ := settleTest_keeps g s
  have h₁ := tidy_wr (Obj.portState g) portHold
    (tidy_setPort g (resetMonitor (parkOut { (settleTest g s).port g with relockStep := 0 })) (hts ht))
  have h₂ := tidy_wr (Obj.portRateMeas g) 0 h₁
  have hb : (holdBegun g s).tidy = true := tidy_inc (Obj.stopCount g) h₂
  have hk := keeps_stopFollowers g (portFault 1 g (holdBegun g s))
  have hrest : ∀ q, StateReg g q → q.key ≠ (Obj.portFaults g).key → (enterHold g s).rd q = (holdBegun g s).rd q := fun q hq hne =>
    (hk.rd q (hq.group hg)).trans (rd_portFault hg 1 hq hne _)
  refine ⟨hk.tidy (tidy_portFault 1 g hb), ?_, ?_, ?_, ?_, ?_⟩
  · refine (hrest _ (stateReg_portState g) (by simp [Obj.portState, Obj.portFaults])).trans ?_
    unfold holdBegun
    dsimp only
    rw [State.inc, State.rd_wr_ne _ _ (by simp [Obj.portState, Obj.stopCount]),
      State.rd_wr_ne _ _ (by simp [Obj.portState, Obj.portRateMeas]), State.rd_wr_self _ _ ((tidy_iff _).1 (tidy_setPort g _ (hts ht))).od]
  · refine (hrest _ (stateReg_portRateMeas g) (by simp [Obj.portRateMeas, Obj.portFaults])).trans ?_
    unfold holdBegun
    dsimp only
    rw [State.inc, State.rd_wr_ne _ _ (by simp [Obj.portRateMeas, Obj.stopCount]), State.rd_wr_self _ _ ((tidy_iff _).1 h₁).od]
  · rw [enterHold_eq, hk.rd _ ((stateReg_portFaults g).group hg)]
    exact testBit_portFault hg 1 hb
  · refine (hrest _ (stateReg_stopCount g) (by simp [Obj.stopCount, Obj.portFaults])).trans ?_
    unfold holdBegun
    dsimp only
    rw [rd_inc_self _ h₂, State.rd_wr_ne _ _ (by simp [Obj.stopCount, Obj.portRateMeas]),
      State.rd_wr_ne _ _ (by simp [Obj.stopCount, Obj.portState]), State.setPort_rd, hrd]
  · rw [enterHold_eq, hk.group_mem, (portFault_only 1 g _).mem]
    exact hmem

/-! ## RELOCK (R159) -/

/-- What an entry into RELOCK writes before its report. -/
def relockBegun (g : Nat) (s : State) : State :=
  let s := settleTest g s
  (s.setPort g (parkOut { s.port g with relockStep := 2, good := 0, bad := 0, sum := 0, periods := 0 })).wr (Obj.portState g) portRelock

theorem enterRelock_eq (g : Nat) (report : Bool) (s : State) : enterRelock g report s =
    stopFollowers g (if report then portFault 2 g ((relockBegun g s).inc (Obj.rateChanges g)) else relockBegun g s) := rfl

theorem relockBegun_says (g : Nat) {s : State} (ht : s.tidy = true) :
    (relockBegun g s).tidy = true ∧ portSt (relockBegun g s) g = portRelock ∧
      (relockBegun g s).rd (Obj.rateChanges g) = s.rd (Obj.rateChanges g) ∧ ((relockBegun g s).port g).relockStep = 2 ∧
      ((relockBegun g s).port g).sum = 0 ∧ (relockBegun g s).mem = s.mem := by
  obtain ⟨hts, hrd, hmem⟩ := settleTest_keeps g s
  have hset := fun x => tidy_setPort g x (hts ht)
  have hport := fun x => State.port_setPort_self g x ((tidy_iff _).1 (hts ht)).ports
  unfold relockBegun
  dsimp only
  refine ⟨tidy_wr _ _ (hset _), State.rd_wr_self _ _ ((tidy_iff _).1 (hset _)).od, ?_, ?_, ?_, hmem⟩
  · rw [State.rd_wr_ne _ _ (by simp [Obj.rateChanges, Obj.portState]), State.setPort_rd, hrd]
  · rw [State.wr_port, hport]
    rfl
  · rw [State.wr_port, hport]
    rfl

/-- A group that relocks, with no report. -/
theorem enterRelock_quiet {g : Nat} (hg : g < 6) {s : State} (ht : s.tidy = true) :
    portSt (enterRelock g false s) g = portRelock ∧ ((enterRelock g false s).port g).relockStep = 2 ∧
      ((enterRelock g false s).port g).sum = 0 ∧ (enterRelock g false s).mem = s.mem := by
  obtain ⟨-, hst, -, hstep, hsum, hmem⟩ := relockBegun_says g ht
  have hk := keeps_stopFollowers g (relockBegun g s)
  rw [enterRelock_eq, if_neg (by decide), hk.group_port, hk.group_mem]
  exact ⟨(hk.rd _ ((stateReg_portState g).group hg)).trans hst, hstep, hsum, hmem⟩

/-- A group that relocks on a rate change: the change counts and is reported. -/
theorem enterRelock_report {g : Nat} (hg : g < 6) {s : State} (ht : s.tidy = true) :
    portSt (enterRelock g true s) g = portRelock ∧ ((enterRelock g true s).port g).relockStep = 2 ∧
      ((enterRelock g true s).rd (Obj.portFaults g)).testBit 1 = true ∧
      (enterRelock g true s).rd (Obj.rateChanges g) = min (s.rd (Obj.rateChanges g) + 1) 0xFFFFFFFF := by
  obtain ⟨htr, hst, hcount, hstep, -, -⟩ := relockBegun_says g ht
  have hinc := tidy_inc (Obj.rateChanges g) htr
  have hk := keeps_stopFollowers g (portFault 2 g ((relockBegun g s).inc (Obj.rateChanges g)))
  have hrest : ∀ q, StateReg g q → q.key ≠ (Obj.portFaults g).key →
      (enterRelock g true s).rd q = ((relockBegun g s).inc (Obj.rateChanges g)).rd q := fun q hq hne =>
    (hk.rd q (hq.group hg)).trans (rd_portFault hg 2 hq hne _)
  refine ⟨?_, ?_, ?_, ?_⟩
  · refine (hrest _ (stateReg_portState g) (by simp [Obj.portState, Obj.portFaults])).trans ?_
    rw [State.inc, State.rd_wr_ne _ _ (by simp [Obj.portState, Obj.rateChanges])]
    exact hst
  · rw [enterRelock_eq, if_pos rfl, hk.group_port, (portFault_only 2 g _).port]
    exact hstep
  · rw [enterRelock_eq, if_pos rfl, hk.rd _ ((stateReg_portFaults g).group hg)]
    exact testBit_portFault hg 2 hinc
  · rw [hrest _ (stateReg_rateChanges g) (by simp [Obj.rateChanges, Obj.portFaults]), rd_inc_self _ htr, hcount]

/-! ## The end of HOLD (R158) -/

/-- A step of HOLD, and the end of HOLD, keep the registers of the groups and the time. -/
theorem keeps_holdStep (g : Nat) (s : State) : Keeps GroupReg State.slate s (holdStep g s) := by
  have hloop := (keeps_channels (l := groupChannels g) (fun k _ c h t => aside_holdWord h t) s).ofGroup.weaken (fun x => x.2.1) fun _ => id
  rw [holdStep_eq]
  exact Keeps.trans hloop ((keeps_inFrame g true _).weaken (fun x => x.1) fun _ => id)

theorem keeps_holdFinish (g : Nat) (s : State) : Keeps GroupReg State.slate s (holdFinish g s) := by
  unfold holdFinish
  exact Keeps.ite (Keeps.refl s) (Keeps.forList _ _ (fun _ _ t => Keeps.ite (keeps_holdStep g t) (Keeps.refl t)) s)

theorem holdFinish_of_ne {g : Nat} {s : State} (h : portSt s g ≠ portHold) : holdFinish g s = s := if_pos h

/-- With no block in progress nothing is left to write. -/
theorem holdFinish_of_idle {g : Nat} {s : State} (h : (s.port g).inS.active = false) : holdFinish g s = s := by
  have hstep : ∀ n, forUpto n (fun _ t => if (t.port g).inS.active then holdStep g t else t) s = s := fun n =>
    forUpto_keep (· = s) n _ (fun _ _ t e => by subst e; exact if_neg (by rw [h]; decide)) s rfl
  unfold holdFinish
  split
  · rfl
  · exact hstep 64

/-! ## WAIT (R156, R175) -/

/-- The input channels of a group read zero. -/
def clearInputs (g : Nat) (s : State) : State :=
  forList (groupChannels g) (fun c s => s.setInchan c { s.inchan c with p := 0, word := 0, frame := 0 }) s

theorem keeps_clearInputs (g : Nat) (s : State) : Keeps GroupReg groupView s (clearInputs g s) :=
  (keeps_channels (fun _ _ _ h t => aside_setInchan h _ t) s).ofGroup

theorem inchan_clearInputs {g c : Nat} {s : State} (ht : s.tidy = true) (hc : c ∈ groupChannels g) :
    ((clearInputs g s).inchan c).p = 0 ∧ ((clearInputs g s).inchan c).word = 0 ∧ ((clearInputs g s).inchan c).frame = 0 := by
  obtain ⟨u, hu, hend⟩ := channel_mem (nodup_groupChannels g) hc
    (f := fun c s => s.setInchan c { s.inchan c with p := 0, word := 0, frame := 0 }) (fun k c h t => aside_setInchan h _ t) s
  rw [clearInputs, hend.inchan, State.inchan_setInchan_self c _ ((tidy_iff u).1 (hu.tidy ht)).inCh]
  exact ⟨rfl, rfl, rfl⟩

/-- The monitor of a group that enters WAIT. -/
def waitPort (x : Port) : Port :=
  resetMonitor { x with seen := false, glitchRun := false, relockStep := 0, shared := 0, sharedLead := 0 }

/-- What an entry into WAIT writes of the group. -/
def waitBegun (g : Nat) (s : State) : State :=
  ((s.setPort g (waitPort (s.port g))).wr (Obj.portState g) portWait).wr (Obj.portRateMeas g) 0

theorem enterWait_eq (g : Nat) (s : State) : enterWait g s = waitBegun g (clearInputs g (holdFinish g s)) := rfl

theorem waitBegun_says (g : Nat) {s : State} (ht : s.tidy = true) :
    (waitBegun g s).tidy = true ∧ portSt (waitBegun g s) g = portWait ∧ (waitBegun g s).rd (Obj.portRateMeas g) = 0 ∧
      (waitBegun g s).port g = waitPort (s.port g) := by
  have h₀ := tidy_setPort g (waitPort (s.port g)) ht
  have h₁ := tidy_wr (Obj.portState g) portWait h₀
  refine ⟨tidy_wr _ _ h₁, ?_, State.rd_wr_self _ _ ((tidy_iff _).1 h₁).od, State.port_setPort_self g _ ((tidy_iff _).1 ht).ports⟩
  exact (State.rd_wr_ne _ _ (by simp [Obj.portState, Obj.portRateMeas])).trans (State.rd_wr_self _ _ ((tidy_iff _).1 h₀).od)

@[simp] theorem waitBegun_slate (g : Nat) (s : State) : (waitBegun g s).slate = s.slate := rfl
@[simp] theorem waitBegun_mem (g : Nat) (s : State) : (waitBegun g s).mem = s.mem := rfl
@[simp] theorem waitBegun_inchan (g : Nat) (s : State) (c : Nat) : (waitBegun g s).inchan c = s.inchan c := rfl

/-- A group in WAIT: its inputs read zero, and its monitor starts afresh. -/
theorem enterWait_says {g : Nat} {s : State} (ht : s.tidy = true) :
    (enterWait g s).tidy = true ∧ portSt (enterWait g s) g = portWait ∧ (enterWait g s).rd (Obj.portRateMeas g) = 0 ∧
      (∃ x, (enterWait g s).port g = waitPort x) ∧ (enterWait g s).slate = s.slate ∧
      (enterWait g s).mem = (holdFinish g s).mem ∧
      ∀ c ∈ groupChannels g, ((enterWait g s).inchan c).p = 0 ∧ ((enterWait g s).inchan c).word = 0 ∧
        ((enterWait g s).inchan c).frame = 0 := by
  have hf := keeps_holdFinish g s
  have hc := keeps_clearInputs g (holdFinish g s)
  obtain ⟨htw, hst, hrate, hport⟩ := waitBegun_says g (hc.tidy (hf.tidy ht))
  rw [enterWait_eq, waitBegun_slate, waitBegun_mem]
  exact ⟨htw, hst, hrate, ⟨_, hport⟩, hc.group_slate.trans hf.view, hc.group_mem, fun c hmem => by
    rw [waitBegun_inchan]
    exact inchan_clearInputs (hf.tidy ht) hmem⟩

/-- Registers of the group other than its state and its rate. -/
theorem rd_enterWait {g : Nat} {q : Reg} (h : GroupReg q) (hst : q.key ≠ (Obj.portState g).key)
    (hrate : q.key ≠ (Obj.portRateMeas g).key) (s : State) : (enterWait g s).rd q = s.rd q := by
  rw [enterWait_eq, waitBegun, State.rd_wr_ne _ _ hrate, State.rd_wr_ne _ _ hst, State.setPort_rd, (keeps_clearInputs g _).rd q h,
    (keeps_holdFinish g s).rd q h]

/-! ## RUN (R157) -/

/-- Every channel of a group starts at p = 0. -/
def startFades (g : Nat) (s : State) : State :=
  forList (groupChannels g) (fun c s => (s.setInchan c { s.inchan c with p := 0 }).setOutchan c { s.outchan c with p := 0 }) s

/-- What an entry into RUN writes before its fades start. -/
def runBegun (g : Nat) (s : State) : State :=
  let s := if s.service.toneNow < 96 ∧ chanGroup s.service.toneNow = g then
      { s with service := { s.service with tonePhase := 0 } } else s
  let x := s.port g
  (s.setPort g { x with bad := 0, relockStep := 0, inS := { x.inS with fadeIn := true } }).wr (Obj.portState g) portRun

theorem enterRun_eq (g : Nat) (s : State) : enterRun g s = convGroupRun g (startFades g (runBegun g s)) := rfl

theorem runBegun_says (g : Nat) {s : State} (ht : s.tidy = true) : (runBegun g s).tidy = true ∧ portSt (runBegun g s) g = portRun := by
  have h₀ : ∀ t : State, t.tidy = true → ∀ x, (t.setPort g x).tidy = true := fun t h x => tidy_setPort g x h
  have htone : State.tidy (if s.service.toneNow < 96 ∧ chanGroup s.service.toneNow = g then
      { s with service := { s.service with tonePhase := 0 } } else s) = true := by
    split <;> exact ht
  exact ⟨tidy_wr _ _ (h₀ _ htone _), State.rd_wr_self _ _ ((tidy_iff _).1 (h₀ _ htone _)).od⟩

theorem aside_startFade {c k : Nat} (h : c ≠ k) (s : State) :
    Keeps OffLog (chanView c) s ((s.setInchan k { s.inchan k with p := 0 }).setOutchan k { s.outchan k with p := 0 }) :=
  (aside_setInchan h _ s).trans (aside_setOutchan h _ _)

/-- A group in RUN: every channel starts at p = 0. -/
theorem enterRun_says {g : Nat} (hg : g < 6) {s : State} (ht : s.tidy = true) :
    portSt (enterRun g s) g = portRun ∧
      ∀ c ∈ groupChannels g, ((enterRun g s).inchan c).p = 0 ∧ ((enterRun g s).outchan c).p = 0 := by
  obtain ⟨htr, hst⟩ := runBegun_says g ht
  have hk := keeps_convGroupRun g (startFades g (runBegun g s))
  have hloop := (keeps_channels (fun k _ c h t => aside_startFade h t) (runBegun g s) (l := groupChannels g)).ofGroup
  rw [enterRun_eq]
  refine ⟨(hk.rd _ ((stateReg_portState g).group hg)).trans ((hloop.rd _ ((stateReg_portState g).group hg)).trans hst), fun c hc => ?_⟩
  obtain ⟨u, hu, hend⟩ := channel_mem (nodup_groupChannels g) hc (fun k c h t => aside_startFade h t) (runBegun g s)
  have hin := hend.inchan.trans ((State.setOutchan_inchan _ c _ c).trans (State.inchan_setInchan_self c { u.inchan c with p := 0 }
    ((tidy_iff u).1 (hu.tidy htr)).inCh))
  have hout := hend.outchan.trans (State.outchan_setOutchan_self c _ ((tidy_iff _).1 (tidy_setInchan c _ (hu.tidy htr))).outCh)
  rw [hk.chan_in, hk.chan_out]
  exact ⟨congrArg InChan.p hin, congrArg OutChan.p hout⟩

/-! ## OFF (R150, R156) -/

/-- The channels of a group are silent. -/
def silence (c : Nat) (s : State) : State :=
  (s.setInchan c { s.inchan c with p := 0, last := 0, word := 0, frame := 0 }).setOutchan c { s.outchan c with p := 0, shifter := 0 }

/-- The position of a block in progress is free again. -/
def dropBlock (g : Nat) (s : State) : State :=
  if (s.port g).inS.active && !(s.port g).inS.dropped then dropPos (s.rd (Obj.inEdge g)) (s.port g).inS.pos s else s

/-- The port of a group that is OFF. -/
def offPort (mode : Nat) (x : Port) : Port :=
  { ({} : Port) with testMode := mode, inS := { x.inS with active := false, frame := 0 }, outS := { x.outS with active := false } }

/-- What an entry into OFF writes of the group itself. -/
def offBegun (g : Nat) (s : State) : State :=
  let t := dropBlock g s
  ((t.setPort g (offPort (t.rd (Obj.portTest g)) (s.port g))).wr (Obj.portState g) portOff).wr (Obj.portRateMeas g) 0

theorem enterOff_eq (g : Nat) (s : State) : enterOff g s =
    convGroupStop g (leaderStop g (forList (groupChannels g) silence (applyAll g (offBegun g (holdFinish g s))))) := rfl

theorem keeps_dropBlock (g : Nat) (s : State) : Keeps GroupReg portView s (dropBlock g s) :=
  Keeps.ite (keeps_setEdge _ _ s) (Keeps.refl s)

theorem aside_silence {c k : Nat} (h : c ≠ k) (s : State) : Keeps OffLog (chanView c) s (silence k s) :=
  (aside_setInchan h _ s).trans (aside_setOutchan h _ _)

theorem chan_silence {c : Nat} {s : State} (ht : s.tidy = true) :
    (silence c s).inchan c = { s.inchan c with p := 0, last := 0, word := 0, frame := 0 } ∧
      (silence c s).outchan c = { s.outchan c with p := 0, shifter := 0 } :=
  ⟨(State.setOutchan_inchan _ c _ c).trans (State.inchan_setInchan_self c _ ((tidy_iff s).1 ht).inCh),
    State.outchan_setOutchan_self c _ ((tidy_iff _).1 (tidy_setInchan c _ ht)).outCh⟩

theorem offBegun_says (g : Nat) {s : State} (ht : s.tidy = true) :
    (offBegun g s).tidy = true ∧ portSt (offBegun g s) g = portOff ∧ (offBegun g s).rd (Obj.portRateMeas g) = 0 ∧
      ((offBegun g s).port g).fadeOff = false ∧ (offBegun g s).mem = s.mem := by
  have hd := keeps_dropBlock g s
  have h₀ := fun x => tidy_setPort g x (hd.tidy ht)
  have h₁ := fun x => tidy_wr (Obj.portState g) portOff (h₀ x)
  refine ⟨tidy_wr _ _ (h₁ _), ?_, State.rd_wr_self _ _ ((tidy_iff _).1 (h₁ _)).od, ?_, congrArg (fun x => x.1) hd.view⟩
  · exact (State.rd_wr_ne _ _ (by simp [Obj.portState, Obj.portRateMeas])).trans (State.rd_wr_self _ _ ((tidy_iff _).1 (h₀ _)).od)
  · exact congrArg Port.fadeOff (State.port_setPort_self g _ ((tidy_iff _).1 (hd.tidy ht)).ports)

/-- Of the group's registers an entry into OFF writes only its state and its rate. -/
theorem rd_offBegun {g : Nat} {q : Reg} (h : GroupReg q) (hst : q.key ≠ (Obj.portState g).key)
    (hrate : q.key ≠ (Obj.portRateMeas g).key) (s : State) : (offBegun g s).rd q = s.rd q :=
  (State.rd_wr_ne _ _ hrate).trans ((State.rd_wr_ne _ _ hst).trans ((keeps_dropBlock g s).rd q h))

/-- The rest of an entry into OFF keeps the group. -/
theorem keeps_offEnded (g : Nat) (s : State) :
    Keeps GroupReg groupView s (convGroupStop g (leaderStop g (forList (groupChannels g) silence (applyAll g s)))) :=
  ((keeps_applyAll g s).trans (keeps_channels (fun _ _ _ h t => aside_silence h t) _).ofGroup).trans
    ((keeps_leaderStop g _).trans (keeps_convGroupStop g _)).ofPorts

theorem rd_enterOff {g : Nat} {q : Reg} (h : GroupReg q) (hst : q.key ≠ (Obj.portState g).key)
    (hrate : q.key ≠ (Obj.portRateMeas g).key) (s : State) : (enterOff g s).rd q = s.rd q := by
  rw [enterOff_eq, (keeps_offEnded g _).rd q h, rd_offBegun h hst hrate, (keeps_holdFinish g s).rd q h]

/-- A group in OFF: its rate is no more measured, it fades toward nothing, and its channels are silent. -/
theorem enterOff_says {g : Nat} (hg : g < 6) {s : State} (ht : s.tidy = true) :
    portSt (enterOff g s) g = portOff ∧ (enterOff g s).rd (Obj.portRateMeas g) = 0 ∧ ((enterOff g s).port g).fadeOff = false ∧
      (portSt s g ≠ portHold → (enterOff g s).mem = s.mem) ∧
      ∀ c ∈ groupChannels g, ((enterOff g s).inchan c).word = 0 ∧ ((enterOff g s).outchan c).p = 0 ∧
        ((enterOff g s).outchan c).shifter = 0 := by
  have hf := keeps_holdFinish g s
  obtain ⟨hto, hst, hrate, hfade, hmem⟩ := offBegun_says g (hf.tidy ht)
  have hk := keeps_offEnded g (offBegun g (holdFinish g s))
  rw [enterOff_eq]
  refine ⟨(hk.rd _ ((stateReg_portState g).group hg)).trans hst, (hk.rd _ ((stateReg_portRateMeas g).group hg)).trans hrate, ?_,
    fun h => ?_, fun c hc => ?_⟩
  · rw [hk.group_port]
    exact hfade
  · rw [hk.group_mem, hmem, holdFinish_of_ne h]
  · have ha := keeps_applyAll g (offBegun g (holdFinish g s))
    obtain ⟨u, hu, hend⟩ := channel_mem (nodup_groupChannels g) hc (fun k c h t => aside_silence h t)
      (applyAll g (offBegun g (holdFinish g s)))
    obtain ⟨hin, hout⟩ := chan_silence (c := c) (hu.tidy (ha.tidy hto))
    rw [((keeps_leaderStop g _).trans (keeps_convGroupStop g _)).chan_in, ((keeps_leaderStop g _).trans (keeps_convGroupStop g _)).chan_out,
      hend.inchan, hend.outchan, hin, hout]
    exact ⟨rfl, rfl, rfl⟩

end Sys2Proof.Machine
end

section
/-! Writes of the objects of a port group: PORT_ENABLE, PORT_TEST and PORT_CLEAR (R157, R162, R177). -/

namespace Sys2Proof.Machine
open Sys2Proof Sys2Proof.Claims

/-! ## The command objects of a port group -/

/-- A command object of the port groups, at index `i` + 16 g: a value of one byte that may be written. -/
structure PortRow (i sub : Nat) (r : ObjRow) : Prop where
  index : 0x2200 ≤ i ∧ i < 0x2203
  found : ∀ g : Fin 6, lookup (i + 16 * g.val) sub = .ok r
  writable : r.acc ≠ .ro ∧ r.acc ≠ .const
  byte : r.type.bytes = 1 ∧ r.type ≠ .guard32

theorem portRow_enable : PortRow 0x2200 1 ⟨0x2200, 6, 16, 1, 1, .bool, .rws, 0, .range 0 1⟩ :=
  ⟨by decide, by decide +kernel, by decide, by decide⟩

theorem portRow_test : PortRow 0x2200 9 ⟨0x2200, 6, 16, 9, 1, .uint 1, .rws, 0, .range 0 1⟩ :=
  ⟨by decide, by decide +kernel, by decide, by decide⟩

theorem portRow_clear : PortRow 0x2201 13 ⟨0x2201, 6, 16, 13, 1, .uint 1, .wo, 0, .bits 3⟩ :=
  ⟨by decide, by decide +kernel, by decide, by decide⟩

theorem portRow_stream : PortRow 0x2202 8 ⟨0x2202, 6, 16, 8, 1, .uint 1, .rws, 0, .bits 3⟩ :=
  ⟨by decide, by decide +kernel, by decide, by decide⟩

/-- No object of a port group but PORT_FORMAT has reserved bits beside those that its row names (R10). -/
theorem dropReserved_port {g i : Nat} (hg : g < 6) (hi : 0x2200 ≤ i ∧ i < 0x2203) (r : ObjRow) (sub v : Nat) (hsub : sub ≠ 2)
    (hd : ∀ m, r.dom = .bits m → v &&& m = v) : dropReserved r (i + 16 * g) sub v = v := by
  unfold dropReserved
  rw [if_neg (by omega), if_neg (by omega), if_neg (by omega), if_neg (by omega), if_neg (by omega), if_neg (by omega)]
  split
  next m hm => exact hd m hm
  next => rfl

/-- The command that a write of sub-index `sub` of a group's object 0x2200 + `k` is. -/
def portCommand (g k sub v : Nat) (s : State) : Option (State × Nat) :=
  match k, sub with
  | 0, 1 => some (putPortEnable g v s)
  | 0, 9 => some (writePortTest g v s, abNone)
  | 1, 13 => some (portClearBits g v s, abNone)
  | 2, 8 => some (writeStreamEnable g v s)
  | _, _ => none

/-- The commands among the objects of a port group (R157, R177, R178). -/
theorem command_port {g : Nat} (hg : g < 6) (p item v : Nat) (data : List Byte) (s : State) :
    command p item (0x2200 + 16 * g) 1 v data s = some (putPortEnable g v s) ∧
    command p item (0x2200 + 16 * g) 9 v data s = some (writePortTest g v s, abNone) ∧
    command p item (0x2201 + 16 * g) 13 v data s = some (portClearBits g v s, abNone) ∧
    command p item (0x2202 + 16 * g) 8 v data s = some (writeStreamEnable g v s) := by
  have hdispatch : ∀ i k sub, i = 0x2200 + k → k < 3 →
      command p item (i + 16 * g) sub v data s = portCommand g k sub v s := fun i k sub hi hk => by
    have hlow : i + 16 * g < 0x3000 := by omega
    have hne : ∀ j, j < 0x2200 → i + 16 * g ≠ j := by omega
    have hin : 0x2200 ≤ i + 16 * g ∧ i + 16 * g < 0x2260 := by omega
    have hgroup : (i + 16 * g - 0x2200) / 16 = g := by omega
    have hoff : (i + 16 * g) % 16 = k := by omega
    simp (disch := decide) only [command, command0, hlow, hne, hin, hgroup, hoff, if_true, if_false, false_and, and_self]
    rfl
  exact ⟨hdispatch 0x2200 0 1 rfl (by decide), hdispatch 0x2200 0 9 rfl (by decide), hdispatch 0x2201 1 13 rfl (by decide),
    hdispatch 0x2202 2 8 rfl (by decide)⟩

theorem writeNat_port {p : Path} {g : Fin 6} {i sub v a : Nat} {s t : State} {r : ObjRow} (hs : Ready s) (hr : PortRow i sub r)
    (hsub : sub ≠ 2) (hv : v < 256) (hdom : domGood r v = true) (hd : ∀ m, r.dom = .bits m → v &&& m = v)
    (hc : ∀ item data, command (pathCode p) item (i + 16 * g.val) sub v data s = some (t, a)) :
    writeNat p (i + 16 * g.val) sub 1 v s = answer (pathCode p) ((i + 16 * g.val) * 256 + sub) a [] t := by
  obtain ⟨hi, hfound, hacc, hbytes, hty⟩ := hr
  refine writeNat_command hs (hfound g) hacc hty hbytes (by omega) hv hdom fun item data => ?_
  rw [dropReserved_port g.isLt hi r sub v hsub hd]
  exact hc item data

@[simp] theorem told_mem (p : Path) (idx sub : Nat) (s : State) : (told p idx sub s).mem = s.mem := rfl
@[simp] theorem told_port (p : Path) (idx sub : Nat) (s : State) (g : Nat) : (told p idx sub s).port g = s.port g := rfl

section
variable {p : Path} {g : Fin 6} {v : Byte} {s : State} (hs : Ready s)
include hs

theorem exec_portEnableWrite (hv : v.toNat ≤ 1) : exec (.portEnableWrite p g v) s =
    .next (answer (pathCode p) ((0x2200 + 16 * g.val) * 256 + 1) (putPortEnable g.val v.toNat s).2 [] (putPortEnable g.val v.toNat s).1) :=
  congrArg Host.Outcome.next (writeNat_port hs portRow_enable (by decide) v.isLt (by simp [domGood, hv]) (by simp)
    fun _ _ => (command_port g.isLt _ _ _ _ s).1)

theorem exec_portTestWrite (hv : v.toNat ≤ 1) :
    exec (.portTestWrite p g v) s = .next (told p (0x2200 + 16 * g.val) 9 (writePortTest g.val v.toNat s)) :=
  congrArg Host.Outcome.next (writeNat_port hs portRow_test (by decide) v.isLt (by simp [domGood, hv]) (by simp)
    fun _ _ => (command_port g.isLt _ _ _ _ s).2.1)

theorem exec_portClearFaults : exec (.portClearFaults p g) s = .next (told p (0x2201 + 16 * g.val) 13 (portClearBits g.val 1 s)) :=
  congrArg Host.Outcome.next (writeNat_port hs portRow_clear (by decide) (by decide) rfl (by simp)
    fun _ _ => (command_port g.isLt _ _ _ _ s).2.2.1)

theorem exec_portClearCounters : exec (.portClearCounters p g) s = .next (told p (0x2201 + 16 * g.val) 13 (portClearBits g.val 2 s)) :=
  congrArg Host.Outcome.next (writeNat_port hs portRow_clear (by decide) (by decide) rfl (by simp)
    fun _ _ => (command_port g.isLt _ _ _ _ s).2.2.1)

theorem exec_streamEnableWrite_one : exec (.streamEnableWrite p g 1) s =
    .next (answer (pathCode p) ((0x2202 + 16 * g.val) * 256 + 8) (writeStreamEnable g.val 1 s).2 [] (writeStreamEnable g.val 1 s).1) :=
  congrArg Host.Outcome.next (writeNat_port hs portRow_stream (by decide) (by decide) rfl (by simp)
    fun _ _ => (command_port g.isLt _ _ _ _ s).2.2.2)

end

/-! ## PORT_ENABLE (R157) -/

theorem putPortEnable_good {g v : Nat} {s : State} (h : s.rd (Obj.portClock g) = 0) :
    putPortEnable g v s = (writePortEnable g v s, abNone) := by
  have hgood : portEnableGood s g = true := by simp [portEnableGood, h]
  simp [putPortEnable, hgood]

/-- A write of PORT_ENABLE leaves the state of the group. -/
theorem portSt_wr_portEnable (g v : Nat) (s : State) : portSt (s.wr (Obj.portEnable g) v) g = portSt s g :=
  State.rd_wr_ne s v (by simp only [Obj.portState, Obj.portEnable]; omega)

/-- The group as it is about to enter WAIT from OFF. -/
def startBegun (g : Nat) (s : State) : State :=
  let s := s.wr (Obj.portEnable g) 1
  s.setPort g { s.port g with testMode := s.rd (Obj.portTest g) }

theorem writePortEnable_off {g : Nat} {s : State} (ht : s.tidy = true) (hst : portSt s g = portOff) (hrun : portsMayRun s = true) :
    writePortEnable g 1 s = enterWait g (startBegun g s) := by
  have hst' := (portSt_wr_portEnable g 1 s).trans hst
  have hen : (s.wr (Obj.portEnable g) 1).rd (Obj.portEnable g) = 1 := State.rd_wr_self _ _ ((tidy_iff s).1 ht).od
  have hrun' : portsMayRun (s.wr (Obj.portEnable g) 1) = true := by
    unfold portsMayRun
    rw [State.rd_wr_ne s 1 (by simp only [Obj.pwrState, Obj.portEnable]; omega)]
    exact hrun
  have hstart : (portsMayRun (s.wr (Obj.portEnable g) 1) && (s.wr (Obj.portEnable g) 1).rd (Obj.portEnable g) == 1 &&
      portSt (s.wr (Obj.portEnable g) 1) g == portOff) = true := by
    rw [hrun', hen, hst']
    rfl
  unfold writePortEnable
  dsimp only
  rw [if_neg (by decide), if_pos hst', startGroup, if_pos hstart, startBegun]

theorem startBegun_says (g : Nat) {s : State} (ht : s.tidy = true) :
    (startBegun g s).tidy = true ∧ (startBegun g s).rd (Obj.portEnable g) = 1 ∧ portSt (startBegun g s) g = portSt s g ∧
      (startBegun g s).mem = s.mem :=
  ⟨tidy_setPort g _ (tidy_wr _ _ ht), State.rd_wr_self (Obj.portEnable g) 1 ((tidy_iff s).1 ht).od, portSt_wr_portEnable g 1 s, rfl⟩

/-- A group that has entered WAIT from OFF on a write of PORT_ENABLE. -/
theorem enterWait_startBegun {g : Nat} {s : State} (hg : g < 6) (ht : s.tidy = true) (hst : portSt s g = portOff) :
    (enterWait g (startBegun g s)).tidy = true ∧ (enterWait g (startBegun g s)).rd (Obj.portEnable g) = 1 ∧
      portSt (enterWait g (startBegun g s)) g = portWait ∧ (enterWait g (startBegun g s)).mem = s.mem := by
  obtain ⟨htb, henb, hstb, hmemb⟩ := startBegun_says g ht
  obtain ⟨htw, hwait, -, -, -, hmem, -⟩ := enterWait_says (g := g) htb
  have henable : GroupReg (Obj.portEnable g) := by
    unfold GroupReg
    simp only [Obj.portEnable]
    omega
  have hne : portSt (startBegun g s) g ≠ portHold := by
    rw [hstb, hst]
    decide
  refine ⟨htw, ?_, hwait, ?_⟩
  · rw [rd_enterWait henable (by simp only [Obj.portEnable, Obj.portState]; omega)
      (by simp only [Obj.portEnable, Obj.portRateMeas]; omega), henb]
  · rw [hmem, holdFinish_of_ne hne, hmemb]

theorem writes_portEnable_start {p : Path} {g : Fin 6} {s : State} (hs : Ready s) (hst : portSt s g.val = portOff)
    (hrun : portsMayRun s = true) (hclock : s.rd (Obj.portClock g.val) = 0) :
    Writes (.portEnableWrite p g 1) p s fun t => t.rd (Obj.portEnable g.val) = 1 ∧ portSt t g.val = portWait ∧ t.mem = s.mem := by
  have hexec : exec (.portEnableWrite p g 1) s = .next (told p (0x2200 + 16 * g.val) 1 (enterWait g.val (startBegun g.val s))) := by
    rw [exec_portEnableWrite hs (by decide), show (1 : Byte).toNat = 1 from rfl, putPortEnable_good hclock,
      writePortEnable_off hs.1 hst hrun]
    rfl
  obtain ⟨ht, henable, hwait, hmem⟩ := enterWait_startBegun g.isLt hs.1 hst
  exact ⟨_, hexec, accepted_told p _ _ ht, (told_rd ..).trans henable, (told_rd ..).trans hwait, (told_mem ..).trans hmem⟩

theorem exec_portEnableWrite_zero {p : Path} {g : Fin 6} {s : State} (hs : Ready s) : exec (.portEnableWrite p g 0) s =
    .next (told p (0x2200 + 16 * g.val) 1 (fadeTowardOff g.val (s.wr (Obj.portEnable g.val) 0))) :=
  exec_portEnableWrite hs (by decide)

theorem fadeTowardOff_off {g : Nat} {s : State} (h : portSt s g = portOff) : fadeTowardOff g s = s := if_pos h

theorem fadeTowardOff_run {g : Nat} {s : State} (h : portSt s g = portRun) :
    fadeTowardOff g s = s.setPort g { s.port g with fadeOff := true, fadeFrames := 0 } := by
  have hlive : groupLive s g = true := by simp [groupLive, h]
  unfold fadeTowardOff
  rw [if_neg (by rw [h]; decide), if_pos hlive]

/-! ## PORT_TEST (R157, R162) -/

/-- A write of PORT_TEST leaves the state of the group. -/
theorem portSt_wr_portTest (g v : Nat) (s : State) : portSt (s.wr (Obj.portTest g) v) g = portSt s g :=
  State.rd_wr_ne s v (by simp only [Obj.portState, Obj.portTest]; omega)

theorem writePortTest_off {g v : Nat} {s : State} (h : portSt s g = portOff) : writePortTest g v s = s.wr (Obj.portTest g) v := by
  unfold writePortTest
  dsimp only
  rw [portSt_wr_portTest, h]
  exact if_pos (Bool.or_true _)

/-- The port of a group whose test mode changes: it fades out, and its PREROLL starts afresh. -/
def testPort (x : Port) : Port := { parkOut x with fadeTest := true, fadeFrames := 0, frames := 0, bad := 0, owedRun := false }

theorem writePortTest_run {g v : Nat} {s : State} (h : portSt s g = portRun) (hv : s.rd (Obj.portTest g) ≠ v) :
    writePortTest g v s = convGroupStop g
      ((leaderStop g ((s.wr (Obj.portTest g) v).setPort g (testPort (s.port g)))).wr (Obj.portState g) portPreroll) := by
  have hsame : (s.rd (Obj.portTest g) == v) = false := beq_eq_false_iff_ne.2 hv
  unfold writePortTest
  dsimp only
  rw [portSt_wr_portTest, h, hsame]
  rfl

theorem writes_portTest_run {p : Path} {g : Fin 6} {v : Byte} {s : State} (hs : Ready s) (hst : portSt s g.val = portRun)
    (hv : v.toNat ≤ 1) (hne : s.rd (Obj.portTest g.val) ≠ v.toNat) :
    Writes (.portTestWrite p g v) p s fun t =>
      t.rd (Obj.portTest g.val) = v.toNat ∧ portSt t g.val = portPreroll ∧ (t.port g.val).fadeTest = true ∧
        (t.port g.val).testMode = (s.port g.val).testMode ∧ t.mem = s.mem := by
  have hexec := exec_portTestWrite (p := p) (g := g) hs hv
  rw [writePortTest_run hst hne] at hexec
  have hw := tidy_wr (Obj.portTest g.val) v.toNat hs.1
  have hset := tidy_setPort g.val (testPort (s.port g.val)) hw
  have hl := keeps_leaderStop g.val ((s.wr (Obj.portTest g.val) v.toNat).setPort g.val (testPort (s.port g.val)))
  have hpre := tidy_wr (Obj.portState g.val) portPreroll (hl.tidy hset)
  have hc := keeps_convGroupStop g.val
    ((leaderStop g.val ((s.wr (Obj.portTest g.val) v.toNat).setPort g.val (testPort (s.port g.val)))).wr (Obj.portState g.val) portPreroll)
  have htest : GroupReg (Obj.portTest g.val) := by
    unfold GroupReg
    simp only [Obj.portTest]
    omega
  have hport : ((told p (0x2200 + 16 * g.val) 9 (convGroupStop g.val ((leaderStop g.val ((s.wr (Obj.portTest g.val) v.toNat).setPort g.val
      (testPort (s.port g.val)))).wr (Obj.portState g.val) portPreroll))).port g.val) = testPort (s.port g.val) :=
    (hc.ofPorts.group_port g.val).trans ((hl.ofPorts.group_port g.val).trans (State.port_setPort_self g.val _ ((tidy_iff _).1 hw).ports))
  refine ⟨_, hexec, accepted_told p _ _ (hc.tidy hpre), ?_, ?_, ?_, ?_, ?_⟩
  · rw [told_rd, hc.rd _ htest, State.rd_wr_ne _ _ (by simp only [Obj.portTest, Obj.portState]; omega), hl.rd _ htest,
      State.setPort_rd, State.rd_wr_self _ _ ((tidy_iff s).1 hs.1).od]
  · exact (hc.rd _ ((stateReg_portState g.val).group g.isLt)).trans (State.rd_wr_self _ _ ((tidy_iff _).1 (hl.tidy hset)).od)
  · rw [hport]
    rfl
  · rw [hport]
    rfl
  · exact (hc.ofPorts.group_mem).trans hl.ofPorts.group_mem

/-! ## A clear of sticky bits (R380) -/

/-- Whether code `base + k` has a holder, and none once the registers of `clear` are 0. -/
def codeEnds (regs clear : List Reg) (s : State) (k : Nat) : Bool :=
  regs.any (fun r => (s.rd r).testBit k) && !regs.any (fun r => ((zeroRegs clear s).rd r).testBit k)

/-- Clear the active flag of code `base + k` where it has lost its last holder. -/
def clearCode (base : Nat) (regs clear : List Reg) (s : State) (k : Nat) (t : State) : State :=
  if codeEnds regs clear s k then clearActive (fun c => c == base + k) t else t

theorem clearSticky_eq (base bits : Nat) (regs clear : List Reg) (s : State) :
    clearSticky base bits regs clear s = forUpto bits (clearCode base regs clear s) (zeroRegs clear s) := rfl

section
variable (base bits : Nat) (regs clear : List Reg) (s : State)

theorem clearCode_only (k : Nat) (t : State) : FaultOnly t (clearCode base regs clear s k t) := by
  unfold clearCode
  split
  · exact clearActive_only _ t
  · exact FaultOnly.refl t

theorem clearSticky_only : FaultOnly s (clearSticky base bits regs clear s) :=
  forUpto_keep (FaultOnly s) bits _ (fun k _ t h => h.trans (clearCode_only base regs clear s k t)) _
    (forList_keep (FaultOnly s) clear _ (fun r _ t h => h.trans (FaultOnly.wr t r 0)) s (FaultOnly.refl s))

theorem tidy_clearSticky (ht : s.tidy = true) : (clearSticky base bits regs clear s).tidy = true := by
  rw [clearSticky_eq]
  refine forUpto_keep (fun t => t.tidy = true) bits (clearCode base regs clear s) (fun k _ t h => ?_) _ (tidy_zeroRegs clear ht)
  unfold clearCode
  split
  · exact tidy_clearActive _ h
  · exact h

theorem rd_clearSticky {q : Reg} (hq : OffLog q) : (clearSticky base bits regs clear s).rd q = (zeroRegs clear s).rd q := by
  rw [clearSticky_eq]
  refine forUpto_keep (fun t => t.rd q = (zeroRegs clear s).rd q) bits (clearCode base regs clear s) (fun k _ t h => ?_) _ rfl
  unfold clearCode
  split
  · exact (rd_clearActive hq _ t).trans h
  · exact h

end

/-- A code that has lost its last holder is active no more. -/
theorem active_clearSticky {base bits k : Nat} {regs clear : List Reg} {s : State} (hk : k < bits) (hcode : base + k ≠ 0xB005)
    (hend : codeEnds regs clear s k = true) : ∀ a ∈ (clearSticky base bits regs clear s).active, a.1.toNat ≠ base + k := by
  refine forList_establish (fun t => ∀ a ∈ t.active, a.1.toNat ≠ base + k) (List.range bits) (clearCode base regs clear s) k
    (List.mem_range.2 hk) (fun t a ha => ?_) (fun j _ t h a ha => ?_) _
  · rw [clearCode, if_pos hend] at ha
    rcases clearActive_active _ t a ha with ⟨-, hp⟩ | hb
    · simpa using hp
    · omega
  · unfold clearCode at ha
    split at ha
    · rcases clearActive_active _ t a ha with ⟨ha, -⟩ | hb
      · exact h a ha
      · omega
    · exact h a ha

/-! ## PORT_CLEAR (R177) -/

theorem portClearBits_one (g : Nat) (s : State) :
    portClearBits g 1 s = clearSticky 0x3001 7 ((List.range 6).map Obj.portFaults) [Obj.portFaults g] s := rfl

/-- The counters that PORT_CLEAR clears. -/
def portCounters (g : Nat) : List Reg :=
  [Obj.stopCount g, Obj.rateChanges g, Obj.glitchCount g, Obj.glitchFades g, Obj.inOverruns g, Obj.outUnderruns g,
    Obj.lateDiscards g, Obj.zcTimeouts g, Obj.sharedErrors g]

theorem portClearBits_two (g : Nat) (s : State) : portClearBits g 2 s = zeroRegs (portCounters g) s := rfl

theorem portCounters_pairwise (g : Nat) : (portCounters g).Pairwise fun r q => r.key ≠ q.key := by
  simp [portCounters, Obj.stopCount, Obj.rateChanges, Obj.glitchCount, Obj.glitchFades, Obj.inOverruns, Obj.outUnderruns,
    Obj.lateDiscards, Obj.zcTimeouts, Obj.sharedErrors]

/-- A fault that the group had, and no other group has, loses its last holder. -/
theorem codeEnds_of_alone {s : State} {g k : Nat} (hg : g < 6) (ht : s.tidy = true) (hk : (s.rd (Obj.portFaults g)).testBit k = true)
    (hother : ∀ m, m < 6 → m ≠ g → (s.rd (Obj.portFaults m)).testBit k = false) :
    codeEnds ((List.range 6).map Obj.portFaults) [Obj.portFaults g] s k = true := by
  have hnone : ∀ m < 6, ((s.wr (Obj.portFaults g) 0).rd (Obj.portFaults m)).testBit k = false := fun m hm => by
    by_cases e : m = g
    · rw [e, State.rd_wr_self _ _ ((tidy_iff s).1 ht).od, Nat.zero_testBit]
    · rw [State.rd_wr_ne s _ (by simp only [Obj.portFaults]; omega), hother m hm e]
  simp only [codeEnds, List.any_map, Bool.and_eq_true, List.any_eq_true, List.mem_range, Function.comp_apply, Bool.not_eq_true',
    List.any_eq_false, Bool.not_eq_true]
  exact ⟨⟨g, hg, hk⟩, hnone⟩

theorem writes_portClearFaults {p : Path} {g : Fin 6} {s : State} (hs : Ready s) :
    Writes (.portClearFaults p g) p s fun t =>
      t.rd (Obj.portFaults g.val) = 0 ∧ t.mem = s.mem ∧ t.ports = s.ports ∧
        ∀ k, k < 7 → (s.rd (Obj.portFaults g.val)).testBit k = true →
          (∀ m, m < 6 → m ≠ g.val → (s.rd (Obj.portFaults m)).testBit k = false) →
          ∀ a ∈ t.active, a.1.toNat ≠ 0x3001 + k := by
  have hexec := exec_portClearFaults (p := p) (g := g) hs
  rw [portClearBits_one] at hexec
  have hf := clearSticky_only 0x3001 7 ((List.range 6).map Obj.portFaults) [Obj.portFaults g.val] s
  refine ⟨_, hexec, accepted_told p _ _ (tidy_clearSticky _ _ _ _ s hs.1), ?_, hf.mem, (congrArg State.ports hf :),
    fun k hk hbit hother => ?_⟩
  · rw [told_rd, rd_clearSticky _ _ _ _ s (offLog_of_group ((stateReg_portFaults g.val).group g.isLt))]
    exact State.rd_wr_self _ _ ((tidy_iff s).1 hs.1).od
  · exact active_clearSticky hk (by omega) (codeEnds_of_alone g.isLt hs.1 hbit hother)

theorem writes_portClearCounters {p : Path} {g : Fin 6} {s : State} (hs : Ready s) :
    Writes (.portClearCounters p g) p s fun t =>
      (∀ r ∈ portCounters g.val, t.rd r = 0) ∧ RegsBut s t (portCounters g.val) ∧
        { t with od := s.od, answers := s.answers } = s := by
  have hexec := exec_portClearCounters (p := p) (g := g) hs
  rw [portClearBits_two] at hexec
  refine ⟨_, hexec, accepted_told p _ _ (tidy_zeroRegs _ hs.1), fun r hr => ?_, fun r hr => ?_, ?_⟩
  · rw [told_rd, rd_zeroRegs_mem (portCounters_pairwise g.val) hs.1 r hr]
  · rw [told_rd, rd_zeroRegs_ne _ s r hr]
  · rw [told_rest, zeroRegs_rest]

/-- Settles O13: each write reaches its command, and the entries into WAIT and OFF say the rest. That the
count of PREROLL starts with a WS fall of the very cycle in which the changed test mode takes effect (`counting := lastFall == slate`)
is the model's choice (assumption 115). -/
theorem portControls : Obligations.PortControls := by
  intro p g v s ht
  refine ⟨fun hs hst hrun hclock => writes_portEnable_start hs hst hrun hclock, fun hs hst => ?_, fun hs hst => ?_,
    fun hfade hsilent => ⟨_, if_pos ⟨hfade, .inl hsilent⟩, enterOff_says g.isLt ht⟩, fun hs hst hv => ?_,
    fun hs hst hv hne => writes_portTest_run hs hst hv hne, fun hfade hout hin => if_pos ⟨hfade, .inl ⟨hout, hin⟩⟩,
    fun hs => writes_portClearFaults hs, fun hs => writes_portClearCounters hs⟩
  · rw [exec_portEnableWrite_zero hs, fadeTowardOff_run ((portSt_wr_portEnable g.val 0 s).trans hst)]
    rfl
  · rw [exec_portEnableWrite_zero hs, fadeTowardOff_off ((portSt_wr_portEnable g.val 0 s).trans hst)]
  · rw [exec_portTestWrite hs hv, writePortTest_off hst]

end Sys2Proof.Machine
end

section
/-! The clock steering loop: LEADER, an update of the loop, and the check of a shared clock (R172 to R175). -/

namespace Sys2Proof.Machine
open Sys2Proof Sys2Proof.Claims

/-! ## The registers of the loop -/

theorem offLog_leader : OffLog Obj.leader := by simp [OffLog, Obj.leader]
theorem offLog_steerState : OffLog Obj.steerState := by simp [OffLog, Obj.steerState]
theorem offLog_steerOffset : OffLog Obj.steerOffset := by simp [OffLog, Obj.steerOffset]
theorem offLog_steerClamps : OffLog Obj.steerClamps := by simp [OffLog, Obj.steerClamps]

/-! ## LEADER (R174) -/

/-- The row of LEADER. -/
def leaderRow : ObjRow := ⟨0x2260, 1, 1, 1, 1, .uint 1, .rws, 255, .rangeOr 0 5 255⟩

theorem lookup_leader : lookup 0x2260 1 = .ok leaderRow := by decide +kernel

theorem dropReserved_leader (v : Nat) : dropReserved leaderRow 0x2260 1 v = v := by simp [dropReserved, leaderRow]

theorem command_leader (p item v : Nat) (data : List Byte) (s : State) :
    command p item 0x2260 1 v data s = some (writeLeader v s, abNone) := by simp [command, command0]

theorem exec_leaderWrite {p : Path} {v : Byte} {s : State} (hs : Ready s) (hv : v.toNat < 6 ∨ v.toNat = 255) :
    exec (.leaderWrite p v) s = .next (told p 0x2260 1 (writeLeader v.toNat s)) := by
  refine congrArg Host.Outcome.next (writeNat_command hs lookup_leader (by decide) (by decide) rfl (by decide) v.isLt ?_
    fun item data => ?_)
  · simp only [domGood, leaderRow, Bool.or_eq_true, Bool.and_eq_true, decide_eq_true_eq, beq_iff_eq]
    omega
  · rw [dropReserved_leader, command_leader]
    rfl

/-- Every group's shared-clock window starts afresh. -/
def freshWindows (s : State) : State := forUpto 6 (fun k s => s.setPort k { s.port k with shared := 0, sharedLead := 0 }) s

theorem keeps_freshWindows (s : State) : Keeps (fun _ => True) State.mem s (freshWindows s) :=
  Keeps.forList (List.range 6) _ (fun k _ _ => Keeps.of_rd (tidy_setPort k _) (fun _ => rfl) rfl) s

theorem writeLeader_group {v : Nat} (h : v ≠ 0xFF) (s : State) : writeLeader v s =
    enterHoldover (((freshWindows s).wr Obj.leader v).wr Obj.steerState
      (if (freshWindows s).rd Obj.steerState = steerHoldover then steerHoldover else steerAcquiring)) := if_neg h

/-- The loop in HOLDOVER: it keeps its leader and its offset. -/
theorem enterHoldover_says {s : State} (ht : s.tidy = true) :
    (enterHoldover s).tidy = true ∧ (enterHoldover s).rd Obj.steerState = steerHoldover ∧
      (enterHoldover s).rd Obj.leader = s.rd Obj.leader ∧ (enterHoldover s).rd Obj.steerOffset = s.rd Obj.steerOffset ∧
      (enterHoldover s).mem = s.mem := by
  have hw := tidy_wr Obj.steerState steerHoldover ht
  unfold enterHoldover
  split
  case isTrue h => exact ⟨ht, h, rfl, rfl, rfl⟩
  case isFalse =>
    refine ⟨tidy_raise _ _ _ _ hw, ?_, ?_, ?_, (FaultOnly.raise _ _ _ _ _).mem⟩
    · rw [rd_raise offLog_steerState, State.rd_wr_self _ _ ((tidy_iff s).1 ht).od]
    · rw [rd_raise offLog_leader, State.rd_wr_ne _ _ (by decide)]
    · rw [rd_raise offLog_steerOffset, State.rd_wr_ne _ _ (by decide)]

theorem writes_leader {p : Path} {v : Byte} {s : State} (hs : Ready s) (hv : v.toNat < 6) :
    Writes (.leaderWrite p v) p s fun t =>
      t.rd Obj.leader = v.toNat ∧ t.rd Obj.steerState = steerHoldover ∧ t.rd Obj.steerOffset = s.rd Obj.steerOffset ∧
        t.mem = s.mem := by
  have hexec := exec_leaderWrite (p := p) hs (.inl hv)
  rw [writeLeader_group (by omega)] at hexec
  have hf := keeps_freshWindows s
  have hl := tidy_wr Obj.leader v.toNat (hf.tidy hs.1)
  obtain ⟨ht, hst, hleader, hoff, hmem⟩ := enterHoldover_says (tidy_wr Obj.steerState
    (if (freshWindows s).rd Obj.steerState = steerHoldover then steerHoldover else steerAcquiring) hl)
  refine ⟨_, hexec, accepted_told p _ _ ht, ?_, (told_rd ..).trans hst, ?_, ?_⟩
  · rw [told_rd, hleader, State.rd_wr_ne _ _ (by decide), State.rd_wr_self _ _ ((tidy_iff _).1 (hf.tidy hs.1)).od]
  · rw [told_rd, hoff, State.rd_wr_ne _ _ (by decide), State.rd_wr_ne _ _ (by decide), hf.rd _ trivial]
  · rw [told_mem, hmem, State.wr_mem, State.wr_mem]
    exact hf.view

/-! ## An update of the loop (R173) -/

/-- The loop after an update. -/
def updatedLoop (x : Steer) (sum : Int) (steady : Nat) (clamp : Bool) : Steer :=
  { x with since := 0, sum := sum, steady := steady, clamped := clamp }

/-- What an update writes that finds the offset `y`. -/
def steered (sum : Int) (steady : Nat) (clamp : Bool) (y : Int) (err : Nat) (s : State) : State :=
  let t := (({ s with steer := updatedLoop s.steer sum steady clamp }).wr Obj.steerOffset (ofSigned 32 y)).wr Obj.steerError err
  let t := if 16 ≤ steady ∧ t.rd Obj.steerState = steerAcquiring then t.wr Obj.steerState steerLocked else t
  if clamp then
    let t := t.inc Obj.steerClamps
    if s.steer.clamped then t else raise 0x2002 (t.rd Obj.leader) err 0 t
  else t

/-- An update clamps the offset to 100 ppm, which is 10,000 units. -/
theorem steerStep_eq (s : State) :
    ∃ sum steady clamp y err, steerStep s = steered sum steady clamp y err s ∧ -10000 ≤ y ∧ y ≤ 10000 := by
  have hclamp : ∀ y : Int, -10000 ≤ (if y > 10000 then 10000 else if y < -10000 then -10000 else y) ∧
      (if y > 10000 then 10000 else if y < -10000 then -10000 else y) ≤ 10000 := fun y => by
    split
    · omega
    · split <;> omega
  exact ⟨_, _, _, _, _, rfl, hclamp _⟩

/-- A 32-bit register holds an offset within 100 ppm. -/
theorem toSigned_ofSigned_offset {y : Int} (hlo : -10000 ≤ y) (hhi : y ≤ 10000) : toSigned 32 (ofSigned 32 y) = y := by
  simp only [toSigned, ofSigned]
  omega

/-- The loop locks once it has been steady for 16 updates. -/
def lockSteady (n : Nat) (s : State) : State :=
  if 16 ≤ n ∧ s.rd Obj.steerState = steerAcquiring then s.wr Obj.steerState steerLocked else s

theorem lockSteady_says (n : Nat) {s : State} (ht : s.tidy = true) :
    (lockSteady n s).tidy = true ∧ (lockSteady n s).rd Obj.steerOffset = s.rd Obj.steerOffset ∧
      (lockSteady n s).rd Obj.steerClamps = s.rd Obj.steerClamps ∧ (lockSteady n s).steer = s.steer ∧ (lockSteady n s).mem = s.mem := by
  unfold lockSteady
  split
  · exact ⟨tidy_wr _ _ ht, State.rd_wr_ne _ _ (by decide), State.rd_wr_ne _ _ (by decide), rfl, rfl⟩
  · exact ⟨ht, rfl, rfl, rfl, rfl⟩

/-- The loop's own registers after an update, before a clamp is counted. -/
def loopWritten (sum : Int) (steady : Nat) (clamp : Bool) (y : Int) (err : Nat) (s : State) : State :=
  lockSteady steady
    ((({ s with steer := updatedLoop s.steer sum steady clamp }).wr Obj.steerOffset (ofSigned 32 y)).wr Obj.steerError err)

section
variable (sum : Int) (steady : Nat) (clamp : Bool) (y : Int) (err : Nat)

/-- A clamped update is counted, and raises a fault where the one before was not clamped. -/
theorem steered_eq (s : State) : steered sum steady clamp y err s =
    let t := loopWritten sum steady clamp y err s
    if clamp then
      if s.steer.clamped then t.inc Obj.steerClamps
      else raise 0x2002 ((t.inc Obj.steerClamps).rd Obj.leader) err 0 (t.inc Obj.steerClamps)
    else t := rfl

theorem loopWritten_says {s : State} (ht : s.tidy = true) :
    let t := loopWritten sum steady clamp y err s
    t.tidy = true ∧ t.steer = updatedLoop s.steer sum steady clamp ∧ t.rd Obj.steerOffset = ofSigned 32 y ∧
      t.rd Obj.steerClamps = s.rd Obj.steerClamps ∧ t.mem = s.mem := by
  have hu : State.tidy { s with steer := updatedLoop s.steer sum steady clamp } = true := ht
  have h₀ := tidy_wr Obj.steerOffset (ofSigned 32 y) hu
  obtain ⟨hl, hoff, hclamps, hsteer, hmem⟩ := lockSteady_says steady (tidy_wr Obj.steerError err h₀)
  refine ⟨hl, hsteer, hoff.trans ?_, hclamps.trans ?_, hmem⟩
  · rw [State.rd_wr_ne _ _ (by decide), State.rd_wr_self _ _ ((tidy_iff _).1 hu).od]
  · rw [State.rd_wr_ne _ _ (by decide), State.rd_wr_ne _ _ (by decide)]
    rfl

theorem steered_says {s : State} (ht : s.tidy = true) :
    let t := steered sum steady clamp y err s
    t.steer = updatedLoop s.steer sum steady clamp ∧ t.rd Obj.steerOffset = ofSigned 32 y ∧ t.mem = s.mem ∧
      (clamp = true → t.rd Obj.steerClamps = min (s.rd Obj.steerClamps + 1) 0xFFFFFFFF) := by
  obtain ⟨hl, hsteer, hoff, hclamps, hmem⟩ := loopWritten_says sum steady clamp y err ht
  have hoff' : ((loopWritten sum steady clamp y err s).inc Obj.steerClamps).rd Obj.steerOffset = ofSigned 32 y :=
    (State.rd_wr_ne _ _ (by decide)).trans hoff
  have hcount := (rd_inc_self Obj.steerClamps hl).trans (by rw [hclamps])
  dsimp only
  rw [steered_eq]
  dsimp only
  split
  case isFalse h => exact ⟨hsteer, hoff, hmem, fun hc => absurd hc h⟩
  case isTrue =>
    split
    · exact ⟨hsteer, hoff', hmem, fun _ => hcount⟩
    · refine ⟨?_, (rd_raise offLog_steerOffset ..).trans hoff', (FaultOnly.raise ..).mem.trans hmem,
        fun _ => (rd_raise offLog_steerClamps ..).trans hcount⟩
      exact (congrArg State.steer (FaultOnly.raise _ _ _ _ ((loopWritten sum steady clamp y err s).inc Obj.steerClamps)) :).trans hsteer

end

theorem does_steerUpdate {s : State} (ht : s.tidy = true)
    (hst : s.rd Obj.steerState = steerAcquiring ∨ s.rd Obj.steerState = steerLocked) (hsince : 16 ≤ s.steer.since) :
    Does .steerUpdate s fun t =>
      t.steer.since = 0 ∧ -10000 ≤ toSigned 32 (t.rd Obj.steerOffset) ∧ toSigned 32 (t.rd Obj.steerOffset) ≤ 10000 ∧
        (t.steer.clamped = true → t.rd Obj.steerClamps = min (s.rd Obj.steerClamps + 1) 0xFFFFFFFF) ∧ t.mem = s.mem := by
  obtain ⟨sum, steady, clamp, y, err, he, hlo, hhi⟩ := steerStep_eq s
  obtain ⟨hsteer, hoff, hmem, hclamps⟩ := steered_says sum steady clamp y err ht
  refine ⟨steerStep s, if_pos ⟨hst, hsince⟩, ?_⟩
  dsimp only
  rw [he, hsteer, hoff, toSigned_ofSigned_offset hlo hhi]
  exact ⟨rfl, hlo, hhi, hclamps, hmem⟩

/-! ## The check of a shared clock (R175) -/

/-- How far two counts lie apart. -/
theorem apart_eq (a b : Nat) : (if a ≤ b then b - a else a - b) = ((a : Int) - b).natAbs := by
  split <;> omega

section
variable {g : Fin 6} {s : State} (hclock : s.rd (Obj.portClock g.val) = 1) (hlead : 256 ≤ (s.port g.val).sharedLead)
  (hgroup : s.rd Obj.leader < 6)
include hclock hlead hgroup

theorem exec_sharedClockCheck :
    let rl := s.rd (Obj.portRate (s.rd Obj.leader))
    let off : Int := (s.port g.val).shared * rl - 256 * s.rd (Obj.portRate g.val)
    let t := s.setPort g.val { s.port g.val with shared := 0, sharedLead := 0 }
    exec (.sharedClockCheck g) s = .next (if rl < off.natAbs then portFault 7 g.val (t.inc (Obj.sharedErrors g.val)) else t) := by
  have hcase : ¬(s.rd (Obj.portClock g.val) ≠ 1 ∨ (s.port g.val).sharedLead < 256 ∨ 6 ≤ s.rd Obj.leader) := by omega
  have happart := apart_eq ((s.port g.val).shared * s.rd (Obj.portRate (s.rd Obj.leader))) (256 * s.rd (Obj.portRate g.val))
  push_cast at happart
  refine (if_neg hcase).trans ?_
  dsimp only
  rw [happart]
  simp only [decide_eq_true_eq]

/-- A shared clock that is off is counted and raised, once while its fault stays. -/
theorem does_sharedClockError (ht : s.tidy = true)
    (hoff : s.rd (Obj.portRate (s.rd Obj.leader)) < (((s.port g.val).shared * s.rd (Obj.portRate (s.rd Obj.leader)) : Int) -
      256 * s.rd (Obj.portRate g.val)).natAbs) :
    Does (.sharedClockCheck g) s fun t =>
      t.rd (Obj.sharedErrors g.val) = min (s.rd (Obj.sharedErrors g.val) + 1) 0xFFFFFFFF ∧
        (t.rd (Obj.portFaults g.val)).testBit 6 = true ∧
        t.port g.val = { s.port g.val with shared := 0, sharedLead := 0 } ∧ t.mem = s.mem := by
  have hset := tidy_setPort g.val { s.port g.val with shared := 0, sharedLead := 0 } ht
  have hf := portFault_only 7 g.val ((s.setPort g.val { s.port g.val with shared := 0, sharedLead := 0 }).inc (Obj.sharedErrors g.val))
  refine ⟨_, (exec_sharedClockCheck hclock hlead hgroup).trans (congrArg Host.Outcome.next (if_pos hoff)), ?_,
    testBit_portFault g.isLt 7 (tidy_inc _ hset), ?_, hf.mem⟩
  · rw [rd_portFault g.isLt 7 (stateReg_sharedErrors g.val) (by simp [Obj.sharedErrors, Obj.portFaults]), rd_inc_self _ hset,
      State.setPort_rd]
  · rw [hf.port]
    exact State.port_setPort_self g.val _ ((tidy_iff s).1 ht).ports

end

/-- Settles O15: LEADER by its command and the entry into HOLDOVER, an update by its clamp, the check of a shared clock by how far
the two counts of frames lie apart. -/
theorem steering : Obligations.Steering := by
  refine ⟨fun p s hs => ?_, fun p v s hs hv => writes_leader hs hv, fun s ht hst hsince => does_steerUpdate ht hst hsince,
    fun g s ht hclock hlead hgroup => ⟨fun hoff => ?_, fun hoff => does_sharedClockError hclock hlead hgroup ht hoff⟩⟩
  · rw [exec_leaderWrite hs (.inr rfl)]
    rfl
  · exact (exec_sharedClockCheck hclock hlead hgroup).trans (congrArg Host.Outcome.next (if_neg (by omega)))

end Sys2Proof.Machine
end

section
/-! WS edges and the timed moves of a port group (R157 to R162). -/

namespace Sys2Proof.Machine
open Sys2Proof Sys2Proof.Claims

/-! ## A frame start of a group in WAIT (R157, R172, R175) -/

/-- A port but for its shared-clock window. -/
def unshared (x : Port) : Port := { x with shared := 0, sharedLead := 0 }

/-- State `t` differs from `s` by group `g`'s counts of frames for the steering loop alone, as far as the group goes. -/
structure FramesOnly (g : Nat) (s t : State) : Prop where
  tidy : t.tidy = true
  rd : ∀ q, t.rd q = s.rd q
  mem : t.mem = s.mem
  inCh : t.inCh = s.inCh
  port : unshared (t.port g) = unshared (s.port g)

theorem FramesOnly.setPort {g : Nat} {s t : State} (h : FramesOnly g s t) (k : Nat) {x : Port}
    (hx : unshared x = unshared (t.port k)) : FramesOnly g s (t.setPort k x) := by
  refine ⟨tidy_setPort k x h.tidy, h.rd, h.mem, h.inCh, Eq.trans ?_ h.port⟩
  by_cases hk : g = k
  · subst hk
    rw [State.port_setPort_self g x ((tidy_iff t).1 h.tidy).ports, hx]
  · rw [State.port_setPort_ne t x hk]

/-- A frame start of a group that is not in RUN counts for the shared-clock windows alone. -/
theorem countFrame_only {g : Nat} {s : State} (ht : s.tidy = true) (hst : portSt s g ≠ portRun) : FramesOnly g s (countFrame g s) := by
  have hown : FramesOnly g s (s.setPort g { s.port g with shared := (s.port g).shared + 1 }) :=
    FramesOnly.setPort ⟨ht, fun _ => rfl, rfl, rfl, rfl⟩ g rfl
  have hall := forUpto_keep (FramesOnly g s) 6
    (fun k t => if portSt t k = portOff then t else t.setPort k { t.port k with sharedLead := (t.port k).sharedLead + 1 })
    (fun k _ t h => by
      split
      · exact h
      · exact h.setPort k rfl) _ hown
  unfold countFrame
  dsimp only
  split
  · exact hown
  · rw [if_pos (by rw [portSt, hall.rd]; exact hst)]
    exact hall

/-- The port of a group whose frame starts at slate `t`. -/
def startedPort (t : Slate) (x : Port) : Port :=
  { x with prevFall := x.lastFall, lastFall := t, seenFall := true, fadeFrames := x.fadeFrames + 1, counting := true }

/-- A frame starts, after the end of the one before. -/
def nextFrame (g : Nat) (s : State) : State :=
  let s := countFrame g (s.setPort g (startedPort s.slate (s.port g)))
  if portSt s g = portPreroll ∨ portSt s g = portRun then outFrame g s else s

theorem frameStart_eq (g : Nat) (s : State) : frameStart g s =
    nextFrame g (if (s.port g).seenFall then frameEnd g (slateCount s.slate - slateCount (s.port g).lastFall) s else s) := rfl

theorem nextFrame_wait {g : Nat} {s : State} (ht : s.tidy = true) (hst : portSt s g = portWait) :
    FramesOnly g (s.setPort g (startedPort s.slate (s.port g))) (nextFrame g s) := by
  have hwait : portSt (s.setPort g (startedPort s.slate (s.port g))) g = portWait := hst
  have hc := countFrame_only (tidy_setPort g (startedPort s.slate (s.port g)) ht) (g := g) (by rw [hwait]; decide)
  have hno : ¬(portSt (countFrame g (s.setPort g (startedPort s.slate (s.port g)))) g = portPreroll ∨
      portSt (countFrame g (s.setPort g (startedPort s.slate (s.port g)))) g = portRun) := by
    rw [portSt, hc.rd, ← portSt, hwait]
    decide
  unfold nextFrame
  dsimp only
  rw [if_neg hno]
  exact hc

/-- The port of a group in WAIT whose frame ends. -/
def waitedPort (ok : Bool) (x : Port) : Port :=
  { x with
    glitches := (x.glitches.map (· + 1)).filter (· < 16)
    clean := if x.glitches.contains 0 then 0 else x.clean + 1
    frames := x.frames + 1
    good := if ok then x.good + 1 else x.good }

theorem frameEnd_wait {g : Nat} {s : State} (d : Nat) (hst : portSt s g = portWait) :
    frameEnd g d s = s.setPort g (waitedPort (frameGood d 1 (s.rd (Obj.portRate g))) (s.port g)) := if_pos hst

/-! ## WS edges (R157, R158, R160) -/

/-- The group has seen a WS edge. -/
def markEdge (g : Nat) (s : State) : State := s.setPort g { s.port g with lastEdge := s.slate, seen := true }

theorem markEdge_says (g : Nat) {s : State} (ht : s.tidy = true) :
    (markEdge g s).tidy = true ∧ (markEdge g s).port g = { s.port g with lastEdge := s.slate, seen := true } :=
  ⟨tidy_setPort g _ ht, State.port_setPort_self g _ ((tidy_iff s).1 ht).ports⟩

section
variable {g : Fin 6} {s : State}

theorem exec_wsEdge_off (rise : Bool) (edges : Nat) (h : portSt s g.val = portOff) : exec (.portWsEdge g rise edges) s = .next s := if_pos h

theorem exec_wsEdge_hold (rise : Bool) (edges : Nat) (h : portSt s g.val = portHold) : exec (.portWsEdge g rise edges) s =
    .next (if rise then markEdge g.val (enterWait g.val s) else frameStart g.val (markEdge g.val (enterWait g.val s))) :=
  (if_neg (by rw [h]; decide)).trans (if_pos h)

/-- A WS edge of a group that is neither OFF nor in HOLD, and whose clock has not stopped in WAIT. -/
theorem exec_wsEdge_live (rise : Bool) (edges : Nat) (hoff : portSt s g.val ≠ portOff) (hhold : portSt s g.val ≠ portHold)
    (hgap : portSt s g.val = portWait → ¬ClockLate s g.val) : exec (.portWsEdge g rise edges) s =
      let t := markEdge g.val (if (s.port g.val).seen && edges != fmtHalf (s.rd (Obj.portFormat g.val)) then noteGlitch g.val s else s)
      .next (if rise then t else frameStart g.val t) := by
  have hno : ¬(decide (portSt s g.val = portWait) && decide (2 * 10 ^ 8 ≤
      (slateCount s.slate - slateCount (s.port g.val).lastEdge) * s.rd (Obj.portRate g.val))) = true := by
    simp only [Bool.and_eq_true, decide_eq_true_eq, not_and]
    exact hgap
  refine (if_neg hoff).trans ((if_neg hhold).trans ?_)
  dsimp only
  rw [if_neg hno]
  rfl

/-- The first WS edge of a group that has just entered WAIT: no frame has ended. -/
theorem firstEdge_says (rise : Bool) {w : State} (ht : w.tidy = true) (hst : portSt w g.val = portWait)
    (hfall : (w.port g.val).seenFall = false) :
    let t := if rise then markEdge g.val w else frameStart g.val (markEdge g.val w)
    (∀ q, t.rd q = w.rd q) ∧ t.mem = w.mem ∧ t.inCh = w.inCh ∧ (t.port g.val).lastEdge = w.slate ∧
      (t.port g.val).frames = (w.port g.val).frames := by
  obtain ⟨htm, hmark⟩ := markEdge_says g.val ht
  cases rise with
  | true =>
    rw [if_pos rfl]
    exact ⟨fun _ => rfl, rfl, rfl, (congrArg Port.lastEdge hmark :), (congrArg Port.frames hmark :)⟩
  | false =>
    have hfirst : frameStart g.val (markEdge g.val w) = nextFrame g.val (markEdge g.val w) := by
      rw [frameStart_eq, hmark]
      exact congrArg (nextFrame g.val) (if_neg (by rw [hfall]; decide))
    have hn := nextFrame_wait htm (g := g.val) hst
    have hport := hn.port
    rw [State.port_setPort_self g.val _ ((tidy_iff _).1 htm).ports, hmark] at hport
    rw [if_neg (by decide), hfirst]
    exact ⟨hn.rd, hn.mem, hn.inCh, (congrArg Port.lastEdge hport :), (congrArg Port.frames hport :)⟩

/-- A WS edge takes a group in HOLD to WAIT. -/
theorem does_wsEdge_hold (rise : Bool) (edges : Nat) (ht : s.tidy = true) (h : portSt s g.val = portHold) :
    Does (.portWsEdge g rise edges) s fun t =>
      portSt t g.val = portWait ∧ t.rd (Obj.portRateMeas g.val) = 0 ∧ (t.port g.val).lastEdge = s.slate ∧
        ((s.port g.val).inS.active = false → t.mem = s.mem) ∧ (t.port g.val).frames = 0 ∧
        ∀ c ∈ groupChannels g.val, (t.inchan c).p = 0 ∧ (t.inchan c).word = 0 ∧ (t.inchan c).frame = 0 := by
  obtain ⟨htw, hst, hrate, ⟨x, hport⟩, hslate, hmem, hchan⟩ := enterWait_says (g := g.val) ht
  have hfall : ((enterWait g.val s).port g.val).seenFall = false := congrArg Port.seenFall hport
  have hframes : ((enterWait g.val s).port g.val).frames = 0 := congrArg Port.frames hport
  obtain ⟨hrd, hmemt, hin, hlast, hframest⟩ := firstEdge_says rise htw hst hfall
  refine ⟨_, exec_wsEdge_hold rise edges h, (hrd _).trans hst, (hrd _).trans hrate, hlast.trans hslate, fun hi => ?_,
    hframest.trans hframes, fun c hc => ?_⟩
  · rw [hmemt, hmem, holdFinish_of_idle hi]
  · rw [inchan_of_inCh hin]
    exact hchan c hc

/-- A WS fall counts a frame of a group in WAIT. -/
theorem does_wsEdge_wait (edges : Nat) (ht : s.tidy = true) (hst : portSt s g.val = portWait) (hlate : ¬ClockLate s g.val)
    (hedges : edges = fmtHalf (s.rd (Obj.portFormat g.val))) (hseen : (s.port g.val).seenFall = true) :
    Does (.portWsEdge g false edges) s fun t =>
      (t.port g.val).frames = (s.port g.val).frames + 1 ∧
        (t.port g.val).good =
          (if frameGood (slateCount s.slate - slateCount (s.port g.val).lastFall) 1 (s.rd (Obj.portRate g.val)) then
            (s.port g.val).good + 1 else (s.port g.val).good) ∧
        (t.port g.val).lastFall = s.slate ∧ portSt t g.val = portWait ∧ t.mem = s.mem := by
  have hexec := exec_wsEdge_live (g := g) false edges (by rw [hst]; decide) (by rw [hst]; decide) (fun _ => hlate)
  have hhalf : ((s.port g.val).seen && edges != fmtHalf (s.rd (Obj.portFormat g.val))) = false := by simp [hedges]
  obtain ⟨htm, hmark⟩ := markEdge_says g.val ht
  have hend := frameEnd_wait (slateCount s.slate - slateCount (s.port g.val).lastFall)
    (show portSt (markEdge g.val s) g.val = portWait from hst)
  have he : frameStart g.val (markEdge g.val s) = nextFrame g.val ((markEdge g.val s).setPort g.val
      (waitedPort (frameGood (slateCount s.slate - slateCount (s.port g.val).lastFall) 1 (s.rd (Obj.portRate g.val)))
        { s.port g.val with lastEdge := s.slate, seen := true })) := by
    rw [frameStart_eq, hmark, if_pos hseen]
    exact congrArg (nextFrame g.val) (hend.trans (by rw [hmark]; rfl))
  have hset := fun y => tidy_setPort g.val y htm
  have hn := nextFrame_wait (hset (waitedPort (frameGood (slateCount s.slate - slateCount (s.port g.val).lastFall) 1
    (s.rd (Obj.portRate g.val))) { s.port g.val with lastEdge := s.slate, seen := true })) (g := g.val) hst
  have hpn := hn.port
  rw [State.port_setPort_self g.val _ ((tidy_iff _).1 (hset _)).ports, State.port_setPort_self g.val _ ((tidy_iff _).1 htm).ports] at hpn
  rw [hhalf] at hexec
  refine ⟨_, hexec, ?_⟩
  dsimp only
  rw [if_neg (by decide), if_neg (by decide), he]
  exact ⟨(congrArg Port.frames hpn :), (congrArg Port.good hpn :), (congrArg Port.lastFall hpn :), (hn.rd _).trans hst, hn.mem⟩

end

/-! ## Glitches (R160, R161) -/

/-- The port of a group with one more glitch. -/
def glitchedPort (x : Port) : Port := { x with glitches := 0 :: x.glitches, clean := 0 }

/-- A glitched half is counted. -/
def glitched (g : Nat) (s : State) : State := (s.inc (Obj.glitchCount g)).setPort g (glitchedPort (s.port g))

theorem glitched_says (g : Nat) {s : State} (ht : s.tidy = true) :
    (glitched g s).tidy = true ∧ (glitched g s).rd (Obj.glitchCount g) = min (s.rd (Obj.glitchCount g) + 1) 0xFFFFFFFF ∧
      (glitched g s).rd (Obj.glitchFades g) = s.rd (Obj.glitchFades g) ∧ (glitched g s).port g = glitchedPort (s.port g) :=
  ⟨tidy_setPort g _ (tidy_inc _ ht), rd_inc_self _ ht, State.rd_wr_ne s _ (by simp [Obj.glitchFades, Obj.glitchCount]),
    State.port_setPort_self g _ ((tidy_iff _).1 (tidy_inc _ ht)).ports⟩

theorem portSt_inc_glitchCount (g : Nat) (s : State) : portSt (s.inc (Obj.glitchCount g)) g = portSt s g :=
  State.rd_wr_ne s _ (by simp [Obj.portState, Obj.glitchCount])

theorem noteGlitch_eq (g : Nat) (s : State) : noteGlitch g s =
    if (glitchedPort (s.port g)).glitches.length < 3 ∨ (s.port g).glitchRun then glitched g s
    else if 3 ≤ (s.port g).bad ∧ (portSt s g = portPreroll ∨ portSt s g = portRun) then
      (glitched g s).setPort g { glitchedPort (s.port g) with owedRun := true }
    else startGlitchRun g (glitched g s) := by
  rw [← portSt_inc_glitchCount g s]
  rfl

theorem startGlitchRun_says {g : Nat} (hg : g < 6) {s : State} (ht : s.tidy = true) :
    (startGlitchRun g s).tidy = true ∧ (startGlitchRun g s).rd (Obj.glitchCount g) = s.rd (Obj.glitchCount g) ∧
      (startGlitchRun g s).rd (Obj.glitchFades g) = min (s.rd (Obj.glitchFades g) + 1) 0xFFFFFFFF ∧
      ((startGlitchRun g s).rd (Obj.portFaults g)).testBit 2 = true ∧
      (startGlitchRun g s).port g = { s.port g with glitchRun := true, owedRun := false } := by
  have hset := tidy_setPort g { s.port g with glitchRun := true, owedRun := false } ht
  have hinc := tidy_inc (Obj.glitchFades g) hset
  have hother := fun {q : Reg} (h : StateReg g q) (hq : q.key ≠ (Obj.portFaults g).key) => rd_portFault hg 3 h hq
    ((s.setPort g { s.port g with glitchRun := true, owedRun := false }).inc (Obj.glitchFades g))
  refine ⟨tidy_portFault 3 g hinc, ?_, ?_, testBit_portFault hg 3 hinc, ?_⟩
  · exact (hother (stateReg_glitchCount g) (by simp [Obj.glitchCount, Obj.portFaults])).trans
      (State.rd_wr_ne _ _ (by simp [Obj.glitchCount, Obj.glitchFades]))
  · exact (hother (stateReg_glitchFades g) (by simp [Obj.glitchFades, Obj.portFaults])).trans (rd_inc_self _ hset)
  · exact ((portFault_only 3 g _).port g).trans (State.port_setPort_self g _ ((tidy_iff s).1 ht).ports)

/-- A glitch is counted, whatever follows it. -/
theorem noteGlitch_counts {g : Nat} (hg : g < 6) {s : State} (ht : s.tidy = true) :
    (noteGlitch g s).tidy = true ∧ (noteGlitch g s).rd (Obj.glitchCount g) = min (s.rd (Obj.glitchCount g) + 1) 0xFFFFFFFF := by
  obtain ⟨htg, hcount, -, -⟩ := glitched_says g ht
  obtain ⟨hts, hkeep, -⟩ := startGlitchRun_says hg htg
  rw [noteGlitch_eq]
  split
  · exact ⟨htg, hcount⟩
  · split
    · exact ⟨tidy_setPort g _ htg, hcount⟩
    · exact ⟨hts, hkeep.trans hcount⟩

section
variable {g : Nat} {s : State} (hthird : 2 ≤ (s.port g).glitches.length) (hrun : (s.port g).glitchRun = false)
include hthird hrun

theorem third_glitch : ¬((glitchedPort (s.port g)).glitches.length < 3 ∨ (s.port g).glitchRun = true) := by
  rintro (hshort | hon)
  · rw [glitchedPort, List.length_cons] at hshort
    omega
  · exact absurd (hrun.symm.trans hon) (by decide)

/-- A third glitch waits for the end of its frame where that may still bring a rate change. -/
theorem noteGlitch_owed (ht : s.tidy = true) (hst : portSt s g = portRun) (hbad : 3 ≤ (s.port g).bad) :
    (noteGlitch g s).port g = { glitchedPort (s.port g) with owedRun := true } := by
  rw [noteGlitch_eq, if_neg (third_glitch hthird hrun), if_pos ⟨hbad, .inr hst⟩]
  exact State.port_setPort_self g _ ((tidy_iff _).1 (glitched_says g ht).1).ports

/-- A third glitch begins a glitch run at once where it may not. -/
theorem noteGlitch_run (ht : s.tidy = true) (hg : g < 6) (hbad : (s.port g).bad < 3) :
    ((noteGlitch g s).port g).glitchRun = true ∧ ((noteGlitch g s).rd (Obj.portFaults g)).testBit 2 = true ∧
      (noteGlitch g s).rd (Obj.glitchFades g) = min (s.rd (Obj.glitchFades g) + 1) 0xFFFFFFFF := by
  obtain ⟨htg, -, hkeep, -⟩ := glitched_says g ht
  obtain ⟨-, -, hfades, hfault, hport⟩ := startGlitchRun_says hg htg
  rw [noteGlitch_eq, if_neg (third_glitch hthird hrun), if_neg (by omega), hport, hfades, hkeep]
  exact ⟨rfl, hfault, rfl⟩

end

theorem does_wsEdge_glitch {g : Fin 6} {s : State} (edges : Nat) (ht : s.tidy = true) (hst : portSt s g.val = portRun)
    (hseen : (s.port g.val).seen = true) (hedges : edges ≠ fmtHalf (s.rd (Obj.portFormat g.val))) :
    Does (.portWsEdge g true edges) s fun t =>
      t.rd (Obj.glitchCount g.val) = min (s.rd (Obj.glitchCount g.val) + 1) 0xFFFFFFFF ∧
        (2 ≤ (s.port g.val).glitches.length → (s.port g.val).glitchRun = false → 3 ≤ (s.port g.val).bad →
          (t.port g.val).glitchRun = false ∧ (t.port g.val).owedRun = true) ∧
        (2 ≤ (s.port g.val).glitches.length → (s.port g.val).glitchRun = false → (s.port g.val).bad < 3 →
          (t.port g.val).glitchRun = true ∧ (t.rd (Obj.portFaults g.val)).testBit 2 = true ∧
            t.rd (Obj.glitchFades g.val) = min (s.rd (Obj.glitchFades g.val) + 1) 0xFFFFFFFF) := by
  have hexec := exec_wsEdge_live (g := g) true edges (by rw [hst]; decide) (by rw [hst]; decide)
    (fun h => absurd (hst.symm.trans h) (by decide))
  have hhalf : ((s.port g.val).seen && edges != fmtHalf (s.rd (Obj.portFormat g.val))) = true := by simp [hseen, hedges]
  rw [hhalf] at hexec
  obtain ⟨htn, hcount⟩ := noteGlitch_counts g.isLt ht
  obtain ⟨-, hmark⟩ := markEdge_says g.val htn
  refine ⟨markEdge g.val (noteGlitch g.val s), hexec, hcount, fun hthird hrun hbad => ?_, fun hthird hrun hbad => ?_⟩
  · rw [hmark, noteGlitch_owed hthird hrun ht hst hbad]
    exact ⟨hrun, rfl⟩
  · obtain ⟨hnew, hfault, hfades⟩ := noteGlitch_run hthird hrun ht g.isLt hbad
    rw [hmark]
    exact ⟨hnew, hfault, hfades⟩

theorem portClockEdges : PortClockEdges := by
  intro g rise edges s ht
  refine ⟨exec_wsEdge_off rise edges, does_wsEdge_hold rise edges ht, fun hst hedges => ?_,
    fun hst hlate hedges _ hseen => does_wsEdge_wait edges ht hst hlate hedges hseen,
    fun hst hseen hedges => does_wsEdge_glitch edges ht hst hseen hedges⟩
  have hhalf : ((s.port g.val).seen && edges != fmtHalf (s.rd (Obj.portFormat g.val))) = false := by simp [hedges]
  have hlive : portSt s g.val ≠ portOff ∧ portSt s g.val ≠ portHold ∧ portSt s g.val ≠ portWait := by
    rcases hst with h | h | h <;> rw [h] <;> decide
  rw [exec_wsEdge_live true edges hlive.1 hlive.2.1 (fun h => absurd h hlive.2.2), hhalf]
  rfl

/-! ## The timed moves (R157 to R159, R162) -/

theorem exec_relockMeasure {g : Fin 6} {s : State} (hst : portSt s g.val = portRelock) (hstep : (s.port g.val).relockStep = 2)
    (hperiods : 16 ≤ (s.port g.val).periods) : exec (.relockMeasureComplete g) s =
      let x := s.port g.val
      let t := s.wr (Obj.portRateMeas g.val) (meanRate x.sum)
      .next (if rateSupported (s.rd (Obj.portFormat g.val)) (meanRate x.sum) then
        t.setPort g.val { x with relock := x.sum, relockStep := 3, good := 0 }
      else portFault 4 g.val (t.setPort g.val { x with sum := 0, periods := 0 })) := by
  have hcase : ¬(portSt s g.val ≠ portRelock ∨ (s.port g.val).relockStep ≠ 2 ∨ (s.port g.val).periods < 16) := by omega
  have hformat : (s.wr (Obj.portRateMeas g.val) (meanRate (s.port g.val).sum)).rd (Obj.portFormat g.val) = s.rd (Obj.portFormat g.val) :=
    State.rd_wr_ne s _ (by simp only [Obj.portFormat, Obj.portRateMeas]; omega)
  refine (if_neg hcase).trans ?_
  dsimp only
  rw [hformat]

section
variable {g : Fin 6} {s : State} (ht : s.tidy = true)
include ht

theorem does_clockStop (hst : portSt s g.val = portPreroll ∨ portSt s g.val = portRun ∨ portSt s g.val = portRelock)
    (hlate : ClockLate s g.val) (hfade : (s.port g.val).fadeOff = false) :
    Does (.clockStopDetected g) s fun t =>
      portSt t g.val = portHold ∧ t.rd (Obj.portRateMeas g.val) = 0 ∧ (t.rd (Obj.portFaults g.val)).testBit 0 = true ∧
        t.rd (Obj.stopCount g.val) = min (s.rd (Obj.stopCount g.val) + 1) 0xFFFFFFFF ∧ t.mem = s.mem := by
  refine ⟨enterHold g.val s, (if_pos ⟨hst, decide_eq_true hlate⟩).trans ?_, (enterHold_says g.isLt ht).2⟩
  rw [if_neg (by rw [hfade]; decide)]

theorem does_clockStop_off (hst : portSt s g.val = portPreroll ∨ portSt s g.val = portRun ∨ portSt s g.val = portRelock)
    (hlate : ClockLate s g.val) (hfade : (s.port g.val).fadeOff = true) :
    Does (.clockStopDetected g) s fun t =>
      portSt t g.val = portOff ∧ (t.rd (Obj.portFaults g.val)).testBit 0 = true ∧
        t.rd (Obj.stopCount g.val) = min (s.rd (Obj.stopCount g.val) + 1) 0xFFFFFFFF ∧ (t.port g.val).fadeOff = false ∧
        ∀ c ∈ groupChannels g.val, (t.inchan c).word = 0 ∧ (t.outchan c).p = 0 ∧ (t.outchan c).shifter = 0 := by
  obtain ⟨hth, -, -, hfault, hcount, -⟩ := enterHold_says g.isLt ht
  obtain ⟨hoff, -, hfaded, -, hsilent⟩ := enterOff_says g.isLt hth
  have hkeep := fun {q : Reg} (h : StateReg g.val q) (h₁ : q.key ≠ (Obj.portState g.val).key)
      (h₂ : q.key ≠ (Obj.portRateMeas g.val).key) =>
    rd_enterOff (h.group g.isLt) h₁ h₂ (enterHold g.val s)
  refine ⟨enterOff g.val (enterHold g.val s), (if_pos ⟨hst, decide_eq_true hlate⟩).trans ?_, hoff, ?_, ?_, hfaded, hsilent⟩
  · rw [if_pos hfade]
  · rw [hkeep (stateReg_portFaults g.val) (by simp [Obj.portFaults, Obj.portState]) (by simp [Obj.portFaults, Obj.portRateMeas])]
    exact hfault
  · rw [hkeep (stateReg_stopCount g.val) (by simp [Obj.stopCount, Obj.portState]) (by simp [Obj.stopCount, Obj.portRateMeas])]
    exact hcount

/-- A relock at a rate that the group does not support measures again. -/
theorem does_relockMeasure_unsupported (hst : portSt s g.val = portRelock) (hstep : (s.port g.val).relockStep = 2)
    (hperiods : 16 ≤ (s.port g.val).periods)
    (hrate : rateSupported (s.rd (Obj.portFormat g.val)) (meanRate (s.port g.val).sum) = false) :
    Does (.relockMeasureComplete g) s fun t =>
      portSt t g.val = portRelock ∧ t.port g.val = { s.port g.val with sum := 0, periods := 0 } ∧
        (t.rd (Obj.portFaults g.val)).testBit 3 = true := by
  have hw := tidy_wr (Obj.portRateMeas g.val) (meanRate (s.port g.val).sum) ht
  have hset := tidy_setPort g.val { s.port g.val with sum := 0, periods := 0 } hw
  refine ⟨_, exec_relockMeasure hst hstep hperiods, ?_⟩
  rw [if_neg (by rw [hrate]; decide)]
  refine ⟨?_, ?_, testBit_portFault g.isLt 4 hset⟩
  · refine (rd_portFault g.isLt 4 (stateReg_portState g.val) (by simp [Obj.portState, Obj.portFaults]) _).trans ?_
    exact (State.rd_wr_ne s _ (by simp [Obj.portState, Obj.portRateMeas])).trans hst
  · exact ((portFault_only 4 g.val _).port g.val).trans (State.port_setPort_self g.val _ ((tidy_iff _).1 hw).ports)

end

theorem portStates : PortStates := by
  intro g s ht
  refine ⟨fun hrun hclean => if_pos ⟨hrun, hclean⟩, fun hst hframes hgood => ?_, fun hst hframes hgood => ?_,
    fun hst hfade hframes => ?_, does_clockStop ht, does_clockStop_off ht, fun hst hbad => ?_, fun hst hstep hperiods hrate => ?_,
    does_relockMeasure_unsupported ht, fun hst hstep hgood => ⟨_, if_pos ⟨hst, hstep, hgood⟩, enterRun_says g.isLt ht⟩⟩
  · exact (if_pos ⟨hst, hframes⟩).trans (congrArg Host.Outcome.next (if_pos hgood))
  · exact ⟨_, (if_pos ⟨hst, hframes⟩).trans (congrArg Host.Outcome.next (if_neg hgood)), enterRelock_quiet g.isLt ht⟩
  · exact ⟨_, if_pos ⟨hst, by rw [hfade]; rfl, hframes⟩, enterRun_says g.isLt ht⟩
  · exact ⟨_, if_pos ⟨hst, hbad⟩, enterRelock_report g.isLt ht⟩
  · exact (exec_relockMeasure hst hstep hperiods).trans (congrArg Host.Outcome.next (if_pos hrate))

/-- Settles O42: a WS edge by what it does to a group in each state, a timed move by what the entry into its next state writes. That
the count of PREROLL starts with a frame start of the very cycle in which the group enters it (`counting := lastFall == slate`,
assumption 115), and that a glitch run found in a frame whose end may complete a rate change waits for that end (`owedRun`,
assumption 116), are the model's choices. -/
theorem portTiming : Obligations.PortTiming := ⟨portClockEdges, portStates⟩

end Sys2Proof.Machine
end

section
/-! Streams and output operands: STREAM_ENABLE, a write of an operand, and the time-out of a wait (R170, R171, R178, R233). -/

namespace Sys2Proof.Machine
open Sys2Proof Sys2Proof.Claims

/-! ## An edge that an endpoint owns (R233) -/

/-- A register of edge `e`'s own copy of the edge object. -/
def EdgeReg (q : Reg) : Prop := 2 ^ 40 ≤ q.key

section
variable {e base depth bytes end_ : Nat} {s : State} (ht : s.tidy = true)
include ht

theorem ownEdge_says (prod : Bool) :
    let t := ownEdge e base depth bytes prod end_ s
    t.tidy = true ∧ t.rd (Obj.edgeBase e) = base ∧ t.rd (Obj.edgeDepth e) = depth ∧ t.rd (Obj.edgePosBytes e) = bytes ∧
      t.edge e = { ({} : Edge) with on := true, owned := true, prod := if prod then end_ else 0, cons := if prod then 0 else end_ } ∧
      t.ports = s.ports ∧ t.mem = s.mem := by
  have h₁ := tidy_wr (Obj.edgeBase e) base ht
  have h₂ := tidy_wr (Obj.edgeDepth e) depth h₁
  have h₃ := tidy_wr (Obj.edgePosBytes e) bytes h₂
  have h₅ := tidy_wr (Obj.edgePosted e) 0 (tidy_wr (Obj.edgeEnable e) 1 h₃)
  unfold ownEdge
  dsimp only
  refine ⟨tidy_setEdge _ _ h₅, ?_, ?_, ?_, State.edge_setEdge_self e _ ((tidy_iff _).1 h₅).edges, rfl, rfl⟩
  · rw [State.setEdge_rd, State.rd_wr_ne _ _ (by simp [Obj.edgeBase, Obj.edgePosted]),
      State.rd_wr_ne _ _ (by simp [Obj.edgeBase, Obj.edgeEnable]), State.rd_wr_ne _ _ (by simp [Obj.edgeBase, Obj.edgePosBytes]),
      State.rd_wr_ne _ _ (by simp [Obj.edgeBase, Obj.edgeDepth]), State.rd_wr_self _ _ ((tidy_iff _).1 ht).od]
  · rw [State.setEdge_rd, State.rd_wr_ne _ _ (by simp [Obj.edgeDepth, Obj.edgePosted]),
      State.rd_wr_ne _ _ (by simp [Obj.edgeDepth, Obj.edgeEnable]), State.rd_wr_ne _ _ (by simp [Obj.edgeDepth, Obj.edgePosBytes]),
      State.rd_wr_self _ _ ((tidy_iff _).1 h₁).od]
  · rw [State.setEdge_rd, State.rd_wr_ne _ _ (by simp [Obj.edgePosBytes, Obj.edgePosted]),
      State.rd_wr_ne _ _ (by simp [Obj.edgePosBytes, Obj.edgeEnable]), State.rd_wr_self _ _ ((tidy_iff _).1 h₂).od]

end

/-! ## STREAM_ENABLE (R178) -/

/-- The words of a position of a group's input ring. -/
def inWords (s : State) (g : Nat) : Nat := 4 + streamB s g * inCount s g

/-- Whether a group's input ring lies in one pan group. -/
def inRingFits (s : State) (g : Nat) : Bool := inOneGroup (s.rd (Obj.inRingAddr g)) (s.rd (Obj.inRingDepth g) * inWords s g)

/-- An input direction as it starts. -/
def startedIn (x : Port) : Port := { x with inS := { ({} : Stream) with on := true } }

/-- The edge of an input direction, configured. -/
def inOwned (g : Nat) (s : State) : State :=
  ownEdge (s.rd (Obj.inEdge g)) (farByte (s.rd (Obj.inRingAddr g))) (s.rd (Obj.inRingDepth g)) (4 * inWords s g) true (endPort g) s

/-- The edge of an input direction is its own, and the direction starts. -/
def inEnabled (g : Nat) (s : State) : State :=
  let t := (inOwned g s).wr (Obj.edgeResult (s.rd (Obj.inEdge g))) 0
  t.setPort g (startedIn (t.port g))

section
variable {g : Nat} {s : State}

theorem enableStream_in_beyond (h : inRingFits s g = false) : enableStream g false s = (s, 0x06090030) :=
  if_pos (by rw [Bool.not_eq_true']; exact h)

theorem enableStream_in (h : inRingFits s g = true) (he : edgeRefusal s (s.rd (Obj.inEdge g)) (s.rd (Obj.inRingDepth g)) = 0) :
    enableStream g false s = (inEnabled g s, 0) := by
  have hfit : ¬(!inRingFits s g) = true := by rw [h]; decide
  exact (if_neg hfit).trans (if_neg (fun hne => hne he))

/-- From 0, a write of 1 enables the input direction alone. -/
theorem writeStreamEnable_in (h : s.rd (Obj.streamEnable g) = 0) : writeStreamEnable g 1 s =
    if (enableStream g false s).2 ≠ 0 then enableStream g false s
    else ((enableStream g false s).1.wr (Obj.streamEnable g) 1, 0) := by
  unfold writeStreamEnable
  rw [h]
  rfl

theorem inEnabled_eq (g : Nat) (s : State) : inEnabled g s =
    ((inOwned g s).wr (Obj.edgeResult (s.rd (Obj.inEdge g))) 0).setPort g (startedIn ((inOwned g s).port g)) := by
  rw [← State.wr_port (inOwned g s) (Obj.edgeResult (s.rd (Obj.inEdge g))) 0]
  rfl

theorem rd_inEnabled {q : Reg} (h : q.key ≠ (Obj.edgeResult (s.rd (Obj.inEdge g))).key) : (inEnabled g s).rd q = (inOwned g s).rd q := by
  rw [inEnabled_eq, State.setPort_rd, State.rd_wr_ne _ _ h]

theorem inEnabled_says (ht : s.tidy = true) :
    let e := s.rd (Obj.inEdge g)
    let t := inEnabled g s
    t.tidy = true ∧ t.edge e = { ({} : Edge) with on := true, owned := true, prod := endPort g } ∧
      t.rd (Obj.edgeDepth e) = s.rd (Obj.inRingDepth g) ∧ t.rd (Obj.edgePosBytes e) = 4 * inWords s g ∧
      t.rd (Obj.edgeBase e) = farByte (s.rd (Obj.inRingAddr g)) ∧ t.port g = startedIn (s.port g) ∧ t.mem = s.mem := by
  obtain ⟨hto, hbase, hdepth, hbytes, hedge, hports, hmem⟩ := ownEdge_says (e := s.rd (Obj.inEdge g))
    (base := farByte (s.rd (Obj.inRingAddr g))) (depth := s.rd (Obj.inRingDepth g)) (bytes := 4 * inWords s g) (end_ := endPort g) ht true
  rw [← inOwned] at hto hbase hdepth hbytes hedge hports hmem
  have hw := tidy_wr (Obj.edgeResult (s.rd (Obj.inEdge g))) 0 hto
  have hport : (inOwned g s).port g = s.port g := by
    unfold State.port
    rw [hports]
  dsimp only
  rw [rd_inEnabled (by simp [Obj.edgeDepth, Obj.edgeResult]), rd_inEnabled (by simp [Obj.edgePosBytes, Obj.edgeResult]),
    rd_inEnabled (by simp [Obj.edgeBase, Obj.edgeResult]), inEnabled_eq, State.setPort_edge, State.setPort_mem, State.wr_edge, State.wr_mem,
    hport, State.port_setPort_self g _ ((tidy_iff _).1 hw).ports]
  exact ⟨tidy_setPort g _ hw, hedge, hdepth, hbytes, hbase, rfl, hmem⟩

end

theorem edgeReg_base (e : Nat) : EdgeReg (Obj.edgeBase e) := by unfold EdgeReg; simp only [Obj.edgeBase]; omega
theorem edgeReg_depth (e : Nat) : EdgeReg (Obj.edgeDepth e) := by unfold EdgeReg; simp only [Obj.edgeDepth]; omega
theorem edgeReg_posBytes (e : Nat) : EdgeReg (Obj.edgePosBytes e) := by unfold EdgeReg; simp only [Obj.edgePosBytes]; omega

@[simp] theorem told_edge (p : Path) (idx sub : Nat) (s : State) (e : Nat) : (told p idx sub s).edge e = s.edge e := rfl

theorem writes_streamEnable {p : Path} {g : Fin 6} {s : State} (hs : Ready s) (hen : s.rd (Obj.streamEnable g.val) = 0)
    (he : edgeRefusal s (s.rd (Obj.inEdge g.val)) (s.rd (Obj.inRingDepth g.val)) = 0) (hfit : inRingFits s g.val = true) :
    let e := s.rd (Obj.inEdge g.val)
    Writes (.streamEnableWrite p g 1) p s fun t =>
      t.rd (Obj.streamEnable g.val) = 1 ∧ (t.edge e).on = true ∧ (t.edge e).owned = true ∧ (t.edge e).prod = endPort g.val ∧
        (t.edge e).cons = 0 ∧ t.rd (Obj.edgeDepth e) = s.rd (Obj.inRingDepth g.val) ∧
        t.rd (Obj.edgePosBytes e) = 4 * inWords s g.val ∧ t.rd (Obj.edgeBase e) = farByte (s.rd (Obj.inRingAddr g.val)) ∧
        (t.port g.val).inS = { ({} : Stream) with on := true } ∧ (t.port g.val).outS = (s.port g.val).outS ∧ t.mem = s.mem := by
  have hexec := exec_streamEnableWrite_one (p := p) (g := g) hs
  rw [writeStreamEnable_in hen, enableStream_in hfit he, if_neg (fun h => h rfl)] at hexec
  obtain ⟨ht, hedge, hdepth, hbytes, hbase, hport, hmem⟩ := inEnabled_says (g := g.val) hs.1
  have hrest : ∀ {q : Reg}, EdgeReg q → ((inEnabled g.val s).wr (Obj.streamEnable g.val) 1).rd q =
      (inEnabled g.val s).rd q := fun {q} hq =>
    State.rd_wr_ne _ _ (by unfold EdgeReg at hq; simp only [Obj.streamEnable]; omega)
  refine ⟨told p (0x2202 + 16 * g.val) 8 ((inEnabled g.val s).wr (Obj.streamEnable g.val) 1), hexec,
    accepted_told p _ _ (tidy_wr _ _ ht), ?_⟩
  dsimp only
  rw [told_edge, State.wr_edge, hedge, told_rd, told_rd, told_rd, told_rd, told_port, told_mem, State.wr_port, State.wr_mem, hport,
    hrest (edgeReg_depth _),
    hrest (edgeReg_posBytes _), hrest (edgeReg_base _)]
  exact ⟨State.rd_wr_self _ _ ((tidy_iff _).1 ht).od, rfl, rfl, rfl, rfl, hdepth, hbytes, hbase, rfl, rfl, hmem⟩

/-! ## A write of an object that is no command (R289, R293) -/

theorem writeObject_plain {p : Path} {idx sub a : Nat} {data : List Byte} {s t : State} {r : ObjRow} (hs : Ready s)
    (hl : lookup idx sub = .ok r) (hacc : r.acc ≠ .ro ∧ r.acc ≠ .const) (hlen : lengthAbort r idx sub data = abNone)
    (hguard : guardGood (ofLe data) = true) (hdom : domGood r (ofLe data) = true)
    (hc : command (pathCode p) (selected s (pathCode p) idx) idx sub (dropReserved r idx sub (ofLe data)) data s = none)
    (hw : writePlain (pathCode p) (selected s (pathCode p) idx) r idx sub (dropReserved r idx sub (ofLe data)) s = (t, a)) :
    writeObject p idx sub data s = answer (pathCode p) (idx * 256 + sub) a [] t := by
  have hdict : dictWrite (pathCode p) idx sub data s = (t, a) := by
    simp [dictWrite, hl, hacc.1, hacc.2, hlen, hguard, writeValue, hdom, hc, hw, bistRefuses_of_none t idx sub _ hs.2.2.1]
  simp only [writeObject, hs.2.1, serveLink_of_ready hs, hdict, Bool.not_true, Bool.false_eq_true, if_false]

/-! ## The objects of the output operands (R170) -/

/-- The row of an operand. -/
def operandRow : OutOperand → ObjRow
  | .routing => ⟨0x2400, 6, 1, 1, 16, .guard32, .rws, 18446744069414584320, .custom⟩
  | .trim => ⟨0x2270, 6, 1, 1, 16, .guard32, .rws, 13835058052060938240, .guard 0 4294967295⟩
  | .mute => ⟨0x2410, 6, 1, 1, 16, .guard32, .rws, 18446744069414584320, .guard 0 1⟩

theorem lookup_operand : ∀ (op : OutOperand) (g : Fin 6) (k : Fin 16),
    lookup (operandIndex op + g.val) (1 + k.val) = .ok (operandRow op)
  | .routing => by decide +kernel
  | .trim => by decide +kernel
  | .mute => by decide +kernel

theorem operandRow_says (op : OutOperand) : ((operandRow op).acc ≠ .ro ∧ (operandRow op).acc ≠ .const) ∧
    (operandRow op).type.bytes = 8 := by
  cases op <;> decide

theorem operandIndex_bounds (op : OutOperand) : 0x2270 ≤ operandIndex op ∧ operandIndex op ≤ 0x2410 := by
  cases op <;> decide

/-- The index of an operand's object lies between those of the steering loop and those of the lanes. -/
theorem operandIndex_between (op : OutOperand) {g : Nat} (hg : g < 6) :
    0x2270 ≤ operandIndex op + g ∧ operandIndex op + g < 0x2416 := by
  cases op <;> simp only [operandIndex] <;> omega

section
variable {i sub : Nat} (hi : 0x2270 ≤ i ∧ i < 0x2416)
include hi

/-- No object between those of the steering loop and those of the lanes is a command, a COB-ID or a mapping, is kept per path or per
item, or may be written in some states only. -/
theorem command_between (p item v : Nat) (data : List Byte) (s : State) : command p item i sub v data s = none := by
  have hlow : i < 0x3000 := by omega
  have hne : ∀ j, j < 0x2270 → i ≠ j := by omega
  have hport : ¬i < 0x2260 := by omega
  have hlane : ¬0x2600 ≤ i := by omega
  have hspl : i ≠ 0x2800 := by omega
  have hmap : ¬0x2880 ≤ i := by omega
  have htable : ¬0x2A00 ≤ i := by omega
  simp (disch := decide) only [command, command0, hlow, hne, hport, hlane, hspl, hmap, htable, if_true, if_false, and_false, false_and]

theorem isCob_between : isCob i sub = false := by
  simp only [isCob, Bool.or_eq_false_iff, Bool.and_eq_false_iff, beq_eq_false_iff_ne, decide_eq_false_iff_not]
  omega

theorem mapPdo_between : mapPdo i = none := by
  unfold mapPdo
  rw [if_neg (by omega), if_neg (by omega)]

theorem objKey_between (p item : Nat) : objKey p item i sub = i * 256 + sub := by
  have hpath : perPath i sub = false := by
    simp only [perPath, Bool.or_eq_false_iff, Bool.and_eq_false_iff, beq_eq_false_iff_ne]
    omega
  have hitem : perItem i sub = false := by
    simp only [perItem, Bool.or_eq_false_iff, Bool.and_eq_false_iff, beq_eq_false_iff_ne, decide_eq_false_iff_not]
    omega
  simp [objKey, hpath, hitem]

theorem stateGood_between (s t : State) (item : Nat) : stateGood s t item i sub = true := by
  unfold stateGood
  rw [if_neg (by omega), if_neg (by omega), if_neg (by omega), if_neg (by omega), if_neg (by omega), if_neg (by omega), if_neg (by omega),
    if_neg (by omega), if_neg (by omega), if_neg (by omega), if_neg (by omega), if_neg (by omega), if_neg (by omega)]

/-- Such an object that takes its value is written, with what follows the write. -/
theorem writePlain_between {r : ObjRow} {v : Nat} {s : State} (p item : Nat)
    (hv : valueGood (s.wr (objReg r p item i sub) v) i sub v = true) :
    writePlain p item r i sub v s = (afterWrite i sub v (s.wr (objReg r p item i sub) v), abNone) := by
  simp [writePlain, hv, isCob_between hi, mapPdo_between hi, stateGood_between hi]

end

/-! ## A write of an operand -/

/-- The output channel with a value of an operand pending. -/
def pendOperand (op : OutOperand) (v : Pair) (s : State) (c : Nat) : OutChan :=
  let o := s.outchan c
  match op with
  | .routing => { o with pRoute := some v, cutPrev := if o.cut then sourceWord s c v else o.cutPrev }
  | .trim => { o with pTrim := some v }
  | .mute => { o with pMute := some v }

theorem operandWritten_eq (op : OutOperand) (c n : Nat) (s : State) : operandWritten op c n s =
    s.setOutchan c (if (s.outchan c).p = 0 ∨ portSt s (chanGroup c) ≠ portRun then applyPending (pendOperand op (BitVec.ofNat 64 n) s c)
      else pendOperand op (BitVec.ofNat 64 n) s c) := by
  cases op <;> rfl

section
variable {op : OutOperand} {c : Nat}

theorem operandReg_key (op : OutOperand) (c : Nat) : (operandReg op c).key / 256 = operandIndex op + c / 16 := by
  cases op <;> simp only [operandReg, operandIndex, Obj.routing, Obj.trimGain, Obj.mute, chanGroup, chanPos] <;> omega

/-- A write of an operand's register leaves the group, and the word that a routing delivers. -/
theorem rd_wr_operand {q : Reg} (hq : GroupReg q) (n : Nat) (s : State) : (s.wr (operandReg op c) n).rd q = s.rd q := by
  have hkey := operandReg_key op c
  have hlo := operandIndex_bounds op
  exact (keeps_wr s n (r := operandReg op c) (by omega)).rd q hq

theorem sourceWord_wr_operand (hc : c < 96) (n : Nat) (s : State) (k : Pair) :
    sourceWord (s.wr (operandReg op c) n) c k = sourceWord s c k := by
  have hrate : (s.wr (operandReg op c) n).rd (Obj.portRate (chanGroup c)) = s.rd (Obj.portRate (chanGroup c)) :=
    rd_wr_operand (by unfold GroupReg; simp only [Obj.portRate, chanGroup]; omega) n s
  unfold sourceWord
  rw [hrate]
  rfl

theorem pendOperand_wr (hc : c < 96) (v : Pair) (n : Nat) (s : State) :
    pendOperand op v (s.wr (operandReg op c) n) c = pendOperand op v s c := by
  cases op with
  | routing =>
    unfold pendOperand
    dsimp only
    rw [sourceWord_wr_operand hc]
    rfl
  | trim => rfl
  | mute => rfl

theorem operandReg_eq (op : OutOperand) {g k : Nat} (hg : g < 6) (hk : k < 16) (p item : Nat) :
    objReg (operandRow op) p item (operandIndex op + g) (1 + k) = operandReg op (16 * g + k) := by
  have hgroup : chanGroup (16 * g + k) = g := by unfold chanGroup; omega
  have hpos : chanPos (16 * g + k) = k := by unfold chanPos; omega
  rw [objReg, objKey_between (operandIndex_between op hg)]
  cases op with
  | routing =>
    have hdefault : objDefault (operandRow .routing) (0x2400 + g) (1 + k) = guardOf (0x80 + 16 * g + k) := by
      unfold objDefault
      rw [if_pos (by omega), Nat.add_sub_cancel_left, Nat.add_sub_cancel_left]
    simp only [operandReg, operandIndex, Obj.routing, hgroup, hpos, hdefault, Nat.add_assoc]
  | trim =>
    have hdefault : objDefault (operandRow .trim) (0x2270 + g) (1 + k) = 13835058052060938240 := if_neg (by omega)
    simp only [operandReg, operandIndex, Obj.trimGain, hgroup, hpos, hdefault, Nat.add_assoc]
  | mute =>
    have hdefault : objDefault (operandRow .mute) (0x2410 + g) (1 + k) = 18446744069414584320 := if_neg (by omega)
    simp only [operandReg, operandIndex, Obj.mute, hgroup, hpos, hdefault, Nat.add_assoc]

/-- A value that fits its operand is in the domain of its object, drops no reserved bits and is no reserved encoding. -/
theorem operandFits_says {v : Pair} {g k : Nat} (hg : g < 6) (h : operandFits op v) :
    guardGood v.toNat = true ∧ domGood (operandRow op) v.toNat = true ∧
      dropReserved (operandRow op) (operandIndex op + g) (1 + k) v.toNat = v.toNat ∧
      ∀ t, valueGood t (operandIndex op + g) (1 + k) v.toNat = true := by
  have hval : guardVal v.toNat < 4294967296 := Nat.mod_lt _ (by decide)
  cases op with
  | routing =>
    obtain ⟨hgood, hbits, hroute⟩ := h
    refine ⟨hgood, rfl, ?_, fun t => ?_⟩
    · unfold dropReserved operandIndex
      dsimp only
      rw [if_neg (by omega), if_neg (by omega), if_pos (by omega), ← hbits]
    · unfold valueGood valueGood1 operandIndex
      dsimp only
      rw [if_neg (by omega), if_pos (by omega), if_pos (by omega)]
      exact hroute
  | trim =>
    refine ⟨h, ?_, ?_, fun t => ?_⟩
    · simp only [domGood, operandRow, Bool.and_eq_true, decide_eq_true_eq]
      omega
    · unfold dropReserved operandIndex
      dsimp only
      rw [if_neg (by omega), if_neg (by omega), if_neg (by omega), if_neg (by omega), if_neg (by omega), if_neg (by omega)]
      rfl
    · unfold valueGood valueGood0 operandIndex
      dsimp only
      rw [if_pos (by omega), if_neg (by omega), if_neg (by omega), if_neg (by omega), if_neg (by omega), if_neg (by omega),
        if_neg (by omega)]
  | mute =>
    obtain ⟨hgood, hone⟩ := h
    refine ⟨hgood, ?_, ?_, fun t => ?_⟩
    · simp only [domGood, operandRow, Bool.and_eq_true, decide_eq_true_eq]
      omega
    · unfold dropReserved operandIndex
      dsimp only
      rw [if_neg (by omega), if_neg (by omega), if_neg (by omega), if_neg (by omega), if_neg (by omega), if_neg (by omega)]
      rfl
    · unfold valueGood valueGood1 operandIndex
      dsimp only
      rw [if_neg (by omega), if_pos (by omega), if_neg (by omega), if_neg (by omega), if_neg (by omega), if_neg (by omega),
        if_neg (by omega), if_neg (by omega)]

theorem afterWrite_operand (op : OutOperand) {g k : Nat} (hg : g < 6) (n : Nat) (s : State) :
    afterWrite (operandIndex op + g) (1 + k) n s = operandWritten op (16 * g + k) n s := by
  have hsub : 1 + k - 1 = k := by omega
  unfold afterWrite
  cases op with
  | routing =>
    rw [if_neg (by simp only [operandIndex]; omega), if_pos (by simp only [operandIndex]; omega), hsub, operandIndex,
      Nat.add_sub_cancel_left]
  | trim => rw [if_pos (by simp only [operandIndex]; omega), hsub, operandIndex, Nat.add_sub_cancel_left]
  | mute =>
    rw [if_neg (by simp only [operandIndex]; omega), if_neg (by simp only [operandIndex]; omega),
      if_pos (by simp only [operandIndex]; omega), hsub, operandIndex, Nat.add_sub_cancel_left]

end

/-- An operand written while its output plays waits for a zero crossing, and is in use at once elsewhere. -/
theorem exec_outputOperandWrite {p : Path} {op : OutOperand} {c : Fin 96} {v : Pair} {s : State} (hs : Ready s) (hf : operandFits op v) :
    exec (.outputOperandWrite p op c v) s = .next (told p (operandIndex op + c.val / 16) (1 + c.val % 16)
      ((s.wr (operandReg op c.val) v.toNat).setOutchan c.val
        (if 0 < (s.outchan c.val).p ∧ portSt s (c.val / 16) = portRun then pendOperand op v s c.val
          else applyPending (pendOperand op v s c.val)))) := by
  have hg : c.val / 16 < 6 := by omega
  have hk : c.val % 16 < 16 := by omega
  have hchan : 16 * (c.val / 16) + c.val % 16 = c.val := by omega
  obtain ⟨hguard, hdom, hdrop, hvalue⟩ := operandFits_says (k := c.val % 16) hg hf
  obtain ⟨hacc, hbytes⟩ := operandRow_says op
  have hread : ofLe (leBytes 8 v.toNat) = v.toNat := ofLe_leBytes v.isLt
  have hst : portSt (s.wr (operandReg op c.val) v.toNat) (chanGroup c.val) = portSt s (c.val / 16) :=
    rd_wr_operand ((stateReg_portState _).group hg) _ s
  have hwritten : operandWritten op c.val v.toNat (s.wr (operandReg op c.val) v.toNat) =
      (s.wr (operandReg op c.val) v.toNat).setOutchan c.val
        (if 0 < (s.outchan c.val).p ∧ portSt s (c.val / 16) = portRun then pendOperand op v s c.val
          else applyPending (pendOperand op v s c.val)) := by
    rw [operandWritten_eq, pendOperand_wr c.isLt, hst, State.wr_outchan, BitVec.ofNat_toNat, BitVec.setWidth_eq, ← ite_not]
    congr 2
    rw [not_or, not_not, Nat.pos_iff_ne_zero]
  have hplain := writePlain_between (r := operandRow op) (operandIndex_between op hg) (pathCode p)
    (selected s (pathCode p) (operandIndex op + c.val / 16)) (hvalue (s.wr (objReg (operandRow op) (pathCode p)
      (selected s (pathCode p) (operandIndex op + c.val / 16)) (operandIndex op + c.val / 16) (1 + c.val % 16)) v.toNat))
  rw [operandReg_eq op hg hk, afterWrite_operand op hg, hchan, hwritten] at hplain
  refine congrArg Host.Outcome.next (writeObject_plain hs (lookup_operand op ⟨_, hg⟩ ⟨_, hk⟩) hacc
    (lengthAbort_leBytes _ _ _ hbytes (by decide)) ?_ ?_ (command_between (operandIndex_between op hg) _ _ _ _ s) ?_)
  · rw [hread]
    exact hguard
  · rw [hread]
    exact hdom
  · rw [hread, hdrop]
    exact hplain

/-- Settles O14: STREAM_ENABLE by the edge that it configures, an operand by the plain write of its object, the time-out as it
stands. -/
theorem streamsAndOperands : Obligations.StreamsAndOperands := by
  refine ⟨fun p g s hs hen => fun he hfit => writes_streamEnable hs hen he hfit, fun p g s hs hen hfit => ?_,
    fun p op c v s hs hf => ?_, fun c s _ => fun hwait htimeout => ?_⟩
  · rw [exec_streamEnableWrite_one hs, writeStreamEnable_in hen, enableStream_in_beyond hfit]
    rfl
  · rw [exec_outputOperandWrite hs hf]
    cases op <;> rfl
  · have hcond : ((hasPending (s.outchan c.val) || (s.outchan c.val).cut) && !(s.outchan c.val).causes.timeout) = true := by
      rw [htimeout, Bool.and_eq_true, Bool.or_eq_true]
      exact ⟨hwait, rfl⟩
    exact if_pos hcond

end Sys2Proof.Machine
end

section
/-! A crystallizer's read of DRAM that cannot be corrected, in a state whose count of such errors stands above the maximum of its
counter (R185, R267). -/

namespace Sys2Proof.Machine
open Sys2Proof Sys2Proof.Claims

/-! ## An operation whose reads fail -/

theorem firstDenied_of_ok {check : Nat → FabResult} {a n : Nat} (h : ∀ k, k < (n + 63) / 64 → check (a + 64 * k) = .ok) :
    firstDenied check a n = none := by
  refine List.find?_eq_none.2 fun x hx => ?_
  obtain ⟨k, hk, rfl⟩ := List.mem_map.1 hx
  simp [h k (List.mem_range.1 hk)]

theorem engDenied_of_none {l : List (Option (FabResult × Nat))} (f : Firing) (unit : Nat) (s : State) (h : ∀ x ∈ l, x = none) :
    engDenied f unit s l = none := by
  induction l with
  | nil => rfl
  | cons x l ih =>
    obtain rfl := h x List.mem_cons_self
    exact ih fun y hy => h y (List.mem_cons_of_mem _ hy)

/-- Every beat of the ranges `rs` is allowed to the engine of a firing (R212, R250). -/
def BeatsAllowed (s : State) (f : Firing) (own : Nat) (write : Bool) (rs : List (Nat × Nat)) : Prop :=
  ∀ r ∈ rs, ∀ k, k < (r.2 + 63) / 64 → engCheck s f own write (r.1 + 64 * k) = .ok

theorem engRun_of_readFails {s : State} {f : Firing} {own : Nat} {reads writes : List (Nat × Nat)} (run : State → State)
    (hr : BeatsAllowed s f own false reads) (hw : BeatsAllowed s f own true writes) (hfail : readFails s reads = true) :
    engRun f own reads writes run s = finishOp f 0x8003 (noteReads own reads s) := by
  have hnone : engDenied f own s (reads.map (fun r => engCheckRange s f own false r.1 r.2) ++
      writes.map (fun r => engCheckRange s f own true r.1 r.2)) = none := by
    refine engDenied_of_none f own s fun x hx => ?_
    rcases List.mem_append.1 hx with hx | hx <;> obtain ⟨r, hm, rfl⟩ := List.mem_map.1 hx
    · exact firstDenied_of_ok (hr r hm)
    · exact firstDenied_of_ok (hw r hm)
  unfold engRun
  rw [hnone]
  exact if_pos hfail

/-! ## DRAM that every master reaches (R265) -/

theorem dramSize_ge : 0x100000000 ≤ dramSize := by
  unfold dramSize
  split <;> decide

theorem fabCheck_dram {a off : Nat} (own : Nat) (write : Bool) (s : State) (h : regionOf a = .dram off)
    (hlo : 0x4000000 ≤ off) (hhi : off < 0x100000000) : fabCheck own write a s = .ok := by
  have hd := dramSize_ge
  unfold fabCheck
  rw [h]
  dsimp only
  rw [if_neg (by omega), decide_eq_false (by omega : ¬off < 0x4000000)]
  rfl

/-- A beat with an error that is not corrected counts in DRAM_UNCORRECTED, which stops at its maximum (R267, R381). -/
theorem dramUncorrected_fabReport {a off : Nat} (unit info : Nat) {s : State} (ht : s.tidy = true) (h : regionOf a = .dram off) :
    (fabReport 0x8003 unit info a s).rd Obj.dramUncorrected = min (s.rd Obj.dramUncorrected + 1) 0xFFFFFFFF := by
  unfold fabReport
  rw [h]
  dsimp only
  rw [if_pos rfl, rd_raiseOnce (by simp [OffLog, Obj.dramUncorrected])]
  exact State.rd_wr_self _ _ ((tidy_iff s).1 ht).od

/-- Reads that meet one beat, whose error is not corrected. -/
theorem noteReads_one {s : State} {rs : List (Nat × Nat)} {b e : Nat} {unit : Nat} (h : dramHits s rs = [(b, e)]) (he : e ≠ 1) :
    noteReads unit rs s = fabReport 0x8003 unit 0 (0x100000000 + 64 * b) s := by
  unfold noteReads
  rw [h, forList_cons, forList_nil, if_neg he]

/-! ## The counter above its maximum -/

/-- A transform of eight samples from the first DRAM beat above the firmware's to the beat after it. -/
def dramTransform : List Word := [0x00030001, 0x4100000, 0x4100001, 0, 0, 0, 0, 0]

/-- Its firing, which crystallizer 0 runs. -/
def dramFiring : Firing :=
  { slot := 300, rung := 0, index := 0, prio := 0, inPos := [], outPos := [], late := 0, void := 0, order := 0, state := 4
    holder := 0x10, status := 0, done := false, overdue := false, ops := dramTransform }

/-- The source beat holds an error that is not corrected, and DRAM_UNCORRECTED stands above the maximum that it stops at. -/
def overCounted : State :=
  ({ firings := [dramFiring], dramErr := [(0x100000, 2)] } : State).wr Obj.dramUncorrected (2 ^ 32)

theorem cxAllowed_overCounted : cxAllowed overCounted dramFiring 0 := by
  have hbeat : ∀ (write : Bool) (a off : Nat), regionOf a = .dram off → 0x4000000 ≤ off → off < 0x100000000 →
      engCheck overCounted dramFiring 0x30 write a = .ok := fun write a off h => fabCheck_dram _ write _ h
  refine ⟨fun r hr k hk => ?_, fun k hk => ?_, fun h => absurd h (by decide)⟩
  · obtain rfl : r = (0x104000000, 16) := List.mem_singleton.1 hr
    obtain rfl : k = 0 := by dsimp only at hk; omega
    exact hbeat false _ 0x4000000 (by decide) (by decide) (by decide)
  · obtain rfl : k = 0 := by
      have hw : (cxSpans dramFiring.ops).2.2 = 16 := by decide
      rw [hw] at hk
      omega
    exact hbeat true _ 0x4000040 (by decide) (by decide) (by decide)

theorem exec_cxFwd_overCounted :
    exec (.cxFwd 0) overCounted = .next (finishOp dramFiring 0x8003 (noteReads 0x30 [(0x104000000, 64)] overCounted)) := by
  have hrun : runningOn overCounted 0x10 = some dramFiring := by decide +kernel
  obtain ⟨hr, hw, -⟩ := cxAllowed_overCounted
  have hop : runUserOp dramFiring 0 overCounted = finishOp dramFiring 0x8003 (noteReads 0x30 [(0x104000000, 64)] overCounted) := by
    refine engRun_of_readFails (reads := [(0x104000000, 64)]) (writes := [(0x104000040, 64)]) _ (fun r hm => ?_) (fun r hm => ?_)
      (by decide +kernel)
    · obtain rfl := List.mem_singleton.1 hm
      exact hr (0x104000000, 16) (List.mem_singleton.2 rfl)
    · obtain rfl := List.mem_singleton.1 hm
      exact hw
  have hcx : runCrystallizer 1 0 overCounted = runUserOp dramFiring 0 overCounted := by
    unfold runCrystallizer
    rw [hrun]
    rfl
  exact congrArg Host.Outcome.next (hcx.trans hop)

theorem finishOp_rd (f : Firing) (status : Nat) (s : State) (q : Reg) : (finishOp f status s).rd q = s.rd q := rfl

theorem dramUncorrected_overCounted : overCounted.rd Obj.dramUncorrected = 2 ^ 32 := by decide +kernel

theorem dramUncorrected_failed :
    (finishOp dramFiring 0x8003 (noteReads 0x30 [(0x104000000, 64)] overCounted)).rd Obj.dramUncorrected = 0xFFFFFFFF := by
  rw [finishOp_rd, noteReads_one (b := 0x100000) (e := 2) (by decide +kernel) (by decide),
    dramUncorrected_fabReport (off := 0x4000000) 0x30 0
    (by decide +kernel) (by decide), dramUncorrected_overCounted]
  decide

/-- Refutes O44: the first clause says that DRAM_UNCORRECTED does not fall, and its premises put no bound on the register. A
counter that stops at 0xFFFF_FFFF (R381) is counted down to that from 2^32, which no run of the part reaches. -/
theorem not_engineOps : ¬ Obligations.EngineOps := by
  rintro ⟨hcx, -⟩
  obtain ⟨hfail, -⟩ := hcx (.cxFwd 0) 0 1 overCounted dramFiring rfl (by decide +kernel) (by decide +kernel) (by decide)
  obtain ⟨t, ht, -, -, hle⟩ := hfail (by decide) (by decide) cxAllowed_overCounted (by decide +kernel)
  obtain rfl := Host.Outcome.next.inj (exec_cxFwd_overCounted.symm.trans ht)
  rw [dramUncorrected_failed, dramUncorrected_overCounted] at hle
  exact absurd hle (by decide)

end Sys2Proof.Machine
end

section
/-! What a readiness scan leaves (R215, R216): it reserves tokens and return blocks, puts nodes into READY, and does no more. -/

namespace Sys2Proof.Machine
open Sys2Proof Sys2Proof.Claims

/-! ## The state beside the sluice -/

/-- The state without the registers and what the sluice keeps of edges, ring pairs and firings. -/
def besideSluice (s : State) : State := { s with od := [], edges := [], rings := [], firings := [], fireSeq := 0 }

/-- A register that a readiness scan leaves. -/
def OffScan (q : Reg) : Prop := ∀ i, q.key ≠ (Obj.nodeState i).key ∧ q.key ≠ (Obj.nodeVoids i).key

theorem offScan_of_lt {q : Reg} (h : q.key < 2 ^ 40) : OffScan q := by
  intro i
  simp only [Obj.nodeState, Obj.nodeVoids]
  omega

theorem offScan_edgePosted (e : Nat) : OffScan (Obj.edgePosted e) := by
  intro i
  simp only [Obj.edgePosted, Obj.nodeState, Obj.nodeVoids]
  omega

section
variable {regs : Reg → Prop}

theorem Keeps.setEdge (e : Nat) (x : Edge) (s : State) : Keeps regs besideSluice s (s.setEdge e x) :=
  Keeps.of_rd (tidy_setEdge e x) (fun _ => rfl) rfl

theorem Keeps.setRing (r : Nat) (x : RingPair) (s : State) : Keeps regs besideSluice s (s.setRing r x) :=
  Keeps.of_rd (tidy_setRing r x) (fun _ => rfl) rfl

theorem Keeps.firings (fs : List Firing) (k : Nat) (s : State) :
    Keeps regs besideSluice s { s with firings := fs, fireSeq := k } := Keeps.of_rd id (fun _ => rfl) rfl

theorem Keeps.setReg {r : Reg} (s : State) (v : Nat) (h : ∀ q, regs q → q.key ≠ r.key) : Keeps regs besideSluice s (s.wr r v) :=
  Keeps.wr s v h rfl

theorem Keeps.reserveOut (e : Nat) (c : Nat × Bool) (s : State) : Keeps regs besideSluice s (reserveOut e c s) := by
  unfold Machine.reserveOut
  dsimp only
  split
  · exact Keeps.ite (Keeps.refl s) (Keeps.setRing _ _ s)
  · exact Keeps.setEdge e _ s

theorem Keeps.makeReady {slot : Nat} (h : ∀ q, regs q → q.key ≠ (Obj.nodeState slot).key ∧ q.key ≠ (Obj.nodeVoids slot).key)
    (index : Nat) (toks : List Token) (creds : List (Nat × Bool)) (ops : List Word) (s : State) :
    Keeps regs besideSluice s (makeReady slot index toks creds ops s) := by
  have hins := Keeps.forList (regs := regs) (view := besideSluice) ((hdrIns (s.node slot).hdr).zip toks)
    (fun x => reserveIn x.1 x.2) (fun x _ t => Keeps.setEdge x.1 _ t) s
  have houts := Keeps.forList (regs := regs) (view := besideSluice) ((hdrOuts (s.node slot).hdr).zip creds)
    (fun x => Machine.reserveOut x.1 x.2) (fun x _ t => Keeps.reserveOut x.1 x.2 t)
  have hvoids : ∀ t : State, Keeps regs besideSluice t (t.inc (Obj.nodeVoids slot)) := fun t =>
    Keeps.setReg t _ fun q hq => (h q hq).2
  unfold Machine.makeReady
  exact (((hins.trans (houts _)).trans (Keeps.ite (hvoids _) (Keeps.refl _))).trans (Keeps.firings _ _ _)).trans
    (Keeps.setReg _ 2 fun q hq => (h q hq).1)

end

/-- A test for readiness leaves the state, or makes a firing of a node that was WAITING (R215). -/
theorem tryReady_cases (slot : Nat) (s : State) : tryReady slot s = s ∨ s.rd (Obj.nodeState slot) = 1 ∧
    ∃ index toks creds ops, tryReady slot s = makeReady slot index toks creds ops s := by
  unfold tryReady
  dsimp only
  split
  next => exact .inl rfl
  next hbusy =>
    have hwait : s.rd (Obj.nodeState slot) = 1 := by
      simp only [Bool.or_eq_true, bne_iff_ne, not_or, not_not] at hbusy
      exact hbusy.2
    split
    next => exact .inl rfl
    next =>
      split
      next => exact .inl rfl
      next =>
        split
        next => exact .inl rfl
        next => exact .inr ⟨hwait, _, _, _, _, rfl⟩

theorem Keeps.tryReady (slot : Nat) (s : State) : Keeps OffScan besideSluice s (tryReady slot s) := by
  rcases tryReady_cases slot s with h | ⟨-, index, toks, creds, ops, h⟩ <;> rw [h]
  · exact Keeps.refl s
  · exact Keeps.makeReady (fun q hq => hq slot) index toks creds ops s

theorem Keeps.readyScan (s : State) : Keeps OffScan besideSluice s (readyScan s) :=
  Keeps.forList _ _ (fun slot _ t => Keeps.tryReady slot t) s

/-- A node that is not WAITING keeps its state under a scan. -/
theorem nodeState_readyScan {slot : Nat} {s : State} (h : s.rd (Obj.nodeState slot) ≠ 1) :
    (readyScan s).rd (Obj.nodeState slot) = s.rd (Obj.nodeState slot) := by
  refine forList_keep (fun t => t.rd (Obj.nodeState slot) = s.rd (Obj.nodeState slot)) _ _ (fun k _ t ht => ?_) s rfl
  rcases tryReady_cases k t with hk | ⟨hwait, index, toks, creds, ops, hk⟩ <;> rw [hk]
  · exact ht
  · have hne : slot ≠ k := by
      rintro rfl
      exact h (ht ▸ hwait)
    refine ((Keeps.makeReady (regs := fun q => q = Obj.nodeState slot) (fun q hq => ?_) index toks creds ops t).rd _ rfl).trans ht
    rw [hq]
    simp only [Obj.nodeState, Obj.nodeVoids]
    omega

/-! ## Tokens and return blocks but for their reservations -/

/-- The tokens of an edge but for their reservations. -/
def Edge.plainTokens (x : Edge) : List Token := x.tokens.map fun t => { t with reserved := false }

/-- A ring pair but for the reservations of its return blocks. -/
def RingPair.plain (x : RingPair) : RingPair := { x with ret := x.ret.map fun t => { t with reserved := false } }

/-- From a state in canonical form, `t` has the tokens and ring pairs of `s` but for reservations. -/
def SameBlocks (s t : State) : Prop :=
  s.tidy = true → t.tidy = true ∧ (∀ e, (t.edge e).plainTokens = (s.edge e).plainTokens) ∧
    ∀ r, (t.ring r).plain = (s.ring r).plain

theorem SameBlocks.refl (s : State) : SameBlocks s s := fun h => ⟨h, fun _ => rfl, fun _ => rfl⟩

theorem SameBlocks.trans {s t u : State} (h : SameBlocks s t) (k : SameBlocks t u) : SameBlocks s u := fun hs =>
  have ⟨ht, he, hr⟩ := h hs
  have ⟨hu, he', hr'⟩ := k ht
  ⟨hu, fun e => (he' e).trans (he e), fun r => (hr' r).trans (hr r)⟩

theorem SameBlocks.forList {α : Type} (l : List α) (f : α → State → State) (h : ∀ x s, SameBlocks s (f x s)) (s : State) :
    SameBlocks s (forList l f s) :=
  forList_keep (SameBlocks s) l f (fun x _ t ht => ht.trans (h x t)) s (SameBlocks.refl s)

theorem SameBlocks.setEdge {e : Nat} {x : Edge} {s : State} (h : x.plainTokens = (s.edge e).plainTokens) :
    SameBlocks s (s.setEdge e x) := fun hs => by
  refine ⟨tidy_setEdge e x hs, fun k => ?_, fun _ => rfl⟩
  by_cases hk : k = e
  · rw [hk, State.edge_setEdge_self e x ((tidy_iff s).1 hs).edges, h]
  · rw [State.edge_setEdge_ne s x hk]

theorem SameBlocks.setRing {r : Nat} {x : RingPair} {s : State} (h : x.plain = (s.ring r).plain) :
    SameBlocks s (s.setRing r x) := fun hs => by
  refine ⟨tidy_setRing r x hs, fun _ => rfl, fun k => ?_⟩
  by_cases hk : k = r
  · rw [hk, State.ring_setRing_self r x ((tidy_iff s).1 hs).rings, h]
  · rw [State.ring_setRing_ne s x hk]

theorem SameBlocks.reserveIn (e : Nat) (t : Token) (s : State) : SameBlocks s (reserveIn e t s) := by
  refine SameBlocks.setEdge ?_
  simp only [Edge.plainTokens, List.map_map]
  refine List.map_congr_left fun x _ => ?_
  simp only [Function.comp_apply]
  split <;> rfl

theorem SameBlocks.reserveOut (e : Nat) (c : Nat × Bool) (s : State) : SameBlocks s (reserveOut e c s) := by
  unfold Machine.reserveOut
  dsimp only
  split
  next r _ =>
    split
    · exact SameBlocks.refl s
    · refine SameBlocks.setRing ?_
      simp only [RingPair.plain, RingPair.mk.injEq, true_and, and_true]
      refine List.ext_getElem? fun i => ?_
      simp only [List.getElem?_map, List.getElem?_mapIdx, Option.map_map]
      refine congrArg (Option.map · _) (funext fun x => ?_)
      simp only [Function.comp_apply]
      split <;> rfl
  next => exact SameBlocks.setEdge rfl

theorem SameBlocks.makeReady (slot index : Nat) (toks : List Token) (creds : List (Nat × Bool)) (ops : List Word) (s : State) :
    SameBlocks s (makeReady slot index toks creds ops s) := by
  have hins := SameBlocks.forList ((hdrIns (s.node slot).hdr).zip toks) (fun x => Machine.reserveIn x.1 x.2)
    (fun x t => SameBlocks.reserveIn x.1 x.2 t) s
  have houts := SameBlocks.forList ((hdrOuts (s.node slot).hdr).zip creds) (fun x => Machine.reserveOut x.1 x.2)
    (fun x t => SameBlocks.reserveOut x.1 x.2 t)
  have hwr : ∀ (t : State) (r : Reg) (v : Nat), SameBlocks t (t.wr r v) := fun t r v h => ⟨tidy_wr r v h, fun _ => rfl, fun _ => rfl⟩
  have hfire : ∀ (t : State) (fs : List Firing) (k : Nat), SameBlocks t { t with firings := fs, fireSeq := k } := fun t _ _ h =>
    ⟨h, fun _ => rfl, fun _ => rfl⟩
  unfold Machine.makeReady
  refine ((hins.trans (houts _)).trans ?_).trans ((hfire _ _ _).trans (hwr _ _ 2))
  split
  · exact hwr _ _ _
  · exact SameBlocks.refl _

theorem SameBlocks.readyScan (s : State) : SameBlocks s (readyScan s) := by
  refine SameBlocks.forList _ _ (fun slot t => ?_) s
  rcases tryReady_cases slot t with h | ⟨-, index, toks, creds, ops, h⟩ <;> rw [h]
  · exact SameBlocks.refl t
  · exact SameBlocks.makeReady slot index toks creds ops t

/-- Each token of one state stands in the other, but for its reservation. -/
theorem token_of_plainTokens {x y : Edge} (h : x.plainTokens = y.plainTokens) {t : Token} (ht : t ∈ x.tokens) :
    ∃ u ∈ y.tokens, u.index = t.index ∧ u.pos = t.pos ∧ u.late = t.late := by
  have hm : ({ t with reserved := false } : Token) ∈ y.plainTokens := h ▸ List.mem_map_of_mem ht
  obtain ⟨u, hu, he⟩ := List.mem_map.1 hm
  obtain ⟨hi, hp, hl, -⟩ := Token.mk.inj he
  exact ⟨u, hu, hi, hp, hl⟩

end Sys2Proof.Machine
end

section
/-! The end of a firing (R219 to R221): its positions return as credit or become tokens, its node counts it or enters FAULTED, and a
node that was being disabled enters OFF. -/

namespace Sys2Proof.Machine
open Sys2Proof Sys2Proof.Claims

/-! ## The parts of a completion -/

/-- A register that the passing of tokens and the end of a node leave. -/
def OffSluice (q : Reg) : Prop := OffScan q ∧ ∀ i, q.key ≠ (Obj.edgePosted i).key ∧ q.key ≠ (Obj.edgeEnable i).key

theorem offSluice_of_lt {q : Reg} (h : q.key < 2 ^ 40) : OffSluice q := by
  refine ⟨offScan_of_lt h, fun i => ?_⟩
  simp only [Obj.edgePosted, Obj.edgeEnable]
  omega

/-- A register of a node that none of its neighbours shares. -/
theorem offSluice_node {q : Reg} {k slot : Nat} (h : q.key = 0x3001 * 256 + k + (slot + 1) * 2 ^ 40) (hk : k = 6 ∨ k = 7 ∨ k = 8) :
    OffSluice q := by
  refine ⟨fun i => ?_, fun i => ?_⟩ <;> rw [h] <;> simp only [Obj.nodeState, Obj.nodeVoids, Obj.edgePosted, Obj.edgeEnable] <;> omega

theorem offSluice_nodeFirings (slot : Nat) : OffSluice (Obj.nodeFirings slot) := offSluice_node rfl (.inl rfl)
theorem offSluice_nodeFails (slot : Nat) : OffSluice (Obj.nodeFails slot) := offSluice_node rfl (.inr (.inl rfl))
theorem offSluice_nodeLastStatus (slot : Nat) : OffSluice (Obj.nodeLastStatus slot) := offSluice_node rfl (.inr (.inr rfl))

theorem Keeps.freeInputs (f : Firing) (s : State) : Keeps OffSluice besideSluice s (freeInputs f s) := by
  refine Keeps.forList _ _ (fun x _ t => ?_) s
  split
  · exact Keeps.setEdge _ _ t
  · exact Keeps.refl t

theorem Keeps.addToken (e : Nat) (t : Token) (s : State) : Keeps OffSluice besideSluice s (addToken e t s) :=
  Keeps.ite (Keeps.refl s) ((Keeps.setEdge e _ s).trans (Keeps.setReg _ _ fun _ hq => (hq.2 e).1))

theorem Keeps.postOutputs (f : Firing) (late : Bool) (s : State) : Keeps OffSluice besideSluice s (postOutputs f late s) := by
  refine Keeps.forList _ _ (fun x _ t => Keeps.ite (Keeps.refl t) ?_) s
  split
  · exact Keeps.ite ((Keeps.setRing _ _ t).trans (Keeps.setReg _ _ fun _ hq => (hq.2 _).1)) (Keeps.setRing _ _ t)
  · exact Keeps.addToken _ _ t

theorem Keeps.freeOutputs (f : Firing) (s : State) : Keeps OffSluice besideSluice s (freeOutputs f s) := by
  refine Keeps.forList _ _ (fun x _ t => Keeps.ite (Keeps.refl t) ?_) s
  split
  · exact Keeps.setRing _ _ t
  · exact Keeps.setEdge _ _ t

theorem Keeps.startStaged (holder : Nat) (s : State) : Keeps OffSluice besideSluice s (startStaged holder s) := by
  unfold Machine.startStaged
  dsimp only
  split
  · exact Keeps.refl s
  · exact Keeps.ite ((Keeps.firings _ s.fireSeq s).trans (Keeps.setReg _ _ fun _ hq => (hq.1 _).1)) (Keeps.firings _ s.fireSeq s)

/-- What the end of a node keeps beside the sluice: memory and the cores. -/
def memCores (s : State) : List Host.Cell × Map Core := (s.mem, s.cores)

theorem Keeps.memCores {regs : Reg → Prop} {s t : State} (h : Keeps regs besideSluice s t) : Keeps regs memCores s t :=
  h.weaken (fun x => (x.mem, x.cores)) fun _ => id

theorem Keeps.setNode {regs : Reg → Prop} (slot : Nat) (x : Node) (s : State) : Keeps regs Machine.memCores s (s.setNode slot x) :=
  Keeps.of_rd (tidy_setNode slot x) (fun _ => rfl) rfl

theorem Keeps.nodeOff (slot : Nat) (s : State) : Keeps OffSluice Machine.memCores s (nodeOff slot s) := by
  have hunbind : ∀ t : State, Keeps OffSluice besideSluice t (unbindNode slot t) := fun t =>
    (Keeps.forList _ _ (fun e _ u => Keeps.ite (Keeps.setEdge e _ u) (Keeps.refl u)) t).trans
      (Keeps.forList _ _ (fun e _ u => Keeps.ite (Keeps.setEdge e _ u) (Keeps.refl u)) _)
  have hretire : ∀ (e : Nat) (t : State), Keeps OffSluice besideSluice t (retireEdge e t) := fun e t =>
    Keeps.ite ((Keeps.setEdge e _ t).trans (Keeps.setReg _ _ fun _ hq => (hq.2 e).2)) (Keeps.refl t)
  unfold Machine.nodeOff
  exact ((hunbind s).memCores.trans (Keeps.setNode slot {} _)).trans
    ((Keeps.firings _ _ _).trans ((Keeps.setReg _ 0 fun _ hq => (hq.1 slot).1).trans
      (Keeps.forList _ _ (fun e _ t => hretire e t) _))).memCores

/-- The firing leaves the list. -/
def dropFiring (f : Firing) (s : State) : State := { s with firings := s.firings.filter fun g => !sameFiring g f }

/-- The firing has left the list and its engine, and its node counts that it fired and keeps its status. -/
def leaveEngine (f : Firing) (status : Nat) (s : State) : State :=
  let s := startStaged f.holder (dropFiring f s)
  (if f.rung = 0 then s.setNode f.slot { s.node f.slot with fired := (s.node f.slot).fired + 1 } else s).wr
    (Obj.nodeLastStatus f.slot) status

/-- A completion with status 0: the outputs are posted and the node counts the firing. -/
def endGood (f : Firing) (late faulted : Bool) (s : State) : State :=
  let s := if f.rung = 0 then postOutputs f late (freeInputs f s) else s
  let s := s.incMax (Obj.nodeFirings f.slot)
  if f.rung = 0 && !faulted then s.wr (Obj.nodeState f.slot) 1 else s

/-- A failed completion before its fault: the outputs are free again, and the node enters FAULTED and counts the failure. -/
def failNode (f : Firing) (s : State) : State :=
  let s := if f.rung = 0 then freeOutputs f (freeInputs f s) else s
  ((s.setNode f.slot { s.node f.slot with faulted := true }).inc (Obj.nodeFails f.slot)).wr (Obj.nodeState f.slot) 5

/-- A node that is being disabled enters OFF with the last of its firings. -/
def closeNode (slot : Nat) (s : State) : State :=
  if (s.node slot).closing && !s.firings.any (fun g => g.slot == slot) then nodeOff slot s else s

theorem completeFiring_eq (f : Firing) (status : Nat) (late : Bool) (s : State) :
    ∃ faulted, completeFiring f status late s = readyScan (closeNode f.slot
      (if status = 0 then endGood f late faulted (leaveEngine f status s)
       else schFault 1 0 f.slot status (failNode f (leaveEngine f status s)))) := ⟨_, rfl⟩

theorem node_of_besideSluice {s t : State} (h : besideSluice t = besideSluice s) (k : Nat) : t.node k = s.node k :=
  (congrArg (fun x : State => x.node k) h :)

theorem leaveEngine_says {f : Firing} (status : Nat) {s : State} (ht : s.tidy = true) :
    Keeps (fun q => OffSluice q ∧ q.key ≠ (Obj.nodeLastStatus f.slot).key) memCores s (leaveEngine f status s) ∧
      (leaveEngine f status s).rd (Obj.nodeLastStatus f.slot) = status ∧
      ((leaveEngine f status s).node f.slot).closing = (s.node f.slot).closing := by
  have hstart : Keeps OffSluice besideSluice s (startStaged f.holder (dropFiring f s)) :=
    (Keeps.firings _ s.fireSeq s).trans (Keeps.startStaged f.holder _)
  have hnode := node_of_besideSluice hstart.view f.slot
  have hstartTidy := hstart.tidy ht
  unfold leaveEngine
  dsimp only
  generalize startStaged f.holder (dropFiring f s) = u at hstart hstartTidy hnode ⊢
  have hcount : Keeps OffSluice memCores s
      (if f.rung = 0 then u.setNode f.slot { u.node f.slot with fired := (u.node f.slot).fired + 1 } else u) :=
    hstart.memCores.trans (Keeps.ite (Keeps.setNode _ _ u) (Keeps.refl u))
  refine ⟨?_, State.rd_wr_self _ _ ((tidy_iff _).1 (hcount.tidy ht)).od, ?_⟩
  · exact (hcount.weaken id fun _ hq => hq.1).trans (Keeps.setReg _ _ fun _ hq => hq.2).memCores
  · rw [State.wr_node]
    split
    · rw [State.node_setNode_self f.slot _ ((tidy_iff u).1 hstartTidy).nodes]
      exact (congrArg Node.closing hnode :)
    · exact congrArg Node.closing hnode

theorem Keeps.closeNode (slot : Nat) (s : State) : Keeps OffSluice Machine.memCores s (closeNode slot s) :=
  Keeps.ite (Keeps.nodeOff slot s) (Keeps.refl s)

/-- What follows the count of a completion leaves its registers. -/
theorem Keeps.closing (slot : Nat) (s : State) :
    Keeps OffSluice Machine.memCores s (Machine.readyScan (Machine.closeNode slot s)) :=
  (Keeps.closeNode slot s).trans ((Keeps.readyScan _).memCores.weaken id fun _ hq => hq.1)

/-! ## A completion with status 0 (R220) -/

/-- A register that a completion with status 0 leaves. -/
def OffGood (slot : Nat) (q : Reg) : Prop :=
  OffSluice q ∧ q.key ≠ (Obj.nodeLastStatus slot).key ∧ q.key ≠ (Obj.nodeFirings slot).key

theorem lastStatus_ne_firings (slot : Nat) : (Obj.nodeLastStatus slot).key ≠ (Obj.nodeFirings slot).key := by
  simp [Obj.nodeLastStatus, Obj.nodeFirings]

theorem endGood_says {f : Firing} (late faulted : Bool) {s : State} (ht : s.tidy = true) :
    Keeps (fun q => OffSluice q ∧ q.key ≠ (Obj.nodeFirings f.slot).key) memCores s (endGood f late faulted s) ∧
      (endGood f late faulted s).rd (Obj.nodeFirings f.slot) = min (s.rd (Obj.nodeFirings f.slot) + 1) (2 ^ 64 - 1) := by
  have hposted : Keeps OffSluice memCores s (if f.rung = 0 then postOutputs f late (freeInputs f s) else s) :=
    Keeps.ite ((Keeps.freeInputs f s).trans (Keeps.postOutputs f late _)).memCores (Keeps.refl s)
  have hstate : ∀ t : State, Keeps OffSluice memCores t (if f.rung = 0 && !faulted then t.wr (Obj.nodeState f.slot) 1 else t) :=
    fun t => Keeps.ite (Keeps.setReg t 1 fun _ hq => (hq.1 _).1).memCores (Keeps.refl t)
  unfold endGood
  refine ⟨?_, ?_⟩
  · exact (hposted.weaken id fun _ hq => hq.1).trans ((Keeps.setReg _ _ fun _ hq => hq.2).memCores.trans
      ((hstate _).weaken id fun _ hq => hq.1))
  · rw [(hstate _).rd _ (offSluice_nodeFirings _), ← hposted.rd _ (offSluice_nodeFirings _)]
    exact State.rd_wr_self _ _ ((tidy_iff _).1 (hposted.tidy ht)).od

theorem completeFiring_good {f : Firing} (late : Bool) {s : State} (ht : s.tidy = true) :
    let t := completeFiring f 0 late s
    Keeps (OffGood f.slot) memCores s t ∧ t.rd (Obj.nodeLastStatus f.slot) = 0 ∧
      t.rd (Obj.nodeFirings f.slot) = min (s.rd (Obj.nodeFirings f.slot) + 1) (2 ^ 64 - 1) := by
  obtain ⟨faulted, h⟩ := completeFiring_eq f 0 late s
  obtain ⟨hleft, hlast, -⟩ := leaveEngine_says (f := f) 0 ht
  obtain ⟨hgood, hcount⟩ := endGood_says (f := f) late faulted (hleft.tidy ht)
  have hclose := Keeps.closing f.slot (endGood f late faulted (leaveEngine f 0 s))
  rw [h]
  dsimp only
  rw [if_pos rfl, hclose.rd _ (offSluice_nodeLastStatus _), hclose.rd _ (offSluice_nodeFirings _), hcount,
    hgood.rd _ ⟨offSluice_nodeLastStatus _, lastStatus_ne_firings _⟩,
    hleft.rd _ ⟨offSluice_nodeFirings _, (lastStatus_ne_firings _).symm⟩]
  exact ⟨(hleft.weaken id fun _ hq => ⟨hq.1, hq.2.1⟩).trans ((hgood.weaken id fun _ hq => ⟨hq.1, hq.2.2⟩).trans
    (hclose.weaken id fun _ hq => hq.1)), hlast, rfl⟩

/-! ## A failed completion (R221, R229) -/

/-- A register that a failed completion leaves. -/
def OffBad (slot : Nat) (q : Reg) : Prop :=
  OffSluice q ∧ OffLog q ∧ q.key ≠ (Obj.nodeLastStatus slot).key ∧ q.key ≠ (Obj.nodeFails slot).key ∧
    q.key ≠ Obj.schFaults.key

theorem lastStatus_ne_fails (slot : Nat) : (Obj.nodeLastStatus slot).key ≠ (Obj.nodeFails slot).key := by
  simp [Obj.nodeLastStatus, Obj.nodeFails]

theorem offSluice_schFaults : OffSluice Obj.schFaults := offSluice_of_lt (by decide)
theorem offLog_schFaults : OffLog Obj.schFaults := by simp [OffLog, Obj.schFaults]

/-- A fault of the scheduler leaves the registers aside from the fault log and its own. -/
theorem rd_schFault_ne {q : Reg} (h : OffLog q) (hq : q.key ≠ Obj.schFaults.key) (k what number extra : Nat) (s : State) :
    (schFault k what number extra s).rd q = s.rd q := rd_raiseSticky_ne h hq _ _ _ _ _ s

/-- A fault of the scheduler leaves the registers of the nodes. -/
theorem rd_schFault_node {q : Reg} {k slot : Nat} (hq : q.key = 0x3001 * 256 + k + (slot + 1) * 2 ^ 40) (hk : k < 256)
    (d what number extra : Nat) (s : State) : (schFault d what number extra s).rd q = s.rd q := by
  refine rd_schFault_ne ?_ ?_ _ _ _ _ s
  · unfold OffLog
    omega
  · simp only [Obj.schFaults]
    omega

theorem schFault_only (k what number extra : Nat) (s : State) : FaultOnly s (schFault k what number extra s) :=
  FaultOnly.raiseSticky _ _ _ _ _ _ s

theorem FaultOnly.node {s t : State} (h : FaultOnly s t) (k : Nat) : t.node k = s.node k :=
  (congrArg (fun x : State => x.node k) h :)

theorem failNode_says {f : Firing} {s : State} (ht : s.tidy = true) :
    Keeps (fun q => OffSluice q ∧ q.key ≠ (Obj.nodeFails f.slot).key) memCores s (failNode f s) ∧
      (failNode f s).rd (Obj.nodeFails f.slot) = min (s.rd (Obj.nodeFails f.slot) + 1) 0xFFFFFFFF ∧
      (failNode f s).rd (Obj.nodeState f.slot) = 5 ∧ ((failNode f s).node f.slot).closing = (s.node f.slot).closing := by
  have hfree : Keeps OffSluice besideSluice s (if f.rung = 0 then freeOutputs f (freeInputs f s) else s) :=
    Keeps.ite ((Keeps.freeInputs f s).trans (Keeps.freeOutputs f _)) (Keeps.refl s)
  have hfreeTidy := hfree.tidy ht
  unfold failNode
  dsimp only
  generalize (if f.rung = 0 then freeOutputs f (freeInputs f s) else s) = u at hfree hfreeTidy ⊢
  have hset := tidy_setNode f.slot { u.node f.slot with faulted := true } hfreeTidy
  refine ⟨?_, ?_, State.rd_wr_self _ _ ((tidy_iff _).1 (tidy_inc _ hset)).od, ?_⟩
  · exact (hfree.memCores.weaken id fun _ hq => hq.1).trans ((Keeps.setNode _ _ _).trans
      ((Keeps.setReg _ _ fun _ hq => hq.2).trans (Keeps.setReg _ 5 fun _ hq => (hq.1.1 _).1)).memCores)
  · rw [State.rd_wr_ne _ _ (by simp [Obj.nodeFails, Obj.nodeState]), ← hfree.rd _ (offSluice_nodeFails _)]
    exact State.rd_wr_self _ _ ((tidy_iff _).1 hset).od
  · rw [State.wr_node, ← node_of_besideSluice hfree.view f.slot]
    exact (congrArg Node.closing (State.node_setNode_self f.slot { u.node f.slot with faulted := true }
      ((tidy_iff u).1 hfreeTidy).nodes) :)

theorem closeNode_of_open {slot : Nat} {s : State} (h : (s.node slot).closing = false) : closeNode slot s = s := by
  unfold closeNode
  rw [h]
  rfl

theorem completeFiring_bad {f : Firing} {status : Nat} (hst : status ≠ 0) (late : Bool) {s : State} (ht : s.tidy = true) :
    let t := completeFiring f status late s
    Keeps (OffBad f.slot) State.mem s t ∧ t.rd (Obj.nodeLastStatus f.slot) = status ∧
      t.rd (Obj.nodeFails f.slot) = min (s.rd (Obj.nodeFails f.slot) + 1) 0xFFFFFFFF ∧ (t.rd Obj.schFaults).testBit 0 = true ∧
      ((s.node f.slot).closing = false → t.rd (Obj.nodeState f.slot) = 5) := by
  obtain ⟨faulted, h⟩ := completeFiring_eq f status late s
  obtain ⟨hleft, hlast, hopen⟩ := leaveEngine_says (f := f) status ht
  obtain ⟨hfail, hfails, hstate, hclosing⟩ := failNode_says (f := f) (hleft.tidy ht)
  have hfailTidy := hfail.tidy (hleft.tidy ht)
  rw [h]
  dsimp only
  rw [if_neg hst]
  generalize failNode f (leaveEngine f status s) = u at hfail hfails hstate hclosing hfailTidy ⊢
  have hfault := schFault_only 1 0 f.slot status u
  have hclose := Keeps.closing f.slot (schFault 1 0 f.slot status u)
  have hmem {regs : Reg → Prop} {a b : State} (k : Keeps regs memCores a b) : Keeps regs State.mem a b := k.weaken Prod.fst fun _ => id
  refine ⟨?_, ?_, ?_, ?_, fun hs => ?_⟩
  · have hsticky : Keeps (OffBad f.slot) State.mem u (schFault 1 0 f.slot status u) :=
      ⟨tidy_raiseSticky _ _ _ _ _ _, fun q hq => rd_schFault_ne hq.2.1 hq.2.2.2.2 _ _ _ _ _, hfault.mem⟩
    exact ((hmem hleft).weaken id fun _ hq => ⟨hq.1, hq.2.2.1⟩).trans (((hmem hfail).weaken id fun _ hq => ⟨hq.1, hq.2.2.2.1⟩).trans
      (hsticky.trans ((hmem hclose).weaken id fun _ hq => hq.1)))
  · rw [hclose.rd _ (offSluice_nodeLastStatus _), rd_schFault_node rfl (by decide),
      hfail.rd _ ⟨offSluice_nodeLastStatus _, lastStatus_ne_fails _⟩, hlast]
  · rw [hclose.rd _ (offSluice_nodeFails _), rd_schFault_node rfl (by decide), hfails,
      hleft.rd _ ⟨offSluice_nodeFails _, (lastStatus_ne_fails _).symm⟩]
  · rw [hclose.rd _ offSluice_schFaults]
    exact testBit_raiseSticky offLog_schFaults _ _ _ _ _ hfailTidy
  · have hfive : (schFault 1 0 f.slot status u).rd (Obj.nodeState f.slot) = 5 := (rd_schFault_node rfl (by decide) _ _ _ _ u).trans hstate
    have hstays : closeNode f.slot (schFault 1 0 f.slot status u) = schFault 1 0 f.slot status u :=
      closeNode_of_open (by rw [hfault.node, hclosing, hopen, hs])
    rw [hstays, nodeState_readyScan (by rw [hfive]; decide), hfive]

end Sys2Proof.Machine
end

section
/-! The end of a class E firing of a graph's own node (R196, R220, R221), and the writes of the scheduler interface by a core (R218,
R225, R229). -/

namespace Sys2Proof.Machine
open Sys2Proof Sys2Proof.Claims

/-! ## A graph's own node on an engine -/

/-- What a good TAIL leaves before its completion; other operations leave nothing. -/
def carried (f : Firing) (s : State) : State :=
  if f.status == 0 then (if opCode f.ops = 4 then userTailDone f s else s) else s

/-- A crystallizer counts the firing that left it. -/
def countEngine (f : Firing) (s : State) : State :=
  if 0x10 ≤ f.holder ∧ f.holder < 0x20 then
    (s.incMax (Obj.cxNodes (f.holder - 0x10))).wr (Obj.cxState (f.holder - 0x10)) (if engineLoad s f.holder = 0 then 0 else 1)
  else s

theorem engineDone_user {f : Firing} (h : 272 ≤ f.slot) (s : State) :
    engineDone f s = countEngine f (completeFiring f f.status.toNat false (carried f s)) := by
  have hpath : ¬f.slot < 256 := by omega
  have hconv : ¬f.slot < 272 := by omega
  unfold engineDone carried
  simp only [hpath, hconv, decide_false, Bool.and_false, Bool.false_and, Bool.false_eq_true, if_false]
  cases f.status == 0 <;> simp <;> rfl

/-- A register that the count of an engine leaves. -/
def OffCx (q : Reg) : Prop := ¬(0x3690 ≤ q.key / 256 ∧ q.key / 256 < 0x36A0)

theorem Keeps.countEngine (f : Firing) (s : State) : Keeps OffCx State.mem s (countEngine f s) := by
  unfold Machine.countEngine
  split
  next hcx =>
    have hoff : ∀ q, OffCx q → q.key ≠ (Obj.cxNodes (f.holder - 0x10)).key ∧ q.key ≠ (Obj.cxState (f.holder - 0x10)).key := by
      intro q hq
      unfold OffCx at hq
      simp only [Obj.cxNodes, Obj.cxState]
      omega
    exact (Keeps.wr _ _ (fun q hq => (hoff q hq).1) rfl).trans (Keeps.wr _ _ (fun q hq => (hoff q hq).2) rfl)
  next => exact Keeps.refl s

theorem cxNodes_countEngine {f : Firing} {s : State} (ht : s.tidy = true) (h : 0x10 ≤ f.holder ∧ f.holder < 0x20) :
    (countEngine f s).rd (Obj.cxNodes (f.holder - 0x10)) = min (s.rd (Obj.cxNodes (f.holder - 0x10)) + 1) (2 ^ 64 - 1) := by
  unfold countEngine
  rw [if_pos h, State.rd_wr_ne _ _ (by simp [Obj.cxNodes, Obj.cxState])]
  exact State.rd_wr_self _ _ ((tidy_iff s).1 ht).od

theorem putHome_says (slot k : Nat) (w : Word) (s : State) :
    Keeps (fun _ => True) State.nodes s (putHome slot k w s) := by
  unfold putHome
  dsimp only
  split
  · exact Keeps.refl s
  · exact Keeps.of_rd (tidy_setMemWord _ w) (fun _ => rfl) rfl

theorem mem_putHome_setNode (slot k : Nat) (w : Word) (i : Nat) (x : Node) (s : State) :
    (putHome slot k w (s.setNode i x)).mem = (putHome slot k w s).mem := by
  have hcheck : fabCheck masterSluice true (farByte ((s.setNode i x).rd (Obj.nodeHome slot) + k)) (s.setNode i x) =
      fabCheck masterSluice true (farByte (s.rd (Obj.nodeHome slot) + k)) s := rfl
  unfold putHome
  dsimp only
  rw [hcheck]
  split <;> rfl

/-- HPOS as a completed TAIL writes it back (R185, R189). -/
def nextHpos (ops : List Word) : Word := BitVec.ofNat 32 (opParts ops * 0x10000 + (opHpos ops + 1) % opParts ops)

theorem mem_carried {f : Firing} (s : State) (h : f.status = 0) :
    (opCode f.ops ≠ 4 → (carried f s).mem = s.mem) ∧
      (opCode f.ops = 4 → (carried f s).mem = (putHome f.slot 13 (nextHpos f.ops) s).mem) := by
  unfold carried
  rw [if_pos (beq_iff_eq.2 h)]
  refine ⟨fun hop => ?_, fun hop => ?_⟩
  · rw [if_neg hop]
  · rw [if_pos hop]
    exact mem_putHome_setNode _ _ _ _ _ s

theorem Keeps.carried (f : Firing) (s : State) : Keeps (fun _ => True) (fun _ => ()) s (carried f s) := by
  refine Keeps.ite (Keeps.ite ?_ (Keeps.refl s)) (Keeps.refl s)
  exact Keeps.trans (Keeps.of_rd (tidy_setNode f.slot _) (fun _ => rfl) rfl) ((putHome_says f.slot 13 _ _).weaken (fun _ => ()) fun _ => id)

theorem carried_of_failed {f : Firing} (s : State) (h : f.status ≠ 0) : carried f s = s := if_neg (mt beq_iff_eq.1 h)

theorem exec_firingComplete {slot : Fin 512} {rung : Fin 8} {s : State} {f : Firing}
    (hfind : s.firings.find? (fun f => f.slot == slot.val && f.rung == rung.val && f.state == 4 && decide (0x10 ≤ f.holder)) = some f)
    (hdone : f.done = true) : exec (.firingComplete slot rung) s = .next (engineDone f s) := by
  show execFiringComplete slot rung s = _
  unfold execFiringComplete
  rw [hfind]
  exact congrArg Host.Outcome.next (if_pos hdone)

theorem offSluice_cxNodes {e : Nat} (h : e < 16) : OffSluice (Obj.cxNodes e) := offSluice_of_lt (by simp only [Obj.cxNodes]; omega)

/-- The registers of a node are none of an engine. -/
theorem offCx_node {q : Reg} {k slot : Nat} (hq : q.key = 0x3001 * 256 + k + (slot + 1) * 2 ^ 40) (hk : k < 256) : OffCx q := by
  unfold OffCx
  omega

theorem firingsComplete : FiringsComplete := by
  intro slot rung s f ht hslot hfind hdone
  have hexec := exec_firingComplete hfind hdone
  have hf : f.slot = slot.val := by
    have h := List.find?_some hfind
    simp only [Bool.and_eq_true, beq_iff_eq] at h
    exact h.1.1.1
  rw [← hf] at hslot ⊢
  rw [engineDone_user hslot] at hexec
  refine ⟨fun hst => ?_, fun hst hopen => ?_⟩
  · have hcarry := Keeps.carried f s
    obtain ⟨hkeep, hlast, hfirings⟩ := completeFiring_good (f := f) false (hcarry.tidy ht)
    have hcount := Keeps.countEngine f (completeFiring f 0 false (carried f s))
    have hmem : (countEngine f (completeFiring f 0 false (carried f s))).mem = (carried f s).mem :=
      hcount.view.trans (congrArg Prod.fst hkeep.view)
    obtain ⟨hother, htail⟩ := mem_carried s hst
    have hzero : f.status.toNat = 0 := by rw [hst]; rfl
    rw [hzero] at hexec
    refine ⟨_, hexec, ?_, ?_, ?_, fun hop => hmem.trans (hother hop), fun hop => hmem.trans (htail hop), fun hcx => ?_⟩
    · rw [hcount.rd _ (offCx_node rfl (by decide)), hlast]
    · rw [hcount.rd _ (offCx_node rfl (by decide)), hfirings, hcarry.rd _ trivial]
    · rw [hcount.rd _ (offCx_node rfl (by decide)), hkeep.rd _ ⟨offSluice_nodeFails _, (lastStatus_ne_fails _).symm,
        by simp [Obj.nodeFails, Obj.nodeFirings]⟩, hcarry.rd _ trivial]
    · have hcxNodes : OffGood f.slot (Obj.cxNodes (f.holder - 0x10)) := by
        refine ⟨offSluice_cxNodes (by omega), ?_, ?_⟩ <;> simp only [Obj.cxNodes, Obj.nodeLastStatus, Obj.nodeFirings] <;> omega
      rw [cxNodes_countEngine (hkeep.tidy (hcarry.tidy ht)) hcx, hkeep.rd _ hcxNodes, hcarry.rd _ trivial]
  · have hne : f.status.toNat ≠ 0 := fun h => hst (BitVec.eq_of_toNat_eq h)
    rw [carried_of_failed s hst] at hexec
    obtain ⟨hkeep, hlast, hfails, hfault, hstate⟩ := completeFiring_bad (f := f) hne false ht
    have hcount := Keeps.countEngine f (completeFiring f f.status.toNat false s)
    refine ⟨_, hexec, ?_, ?_, ?_, ?_, ?_, hcount.view.trans hkeep.view⟩
    · rw [hcount.rd _ (offCx_node rfl (by decide)), hlast]
    · rw [hcount.rd _ (offCx_node rfl (by decide)), hstate hopen]
    · rw [hcount.rd _ (offCx_node rfl (by decide)), hfails]
    · rw [hcount.rd _ (by simp [OffCx, Obj.schFaults])]
      exact hfault
    · have hoff : OffBad f.slot (Obj.nodeFirings f.slot) := by
        refine ⟨offSluice_nodeFirings _, ?_, (lastStatus_ne_firings _).symm, by simp [Obj.nodeFails, Obj.nodeFirings], ?_⟩
        · unfold OffLog
          simp only [Obj.nodeFirings]
          omega
        · simp only [Obj.nodeFirings, Obj.schFaults]
          omega
      rw [hcount.rd _ (offCx_node rfl (by decide)), hkeep.rd _ hoff]

end Sys2Proof.Machine
end

section
/-! The writes of the scheduler interface by a core (R218, R225, R229): SCH_DONE, SCH_POST and SCH_TAKE. -/

namespace Sys2Proof.Machine
open Sys2Proof Sys2Proof.Claims

/-! ## A completion leaves the cores but for their pending interrupts -/

section
variable {c : Nat} {x : Core} {s : State}

theorem CoreIs.raiseSticky (r : Reg) (bit code unit info extra : Nat) (h : CoreIs c x s) :
    CoreIs c x (raiseSticky r bit code unit info extra s) := by
  unfold Machine.raiseSticky
  split
  · exact h.repeatFault _ _ _
  · exact CoreIs.raise _ _ _ _ (h.wr r _)

theorem CoreIs.of_memCores {regs : Reg → Prop} {t : State} (h : CoreIs c x s) (k : Keeps regs memCores s t) : CoreIs c x t :=
  h.of_cores (k.tidy h.1) (congrArg Prod.snd k.view)

theorem CoreIs.completeFiring (f : Firing) (status : Nat) (late : Bool) (h : CoreIs c x s) :
    CoreIs c x (completeFiring f status late s) := by
  by_cases hst : status = 0
  · rw [hst]
    exact h.of_memCores (completeFiring_good late h.1).1
  · obtain ⟨faulted, he⟩ := completeFiring_eq f status late s
    have hleft := h.of_memCores (leaveEngine_says (f := f) status h.1).1
    have hfail := hleft.of_memCores (failNode_says (f := f) hleft.1).1
    rw [he, if_neg hst]
    exact CoreIs.of_memCores (CoreIs.raiseSticky _ _ _ _ _ _ hfail) (Keeps.closing f.slot _)

end

/-- Whatever its status, a completion keeps memory and leaves the status with the node. -/
theorem completeFiring_says {f : Firing} (status : Nat) (late : Bool) {s : State} (ht : s.tidy = true) :
    (completeFiring f status late s).mem = s.mem ∧ (completeFiring f status late s).rd (Obj.nodeLastStatus f.slot) = status := by
  by_cases hst : status = 0
  · obtain ⟨hkeep, hlast, -⟩ := completeFiring_good (f := f) late ht
    rw [hst]
    exact ⟨congrArg Prod.fst hkeep.view, hlast⟩
  · obtain ⟨hkeep, hlast, -⟩ := completeFiring_bad (f := f) hst late ht
    exact ⟨hkeep.view, hlast⟩

/-! ## SCH_DONE (R218) -/

/-- SCH_RESULT of a core (R218). -/
theorem schResult_setSchResult {c : Nat} (v : Nat) {s : State} (ht : s.tidy = true) :
    ((setSchResult c v s).core c).schResult = BitVec.ofNat 32 v := by
  unfold setSchResult
  rw [State.core_setCore_self c _ ((tidy_iff s).1 ht).cores]

theorem FaultOnly.edges {s t : State} (h : FaultOnly s t) : t.edges = s.edges := (congrArg State.edges h :)
theorem FaultOnly.rings {s t : State} (h : FaultOnly s t) : t.rings = s.rings := (congrArg State.rings h :)
theorem FaultOnly.firings {s t : State} (h : FaultOnly s t) : t.firings = s.firings := (congrArg State.firings h :)

/-- A refused write: its status, the count and the sticky bit of 0x6004; edges, ring pairs and firings stay (R229). -/
theorem schRefuse_says {c : Nat} (status what number : Nat) {s : State} (ht : s.tidy = true) :
    let t := schRefuse c status what number s
    (t.core c).schResult = BitVec.ofNat 32 status ∧ t.rd Obj.schRefused = min (s.rd Obj.schRefused + 1) 0xFFFFFFFF ∧
      (t.rd Obj.schFaults).testBit 3 = true ∧ t.edges = s.edges ∧ t.rings = s.rings ∧ t.firings = s.firings := by
  have hset : (setSchResult c status s).tidy = true := tidy_setCore c _ ht
  have hinc := tidy_inc Obj.schRefused hset
  have honly := schFault_only 4 what number 0 ((setSchResult c status s).inc Obj.schRefused)
  have hcore : CoreIs c ((setSchResult c status s).core c) (schRefuse c status what number s) :=
    CoreIs.raiseSticky _ _ _ _ _ _ ((coreIs_self hset).wr _ _)
  have hresult : ((schRefuse c status what number s).core c).schResult = ((setSchResult c status s).core c).schResult :=
    (congrArg Core.schResult hcore.2 :)
  refine ⟨hresult.trans (schResult_setSchResult status ht), ?_, testBit_raiseSticky offLog_schFaults _ _ _ _ _ hinc,
    honly.edges, honly.rings, honly.firings⟩
  exact (rd_schFault_ne (by simp [OffLog, Obj.schRefused]) (by decide) _ _ _ _ _).trans
    (State.rd_wr_self _ _ ((tidy_iff _).1 hset).od)

section
variable {c : Fin 8} {s : State} (hr : coreRuns s c.val = true) (w : Word)
include hr

theorem exec_schDone : exec (.schDone c w) s = .next (opSchDone c.val w s) := congrArg Host.Outcome.next (if_pos hr)
theorem exec_schPost : exec (.schPost c w) s = .next (opSchPost c.val w s) := congrArg Host.Outcome.next (if_pos hr)
theorem exec_schTake : exec (.schTake c w) s = .next (opSchTake c.val w s) := congrArg Host.Outcome.next (if_pos hr)

end

section
variable {c : Nat} {w : Word} {s : State} (ht : s.tidy = true)
include ht

theorem opSchDone_held {f : Firing} (h : heldFiring s c = some f) :
    let t := opSchDone c w s
    (t.core c).node = none ∧ (t.core c).schResult = 0 ∧ t.rd (Obj.nodeLastStatus f.slot) = (w.extractLsb' 0 16).toNat ∧
      t.mem = s.mem := by
  have hset := tidy_setCore c { s.core c with node := none, schResult := 0 } ht
  obtain ⟨hmem, hlast⟩ := completeFiring_says (f := f) (w.extractLsb' 0 16).toNat false hset
  have hcore := CoreIs.completeFiring f (w.extractLsb' 0 16).toNat false (coreIs_self (c := c) hset)
  have hself := State.core_setCore_self c { s.core c with node := none, schResult := 0 } ((tidy_iff s).1 ht).cores
  rw [hself] at hcore
  unfold opSchDone
  rw [h]
  exact ⟨(congrArg Core.node hcore.2 :), (congrArg Core.schResult hcore.2 :), hlast, hmem⟩

end

/-! ## SCH_POST (R218, R225) -/

/-- The edge that a write names. -/
def edgeNamed (w : Word) : Nat := (w.extractLsb' 0 10).toNat

/-- The position that a post on an edge without a return ring fills. -/
def postPos (s : State) (e : Nat) : Nat := (s.edge e).next % s.rd (Obj.edgeDepth e)

section
variable {c : Nat} {w : Word} {s : State}

theorem opSchPost_refused (h : (s.edge (edgeNamed w)).on = false ∨ (s.edge (edgeNamed w)).prod ≠ 0 ∨
    ringOfEnd (s.edge (edgeNamed w)).cons = none ∧ postPos s (edgeNamed w) ∈ (s.edge (edgeNamed w)).held) :
    opSchPost c w s = schRefuse c 0x6152 1 (edgeNamed w) s := by
  unfold opSchPost
  dsimp only
  rw [← edgeNamed]
  split
  next => rfl
  next hopen =>
    simp only [Bool.or_eq_true, Bool.not_eq_true', bne_iff_ne, not_or, Bool.not_eq_false, not_not] at hopen
    obtain ⟨hring, hheld⟩ : ringOfEnd (s.edge (edgeNamed w)).cons = none ∧
        postPos s (edgeNamed w) ∈ (s.edge (edgeNamed w)).held := by
      rcases h with hoff | hprod | h
      · exact absurd hoff (by rw [hopen.1]; decide)
      · exact absurd hopen.2 hprod
      · exact h
    rw [hring]
    exact if_pos (List.contains_iff_mem.2 hheld)

section
variable (hon : (s.edge (edgeNamed w)).on = true) (hprod : (s.edge (edgeNamed w)).prod = 0)
include hon hprod

theorem opSchPost_uncredited {r : Nat} (hring : ringOfEnd (s.edge (edgeNamed w)).cons = some r)
    (hcredit : creditFor s (edgeNamed w) (s.edge (edgeNamed w)).posted = none) :
    opSchPost c w s = schRefuse c 0x6152 1 (edgeNamed w) s := by
  rw [edgeNamed] at *
  unfold opSchPost
  simp only [hon, hprod, hring, hcredit, Bool.not_true, Bool.false_or, bne_self_eq_false, Bool.false_eq_true, if_false]

theorem opSchPost_return {r q : Nat} {void : Bool} (hring : ringOfEnd (s.edge (edgeNamed w)).cons = some r)
    (hcredit : creditFor s (edgeNamed w) (s.edge (edgeNamed w)).posted = some (q, void))
    (hfree : (s.ring r).ret.any (fun x => x.block == (s.edge (edgeNamed w)).posted + ringK s r && x.valid) = false) :
    opSchPost c w s = setSchResult c (q * 0x10000) (postReturn r (edgeNamed w) (s.edge (edgeNamed w)).posted void s) := by
  rw [edgeNamed] at *
  unfold opSchPost
  simp only [hon, hprod, hring, hcredit, hfree, Bool.not_true, Bool.false_or, bne_self_eq_false, Bool.false_eq_true, if_false]

/-- A post moves an edge on to its next position and block. -/
def movedOn (s : State) (e : Nat) : Edge :=
  { s.edge e with next := (postPos s e + 1) % s.rd (Obj.edgeDepth e), posted := (s.edge e).posted + 1 }

theorem opSchPost_token (hring : ringOfEnd (s.edge (edgeNamed w)).cons = none)
    (hfree : postPos s (edgeNamed w) ∉ (s.edge (edgeNamed w)).held) :
    opSchPost c w s = setSchResult c (postPos s (edgeNamed w) * 0x10000)
      (postToken (edgeNamed w) ⟨(s.edge (edgeNamed w)).posted, some (postPos s (edgeNamed w)), false, false⟩
        (s.setEdge (edgeNamed w) (movedOn s (edgeNamed w)))) := by
  have hheld := mt List.contains_iff_mem.1 hfree
  rw [postPos, edgeNamed] at *
  unfold opSchPost
  simp only [movedOn, postPos, hon, hprod, hring, hheld, Bool.not_true, Bool.false_or, bne_self_eq_false, Bool.false_eq_true, if_false]

end

end

/-- The return blocks of a ring pair after a post of block `m`. -/
def postedRet (k m : Nat) (ret : List RetPos) : List RetPos :=
  ret.map fun t => if t.block = k + m && !t.latched then { t with valid := true } else t

theorem postReturn_void (r e m : Nat) (s : State) : postReturn r e m true s = s.setEdge e { s.edge e with posted := m + 1 } := rfl

theorem postReturn_valid (r e m : Nat) (s : State) : postReturn r e m false s =
    ((s.setEdge e { s.edge e with posted := m + 1 }).setRing r
      { s.ring r with ret := postedRet (ringK s r) m (s.ring r).ret }).incMax (Obj.edgePosted e) := rfl

/-- Credit that is not void names a return position that expects the block. -/
theorem block_of_credit {s : State} {e m r q : Nat} (hring : ringOfEnd (s.edge e).cons = some r)
    (h : creditFor s e m = some (q, false)) : ∃ t ∈ (s.ring r).ret, t.block = m + ringK s r ∧ t.latched = false := by
  unfold creditFor at h
  simp only [hring] at h
  split at h
  next => cases h
  next t hget =>
    split at h
    next hfit =>
      obtain ⟨hblock, hlatched, -⟩ := hfit
      exact ⟨t, List.mem_of_getElem? hget, hblock, by simpa using hlatched⟩
    next => split at h <;> cases h

theorem valid_postedRet {k m : Nat} {ret : List RetPos} (h : ∃ t ∈ ret, t.block = m + k ∧ t.latched = false) :
    ∃ t ∈ postedRet k m ret, t.block = m + k ∧ t.valid = true := by
  obtain ⟨t, hm, hblock, hlatched⟩ := h
  refine ⟨_, List.mem_map_of_mem hm, ?_⟩
  rw [if_pos (by simp [hblock, hlatched, Nat.add_comm])]
  exact ⟨hblock, rfl⟩

section
variable {c : Nat} {s : State} (ht : s.tidy = true)
include ht

theorem postReturn_says {r e q : Nat} {void : Bool} (hring : ringOfEnd (s.edge e).cons = some r)
    (hcredit : creditFor s e (s.edge e).posted = some (q, void)) :
    let t := setSchResult c (q * 0x10000) (postReturn r e (s.edge e).posted void s)
    (t.core c).schResult = BitVec.ofNat 32 (q * 0x10000) ∧ (t.edge e).posted = (s.edge e).posted + 1 ∧ t.mem = s.mem ∧
      (void = true → t.rings = s.rings) ∧
      (void = false → t.rd (Obj.edgePosted e) = min (s.rd (Obj.edgePosted e) + 1) (2 ^ 64 - 1) ∧
        ∃ x ∈ (t.ring r).ret, x.block = (s.edge e).posted + ringK s r ∧ x.valid = true) := by
  have hedge := tidy_setEdge e { s.edge e with posted := (s.edge e).posted + 1 } ht
  have hposted := State.edge_setEdge_self e { s.edge e with posted := (s.edge e).posted + 1 } ((tidy_iff s).1 ht).edges
  cases void with
  | true =>
    rw [postReturn_void]
    exact ⟨schResult_setSchResult _ hedge, congrArg Edge.posted hposted, rfl, fun _ => rfl, fun h => by cases h⟩
  | false =>
    rw [postReturn_valid]
    have hring' := tidy_setRing r { s.ring r with ret := postedRet (ringK s r) (s.edge e).posted (s.ring r).ret } hedge
    refine ⟨schResult_setSchResult _ (tidy_wr _ _ hring'), congrArg Edge.posted hposted, rfl,
      (fun h => by cases h), fun _ => ⟨?_, ?_⟩⟩
    · exact State.rd_wr_self (s := (s.setEdge e _).setRing r _) _ _ ((tidy_iff _).1 hring').od
    · have hret := congrArg RingPair.ret (State.ring_setRing_self r
        { s.ring r with ret := postedRet (ringK s r) (s.edge e).posted (s.ring r).ret } ((tidy_iff _).1 hedge).rings)
      obtain ⟨x, hx, hblock⟩ := valid_postedRet (block_of_credit hring hcredit)
      exact ⟨x, hret ▸ hx, hblock⟩

/-- A token with a position joins its edge and is counted. -/
theorem addToken_says (e m p : Nat) (late : Bool) :
    let t := addToken e ⟨m, some p, late, false⟩ s
    t.tidy = true ∧ (⟨m, some p, late, false⟩ : Token) ∈ (t.edge e).tokens ∧
      t.rd (Obj.edgePosted e) = min (s.rd (Obj.edgePosted e) + 1) (2 ^ 64 - 1) ∧ t.mem = s.mem := by
  have hset := tidy_setEdge e { s.edge e with
    tokens := (s.edge e).tokens ++ [⟨m, some p, late, false⟩]
    taken := (s.edge e).taken.filter fun q => some p != some q } ht
  have hself := State.edge_setEdge_self e { s.edge e with
    tokens := (s.edge e).tokens ++ [⟨m, some p, late, false⟩]
    taken := (s.edge e).taken.filter fun q => some p != some q } ((tidy_iff s).1 ht).edges
  refine ⟨tidy_wr _ _ hset, ?_, State.rd_wr_self _ _ ((tidy_iff _).1 hset).od, rfl⟩
  show _ ∈ ((s.setEdge e _).edge e).tokens
  rw [hself]
  exact List.mem_append_right _ (List.mem_singleton_self _)

theorem postToken_says (e m p v : Nat) (late : Bool) :
    let t := setSchResult c v (postToken e ⟨m, some p, late, false⟩ s)
    (t.core c).schResult = BitVec.ofNat 32 v ∧ t.rd (Obj.edgePosted e) = min (s.rd (Obj.edgePosted e) + 1) (2 ^ 64 - 1) ∧
      (∃ x ∈ (t.edge e).tokens, x.index = m ∧ x.pos = some p ∧ x.late = late) ∧ t.mem = s.mem := by
  obtain ⟨hadd, htoken, hposted, hmem⟩ := addToken_says ht e m p late
  have hscan := Keeps.readyScan (addToken e ⟨m, some p, late, false⟩ s)
  obtain ⟨hscanTidy, htokens, -⟩ := SameBlocks.readyScan _ hadd
  refine ⟨schResult_setSchResult v hscanTidy, (hscan.rd _ (offScan_edgePosted e)).trans hposted,
    token_of_plainTokens (htokens e).symm htoken, (congrArg Prod.fst hscan.memCores.view).trans hmem⟩

end

/-! ## SCH_TAKE (R218) -/

theorem opSchTake_refused {c : Nat} {w : Word} {s : State} (h : (s.edge (edgeNamed w)).on = false ∨ (s.edge (edgeNamed w)).cons ≠ 0 ∨
    (s.edge (edgeNamed w)).tokens = []) : opSchTake c w s = schRefuse c 0x6153 1 (edgeNamed w) s := by
  unfold opSchTake
  dsimp only
  rw [← edgeNamed]
  split
  next => rfl
  next hopen =>
    simp only [Bool.or_eq_true, Bool.not_eq_true', bne_iff_ne, not_or, Bool.not_eq_false, not_not] at hopen
    rcases h with hoff | hcons | hnone
    · exact absurd hoff (by rw [hopen.1]; decide)
    · exact absurd hopen.2 hcons
    · rw [hnone]

theorem opSchTake_token {c : Nat} {w : Word} {s : State} (ht : s.tidy = true) {x : Token} {rest : List Token}
    (hon : (s.edge (edgeNamed w)).on = true)
    (hcons : (s.edge (edgeNamed w)).cons = 0) (htokens : (s.edge (edgeNamed w)).tokens = x :: rest) :
    let t := opSchTake c w s
    (t.core c).schResult = BitVec.ofNat 32 (x.pos.getD 0 * 0x10000) ∧ x ∉ (t.edge (edgeNamed w)).tokens ∧ t.mem = s.mem := by
  have hop : opSchTake c w s =
      setSchResult c (x.pos.getD 0 * 0x10000) (readyScan (removeToken (edgeNamed w) x.index x.pos s)) := by
    rw [edgeNamed] at *
    unfold opSchTake
    simp only [hon, hcons, htokens, Bool.not_true, Bool.false_or, bne_self_eq_false, Bool.false_eq_true, if_false]
  have hremove : (removeToken (edgeNamed w) x.index x.pos s).tidy = true := tidy_setEdge _ _ ht
  have hself : (removeToken (edgeNamed w) x.index x.pos s).edge (edgeNamed w) = { s.edge (edgeNamed w) with
      tokens := (s.edge (edgeNamed w)).tokens.filter fun t => !(t.index == x.index && t.pos == x.pos) } :=
    State.edge_setEdge_self _ _ ((tidy_iff s).1 ht).edges
  obtain ⟨hscanTidy, hsame, -⟩ := SameBlocks.readyScan _ hremove
  rw [hop]
  refine ⟨schResult_setSchResult _ hscanTidy, fun hx => ?_, congrArg Prod.fst (Keeps.readyScan _).memCores.view⟩
  obtain ⟨y, hy, hindex, hpos, -⟩ := token_of_plainTokens (hsame (edgeNamed w)) hx
  rw [hself] at hy
  have hkept := (List.mem_filter.1 hy).2
  rw [hindex, hpos] at hkept
  simp at hkept

theorem schedulerWrites : SchedulerWrites := by
  intro c w s ht hr
  have hrefused := fun status what number => schRefuse_says (c := c.val) status what number ht
  refine ⟨fun f hf => ⟨_, exec_schDone hr w, opSchDone_held ht hf⟩, fun hf => ?_, fun r q void hon hprod hring hcredit hfree => ?_,
    fun r hon hprod hring hcredit => ?_, fun hon hprod hring hfree => ?_, fun h => ?_, fun x rest hon hcons htokens => ?_, fun h => ?_⟩
  · have hop : opSchDone c.val w s = schRefuse c.val 0x6151 0 c.val s := by
      unfold opSchDone
      rw [hf]
    obtain ⟨hresult, hcount, hbit, hedges, -, hfirings⟩ := hrefused 0x6151 0 c.val
    exact ⟨_, (exec_schDone hr w).trans (congrArg Host.Outcome.next hop), hresult, hcount, hbit, hedges, hfirings⟩
  · exact ⟨_, (exec_schPost hr w).trans (congrArg Host.Outcome.next (opSchPost_return hon hprod hring hcredit hfree)),
      postReturn_says ht hring hcredit⟩
  · obtain ⟨hresult, hcount, -, hedges, hrings, -⟩ := hrefused 0x6152 1 (edgeNamed w)
    exact ⟨_, (exec_schPost hr w).trans (congrArg Host.Outcome.next (opSchPost_uncredited hon hprod hring hcredit)),
      hresult, hedges, hrings, hcount⟩
  · obtain ⟨hresult, hposted, htoken, hmem⟩ := postToken_says (c := c.val)
      (tidy_setEdge (edgeNamed w) (movedOn s (edgeNamed w)) ht) (edgeNamed w) (s.edge (edgeNamed w)).posted
      (postPos s (edgeNamed w)) (postPos s (edgeNamed w) * 0x10000) false
    exact ⟨_, (exec_schPost hr w).trans (congrArg Host.Outcome.next (opSchPost_token hon hprod hring hfree)),
      hresult, hposted, htoken, hmem⟩
  · obtain ⟨hresult, hcount, -, hedges, -, -⟩ := hrefused 0x6152 1 (edgeNamed w)
    exact ⟨_, (exec_schPost hr w).trans (congrArg Host.Outcome.next (opSchPost_refused h)), hresult, hedges, hcount⟩
  · exact ⟨_, exec_schTake hr w, opSchTake_token ht hon hcons htokens⟩
  · obtain ⟨hresult, hcount, -, hedges, -, -⟩ := hrefused 0x6153 1 (edgeNamed w)
    exact ⟨_, (exec_schTake hr w).trans (congrArg Host.Outcome.next (opSchTake_refused h)), hresult, hedges, hcount⟩

/-- Settles O45: a completion by what each of its parts keeps, the writes of a core by the case of the edge that each names. A late
token without a position reads as position 0 (log 36), and a late post on a return ring is accepted and posts nothing (log 129):
these clauses are the model's choice. -/
theorem firings : Obligations.Firings := ⟨firingsComplete, schedulerWrites⟩

end Sys2Proof.Machine
end

section
/-! The enable objects of ring pairs, convolution paths and converters (R194, R204, R234), and the start of a node that the module
builds (R214). -/

namespace Sys2Proof.Machine
open Sys2Proof Sys2Proof.Claims

/-! ## The enable objects -/

/-- The row of an enable object: a byte that is 0 or 1. -/
def enableRow (base cnt sub : Nat) : ObjRow := ⟨base, cnt, 1, sub, 1, .uint 1, .rws, 0, .range 0 1⟩

/-- Every row of the table holds the whole block of `cnt` indices from `base` on, one by one, or lies outside it. -/
def blockApart (base cnt : Nat) : Bool :=
  objRows.all fun r => (r.idx == base && r.cnt == cnt && r.stride == 1) ||
    (r.idx != base && (decide (base + cnt ≤ r.idx) || (decide (r.idx + r.stride * r.cnt ≤ base) && r.stride != 0)))

theorem hasIndex_of_blockApart {base cnt idx : Nat} (h : blockApart base cnt = true) (hlo : base ≤ idx) (hhi : idx < base + cnt)
    {r : ObjRow} (hr : r ∈ objRows) : r.hasIndex idx = (r.idx == base) := by
  have hrow := List.all_eq_true.1 h r hr
  simp only [Bool.or_eq_true, Bool.and_eq_true, beq_iff_eq, decide_eq_true_eq, bne_iff_ne] at hrow
  unfold ObjRow.hasIndex
  rcases hrow with ⟨⟨hb, hc⟩, hst⟩ | ⟨hne, habove | ⟨hbelow, hst⟩⟩
  · have hin : base ≤ idx ∧ idx - base < cnt := by omega
    simp [hb, hc, hst, hin, Nat.mod_one]
  · rw [beq_eq_false_iff_ne.2 hne, decide_eq_false (by omega : ¬r.idx ≤ idx)]
    rfl
  · have hpast : ¬(idx - r.idx) / r.stride < r.cnt := by
      rw [Nat.div_lt_iff_lt_mul (Nat.pos_of_ne_zero hst), Nat.mul_comm]
      omega
    rw [decide_eq_false hpast, Bool.and_false, beq_eq_false_iff_ne.2 hne]

/-- An object of such a block is looked up among the rows of the block. -/
theorem lookup_of_blockApart {base cnt idx sub : Nat} {r : ObjRow} (h : blockApart base cnt = true) (hlo : base ≤ idx)
    (hhi : idx < base + cnt) (hrow : ((objRows.filter fun r => r.idx == base).find? fun r => r.hasSub sub) = some r) :
    lookup idx sub = .ok r := by
  have hfind : findRow idx sub = some r := by
    rw [← hrow, List.find?_filter]
    refine List.find?_congr fun r hr => ?_
    rw [hasIndex_of_blockApart h hlo hhi hr, Bool.eq_iff_iff]
    simp
  unfold lookup
  rw [hfind]

/-- The enable objects of the two items of an index. -/
theorem enable_of_two {base sub : Nat} (hsub : sub = 1 ∨ sub = 33) (hbase : base = 0x3080 ∨ base = 0x3600) :
    ((objRows.filter fun r => r.idx == base).find? fun r => r.hasSub sub) = some (enableRow base 128 sub) := by
  rcases hsub with rfl | rfl <;> rcases hbase with rfl | rfl <;> decide +kernel

theorem lookup_rpEnable (r : Fin 256) :
    lookup (0x3080 + r.val / 2) (1 + 32 * (r.val % 2)) = .ok (enableRow 0x3080 128 (1 + 32 * (r.val % 2))) :=
  lookup_of_blockApart (base := 0x3080) (cnt := 128) (by decide +kernel) (by omega) (by omega) (enable_of_two (by omega) (.inl rfl))

theorem lookup_cpEnable (q : Fin 256) :
    lookup (0x3600 + q.val / 2) (1 + 32 * (q.val % 2)) = .ok (enableRow 0x3600 128 (1 + 32 * (q.val % 2))) :=
  lookup_of_blockApart (base := 0x3600) (cnt := 128) (by decide +kernel) (by omega) (by omega) (enable_of_two (by omega) (.inr rfl))

theorem lookup_asEnable (v : Fin 16) : lookup (0x3800 + v.val) 1 = .ok (enableRow 0x3800 16 1) :=
  lookup_of_blockApart (base := 0x3800) (cnt := 16) (by decide +kernel) (by omega) (by omega) (by decide +kernel)

/-- The row of IR_CTRL. -/
def irCtrlRow : ObjRow := ⟨0x3680, 1, 1, 4, 1, .uint 1, .wo, 0, .range 1 1⟩

theorem lookup_irCtrl : lookup 0x3680 4 = .ok irCtrlRow := by decide +kernel

/-- No object from 0x3000 on has reserved bits but those that its row names (R10). -/
theorem dropReserved_high {idx : Nat} (h : 0x3000 ≤ idx) {r : ObjRow} {lo hi : Nat} (hd : r.dom = .range lo hi) (sub v : Nat) :
    dropReserved r idx sub v = v := by
  unfold dropReserved
  rw [if_neg (by omega), if_neg (by omega), if_neg (by omega), if_neg (by omega), if_neg (by omega), if_neg (by omega), hd]

theorem writeNat_enable {p : Path} {idx sub base cnt v a : Nat} {s t : State} (hs : Ready s) (hidx : 0x3000 ≤ idx)
    (hl : lookup idx sub = .ok (enableRow base cnt sub)) (hv : v ≤ 1)
    (hc : ∀ item data, command (pathCode p) item idx sub v data s = some (t, a)) :
    writeNat p idx sub 1 v s = answer (pathCode p) (idx * 256 + sub) a [] t := by
  refine writeNat_command hs hl (by simp [enableRow]) (by simp [enableRow]) rfl (by decide) (by omega) ?_ fun item data => ?_
  · simp only [domGood, enableRow, Bool.and_eq_true, decide_eq_true_eq]
    omega
  · rw [dropReserved_high hidx (lo := 0) (hi := 1) rfl]
    exact hc item data

theorem command_rpEnable {r : Nat} (hr : r < 256) (p item v : Nat) (data : List Byte) (s : State) :
    command p item (0x3080 + r / 2) (1 + 32 * (r % 2)) v data s = some (writeRpEnable r v s) := by
  have hne : ∀ k, k < 0x3080 → 0x3080 + r / 2 ≠ k := by omega
  have hin : 0x3080 ≤ 0x3080 + r / 2 ∧ 0x3080 + r / 2 < 0x3100 := by omega
  have hsub : (1 + 32 * (r % 2)) % 32 = 1 := by omega
  have hitem : 2 * (0x3080 + r / 2 - 0x3080) + (1 + 32 * (r % 2)) / 32 = r := by omega
  have hrange : ¬0x3080 + r / 2 < 0x3000 ∧ 0x3080 + r / 2 < 0x3A00 := by omega
  simp (disch := decide) only [command, command1, hne, hin, hsub, hitem, hrange, false_and, if_false, if_true, and_self]

theorem command_cpEnable {q : Nat} (hq : q < 256) (p item v : Nat) (data : List Byte) (s : State) :
    command p item (0x3600 + q / 2) (1 + 32 * (q % 2)) v data s = some (writeCpEnable q v s) := by
  have hne : ∀ k, k < 0x3600 → 0x3600 + q / 2 ≠ k := by omega
  have hring : ¬0x3600 + q / 2 < 0x3100 := by omega
  have hdma : ¬0x3600 + q / 2 < 0x3230 := by omega
  have hpan : ¬0x3600 + q / 2 < 0x3418 := by omega
  have hin : 0x3600 ≤ 0x3600 + q / 2 ∧ 0x3600 + q / 2 < 0x3680 := by omega
  have hsub : (1 + 32 * (q % 2)) % 32 = 1 := by omega
  have hitem : 2 * (0x3600 + q / 2 - 0x3600) + (1 + 32 * (q % 2)) / 32 = q := by omega
  have hrange : ¬0x3600 + q / 2 < 0x3000 ∧ 0x3600 + q / 2 < 0x3A00 := by omega
  simp (disch := decide) only [command, command1, hne, hring, hdma, hpan, hin, hsub, hitem, hrange, false_and, and_false, if_false,
    if_true, and_self]

theorem command_asEnable {v : Nat} (hv : v < 16) (p item on : Nat) (data : List Byte) (s : State) :
    command p item (0x3800 + v) 1 on data s = some (writeAsEnable v on s) := by
  have hne : ∀ k, k < 0x3800 → 0x3800 + v ≠ k := by omega
  have hring : ¬0x3800 + v < 0x3100 := by omega
  have hdma : ¬0x3800 + v < 0x3230 := by omega
  have hpan : ¬0x3800 + v < 0x3418 := by omega
  have hpath : ¬0x3800 + v < 0x3680 := by omega
  have hin : 0x3800 ≤ 0x3800 + v ∧ 0x3800 + v < 0x3810 := by omega
  have hitem : 0x3800 + v - 0x3800 = v := by omega
  have hrange : ¬0x3800 + v < 0x3000 ∧ 0x3800 + v < 0x3A00 := by omega
  simp (disch := decide) only [command, command1, hne, hring, hdma, hpan, hpath, hin, hitem, hrange, false_and, and_false, if_false,
    if_true, and_self]

theorem command_irCtrl (p item v : Nat) (data : List Byte) (s : State) :
    command p item 0x3680 4 v data s = some (startIrLoad p s) := rfl

section
variable {p : Path} {s : State} (hs : Ready s)
include hs

theorem exec_rpEnableWrite {r : Fin 256} {v : Byte} (hv : v.toNat ≤ 1) : exec (.rpEnableWrite p r v) s =
    .next (answer (pathCode p) ((0x3080 + r.val / 2) * 256 + (1 + 32 * (r.val % 2))) (writeRpEnable r.val v.toNat s).2 []
      (writeRpEnable r.val v.toNat s).1) :=
  congrArg Host.Outcome.next (writeNat_enable hs (by omega) (lookup_rpEnable r) hv fun _ _ => command_rpEnable r.isLt _ _ _ _ s)

theorem exec_cpEnableWrite {q : Fin 256} {v : Byte} (hv : v.toNat ≤ 1) : exec (.cpEnableWrite p q v) s =
    .next (answer (pathCode p) ((0x3600 + q.val / 2) * 256 + (1 + 32 * (q.val % 2))) (writeCpEnable q.val v.toNat s).2 []
      (writeCpEnable q.val v.toNat s).1) :=
  congrArg Host.Outcome.next (writeNat_enable hs (by omega) (lookup_cpEnable q) hv fun _ _ => command_cpEnable q.isLt _ _ _ _ s)

theorem exec_asEnableWrite {v : Fin 16} {on : Byte} (hv : on.toNat ≤ 1) : exec (.asEnableWrite p v on) s =
    .next (answer (pathCode p) ((0x3800 + v.val) * 256 + 1) (writeAsEnable v.val on.toNat s).2 [] (writeAsEnable v.val on.toNat s).1) :=
  congrArg Host.Outcome.next (writeNat_enable hs (by omega) (lookup_asEnable v) hv fun _ _ => command_asEnable v.isLt _ _ _ _ s)

theorem exec_irLoadStart : exec (.irLoadStart p) s =
    .next (answer (pathCode p) (0x3680 * 256 + 4) (startIrLoad (pathCode p) s).2 [] (startIrLoad (pathCode p) s).1) := by
  refine congrArg Host.Outcome.next (writeNat_command hs lookup_irCtrl (by decide) (by decide) rfl (by decide) (by decide) (by decide)
    fun item data => ?_)
  rw [dropReserved_high (by decide) (lo := 1) (hi := 1) rfl]
  exact command_irCtrl _ _ _ _ s

end

/-! ## A node that the module builds (R194, R214) -/

/-- A register of an object without items. -/
def PlainReg (q : Reg) : Prop := q.key < 2 ^ 40

theorem PlainReg.offScan {q : Reg} (h : PlainReg q) : OffScan q := offScan_of_lt h

/-- What the start of a node keeps beside registers, edges, ring pairs, nodes and firings. -/
def besideNodes (s : State) : State := { besideSluice s with nodes := [] }

theorem Keeps.besideNodes {regs : Reg → Prop} {s t : State} (h : Keeps regs besideSluice s t) : Keeps regs besideNodes s t :=
  h.weaken (fun x => { x with nodes := [] }) fun _ => id

/-- The own edge of an endpoint is a matter of the edge's registers alone (R233). -/
theorem Keeps.ownEdge (e base depth bytes : Nat) (prod : Bool) (end_ : Nat) (s : State) :
    Keeps PlainReg besideSluice s (ownEdge e base depth bytes prod end_ s) := by
  have hwr : ∀ (r : Reg) (v : Nat) (t : State), 2 ^ 40 ≤ r.key → Keeps PlainReg besideSluice t (t.wr r v) := fun r v t hr =>
    Keeps.setReg t v fun q hq => by unfold PlainReg at hq; omega
  unfold Machine.ownEdge
  refine (((((hwr _ _ s ?_).trans (hwr _ _ _ ?_)).trans (hwr _ _ _ ?_)).trans (hwr _ _ _ ?_)).trans (hwr _ _ _ ?_)).trans
    (Keeps.setEdge _ _ _)
  all_goals
    simp only [Obj.edgeBase, Obj.edgeDepth, Obj.edgePosBytes, Obj.edgeEnable, Obj.edgePosted]
    omega

theorem startNode_says (slot : Nat) (h : List Word) {s : State} (ht : s.tidy = true) :
    Keeps PlainReg besideNodes s (startNode slot h s) ∧ (startNode slot h s).node slot = { ({} : Node) with on := true, hdr := h } := by
  have hbind : ∀ t : State, Keeps PlainReg besideSluice t (bindNode slot h t) := fun t =>
    (Keeps.forList _ _ (fun e _ u => Keeps.setEdge e _ u) t).trans (Keeps.forList _ _ (fun e _ u => Keeps.setEdge e _ u) _)
  have hrest : ∀ t : State, Keeps PlainReg besideSluice t (readyScan ((bindNode slot h t).wr (Obj.nodeState slot) 1)) := fun t =>
    (hbind t).trans ((Keeps.setReg _ 1 fun _ hq => (hq.offScan slot).1).trans ((Keeps.readyScan _).weaken id fun _ hq => hq.offScan))
  have hset : Keeps PlainReg besideNodes s (s.setNode slot { ({} : Node) with on := true, hdr := h }) :=
    Keeps.of_rd (tidy_setNode slot _) (fun _ => rfl) rfl
  exact ⟨hset.trans (hrest _).besideNodes,
    (node_of_besideSluice (hrest _).view slot).trans (State.node_setNode_self slot _ ((tidy_iff s).1 ht).nodes)⟩

end Sys2Proof.Machine
end

section
/-! Ring pairs, convolution paths and converters are enabled where no check refuses them (R194, R204, R225, R234). -/

namespace Sys2Proof.Machine
open Sys2Proof Sys2Proof.Claims

@[simp] theorem told_ring (p : Path) (idx sub : Nat) (s : State) (r : Nat) : (told p idx sub s).ring r = s.ring r := rfl
@[simp] theorem told_path (p : Path) (idx sub : Nat) (s : State) (q : Nat) : (told p idx sub s).path q = s.path q := rfl
@[simp] theorem told_conv (p : Path) (idx sub : Nat) (s : State) (v : Nat) : (told p idx sub s).conv v = s.conv v := rfl
@[simp] theorem told_node (p : Path) (idx sub : Nat) (s : State) (k : Nat) : (told p idx sub s).node k = s.node k := rfl

/-! ## Ring pairs (R225, R234) -/

/-- The return blocks of a pair that is enabled: K valid ones (R225). -/
def freshBlocks (k : Nat) : List RetPos := (List.range k).map fun p => ⟨p, true, false, false, false⟩

theorem freshBlocks_getElem? {k j : Nat} {x : RetPos} (h : (freshBlocks k)[j]? = some x) : x.block = j ∧ x.valid = true := by
  obtain ⟨hj, rfl⟩ := List.getElem?_eq_some_iff.1 h
  simp [freshBlocks]

/-- Reservations aside, a ring pair is on, and its return blocks stand, as they were. -/
theorem plain_says {x y : RingPair} (h : x.plain = y.plain) : x.on = y.on ∧ x.ret.length = y.ret.length ∧
    ∀ (k : Nat) (t : RetPos), x.ret[k]? = some t → ∃ u, y.ret[k]? = some u ∧ u.block = t.block ∧ u.valid = t.valid := by
  have hret := congrArg RingPair.ret h
  simp only [RingPair.plain] at hret
  refine ⟨(congrArg RingPair.on h :), by simpa using congrArg List.length hret, fun k t ht => ?_⟩
  have hk := congrArg (fun l : List RetPos => l[k]?) hret
  simp only [List.getElem?_map, ht, Option.map_some] at hk
  obtain ⟨u, hu, he⟩ := Option.map_eq_some_iff.1 hk.symm
  obtain ⟨hblock, hvalid, -⟩ := RetPos.mk.inj he
  exact ⟨u, hu, hblock, hvalid⟩

theorem plainReg_rp {q : Reg} {r k : Nat} (hr : r < 256) (hq : q.key = (0x3080 + r / 2) * 256 + k + 32 * (r % 2)) (hk : k < 256) :
    PlainReg q := by
  unfold PlainReg
  omega

/-- The size of a pair's return ring is a matter of its own registers (R234). -/
theorem rpReturnWords_of_rd {r : Nat} (hr : r < 256) {s t : State} (h : ∀ q, PlainReg q → t.rd q = s.rd q) :
    rpReturnWords t r = rpReturnWords s r := by
  unfold rpReturnWords ringK ringB ringC
  rw [h _ (plainReg_rp (k := 5) hr rfl (by decide)), h _ (plainReg_rp (k := 4) hr rfl (by decide)),
    h _ (plainReg_rp (k := 6) hr rfl (by decide))]

theorem tidy_clearMem {s : State} (lo hi : Nat) (h : s.tidy = true) :
    State.tidy { s with mem := clearMem s.mem lo hi } = true :=
  (tidy_iff _).2 { (tidy_iff s).1 h with mem := clearMem_wf lo hi ((tidy_iff s).1 h).mem }

theorem mem_of_besideSluice {s t : State} (h : besideSluice t = besideSluice s) : t.mem = s.mem := congrArg (fun x => x.mem) h

theorem enableRing_eq (r : Nat) (s : State) : ∃ t, Keeps PlainReg besideSluice s t ∧
    let ret := farByte (s.rd (Obj.rpReturnAddr r))
    enableRing r s = State.setRing { t with mem := clearMem t.mem ret (ret + 4 * rpReturnWords t r) } r
      { ({} : RingPair) with on := true, ret := freshBlocks (ringK s r) } :=
  ⟨_, (Keeps.ownEdge _ _ _ _ _ _ s).trans (Keeps.ownEdge _ _ _ _ _ _ _), rfl⟩

/-- An enabled pair starts on K valid blocks of zero (R225, R234). -/
theorem enableRing_says {r : Nat} (hr : r < 256) {s : State} (ht : s.tidy = true) :
    (enableRing r s).tidy = true ∧ (∀ q, PlainReg q → (enableRing r s).rd q = s.rd q) ∧
      (enableRing r s).ring r = { ({} : RingPair) with on := true, ret := freshBlocks (ringK s r) } ∧
      (enableRing r s).mem = clearMem s.mem (farByte (s.rd (Obj.rpReturnAddr r)))
        (farByte (s.rd (Obj.rpReturnAddr r)) + 4 * rpReturnWords s r) := by
  obtain ⟨t, hk, he⟩ := enableRing_eq r s
  have hcleared := tidy_clearMem (farByte (s.rd (Obj.rpReturnAddr r)))
    (farByte (s.rd (Obj.rpReturnAddr r)) + 4 * rpReturnWords t r) (hk.tidy ht)
  rw [he, ← rpReturnWords_of_rd hr hk.rd]
  exact ⟨tidy_setRing _ _ hcleared, hk.rd, State.ring_setRing_self r _ ((tidy_iff _).1 hcleared).rings,
    congrArg (fun m => clearMem m _ _) (mem_of_besideSluice hk.view)⟩

/-- A ring pair as its enable object switches it on (R234). -/
def ringOn (r : Nat) (s : State) : State := (s.wr (Obj.rpResult r) 0).wr (Obj.rpEnable r) 1

/-- The registers that give the shape of a ring pair are not those of its enable. -/
theorem ringOn_rd (r : Nat) {k : Nat} (hk : 2 ≤ k ∧ k < 14) (d : Nat) (s : State) :
    (ringOn r s).rd ⟨(0x3080 + r / 2) * 256 + k + 32 * (r % 2), d⟩ = s.rd ⟨(0x3080 + r / 2) * 256 + k + 32 * (r % 2), d⟩ := by
  unfold ringOn
  rw [State.rd_wr_ne _ _ (by simp only [Obj.rpEnable]; omega), State.rd_wr_ne _ _ (by simp only [Obj.rpResult]; omega)]

theorem ringOn_shape (r : Nat) (s : State) : (ringOn r s).rd (Obj.rpReturnAddr r) = s.rd (Obj.rpReturnAddr r) ∧
    ringK (ringOn r s) r = ringK s r ∧ rpReturnWords (ringOn r s) r = rpReturnWords s r := by
  have hk : ringK (ringOn r s) r = ringK s r := ringOn_rd r (k := 5) (by decide) _ s
  have hb : ringB (ringOn r s) r = ringB s r := congrArg blockFrames (ringOn_rd r (k := 4) (by decide) _ s)
  have hc : ringC (ringOn r s) r = ringC s r := ringOn_rd r (k := 6) (by decide) _ s
  refine ⟨ringOn_rd r (k := 3) (by decide) _ s, hk, ?_⟩
  rw [rpReturnWords, hk, hb, hc, rpReturnWords]

theorem writeRpEnable_on {r : Nat} {s : State} (hoff : (s.ring r).on = false) (hgood : rpRefusal s r = 0) :
    writeRpEnable r 1 s = (readyScan (enableRing r (ringOn r s)), abNone) := by
  simp [writeRpEnable, hoff, hgood, ringOn]

theorem writeRpEnable_refused {r : Nat} {s : State} (hoff : (s.ring r).on = false) (hbad : rpRefusal s r ≠ 0) :
    writeRpEnable r 1 s = (s.wr (Obj.rpResult r) (rpRefusal s r), abState) := by
  simp [writeRpEnable, hoff, hbad]

section
variable {p : Path} {s : State} (hs : Ready s)
include hs

theorem writes_rpEnable {r : Fin 256} (hoff : (s.ring r.val).on = false) (hgood : rpRefusal s r.val = 0) :
    let ret := farByte (s.rd (Obj.rpReturnAddr r.val))
    Writes (.rpEnableWrite p r 1) p s fun t =>
      t.rd (Obj.rpEnable r.val) = 1 ∧ t.rd (Obj.rpResult r.val) = 0 ∧ (t.ring r.val).on = true ∧
      (t.ring r.val).ret.length = ringK s r.val ∧
      (∀ (k : Nat) (x : RetPos), (t.ring r.val).ret[k]? = some x → x.block = k ∧ x.valid = true) ∧
      (∀ a, ret ≤ a → a < ret + 4 * rpReturnWords s r.val → readByte t.mem a = 0) ∧
      SameOutside s t ret (ret + 4 * rpReturnWords s r.val) := by
  intro ret
  have hexec := exec_rpEnableWrite hs (p := p) (r := r) (v := 1) (by decide)
  rw [show (1 : Byte).toNat = 1 from rfl, writeRpEnable_on hoff hgood] at hexec
  have hres := tidy_wr (Obj.rpResult r.val) 0 hs.1
  obtain ⟨het, herd, hering, hemem⟩ := enableRing_says r.isLt (tidy_wr (Obj.rpEnable r.val) 1 hres)
  obtain ⟨haddr, hk, hwords⟩ := ringOn_shape r.val s
  rw [← ringOn] at het herd hering hemem
  rw [haddr, hwords] at hemem
  rw [hk] at hering
  obtain ⟨hst, -, hring⟩ := SameBlocks.readyScan _ het
  have hscan := Keeps.readyScan (enableRing r.val (ringOn r.val s))
  have hreg : ∀ q, PlainReg q → (readyScan (enableRing r.val (ringOn r.val s))).rd q = (ringOn r.val s).rd q := fun q hq =>
    (hscan.rd q hq.offScan).trans (herd q hq)
  obtain ⟨hon, hlen, hret⟩ := plain_says ((hring r.val).trans (congrArg RingPair.plain hering))
  have hbyte : ∀ a, readByte (readyScan (enableRing r.val (ringOn r.val s))).mem a =
      if ret ≤ a ∧ a < ret + 4 * rpReturnWords s r.val then 0 else readByte s.mem a := fun a => by
    rw [(mem_of_besideSluice hscan.view).trans hemem]
    exact readByte_clearMem _ _ a ((tidy_iff s).1 hs.1).mem
  refine ⟨_, hexec, accepted_told p _ _ hst, ?_, ?_, hon, ?_, fun k x hx => ?_, fun a hlo hhi => ?_, fun a ha => ?_⟩
  · exact (hreg _ (plainReg_rp (k := 1) r.isLt rfl (by decide))).trans (State.rd_wr_self _ _ ((tidy_iff _).1 hres).od)
  · refine (hreg _ (plainReg_rp (k := 14) r.isLt rfl (by decide))).trans ((State.rd_wr_ne _ _ ?_).trans ?_)
    · simp only [Obj.rpResult, Obj.rpEnable]
      omega
    · exact State.rd_wr_self _ _ ((tidy_iff s).1 hs.1).od
  · exact hlen.trans (by simp [freshBlocks])
  · obtain ⟨u, hu, hblock, hvalid⟩ := hret k x hx
    obtain ⟨hb, hv⟩ := freshBlocks_getElem? hu
    exact ⟨hblock.symm.trans hb, hvalid.symm.trans hv⟩
  · exact (hbyte a).trans (if_pos ⟨hlo, hhi⟩)
  · exact (hbyte a).trans (if_neg (by omega))

theorem exec_rpEnable_refused {r : Fin 256} (hoff : (s.ring r.val).on = false) (hbad : rpRefusal s r.val ≠ 0) :
    exec (.rpEnableWrite p r 1) s = .next (denied p (0x3080 + r.val / 2) (1 + 32 * (r.val % 2)) 0x08000022
      (s.wr (Obj.rpResult r.val) (rpRefusal s r.val))) := by
  rw [exec_rpEnableWrite hs (by decide), show (1 : Byte).toNat = 1 from rfl, writeRpEnable_refused hoff hbad]
  rfl

end

end Sys2Proof.Machine
end

section
/-! Convolution paths and converters are enabled where no check refuses them (R194, R200, R204, R233). -/

namespace Sys2Proof.Machine
open Sys2Proof Sys2Proof.Claims

/-! ## Convolution paths (R192, R194) -/

/-- The registers that report an enabled path: its rungs, its reads, its state, its result and its enable. -/
def showPath (q : Nat) (rs : List Rung) (reads : Nat) (s : State) : State :=
  ((((showRungs q rs s).wr (Obj.cpReads q) reads).wr (Obj.cpState q) 1).wr (Obj.cpResult q) 0).wr (Obj.cpEnable q) 1

theorem showPath_path (q : Nat) (rs : List Rung) (reads : Nat) (s : State) (k : Nat) : (showPath q rs reads s).path k = s.path k := rfl

theorem tidy_showRungs (q : Nat) (rs : List Rung) {s : State} (h : s.tidy = true) : (showRungs q rs s).tidy = true :=
  tidy_wr _ _ (tidy_wr _ _ (tidy_wr _ _ h))

theorem showPath_says (q : Nat) (rs : List Rung) (reads : Nat) {s : State} (h : s.tidy = true) :
    let t := showPath q rs reads s
    t.tidy = true ∧ t.rd (Obj.cpEnable q) = 1 ∧ t.rd (Obj.cpState q) = 1 ∧ t.rd (Obj.cpResult q) = 0 := by
  have hreads := tidy_wr (Obj.cpReads q) reads (tidy_showRungs q rs h)
  have hstate := tidy_wr (Obj.cpState q) 1 hreads
  have hresult := tidy_wr (Obj.cpResult q) 0 hstate
  refine ⟨tidy_wr _ _ hresult, State.rd_wr_self _ _ ((tidy_iff _).1 hresult).od, ?_, ?_⟩
  · refine (State.rd_wr_ne _ _ ?_).trans ((State.rd_wr_ne _ _ ?_).trans (State.rd_wr_self _ _ ((tidy_iff _).1 hreads).od))
    all_goals
      simp only [Obj.cpState, Obj.cpEnable, Obj.cpResult]
      omega
  · refine (State.rd_wr_ne _ _ ?_).trans (State.rd_wr_self _ _ ((tidy_iff _).1 hstate).od)
    simp only [Obj.cpResult, Obj.cpEnable]
    omega

/-- An enabled path is on with its rungs, its registers report it, and its node starts. -/
theorem enablePath_eq (q : Nat) {s : State} (h : s.tidy = true) : ∃ (t : State) (x : ConvPath) (reads : Nat) (hdr : List Word),
    t.tidy = true ∧ x.on = true ∧
    x.rungs = buildRungs s q ∧ enablePath q s = startNode q hdr (showPath q (buildRungs s q) reads (t.setPath q x)) := by
  have hcleared : ∀ a b c d, State.tidy { s with mem := clearMem (clearMem s.mem a b) c d } = true := fun a b c d =>
    tidy_clearMem (s := { s with mem := clearMem s.mem a b }) c d (tidy_clearMem a b h)
  refine ⟨_, _, _, _, tidy_setRing _ _ ?_, rfl, rfl, rfl⟩
  split
  · exact hcleared _ _ _ _
  · exact forUpto_keep (fun u => u.tidy = true) _ _ (fun _ _ _ ht => tidy_setMemWord _ _ (tidy_setMemWord _ _ ht)) _
      (hcleared _ _ _ _)

theorem path_of_besideNodes {s t : State} (h : besideNodes t = besideNodes s) (q : Nat) : t.path q = s.path q :=
  congrArg (fun x => x.path q) h

theorem conv_of_besideNodes {s t : State} (h : besideNodes t = besideNodes s) (v : Nat) : t.conv v = s.conv v :=
  congrArg (fun x => x.conv v) h

theorem mem_of_besideNodes {s t : State} (h : besideNodes t = besideNodes s) : t.mem = s.mem := congrArg (fun x => x.mem) h

theorem plainReg_cp {q k d : Nat} (hq : q < 256) (hk : k < 256) : PlainReg ⟨(0x3600 + q / 2) * 256 + k + 32 * (q % 2), d⟩ := by
  unfold PlainReg
  dsimp only
  omega

section
variable {p : Path} {s : State} (hs : Ready s)
include hs

theorem writes_cpEnable {q : Fin 256} (hoff : (s.path q.val).on = false) (hgood : cpRefusal s q.val = 0) :
    Writes (.cpEnableWrite p q 1) p s fun t =>
      t.rd (Obj.cpEnable q.val) = 1 ∧ t.rd (Obj.cpState q.val) = 1 ∧ t.rd (Obj.cpResult q.val) = 0 ∧ (t.path q.val).on = true ∧
      (t.path q.val).rungs = buildRungs s q.val ∧ (t.node q.val).on = true := by
  have hwrite : writeCpEnable q.val (1 : Byte).toNat s = (enablePath q.val s, abNone) := by simp [writeCpEnable, hoff, hgood]
  have hexec := exec_cpEnableWrite hs (p := p) (q := q) (v := 1) (by decide)
  obtain ⟨u, x, reads, hdr, hu, hon, hrungs, he⟩ := enablePath_eq q.val hs.1
  rw [hwrite, he] at hexec
  obtain ⟨ht, henable, hstate, hresult⟩ := showPath_says q.val (buildRungs s q.val) reads (tidy_setPath q.val x hu)
  obtain ⟨hkeep, hnode⟩ := startNode_says q.val hdr ht
  have hpath : (startNode q.val hdr (showPath q.val (buildRungs s q.val) reads (u.setPath q.val x))).path q.val = x :=
    (path_of_besideNodes hkeep.view q.val).trans (State.path_setPath_self _ _ ((tidy_iff u).1 hu).paths)
  exact ⟨_, hexec, accepted_told p _ _ (hkeep.tidy ht), (hkeep.rd _ (plainReg_cp (k := 1) q.isLt (by decide))).trans henable,
    (hkeep.rd _ (plainReg_cp (k := 9) q.isLt (by decide))).trans hstate,
    (hkeep.rd _ (plainReg_cp (k := 10) q.isLt (by decide))).trans hresult, (congrArg ConvPath.on hpath).trans hon,
    (congrArg ConvPath.rungs hpath).trans hrungs, congrArg Node.on hnode⟩

theorem exec_cpEnable_refused {q : Fin 256} (hoff : (s.path q.val).on = false) (hbad : cpRefusal s q.val ≠ 0) :
    exec (.cpEnableWrite p q 1) s = .next (denied p (0x3600 + q.val / 2) (1 + 32 * (q.val % 2)) 0x08000022
      (s.wr (Obj.cpResult q.val) (cpRefusal s q.val))) := by
  have hwrite : writeCpEnable q.val (1 : Byte).toNat s = (s.wr (Obj.cpResult q.val) (cpRefusal s q.val), abState) := by
    simp [writeCpEnable, hoff, hbad]
  rw [exec_cpEnableWrite hs (by decide), hwrite]
  rfl

theorem exec_cpEnable_off {q : Fin 256} (hoff : (s.path q.val).on = false) : exec (.cpEnableWrite p q 0) s =
    .next (told p (0x3600 + q.val / 2) (1 + 32 * (q.val % 2)) (s.wr (Obj.cpEnable q.val) 0)) := by
  have hwrite : writeCpEnable q.val (0 : Byte).toNat s = (s.wr (Obj.cpEnable q.val) 0, abNone) := by simp [writeCpEnable, hoff]
  rw [exec_cpEnableWrite hs (by decide), hwrite]
  rfl

end

/-! ## Converters (R200, R204) -/

/-- The registers of an enabled converter: its enable, its ratio and its state. -/
def showConv (v ratio state : Nat) (s : State) : State :=
  ((s.wr (Obj.asEnable v) 1).wr (Obj.asRatio v) ratio).wr (Obj.asState v) state

theorem showConv_says {v ratio state : Nat} (hv : v < 16) {s : State} (h : s.tidy = true) :
    let t := showConv v ratio state s
    t.tidy = true ∧ t.rd (Obj.asEnable v) = 1 ∧ t.rd (Obj.asState v) = state ∧ t.rd Obj.asResult = s.rd Obj.asResult ∧
      t.conv v = s.conv v ∧ t.mem = s.mem := by
  have henable := tidy_wr (Obj.asEnable v) 1 h
  have hratio := tidy_wr (Obj.asRatio v) ratio henable
  refine ⟨tidy_wr _ _ hratio, ?_, State.rd_wr_self _ _ ((tidy_iff _).1 hratio).od, ?_, rfl, rfl⟩
  · refine (State.rd_wr_ne _ _ ?_).trans ((State.rd_wr_ne _ _ ?_).trans (State.rd_wr_self _ _ ((tidy_iff _).1 h).od))
    all_goals
      simp only [Obj.asState, Obj.asEnable, Obj.asRatio]
      omega
  · refine (State.rd_wr_ne _ _ ?_).trans ((State.rd_wr_ne _ _ ?_).trans (State.rd_wr_ne _ _ ?_))
    all_goals
      simp only [Obj.asState, Obj.asEnable, Obj.asRatio, Obj.asResult]
      omega

/-- A converter's own edge is enabled, and the results that its enable reports are 0 (R233). -/
def convEdge (v : Nat) (s : State) : State :=
  let e := s.rd (Obj.asEdge v)
  ((ownEdge e (farByte (s.rd (Obj.asHouseAddr v))) (s.rd (Obj.asHouseDepth v)) (housePosBytes s v) (s.rd (Obj.asMode v) != 1)
    (endNode (256 + v)) s).wr (Obj.edgeResult e) 0).wr Obj.asResult 0

theorem convEdge_says (v : Nat) {s : State} (h : s.tidy = true) :
    (convEdge v s).tidy = true ∧ (convEdge v s).rd Obj.asResult = 0 ∧ (convEdge v s).mem = s.mem := by
  have hedge := Keeps.ownEdge (s.rd (Obj.asEdge v)) (farByte (s.rd (Obj.asHouseAddr v))) (s.rd (Obj.asHouseDepth v))
    (housePosBytes s v) (s.rd (Obj.asMode v) != 1) (endNode (256 + v)) s
  have hclear := tidy_wr (Obj.edgeResult (s.rd (Obj.asEdge v))) 0 (hedge.tidy h)
  unfold convEdge
  dsimp only
  exact ⟨tidy_wr Obj.asResult 0 hclear, State.rd_wr_self _ _ ((tidy_iff _).1 hclear).od,
    ((State.wr_mem _ _ _).trans (State.wr_mem _ _ _)).trans (mem_of_besideSluice hedge.view)⟩

/-- An enabled converter is on from its first block, its registers report it, and its node starts (R200, R204). -/
theorem writeAsEnable_on {v : Nat} {s : State} (hoff : (s.conv v).on = false) (hgood : asRefusal s v = 0) :
    ∃ ratio hdr, writeAsEnable v 1 s = (startNode (256 + v) hdr
      (showConv v ratio (if s.rd (Obj.asMode v) = 2 then convLocked else convAcquire)
        ((convEdge v s).setConv v { ({} : Converter) with on := true, t0 := s.slate })), abNone) := by
  unfold writeAsEnable
  rw [if_neg (by decide), hoff, if_neg Bool.false_ne_true, hgood, if_neg (by decide)]
  exact ⟨_, _, rfl⟩

section
variable {p : Path} {s : State} (hs : Ready s)
include hs

theorem writes_asEnable {v : Fin 16} (hoff : (s.conv v.val).on = false) (hgood : asRefusal s v.val = 0) :
    Writes (.asEnableWrite p v 1) p s fun t =>
      t.rd (Obj.asEnable v.val) = 1 ∧ t.rd Obj.asResult = 0 ∧ (t.conv v.val).on = true ∧ (t.conv v.val).blocks = 0 ∧
      t.rd (Obj.asState v.val) = (if s.rd (Obj.asMode v.val) = 2 then convLocked else convAcquire) ∧ t.mem = s.mem := by
  have hexec := exec_asEnableWrite hs (p := p) (v := v) (on := 1) (by decide)
  obtain ⟨ratio, hdr, he⟩ := writeAsEnable_on hoff hgood
  obtain ⟨hu, hresult, hmem⟩ := convEdge_says v.val hs.1
  rw [show (1 : Byte).toNat = 1 from rfl, he] at hexec
  obtain ⟨ht, henable, hstate, hkept, hsame, hshown⟩ := showConv_says (ratio := ratio)
    (state := if s.rd (Obj.asMode v.val) = 2 then convLocked else convAcquire) v.isLt
    (tidy_setConv v.val { ({} : Converter) with on := true, t0 := s.slate } hu)
  obtain ⟨hkeep, -⟩ := startNode_says (256 + v.val) hdr ht
  have hconv : _ = ({ ({} : Converter) with on := true, t0 := s.slate } : Converter) :=
    (conv_of_besideNodes hkeep.view v.val).trans (hsame.trans (State.conv_setConv_self _ _ ((tidy_iff _).1 hu).convs))
  have hreg : ∀ k d, k < 256 → PlainReg ⟨(0x3800 + v.val) * 256 + k, d⟩ := fun k d hk => by
    unfold PlainReg
    dsimp only
    omega
  exact ⟨_, hexec, accepted_told p _ _ (hkeep.tidy ht), (hkeep.rd _ (hreg 1 _ (by decide))).trans henable,
    (hkeep.rd _ (by unfold PlainReg; decide)).trans (hkept.trans ((State.setConv_rd _ _ _ _).trans hresult)), congrArg Converter.on hconv,
    congrArg Converter.blocks hconv, (hkeep.rd _ (hreg 16 _ (by decide))).trans hstate,
    (mem_of_besideNodes hkeep.view).trans (hshown.trans ((State.setConv_mem _ _ _).trans hmem))⟩

theorem exec_asEnable_refused {v : Fin 16} (hoff : (s.conv v.val).on = false) (hbad : asRefusal s v.val ≠ 0)
    (hown : asRefusal s v.val < 0x6000) : exec (.asEnableWrite p v 1) s =
      .next (denied p (0x3800 + v.val) 1 0x08000022 (s.wr Obj.asResult (asRefusal s v.val))) := by
  have hwrite : writeAsEnable v.val (1 : Byte).toNat s = (s.wr Obj.asResult (asRefusal s v.val), abState) := by
    have hedge : ¬(0x6000 ≤ asRefusal s v.val ∧ s.rd (Obj.asEdge v.val) < 1024) := by omega
    simp [writeAsEnable, hoff, hbad, hedge]
  rw [exec_asEnableWrite hs (by decide), hwrite]
  rfl

theorem exec_asEnable_off {v : Fin 16} (hoff : (s.conv v.val).on = false) : exec (.asEnableWrite p v 0) s =
    .next (told p (0x3800 + v.val) 1 (s.wr (Obj.asEnable v.val) 0)) := by
  have hwrite : writeAsEnable v.val (0 : Byte).toNat s = (s.wr (Obj.asEnable v.val) 0, abNone) := by simp [writeAsEnable, hoff]
  rw [exec_asEnableWrite hs (by decide), hwrite]
  rfl

end

theorem engineEnables : Sys2Proof.Claims.EngineEnables := by
  intro p r q v s hs
  exact ⟨writes_rpEnable hs, fun x hoff hx hne => hx ▸ exec_rpEnable_refused hs hoff (hx ▸ hne), writes_cpEnable hs,
    fun x hoff hx hne => hx ▸ exec_cpEnable_refused hs hoff (hx ▸ hne), exec_cpEnable_off hs, writes_asEnable hs,
    fun x hoff hx hne hlt => hx ▸ exec_asEnable_refused hs hoff (hx ▸ hne) (hx ▸ hlt), exec_asEnable_off hs⟩

end Sys2Proof.Machine
end

section
/-! Loads of impulse responses and the lock of a converter (R195, R200), with what a handle's issue and its record leave
(R303, R304, R307). -/

namespace Sys2Proof.Machine
open Sys2Proof Sys2Proof.Claims

/-! ## The issue of a handle -/

/-- Of 64 slots one is free while fewer handles are outstanding (R304). -/
theorem exists_free_slot {hs : List Handle} (h : hs.length < 64) :
    ∃ k ∈ (List.range 64).map (· + 1), (!hs.any fun x => x.slot == k) = true := by
  by_contra hnone
  push Not at hnone
  have hsub : (List.range 64).map (· + 1) ⊆ hs.map Handle.slot := fun k hk => by
    have hused := hnone k hk
    simp only [Bool.not_eq_true, Bool.not_eq_false', List.any_eq_true, beq_iff_eq] at hused
    exact List.mem_map.2 hused
  have hlen := (List.subperm_of_subset (by decide) hsub).length_le
  simp only [List.length_map, List.length_range] at hlen
  omega

/-- A handle that is issued has a slot of 1 to 64 that no outstanding one has. -/
theorem issueHandle_slot (op : Op) (p : Nat) {s : State} (h : s.handles.length < 64) :
    (∀ k ∈ s.handles, k.slot ≠ (issueHandle op p s).1.slot) ∧ 1 ≤ (issueHandle op p s).1.slot ∧
      (issueHandle op p s).1.slot ≤ 64 := by
  obtain ⟨k, hk, hfree⟩ := exists_free_slot h
  obtain ⟨slot, hslot⟩ : ∃ slot, ((List.range 64).map (· + 1)).find? (fun k => !s.handles.any fun h => h.slot == k) = some slot :=
    Option.isSome_iff_exists.1 (List.find?_isSome.2 ⟨k, hk, hfree⟩)
  have hissued : (issueHandle op p s).1.slot = slot := by
    simp only [issueHandle, hslot, Option.getD_some]
  have hunused := List.find?_some hslot
  simp only [Bool.not_eq_true', List.any_eq_false, beq_iff_eq] at hunused
  obtain ⟨i, hi, rfl⟩ := List.mem_map.1 (List.mem_of_find?_eq_some hslot)
  rw [hissued]
  exact ⟨fun k hk => hunused k hk, by omega, by have := List.mem_range.1 hi; omega⟩

/-- A handle that is issued is outstanding, and its path reads it back; a state that keeps both shows its issue. -/
theorem issued_of_issueHandle {op : Op} {p : Path} {s t : State} (hs : s.tidy = true) (hadm : admits s = true)
    (hhandles : t.handles = (issueHandle op (pathCode p) s).2.handles)
    (hlast : t.rd (Obj.lastHandle (pathCode p)) = (issueHandle op (pathCode p) s).2.rd (Obj.lastHandle (pathCode p))) :
    Issued s t op p (issueHandle op (pathCode p) s).1 := by
  simp only [admits, Bool.and_eq_true, decide_eq_true_eq] at hadm
  obtain ⟨hnew, hlo, hhi⟩ := issueHandle_slot op (pathCode p) hadm.1
  exact ⟨hhandles, rfl, rfl, hnew, hlo, hhi, rfl, hlast.trans (rd_lastHandle_issueHandle op _ hs)⟩

/-! ## The start of a load (R195) -/

/-- What a load's start writes beside its handle: the handle's object, and the state of a path that is off. -/
def showLoad (q w : Nat) (s : State) : State :=
  if ((s.wr Obj.irHandle w).path q).on then s.wr Obj.irHandle w else (s.wr Obj.irHandle w).wr (Obj.cpState q) 2

theorem tidy_showLoad (q w : Nat) {s : State} (h : s.tidy = true) : (showLoad q w s).tidy = true := by
  unfold showLoad
  split
  · exact tidy_wr _ _ h
  · exact tidy_wr _ _ (tidy_wr _ _ h)

theorem showLoad_rest (q w : Nat) (s : State) : { showLoad q w s with od := s.od } = s := by
  unfold showLoad
  split
  · rfl
  · rfl

theorem showLoad_rd {q w : Nat} {s : State} (h : s.tidy = true) (p : Nat) :
    (showLoad q w s).rd Obj.irHandle = w ∧ (showLoad q w s).rd (Obj.lastHandle p) = s.rd (Obj.lastHandle p) ∧
      (showLoad q w s).rd (Obj.cpState q) = if (s.path q).on = true then s.rd (Obj.cpState q) else 2 := by
  have hhandle := State.rd_wr_self Obj.irHandle w ((tidy_iff s).1 h).od
  have hlast : (s.wr Obj.irHandle w).rd (Obj.lastHandle p) = s.rd (Obj.lastHandle p) :=
    State.rd_wr_ne _ _ (by simp only [Obj.lastHandle, Obj.irHandle]; omega)
  unfold showLoad
  rw [State.wr_path]
  split
  · exact ⟨hhandle, hlast, State.rd_wr_ne _ _ (by simp only [Obj.cpState, Obj.irHandle]; omega)⟩
  · refine ⟨(State.rd_wr_ne _ _ ?_).trans hhandle, (State.rd_wr_ne _ _ ?_).trans hlast,
      State.rd_wr_self _ _ ((tidy_iff _).1 (tidy_wr Obj.irHandle w h)).od⟩
    all_goals
      simp only [Obj.lastHandle, Obj.cpState, Obj.irHandle]
      omega

theorem startIrLoad_admitted {p : Nat} {s : State} (h : admits s = true) :
    let x := issueHandle (.irLoad (s.rd Obj.irPath) (s.rd Obj.irSource) (s.rd Obj.irFormat)) p s
    startIrLoad p s = (showLoad (s.rd Obj.irPath) x.1.word x.2, abNone) := by
  unfold startIrLoad
  rw [h]
  rfl

theorem startIrLoad_busy {p : Nat} {s : State} (h : admits s = false) : startIrLoad p s = (s.inc Obj.handlesRefused, abBusy) := by
  simp [startIrLoad, h]

/-- The issue of a handle is a matter of the list of handles, its generations and LAST_HANDLE. -/
theorem issueHandle_keeps (op : Op) (p q : Nat) (s : State) : (issueHandle op p s).2.path q = s.path q ∧
    (issueHandle op p s).2.mem = s.mem ∧ (issueHandle op p s).2.rd (Obj.cpState q) = s.rd (Obj.cpState q) := by
  refine ⟨rfl, rfl, State.rd_wr_ne _ _ ?_⟩
  simp only [Obj.cpState, Obj.lastHandle]
  omega

theorem writes_irLoadStart {p : Path} {s : State} (hs : Ready s) (hadm : admits s = true) :
    let q := s.rd Obj.irPath
    Writes (.irLoadStart p) p s fun t =>
      (∃ h, Issued s t (.irLoad q (s.rd Obj.irSource) (s.rd Obj.irFormat)) p h ∧ t.rd Obj.irHandle = h.word) ∧
      t.rd (Obj.cpState q) = (if (s.path q).on = true then s.rd (Obj.cpState q) else 2) ∧ t.mem = s.mem := by
  have hexec := exec_irLoadStart hs (p := p)
  rw [startIrLoad_admitted hadm] at hexec
  have hissue := tidy_issueHandle (.irLoad (s.rd Obj.irPath) (s.rd Obj.irSource) (s.rd Obj.irFormat)) (pathCode p) hs.1
  obtain ⟨hpath, hmem, hstate⟩ := issueHandle_keeps (.irLoad (s.rd Obj.irPath) (s.rd Obj.irSource) (s.rd Obj.irFormat))
    (pathCode p) (s.rd Obj.irPath) s
  obtain ⟨hhandle, hlast, hshown⟩ := showLoad_rd hissue (pathCode p) (q := s.rd Obj.irPath)
    (w := (issueHandle (.irLoad (s.rd Obj.irPath) (s.rd Obj.irSource) (s.rd Obj.irFormat)) (pathCode p) s).1.word)
  rw [hpath, hstate] at hshown
  have hrest := showLoad_rest (s.rd Obj.irPath)
    (issueHandle (.irLoad (s.rd Obj.irPath) (s.rd Obj.irSource) (s.rd Obj.irFormat)) (pathCode p) s).1.word
    (issueHandle (.irLoad (s.rd Obj.irPath) (s.rd Obj.irSource) (s.rd Obj.irFormat)) (pathCode p) s).2
  exact ⟨_, hexec, accepted_told p _ _ (tidy_showLoad _ _ hissue),
    ⟨_, issued_of_issueHandle hs.1 hadm (congrArg State.handles hrest :) hlast, hhandle⟩, hshown,
    (congrArg State.mem hrest :).trans hmem⟩

theorem exec_irLoadStart_busy {p : Path} {s : State} (hs : Ready s) (hbusy : admits s = false) :
    exec (.irLoadStart p) s = .next (denied p 0x3680 4 0x08000000 (s.inc Obj.handlesRefused)) := by
  rw [exec_irLoadStart hs, startIrLoad_busy hbusy]
  rfl

end Sys2Proof.Machine
end

section
/-! The record of a handle that completes (R307), the end of an impulse-response load (R195), and the lock of a converter (R200). -/

namespace Sys2Proof.Machine
open Sys2Proof Sys2Proof.Claims

/-! ## The record of a completed handle -/

theorem rd_queueTpdo16_ne {q : Reg} (h : q.key ≠ Obj.hvTpdoLost.key) (r : Record) (s : State) : (queueTpdo16 r s).rd q = s.rd q := by
  unfold queueTpdo16
  split
  · split
    · rfl
    · exact State.rd_wr_ne _ _ h
  · rfl

theorem FaultOnly.queueTpdo16 (r : Record) (s : State) : FaultOnly s (queueTpdo16 r s) := by
  unfold Machine.queueTpdo16
  split
  · split
    · rfl
    · rfl
  · rfl

/-- The state with a record at the head of the harvest ring. -/
def withRecord (r : Record) (s : State) : State := { s with records := s.records.insert (s.rd Obj.hvHead) r }

theorem postRecord_only (status handle detail : Nat) (slate : Slate) (s : State) :
    FaultOnly (withRecord ⟨BitVec.ofNat 16 status, BitVec.ofNat 16 handle, BitVec.ofNat 32 detail, slate⟩ s)
      (postRecord status handle detail slate s) := by
  unfold postRecord
  exact ((((FaultOnly.wr _ _ _).trans (FaultOnly.wr _ _ _)).trans (FaultOnly.ulIrq _ _)).trans (FaultOnly.pendAll _ _)).trans
    (FaultOnly.queueTpdo16 _ _)

theorem rd_postRecord_wr {q : Reg} (h : q.key ≠ Obj.hvTpdoLost.key) (status handle detail : Nat) (slate : Slate) (s : State) :
    (postRecord status handle detail slate s).rd q =
      ((s.wr Obj.hvHead ((s.rd Obj.hvHead + 1) % 256)).wr Obj.hvUsed (s.rd Obj.hvUsed + 1)).rd q := by
  unfold postRecord
  rw [rd_queueTpdo16_ne h, rd_pendAll, rd_ulIrq]
  rfl

/-- The state of a completed handle, but for its record and the console's line. -/
def dropHandle (h : Handle) (s : State) : State := { s with handles := s.handles.filter fun k => k.slot != h.slot }

theorem completeHandle_only (h : Handle) (status detail : Nat) (slate : Slate) (s : State) : ∃ u,
    FaultOnly (withRecord ⟨BitVec.ofNat 16 status, BitVec.ofNat 16 h.word, BitVec.ofNat 32 detail, slate⟩ (dropHandle h s)) u ∧
      { completeHandle h status detail slate s with service := u.service } = u :=
  ⟨_, postRecord_only _ _ _ _ _, printTest_keeps h status detail slate _⟩

theorem completeHandle_view (h : Handle) (status detail : Nat) (slate : Slate) (s : State) :
    let t := completeHandle h status detail slate s
    t.mem = s.mem ∧ (∀ q, t.path q = s.path q) ∧ t.handles = s.handles.filter (fun k => k.slot != h.slot) ∧
      t.records = s.records.insert (s.rd Obj.hvHead)
        ⟨BitVec.ofNat 16 status, BitVec.ofNat 16 h.word, BitVec.ofNat 32 detail, slate⟩ := by
  obtain ⟨u, hu, ht⟩ := completeHandle_only h status detail slate s
  exact ⟨(congrArg State.mem ht :).trans hu.mem, fun q => (congrArg (fun x : State => x.path q) ht :).trans
    (congrArg (fun x : State => x.path q) hu :), (congrArg State.handles ht :).trans hu.handles,
    (congrArg State.records ht :).trans (congrArg State.records hu :)⟩

theorem completeHandle_rd {q : Reg} (hq : q.key ≠ Obj.hvTpdoLost.key) (h : Handle) (status detail : Nat) (slate : Slate) (s : State) :
    (completeHandle h status detail slate s).rd q =
      ((s.wr Obj.hvHead ((s.rd Obj.hvHead + 1) % 256)).wr Obj.hvUsed (s.rd Obj.hvUsed + 1)).rd q :=
  (congrArg (fun t : State => t.rd q) (printTest_keeps h status detail slate _) :).trans
    (rd_postRecord_wr hq status h.word detail slate (dropHandle h s))

/-- A completed handle leaves its slot and its record (R307). -/
theorem posted_completeHandle {h : Handle} (status detail : Nat) (slate : Slate) {s : State} (ht : s.tidy = true) :
    Posted s (completeHandle h status detail slate s) h status detail slate := by
  obtain ⟨-, -, hhandles, hrecords⟩ := completeHandle_view h status detail slate s
  have hhead := tidy_wr Obj.hvHead ((s.rd Obj.hvHead + 1) % 256) ht
  refine ⟨?_, ?_, ?_, hhandles⟩
  · rw [ringRecord, hrecords, Map.get_insert_self]
  · rw [completeHandle_rd (by decide), State.rd_wr_ne _ _ (by decide), State.rd_wr_self _ _ ((tidy_iff s).1 ht).od]
  · rw [completeHandle_rd (by decide), State.rd_wr_self _ _ ((tidy_iff _).1 hhead).od]

theorem rd_completeHandle_ne {q : Reg} (hq : q.key ≠ Obj.hvTpdoLost.key ∧ q.key ≠ Obj.hvHead.key ∧ q.key ≠ Obj.hvUsed.key)
    (h : Handle) (status detail : Nat) (slate : Slate) (s : State) : (completeHandle h status detail slate s).rd q = s.rd q := by
  obtain ⟨hlost, hhead, hused⟩ := hq
  rw [completeHandle_rd hlost, State.rd_wr_ne _ _ hused, State.rd_wr_ne _ _ hhead]

/-- A record that is posted after a change of neither the ring's registers nor the handles. -/
theorem Posted.of_same {s u t : State} {h : Handle} {status detail : Nat} {slate : Slate} (hp : Posted u t h status detail slate)
    (hhead : u.rd Obj.hvHead = s.rd Obj.hvHead) (hused : u.rd Obj.hvUsed = s.rd Obj.hvUsed) (hhandles : u.handles = s.handles) :
    Posted s t h status detail slate := by
  unfold Posted at hp ⊢
  rwa [hhead, hused, hhandles] at hp

/-! ## The end of a load (R195) -/

/-- The head and the count of the harvest ring. -/
def RingReg (q : Reg) : Prop := q = Obj.hvHead ∨ q = Obj.hvUsed

/-- What a load keeps beside the ring's registers: the handles and the slate. -/
def loadView (s : State) : List Handle × Slate := (s.handles, s.slate)

theorem RingReg.sub {q : Reg} (h : RingReg q) : OffLog q ∧ (q.key % 256 = 1 ∨ q.key % 256 = 3) ∧ q.key / 256 = 0x5F01 := by
  rcases h with rfl | rfl <;> exact ⟨by unfold OffLog; decide, by decide⟩

theorem Keeps.loadWr {r : Reg} (v : Nat) (s : State) (hr : r.key % 256 ≠ 1 ∧ r.key % 256 ≠ 3) : Keeps RingReg loadView s (s.wr r v) :=
  Keeps.wr s v (fun q hq e => by have := hq.sub.2.1; omega) rfl

theorem Keeps.loadReport (code unit info a : Nat) (s : State) : Keeps RingReg loadView s (fabReport code unit info a s) := by
  have hraise : ∀ t : State, Keeps RingReg loadView t (raiseOnce unit code unit info a t) := fun t =>
    ⟨tidy_raiseOnce _ _ _ _ _, fun _ hq => rd_raiseOnce hq.sub.1 _ _ _ _ _ t,
      (congrArg loadView (FaultOnly.raiseOnce unit code unit info a t) :)⟩
  unfold fabReport
  refine Keeps.trans ?_ (hraise _)
  split
  · exact Keeps.ite (Keeps.loadWr _ _ (by simp only [Obj.pgRefused]; omega)) (Keeps.refl s)
  · exact Keeps.ite (Keeps.loadWr _ _ (by decide)) (Keeps.loadWr _ _ (by decide))
  · exact Keeps.refl s

theorem Keeps.loadReads (unit : Nat) (rs : List (Nat × Nat)) (s : State) : Keeps RingReg loadView s (noteReads unit rs s) :=
  Keeps.forList _ _ (fun _ _ t => Keeps.ite (Keeps.loadWr _ t (by decide)) (Keeps.loadReport _ _ _ _ t)) s

/-- A refusal of the fabric has a status of its own. -/
theorem fabCheck_deny {own a code : Nat} {w : Bool} {s : State} (h : fabCheck own w a s = .deny code) : code ≠ 0 := by
  rintro rfl
  unfold fabCheck at h
  dsimp only at h
  repeat' split at h
  all_goals exact absurd h (by decide)

theorem loadDenied_ne {s : State} {q code a : Nat} {reads : List (Nat × Nat)} (h : loadDenied s q reads = some (code, a)) :
    code ≠ 0 := by
  have hone : ∀ (w : Bool) (r : Nat × Nat), (match firstDenied (fun a => fabCheck 0x30 w a s) r.1 r.2 with
      | some (.deny code, a) => some (code, a)
      | _ => none) = some (code, a) → code ≠ 0 := fun w r hr => by
    split at hr
    · next heq =>
      obtain ⟨rfl, -⟩ := Prod.mk.inj (Option.some.inj hr)
      obtain ⟨k, -, hk⟩ := List.mem_map.1 (List.mem_of_find?_eq_some heq)
      exact fabCheck_deny (congrArg Prod.fst hk)
    · exact absurd hr (by simp)
  unfold loadDenied at h
  rcases Option.or_eq_some_iff.1 h with h | ⟨-, h⟩
  · obtain ⟨r, -, hr⟩ := List.exists_of_findSome?_eq_some h
    exact hone false r hr
  · exact hone true _ h

theorem loadSpectra_on {q source fmt : Nat} {s : State} (h : (s.path q).on = true) : loadSpectra q source fmt s = (s, 0x5111) := by
  unfold loadSpectra
  exact if_pos h

/-- A load of path `q` ends: ring and handles stay, the path stays on or off, and with status 0 its spectra are loaded. -/
def LoadEnds (q : Nat) (s : State) (r : State × Nat) : Prop :=
  Keeps RingReg loadView s r.1 ∧ (s.tidy = true → (r.1.path q).on = (s.path q).on ∧ (r.2 = 0 → (r.1.path q).loaded = true))

theorem LoadEnds.of_fault {q code : Nat} {s t : State} (hk : Keeps RingReg loadView s t) (hf : FaultOnly s t) (hcode : code ≠ 0) :
    LoadEnds q s (t, code) :=
  ⟨hk, fun _ => ⟨(congrArg (fun x : State => (x.path q).on) hf :), fun h => absurd h hcode⟩⟩

theorem LoadEnds.trans {q : Nat} {s t : State} {r : State × Nat} (hk : Keeps RingReg loadView s t) (hf : FaultOnly s t)
    (hr : LoadEnds q t r) : LoadEnds q s r := by
  refine ⟨hk.trans hr.1, fun h => ?_⟩
  obtain ⟨hon, hloaded⟩ := hr.2 (hk.tidy h)
  exact ⟨hon.trans (congrArg (fun x : State => (x.path q).on) hf :), hloaded⟩

theorem LoadEnds.putSpectra (q : Nat) (ws : List Word) (s : State) : LoadEnds q s (putSpectra q ws s, 0) := by
  have hwords : Keeps RingReg loadView s (putWords (workBase s q) ws s) :=
    Keeps.forList _ _ (fun _ _ t => Keeps.of_rd (tidy_setMemWord _ _) (fun _ => rfl) rfl) s
  have hpath : (putWords (workBase s q) ws s).path q = s.path q :=
    forList_keep (fun t => t.path q = s.path q) _ _ (fun x _ t h => (State.setMemWord_path _ _ _ _).trans h) s rfl
  have hset : ∀ (x : ConvPath) (t : State), Keeps RingReg loadView t (t.setPath q x) := fun x t =>
    Keeps.of_rd (tidy_setPath q x) (fun _ => rfl) rfl
  have hshow : ∀ (rs : List Rung) (t : State), Keeps RingReg loadView t (showRungs q rs t) := fun rs t => by
    unfold showRungs
    refine ((Keeps.loadWr _ t ?_).trans (Keeps.loadWr _ _ ?_)).trans (Keeps.loadWr _ _ ?_)
    all_goals
      simp only [Obj.cpParts, Obj.cpRungs, Obj.cpFootprint]
      omega
  refine ⟨(hwords.trans (hset _ _)).trans (hshow _ _), fun h => ?_⟩
  have hself := State.path_setPath_self q { (putWords (workBase s q) ws s).path q with
    loaded := true, loadB := cpB (putWords (workBase s q) ws s) q, loadK := cpK (putWords (workBase s q) ws s) q }
      ((tidy_iff _).1 (hwords.tidy h)).paths
  have hon : ((putWords (workBase s q) ws s).path q).on = (s.path q).on := congrArg ConvPath.on hpath
  exact ⟨(congrArg ConvPath.on hself).trans hon, fun _ => congrArg ConvPath.loaded hself⟩

theorem loadEnds_of_off {q source fmt : Nat} {s : State} (h : (s.path q).on = false) : LoadEnds q s (loadSpectra q source fmt s) := by
  have hreads : ∀ reads, Keeps RingReg loadView s (noteReads 0x30 reads s) := fun reads => Keeps.loadReads 0x30 reads s
  unfold loadSpectra
  dsimp only
  rw [h, if_neg Bool.false_ne_true]
  split
  · next hdenied => exact LoadEnds.of_fault (Keeps.loadReport _ _ _ _ s) (FaultOnly.fabReport _ _ _ _ s) (loadDenied_ne hdenied)
  · split
    · exact LoadEnds.of_fault (hreads _) (FaultOnly.noteReads _ _ s) (by decide)
    · split
      · exact LoadEnds.of_fault (hreads _) (FaultOnly.noteReads _ _ s) (by decide)
      · exact LoadEnds.trans (hreads _) (FaultOnly.noteReads _ _ s) (LoadEnds.putSpectra q _ _)

/-- The end of the load of handle `h` (R195): its status, its path's state and its record. -/
def endIrLoad (h : Handle) (q : Nat) (r : State × Nat) : State :=
  completeHandle h r.2 0 r.1.slate (if (r.1.path q).on then r.1 else r.1.wr (Obj.cpState q) 0)

/-- An operation that loads an impulse response. -/
def Op.loads : Op → Bool
  | .irLoad _ _ _ => true
  | _ => false

theorem exec_irLoadComplete {s : State} {h : Handle} {q source fmt : Nat} (hawake : awake s = true)
    (hfind : s.handles.find? (fun h => Op.loads h.op) = some h) (hop : h.op = .irLoad q source fmt) :
    exec .irLoadComplete s = .next (endIrLoad h q (loadSpectra q source fmt s)) := by
  change execIrLoadComplete s = _
  unfold execIrLoadComplete clocked
  rw [if_pos hawake]
  dsimp only
  split
  · next hnone => exact absurd (hfind.symm.trans hnone) (by simp)
  · next k hk =>
    obtain rfl : h = k := Option.some.inj (hfind.symm.trans hk)
    rw [hop]
    rfl

/-- The state of a path is none of what a completed handle writes. -/
theorem cpState_ne_ring (q : Nat) : (Obj.cpState q).key ≠ Obj.hvTpdoLost.key ∧ (Obj.cpState q).key ≠ Obj.hvHead.key ∧
    (Obj.cpState q).key ≠ Obj.hvUsed.key := by
  simp only [Obj.cpState, Obj.hvTpdoLost, Obj.hvHead, Obj.hvUsed]
  omega

theorem endIrLoad_on {h : Handle} {q source fmt : Nat} {s : State} (ht : s.tidy = true) (hon : (s.path q).on = true) :
    let t := endIrLoad h q (loadSpectra q source fmt s)
    Posted s t h (loadSpectra q source fmt s).2 0 s.slate ∧ t.rd (Obj.cpState q) = s.rd (Obj.cpState q) ∧ t.mem = s.mem := by
  rw [loadSpectra_on hon, endIrLoad, if_pos hon]
  exact ⟨posted_completeHandle _ _ _ ht, rd_completeHandle_ne (cpState_ne_ring q) _ _ _ _ _, (completeHandle_view _ _ _ _ _).1⟩

theorem endIrLoad_off {h : Handle} {q source fmt : Nat} {s : State} (ht : s.tidy = true) (hoff : (s.path q).on = false) :
    let t := endIrLoad h q (loadSpectra q source fmt s)
    Posted s t h (loadSpectra q source fmt s).2 0 s.slate ∧ t.rd (Obj.cpState q) = 0 ∧
      ((loadSpectra q source fmt s).2 = 0 → (t.path q).loaded = true) := by
  obtain ⟨hkeep, hends⟩ := loadEnds_of_off (source := source) (fmt := fmt) hoff
  generalize loadSpectra q source fmt s = r at hkeep hends
  obtain ⟨hstays, hloaded⟩ := hends ht
  have hu := hkeep.tidy ht
  have hslate : r.1.slate = s.slate := congrArg Prod.snd hkeep.view
  have hstate : Keeps RingReg loadView s (r.1.wr (Obj.cpState q) 0) := hkeep.trans (Keeps.loadWr 0 r.1 (by
    simp only [Obj.cpState]
    omega))
  rw [endIrLoad, hstays, hoff, if_neg Bool.false_ne_true, hslate]
  refine ⟨Posted.of_same (posted_completeHandle _ _ _ (hstate.tidy ht)) (hstate.rd _ (.inl rfl)) (hstate.rd _ (.inr rfl))
    (congrArg Prod.fst hstate.view), ?_, fun hz => ?_⟩
  · exact (rd_completeHandle_ne (cpState_ne_ring q) _ _ _ _ _).trans (State.rd_wr_self _ _ ((tidy_iff _).1 hu).od)
  · rw [(completeHandle_view _ _ _ _ _).2.1 q]
    exact hloaded hz

/-! ## The lock of a converter (R200) -/

/-- A converter goes to LOCKED: it takes the measured ratio, and its first block comes next. -/
def convLock (v : Nat) (s : State) : State :=
  ((s.wr (Obj.asState v) convLocked).wr (Obj.asRatio v) (convRatioNow s v)).setConv v
    { s.conv v with t0 := s.slate, next := fineTicks s.slate.toNat, blocks := 0, fadeP := 0 }

theorem exec_asrcLocked {v : Fin 16} {s : State} (hawake : awake s = true) (hst : s.rd (Obj.asState v.val) = convAcquire)
    (hgood : 16 ≤ (s.conv v.val).good) : exec (.asrcLocked v) s = .next (readyScan (convLock v.val s)) := by
  change execAsrcLocked v s = _
  unfold execAsrcLocked clocked
  dsimp only
  rw [if_pos hawake, if_neg (by simp [hst]; omega)]
  rfl

theorem asrcLocked_says {v : Fin 16} {s : State} (ht : s.tidy = true) (hawake : awake s = true)
    (hst : s.rd (Obj.asState v.val) = convAcquire) (hgood : 16 ≤ (s.conv v.val).good) :
    Does (.asrcLocked v) s fun t =>
      t.rd (Obj.asState v.val) = convLocked ∧ t.rd (Obj.asRatio v.val) = convRatioNow s v.val ∧
      (t.conv v.val).blocks = 0 ∧ (t.conv v.val).t0 = s.slate ∧ t.mem = s.mem := by
  have hstate := tidy_wr (Obj.asState v.val) convLocked ht
  have hratio := tidy_wr (Obj.asRatio v.val) (convRatioNow s v.val) hstate
  have hexec := exec_asrcLocked hawake hst hgood
  have hscan := Keeps.readyScan (convLock v.val s)
  have hmem : (convLock v.val s).mem = s.mem := by rw [convLock, State.setConv_mem, State.wr_mem, State.wr_mem]
  have hreg : ∀ k d, k < 256 → OffScan ⟨(0x3800 + v.val) * 256 + k, d⟩ := fun k d hk => offScan_of_lt (by dsimp only; omega)
  have hconv : (readyScan (convLock v.val s)).conv v.val = _ := (congrArg (fun x => x.conv v.val) hscan.view).trans
    (State.conv_setConv_self _ _ ((tidy_iff _).1 hratio).convs)
  refine ⟨_, hexec, (hscan.rd _ (hreg 16 _ (by decide))).trans ?_, (hscan.rd _ (hreg 17 _ (by decide))).trans ?_,
    congrArg Converter.blocks hconv, congrArg Converter.t0 hconv,
    (mem_of_besideSluice hscan.view).trans hmem⟩
  · refine (State.rd_wr_ne _ _ ?_).trans (State.rd_wr_self _ _ ((tidy_iff s).1 ht).od)
    simp only [Obj.asRatio]
    omega
  · exact State.rd_wr_self _ _ ((tidy_iff _).1 hstate).od

theorem loadsAndLocks : Sys2Proof.Claims.LoadsAndLocks := by
  refine ⟨fun p s hs => ⟨writes_irLoadStart hs, exec_irLoadStart_busy hs⟩, fun s h q source fmt ht hawake hfind hop => ?_,
    fun v s ht hawake hst hgood => ?_⟩
  · refine ⟨_, exec_irLoadComplete hawake hfind hop, ?_⟩
    rcases hpath : (s.path q).on with _ | _
    · obtain ⟨hposted, hstate, hloaded⟩ := endIrLoad_off (h := h) (source := source) (fmt := fmt) ht hpath
      exact ⟨hposted, fun hon => absurd hon Bool.false_ne_true, fun _ => ⟨hstate, hloaded⟩⟩
    · obtain ⟨hposted, hstate, hmem⟩ := endIrLoad_on (h := h) (source := source) (fmt := fmt) ht hpath
      exact ⟨hposted, fun _ => ⟨congrArg Prod.snd (loadSpectra_on hpath), hstate, hmem⟩,
        fun hoff => absurd hoff.symm Bool.false_ne_true⟩
  · obtain ⟨t, hexec, hstate, hratio, hblocks, ht0, hmem⟩ := asrcLocked_says ht hawake hst hgood
    refine ⟨t, hexec, hstate, fun hmode => ?_, fun hmode => ?_, hblocks, ht0, hmem⟩
    · simp only [hratio, convRatioNow, hmode]
    · simp only [hratio, convRatioNow, hmode]

/-- Settles O46, clause by clause: the enables of ring pairs, paths and converters are each followed through the registers, edges,
ring, node and memory that they write; a load's handle and record through the harvest ring. Two clauses are the model's choices:
a converter in FIXED mode goes to LOCKED at its enable (log 57), and a load of an enabled path ends with 0x5111 in its record (log 59). -/
theorem engineSetup : Obligations.EngineSetup := ⟨engineEnables, loadsAndLocks⟩

end Sys2Proof.Machine
end

section
/-! Nodes and edges are enabled and cleared (R214, R230 to R232): the objects behind the selectors, the ends that an enable binds, and
the counters that a clear sets to 0. -/

namespace Sys2Proof.Machine
open Sys2Proof Sys2Proof.Claims

/-! ## The objects of the scheduler, its nodes and its edges -/

/-- A byte that reaches the command of the item that its path has selected is answered with what the command answers. -/
theorem writeNat_selected {p : Path} {idx sub v a : Nat} {s t : State} {r : ObjRow} (hs : Ready s) (hl : lookup idx sub = .ok r)
    (hacc : r.acc ≠ .ro ∧ r.acc ≠ .const) (hty : r.type = .uint 1) (hv : v < 256) (hdom : domGood r v = true)
    (hc : ∀ data, command (pathCode p) (selected s (pathCode p) idx) idx sub (dropReserved r idx sub v) data s = some (t, a)) :
    writeNat p idx sub 1 v s = answer (pathCode p) (idx * 256 + sub) a [] t := by
  rw [← ofLe_leBytes (n := 1) hv] at hdom hc
  exact writeObject_command hs hl hacc (lengthAbort_leBytes idx sub v (by rw [hty]; rfl) (by decide)) (by rw [hty]; decide) hdom (hc _)

/-- The row of a clear object: a byte of which the bits of `mask` mean something. -/
def clearsRow (idx sub mask : Nat) : ObjRow := ⟨idx, 1, 1, sub, 1, .uint 1, .wo, 0, .bits mask⟩

theorem lookup_nodeEnable : lookup 0x3001 3 = .ok (enableRow 0x3001 1 3) := by decide +kernel
theorem lookup_edgeEnable : lookup 0x3002 5 = .ok (enableRow 0x3002 1 5) := by decide +kernel
theorem lookup_nodeClear : lookup 0x3001 12 = .ok (clearsRow 0x3001 12 1) := by decide +kernel
theorem lookup_edgeClear : lookup 0x3002 11 = .ok (clearsRow 0x3002 11 1) := by decide +kernel
theorem lookup_schClear : lookup 0x3000 9 = .ok (clearsRow 0x3000 9 3) := by decide +kernel

theorem domGood_enableRow {base cnt sub v : Nat} (hv : v ≤ 1) : domGood (enableRow base cnt sub) v = true := by
  simpa [domGood, enableRow] using hv

section
variable {p : Path} {s : State} (hs : Ready s)
include hs

theorem exec_nodeEnableWrite {v : Byte} (hv : v.toNat ≤ 1) :
    let w := writeNodeEnable (s.rd (Obj.nodeSel (pathCode p))) v.toNat s
    exec (.nodeEnableWrite p v) s = .next (answer (pathCode p) (0x3001 * 256 + 3) w.2 [] w.1) := by
  refine congrArg Host.Outcome.next (writeNat_selected hs lookup_nodeEnable (by decide) rfl v.isLt (domGood_enableRow hv) fun data => ?_)
  rw [dropReserved_high (by decide) (lo := 0) (hi := 1) rfl]
  rfl

theorem exec_edgeEnableWrite {v : Byte} (hv : v.toNat ≤ 1) :
    let w := writeEdgeEnable (s.rd (Obj.edgeSel (pathCode p))) v.toNat s
    exec (.edgeEnableWrite p v) s = .next (answer (pathCode p) (0x3002 * 256 + 5) w.2 [] w.1) := by
  refine congrArg Host.Outcome.next (writeNat_selected hs lookup_edgeEnable (by decide) rfl v.isLt (domGood_enableRow hv) fun data => ?_)
  rw [dropReserved_high (by decide) (lo := 0) (hi := 1) rfl]
  rfl

theorem exec_nodeClear :
    exec (.nodeClear p) s = .next (told p 0x3001 12 (nodeClearBits (s.rd (Obj.nodeSel (pathCode p))) 1 s)) :=
  congrArg Host.Outcome.next (writeNat_selected hs lookup_nodeClear (by decide) rfl (by decide) rfl fun _ => rfl)

theorem exec_edgeClear :
    exec (.edgeClear p) s = .next (told p 0x3002 11 (s.wr (Obj.edgePosted (s.rd (Obj.edgeSel (pathCode p)))) 0)) :=
  congrArg Host.Outcome.next (writeNat_selected hs lookup_edgeClear (by decide) rfl (by decide) rfl fun _ => rfl)

theorem exec_schClearFaults : exec (.schClearFaults p) s = .next (told p 0x3000 9 (schClearBits 1 s)) :=
  congrArg Host.Outcome.next (writeNat_selected hs lookup_schClear (by decide) rfl (by decide) rfl fun _ => rfl)

theorem exec_schClearCounters : exec (.schClearCounters p) s = .next (told p 0x3000 9 (schClearBits 2 s)) :=
  congrArg Host.Outcome.next (writeNat_selected hs lookup_schClear (by decide) rfl (by decide) rfl fun _ => rfl)

end

/-! ## The ends of an edge (R209) -/

/-- Whether an edge is on, and what is bound to its ends: what reservations leave. -/
def Edge.ends (x : Edge) : Bool × Nat × Nat := (x.on, x.prod, x.cons)

/-- From a state in canonical form, the edges of `t` have the ends of those of `s`. -/
def SameEnds (s t : State) : Prop := s.tidy = true → t.tidy = true ∧ ∀ e, (t.edge e).ends = (s.edge e).ends

theorem SameEnds.refl (s : State) : SameEnds s s := fun h => ⟨h, fun _ => rfl⟩

theorem SameEnds.trans {s t u : State} (h : SameEnds s t) (k : SameEnds t u) : SameEnds s u := fun hs =>
  have ⟨ht, he⟩ := h hs
  have ⟨hu, he'⟩ := k ht
  ⟨hu, fun e => (he' e).trans (he e)⟩

theorem SameEnds.of_edges {s t : State} (ht : s.tidy = true → t.tidy = true) (he : t.edges = s.edges) : SameEnds s t := fun hs =>
  ⟨ht hs, fun e => congrArg (fun m : Map Edge => (Map.get ({} : Edge) m e).ends) he⟩

theorem SameEnds.forList {α : Type} (l : List α) (f : α → State → State) (h : ∀ x s, SameEnds s (f x s)) (s : State) :
    SameEnds s (forList l f s) :=
  forList_keep (SameEnds s) l f (fun x _ t ht => ht.trans (h x t)) s (SameEnds.refl s)

theorem SameEnds.setEdge {e : Nat} {x : Edge} {s : State} (h : x.ends = (s.edge e).ends) : SameEnds s (s.setEdge e x) := fun hs => by
  refine ⟨tidy_setEdge e x hs, fun k => ?_⟩
  by_cases hk : k = e
  · rw [hk, State.edge_setEdge_self e x ((tidy_iff s).1 hs).edges, h]
  · rw [State.edge_setEdge_ne s x hk]

theorem SameEnds.reserveOut (e : Nat) (c : Nat × Bool) (s : State) : SameEnds s (reserveOut e c s) := by
  unfold Machine.reserveOut
  dsimp only
  split
  · split
    · exact SameEnds.refl s
    · exact SameEnds.of_edges (tidy_setRing _ _) rfl
  · exact SameEnds.setEdge rfl

theorem SameEnds.makeReady (slot index : Nat) (toks : List Token) (creds : List (Nat × Bool)) (ops : List Word) (s : State) :
    SameEnds s (makeReady slot index toks creds ops s) := by
  have hins := SameEnds.forList ((hdrIns (s.node slot).hdr).zip toks) (fun x => reserveIn x.1 x.2) (fun x t => SameEnds.setEdge rfl) s
  have houts := SameEnds.forList ((hdrOuts (s.node slot).hdr).zip creds) (fun x => Machine.reserveOut x.1 x.2)
    (fun x t => SameEnds.reserveOut x.1 x.2 t)
  have hwr : ∀ (t : State) (r : Reg) (v : Nat), SameEnds t (t.wr r v) := fun t r v => SameEnds.of_edges (tidy_wr r v) rfl
  have hfire : ∀ (t : State) (fs : List Firing) (k : Nat), SameEnds t { t with firings := fs, fireSeq := k } := fun t _ _ =>
    SameEnds.of_edges id rfl
  unfold Machine.makeReady
  refine ((hins.trans (houts _)).trans ?_).trans ((hfire _ _ _).trans (hwr _ _ 2))
  split
  · exact hwr _ _ _
  · exact SameEnds.refl _

theorem SameEnds.readyScan (s : State) : SameEnds s (readyScan s) := by
  refine SameEnds.forList _ _ (fun slot t => ?_) s
  rcases tryReady_cases slot t with h | ⟨-, index, toks, creds, ops, h⟩ <;> rw [h]
  · exact SameEnds.refl t
  · exact SameEnds.makeReady slot index toks creds ops t

/-- One change of each edge of a list, which a second time changes nothing more. -/
theorem edge_forList_setEdge {f : Edge → Edge} (hf : ∀ x, f (f x) = f x) (l : List Nat) {s : State} (ht : s.tidy = true) :
    let t := forList l (fun e s => s.setEdge e (f (s.edge e))) s
    t.tidy = true ∧ ∀ e, t.edge e = if e ∈ l then f (s.edge e) else s.edge e := by
  induction l generalizing s with
  | nil => exact ⟨ht, fun _ => rfl⟩
  | cons x l ih =>
    obtain ⟨htidy, hedge⟩ := ih (tidy_setEdge x (f (s.edge x)) ht)
    refine ⟨htidy, fun e => (hedge e).trans ?_⟩
    by_cases hx : e = x
    · rw [hx, State.edge_setEdge_self x _ ((tidy_iff s).1 ht).edges, hf, ite_self, if_pos List.mem_cons_self]
    · rw [State.edge_setEdge_ne s _ hx]
      simp only [List.mem_cons, hx, false_or]

theorem bindNode_says (slot : Nat) (h : List Word) {s : State} (ht : s.tidy = true) :
    (bindNode slot h s).tidy = true ∧ (∀ e ∈ hdrIns h, ((bindNode slot h s).edge e).cons = endNode slot) ∧
      ∀ e ∈ hdrOuts h, ((bindNode slot h s).edge e).prod = endNode slot := by
  obtain ⟨hinsTidy, hins⟩ := edge_forList_setEdge (f := fun x => { x with cons := endNode slot }) (fun _ => rfl) (hdrIns h) ht
  obtain ⟨houtsTidy, houts⟩ := edge_forList_setEdge (f := fun x => { x with prod := endNode slot }) (fun _ => rfl) (hdrOuts h) hinsTidy
  refine ⟨houtsTidy, fun e he => ?_, fun e he => ?_⟩
  · refine (congrArg Edge.cons (houts e)).trans ?_
    rw [apply_ite Edge.cons, hins e, if_pos he, ite_self]
  · exact (congrArg Edge.prod (houts e)).trans (by rw [if_pos he])

/-! ## The enable of a node (R211, R214, R231) -/

/-- A node that starts is on under its header, with the ends that the header names bound to it; the registers but those of readiness
stay, and memory. -/
theorem startNode_binds (slot : Nat) (h : List Word) {s : State} (ht : s.tidy = true) :
    Keeps OffScan besideNodes s (startNode slot h s) ∧ (startNode slot h s).node slot = { ({} : Node) with on := true, hdr := h } ∧
      (∀ e ∈ hdrIns h, ((startNode slot h s).edge e).cons = endNode slot) ∧
      ∀ e ∈ hdrOuts h, ((startNode slot h s).edge e).prod = endNode slot := by
  have hset := tidy_setNode slot { ({} : Node) with on := true, hdr := h } ht
  obtain ⟨hbindTidy, hcons, hprod⟩ := bindNode_says slot h hset
  obtain ⟨-, hends⟩ := SameEnds.readyScan _ (tidy_wr (Obj.nodeState slot) 1 hbindTidy)
  have hbind : ∀ t : State, Keeps OffScan besideSluice t (bindNode slot h t) := fun t =>
    (Keeps.forList _ _ (fun e _ u => Keeps.setEdge e _ u) t).trans (Keeps.forList _ _ (fun e _ u => Keeps.setEdge e _ u) _)
  have hrest : Keeps OffScan besideSluice (s.setNode slot { ({} : Node) with on := true, hdr := h }) (startNode slot h s) :=
    (hbind _).trans ((Keeps.setReg _ 1 fun _ hq => (hq slot).1).trans (Keeps.readyScan _))
  have hstart : Keeps OffScan besideNodes s (s.setNode slot { ({} : Node) with on := true, hdr := h }) :=
    Keeps.of_rd (tidy_setNode slot _) (fun _ => rfl) rfl
  exact ⟨hstart.trans hrest.besideNodes, (startNode_says slot h ht).2,
    fun e he => (congrArg (fun x : Bool × Nat × Nat => x.2.2) (hends e)).trans (hcons e he),
    fun e he => (congrArg (fun x : Bool × Nat × Nat => x.2.1) (hends e)).trans (hprod e he)⟩

/-- The header that the enable of a node reads at its home, with SLOT filled in (R210, R211). -/
def homeHeader (s : State) (slot : Nat) : List Word :=
  withSlot (homeWord s slot 0) slot :: (List.range 4).map fun k => homeWord s slot (k + 1)

/-- The state in which an enabled node starts: SLOT stands in its home, and its result is 0. -/
def nodeEnabled (slot : Nat) (s : State) : State :=
  ((putHome slot 0 (withSlot (homeWord s slot 0) slot) s).wr (Obj.nodeResult slot) 0).wr (Obj.nodeEnable slot) 1

section
variable {slot : Nat} {s : State}

theorem writeNodeEnable_reserved (v : Nat) (h : slot < 288) : writeNodeEnable slot v s = (s, abState) := if_pos h

theorem writeNodeEnable_zero (hslot : 288 ≤ slot) (hoff : (s.node slot).on = false) :
    writeNodeEnable slot 0 s = (s.wr (Obj.nodeEnable slot) 0, abNone) := by
  have hstop : stopNode slot (s.wr (Obj.nodeEnable slot) 0) = s.wr (Obj.nodeEnable slot) 0 := by
    unfold stopNode
    rw [State.wr_node, hoff]
    rfl
  unfold writeNodeEnable
  rw [if_neg (by omega), if_pos rfl, hstop]

theorem writeNodeEnable_one (hslot : 288 ≤ slot) (hstate : s.rd (Obj.nodeState slot) = 0) :
    writeNodeEnable slot 1 s = if nodeRefusal s (homeHeader s slot) ≠ 0 then
      (s.wr (Obj.nodeResult slot) (nodeRefusal s (homeHeader s slot)), abState)
      else (startNode slot (homeHeader s slot) (nodeEnabled slot s), abNone) := by
  unfold writeNodeEnable
  rw [if_neg (by omega), if_neg (by decide), if_pos hstate]
  rfl

/-- Where the fabric allows it, SLOT is written into the home of an enabled node, and no other byte. -/
theorem nodeEnabled_says (ht : s.tidy = true)
    (hfab : fabCheck masterSluice true (farByte (s.rd (Obj.nodeHome slot))) s = .ok) :
    let home := farByte (s.rd (Obj.nodeHome slot))
    let t := nodeEnabled slot s
    t.tidy = true ∧ t.rd (Obj.nodeEnable slot) = 1 ∧ t.rd (Obj.nodeResult slot) = 0 ∧
      t.memWord home = withSlot (homeWord s slot 0) slot ∧ SameOutside s t home (home + 4) := by
  have hput : putHome slot 0 (withSlot (homeWord s slot 0) slot) s =
      s.setMemWord (farByte (s.rd (Obj.nodeHome slot))) (withSlot (homeWord s slot 0) slot) := by
    unfold putHome
    simp only [Nat.add_zero, hfab]
  have hmem := tidy_setMemWord (farByte (s.rd (Obj.nodeHome slot))) (withSlot (homeWord s slot 0) slot) ht
  have hres := tidy_wr (Obj.nodeResult slot) 0 hmem
  unfold nodeEnabled
  rw [hput]
  refine ⟨tidy_wr _ _ hres, State.rd_wr_self _ _ ((tidy_iff _).1 hres).od, ?_,
    memWord_setMemWord_self _ _ ((tidy_iff s).1 ht).mem, fun a ha => readByte_writeWord_outside s.mem _ ha⟩
  rw [State.rd_wr_ne _ _ (by simp [Obj.nodeResult, Obj.nodeEnable]), State.rd_wr_self _ _ ((tidy_iff _).1 hmem).od]

theorem offScan_node {q : Reg} {k : Nat} (h : q.key = 0x3001 * 256 + k + (slot + 1) * 2 ^ 40) (hk : k = 3 ∨ k = 5) : OffScan q := by
  intro i
  rw [h]
  simp only [Obj.nodeState, Obj.nodeVoids]
  omega

end

theorem writes_nodeEnable {p : Path} {s : State} (hs : Ready s) :
    let slot := s.rd (Obj.nodeSel (pathCode p))
    let home := farByte (s.rd (Obj.nodeHome slot))
    288 ≤ slot → s.rd (Obj.nodeState slot) = 0 → nodeRefusal s (homeHeader s slot) = 0 →
    fabCheck masterSluice true home s = .ok → Writes (.nodeEnableWrite p 1) p s fun t =>
      t.rd (Obj.nodeEnable slot) = 1 ∧ t.rd (Obj.nodeResult slot) = 0 ∧ (t.node slot).on = true ∧
      (t.node slot).hdr = homeHeader s slot ∧
      (∀ x ∈ hdrIns (homeHeader s slot), (t.edge x).cons = endNode slot) ∧
      (∀ x ∈ hdrOuts (homeHeader s slot), (t.edge x).prod = endNode slot) ∧
      t.memWord home = withSlot (homeWord s slot 0) slot ∧ SameOutside s t home (home + 4) := by
  intro slot home hslot hstate hgood hfab
  have hexec := exec_nodeEnableWrite hs (p := p) (v := 1) (by decide)
  rw [show (1 : Byte).toNat = 1 from rfl, writeNodeEnable_one hslot hstate, if_neg (not_not.2 hgood)] at hexec
  obtain ⟨htidy, henable, hresult, hword, houtside⟩ := nodeEnabled_says hs.1 hfab
  obtain ⟨hkeep, hnode, hcons, hprod⟩ := startNode_binds slot (homeHeader s slot) htidy
  have hmem : (startNode slot (homeHeader s slot) (nodeEnabled slot s)).mem = (nodeEnabled slot s).mem :=
    (congrArg (fun x : State => x.mem) hkeep.view :)
  refine ⟨_, hexec, accepted_told p _ _ (hkeep.tidy htidy), (hkeep.rd _ (offScan_node rfl (.inl rfl))).trans henable,
    (hkeep.rd _ (offScan_node rfl (.inr rfl))).trans hresult, congrArg Node.on hnode, congrArg Node.hdr hnode, hcons, hprod,
    (congrArg (readWord · home) hmem).trans hword, fun a ha => (congrArg (readByte · a) hmem).trans (houtside a ha)⟩

/-! ## The enable of an edge (R232) -/

section
variable {e : Nat} {s : State}

theorem writeEdgeEnable_bound (hon : (s.edge e).on = true) (hprod : (s.edge e).prod ≠ 0) :
    writeEdgeEnable e 0 s = (s.wr (Obj.edgeResult e) 0x6113, abState) := by
  simp [writeEdgeEnable, hon, hprod]

theorem writeEdgeEnable_misplaced (hoff : (s.edge e).on = false) (hplaced : edgePlaced s e = false) :
    writeEdgeEnable e 1 s = (s.wr (Obj.edgeResult e) 0x6111, abState) := by
  simp [writeEdgeEnable, hoff, hplaced]

/-- The registers of an edge as its enable leaves them. -/
def edgeEnabled (e : Nat) (s : State) : State :=
  ((s.wr (Obj.edgeEnable e) 1).wr (Obj.edgeResult e) 0).wr (Obj.edgePosted e) 0

theorem writeEdgeEnable_placed (hoff : (s.edge e).on = false) (hplaced : edgePlaced s e = true)
    (hroom : tokenSlots s + s.rd (Obj.edgeDepth e) ≤ 4096) :
    writeEdgeEnable e 1 s = (readyScan ((edgeEnabled e s).setEdge e { ({} : Edge) with on := true }), abNone) := by
  simp [writeEdgeEnable, edgeEnabled, hoff, hplaced, Nat.not_lt.2 hroom]

theorem edgeEnabled_says (ht : s.tidy = true) :
    let t := edgeEnabled e s
    t.tidy = true ∧ t.rd (Obj.edgeEnable e) = 1 ∧ t.rd (Obj.edgeResult e) = 0 ∧ t.rd (Obj.edgePosted e) = 0 := by
  have hon := tidy_wr (Obj.edgeEnable e) 1 ht
  have hres := tidy_wr (Obj.edgeResult e) 0 hon
  refine ⟨tidy_wr _ _ hres, ?_, ?_, State.rd_wr_self _ _ ((tidy_iff _).1 hres).od⟩
  · rw [edgeEnabled, State.rd_wr_ne _ _ (by simp [Obj.edgeEnable, Obj.edgePosted]),
      State.rd_wr_ne _ _ (by simp [Obj.edgeEnable, Obj.edgeResult]), State.rd_wr_self _ _ ((tidy_iff s).1 ht).od]
  · rw [edgeEnabled, State.rd_wr_ne _ _ (by simp [Obj.edgeResult, Obj.edgePosted]), State.rd_wr_self _ _ ((tidy_iff _).1 hon).od]

theorem offScan_edge (e : Nat) {k : Nat} (hk : k < 256) (d : Nat) : OffScan ⟨0x3002 * 256 + k + (e + 1) * 2 ^ 40, d⟩ := by
  intro i
  simp only [Obj.nodeState, Obj.nodeVoids]
  omega

end

theorem writes_edgeEnable {p : Path} {s : State} (hs : Ready s) :
    let e := s.rd (Obj.edgeSel (pathCode p))
    (s.edge e).on = false → edgePlaced s e = true → tokenSlots s + s.rd (Obj.edgeDepth e) ≤ 4096 →
    Writes (.edgeEnableWrite p 1) p s fun t =>
      t.rd (Obj.edgeEnable e) = 1 ∧ t.rd (Obj.edgeResult e) = 0 ∧ t.rd (Obj.edgePosted e) = 0 ∧ (t.edge e).on = true ∧
      (t.edge e).tokens = [] ∧ t.mem = s.mem := by
  intro e hoff hplaced hroom
  have hexec := exec_edgeEnableWrite hs (p := p) (v := 1) (by decide)
  rw [show (1 : Byte).toNat = 1 from rfl, writeEdgeEnable_placed hoff hplaced hroom] at hexec
  obtain ⟨htidy, henable, hresult, hposted⟩ := edgeEnabled_says (e := e) hs.1
  have hset := tidy_setEdge e { ({} : Edge) with on := true } htidy
  have hself := State.edge_setEdge_self e { ({} : Edge) with on := true } ((tidy_iff _).1 htidy).edges
  have hscan := Keeps.readyScan ((edgeEnabled e s).setEdge e { ({} : Edge) with on := true })
  have hreg : ∀ q, OffScan q → (readyScan ((edgeEnabled e s).setEdge e { ({} : Edge) with on := true })).rd q =
      (edgeEnabled e s).rd q := fun q hq => (hscan.rd q hq).trans (State.setEdge_rd _ _ _ _)
  obtain ⟨-, hends⟩ := SameEnds.readyScan _ hset
  obtain ⟨-, htokens, -⟩ := SameBlocks.readyScan _ hset
  have hnone := htokens e
  rw [hself] at hnone
  refine ⟨_, hexec, accepted_told p _ _ (hscan.tidy hset), ?_, ?_, ?_, ?_, ?_, ?_⟩
  · exact (told_rd p _ _ _ _).trans ((hreg (Obj.edgeEnable e) (offScan_edge e (by decide) 0)).trans henable)
  · exact (told_rd p _ _ _ _).trans ((hreg (Obj.edgeResult e) (offScan_edge e (by decide) 0)).trans hresult)
  · exact (told_rd p _ _ _ _).trans ((hreg (Obj.edgePosted e) (offScan_edge e (by decide) 0)).trans hposted)
  · exact (congrArg Edge.on (told_edge p _ _ _ e)).trans ((congrArg Prod.fst (hends e)).trans (congrArg Edge.on hself))
  · exact (congrArg Edge.tokens (told_edge p _ _ _ e)).trans (List.map_eq_nil_iff.1 hnone)
  · exact (told_mem p _ _ _).trans (mem_of_besideSluice hscan.view)

/-! ## The clears (R230 to R232) -/

/-- The counters of a node. -/
def nodeCounters (slot : Nat) : List Reg := [Obj.nodeFirings slot, Obj.nodeFails slot, Obj.nodeVoids slot, Obj.nodeReruns slot]

/-- The counters of the scheduler, its nodes, edges and ring pairs. -/
def schCounters : List Reg :=
  [Obj.schRefused, Obj.schHoldOver] ++ (List.range 512).flatMap nodeCounters ++ (List.range 1024).map Obj.edgePosted ++
    (List.range 256).flatMap fun r => [Obj.rpSendLate r, Obj.rpReturnLate r]

theorem nodeClearBits_one (slot : Nat) (s : State) : nodeClearBits slot 1 s = zeroRegs (nodeCounters slot) s := rfl

theorem schClearBits_one (s : State) : schClearBits 1 s = clearSticky 0x6001 5 [Obj.schFaults] [Obj.schFaults] s := rfl

theorem zeroRegs_append (a b : List Reg) (s : State) : zeroRegs (a ++ b) s = zeroRegs b (zeroRegs a s) := List.foldl_append

theorem zeroRegs_flatMap {α : Type} (l : List α) (f : α → List Reg) (s : State) :
    zeroRegs (l.flatMap f) s = forList l (fun x => zeroRegs (f x)) s := List.foldl_flatMap ..

theorem zeroRegs_map {α : Type} (l : List α) (f : α → Reg) (s : State) :
    zeroRegs (l.map f) s = forList l (fun x s => s.wr (f x) 0) s := List.foldl_map

theorem schClearBits_two (s : State) : schClearBits 2 s = zeroRegs schCounters s := by
  unfold schCounters
  rw [zeroRegs_append, zeroRegs_append, zeroRegs_append, zeroRegs_flatMap, zeroRegs_map, zeroRegs_flatMap]
  rfl

/-- Counters that start at 0 and are set to 0 read 0, whatever keys they share. -/
theorem rd_zeroRegs_of_dflt {rs : List Reg} (hd : ∀ r ∈ rs, r.dflt = 0) {s : State} (ht : s.tidy = true) {r : Reg} (hr : r ∈ rs) :
    (zeroRegs rs s).rd r = 0 := by
  have hkeep : ∀ (l : List Reg), (∀ q ∈ l, q.dflt = 0) → ∀ t : State, t.tidy = true → t.rd r = 0 → (zeroRegs l t).rd r = 0 := by
    intro l hl t htidy hzero
    refine (forList_keep (fun u => u.tidy = true ∧ u.rd r = 0) l (fun q u => u.wr q 0) (fun q hq u hu => ⟨tidy_wr q 0 hu.1, ?_⟩) t
      ⟨htidy, hzero⟩).2
    by_cases hk : r.key = q.key
    · have hrq : r = q := by
        cases r; cases q
        simp only [Reg.mk.injEq]
        exact ⟨hk, (hd _ hr).trans (hl _ hq).symm⟩
      rw [hrq, State.rd_wr_self _ _ ((tidy_iff u).1 hu.1).od]
    · rw [State.rd_wr_ne u 0 hk, hu.2]
  obtain ⟨l₁, l₂, rfl⟩ := List.append_of_mem hr
  rw [zeroRegs_append]
  have hfirst := tidy_zeroRegs l₁ ht
  exact hkeep l₂ (fun q hq => hd q (List.mem_append_right _ (List.mem_cons_of_mem r hq))) _ (tidy_wr r 0 hfirst)
    (State.rd_wr_self r 0 ((tidy_iff _).1 hfirst).od)

theorem nodeCounters_dflt (slot : Nat) : ∀ r ∈ nodeCounters slot, r.dflt = 0 := by
  simp [nodeCounters, Obj.nodeFirings, Obj.nodeFails, Obj.nodeVoids, Obj.nodeReruns]

theorem schCounters_dflt : ∀ r ∈ schCounters, r.dflt = 0 := by
  intro r hr
  simp only [schCounters, nodeCounters, List.mem_append, List.mem_cons, List.not_mem_nil, or_false, List.mem_flatMap,
    List.mem_map] at hr
  rcases hr with (((rfl | rfl) | ⟨i, -, (rfl | rfl | rfl | rfl)⟩) | ⟨i, -, rfl⟩) | ⟨i, -, (rfl | rfl)⟩ <;> rfl

theorem schFaults_ne_schCounters : ∀ r ∈ schCounters, Obj.schFaults.key ≠ r.key := by
  intro r hr
  simp only [schCounters, nodeCounters, List.mem_append, List.mem_cons, List.not_mem_nil, or_false, List.mem_flatMap,
    List.mem_map] at hr
  rcases hr with (((rfl | rfl) | ⟨i, -, (rfl | rfl | rfl | rfl)⟩) | ⟨i, -, rfl⟩) | ⟨i, -, (rfl | rfl)⟩ <;>
    simp only [Obj.schFaults, Obj.schRefused, Obj.schHoldOver, Obj.nodeFirings, Obj.nodeFails, Obj.nodeVoids, Obj.nodeReruns,
      Obj.edgePosted, Obj.rpSendLate, Obj.rpReturnLate] <;> omega

theorem nodeCounters_sub {i : Nat} (hi : i < 512) {r : Reg} (hr : r ∈ nodeCounters i) : r ∈ schCounters :=
  List.mem_append_left _ (List.mem_append_left _ (List.mem_append_right _ (List.mem_flatMap.2 ⟨i, List.mem_range.2 hi, hr⟩)))

theorem edgePosted_mem_schCounters {i : Nat} (hi : i < 1024) : Obj.edgePosted i ∈ schCounters :=
  List.mem_append_left _ (List.mem_append_right _ (List.mem_map.2 ⟨i, List.mem_range.2 hi, rfl⟩))

theorem sch_mem_schCounters : Obj.schRefused ∈ schCounters ∧ Obj.schHoldOver ∈ schCounters :=
  ⟨List.mem_append_left _ (List.mem_append_left _ (List.mem_append_left _ (by simp))),
    List.mem_append_left _ (List.mem_append_left _ (List.mem_append_left _ (by simp)))⟩

theorem rpLate_mem_schCounters {r : Nat} (hr : r < 256) : Obj.rpSendLate r ∈ schCounters ∧ Obj.rpReturnLate r ∈ schCounters :=
  ⟨List.mem_append_right _ (List.mem_flatMap.2 ⟨r, List.mem_range.2 hr, by simp⟩),
    List.mem_append_right _ (List.mem_flatMap.2 ⟨r, List.mem_range.2 hr, by simp⟩)⟩

section
variable {p : Path} {s : State} (hs : Ready s)
include hs

theorem writes_nodeClear :
    let slot := s.rd (Obj.nodeSel (pathCode p))
    Writes (.nodeClear p) p s fun t => (∀ r ∈ nodeCounters slot, t.rd r = 0) ∧ RegsBut s t (nodeCounters slot) ∧
      { t with od := s.od, answers := s.answers } = s := by
  intro slot
  have hexec := exec_nodeClear hs (p := p)
  rw [nodeClearBits_one] at hexec
  refine ⟨_, hexec, accepted_told p _ _ (tidy_zeroRegs _ hs.1), fun r hr => ?_, fun r hr => ?_, ?_⟩
  · rw [told_rd, rd_zeroRegs_of_dflt (nodeCounters_dflt _) hs.1 hr]
  · rw [told_rd, rd_zeroRegs_ne _ s r hr]
  · rw [told_rest, zeroRegs_rest]

theorem writes_schClearFaults :
    Writes (.schClearFaults p) p s fun t => t.rd Obj.schFaults = 0 ∧ t.edges = s.edges ∧ t.nodes = s.nodes ∧ t.mem = s.mem := by
  have hexec := exec_schClearFaults hs (p := p)
  rw [schClearBits_one] at hexec
  have honly := clearSticky_only 0x6001 5 [Obj.schFaults] [Obj.schFaults] s
  refine ⟨_, hexec, accepted_told p _ _ (tidy_clearSticky _ _ _ _ s hs.1), ?_, honly.edges, (congrArg State.nodes honly :), honly.mem⟩
  exact (rd_clearSticky _ _ _ _ s offLog_schFaults).trans (State.rd_wr_self _ _ ((tidy_iff s).1 hs.1).od)

theorem writes_schClearCounters :
    Writes (.schClearCounters p) p s fun t =>
      (∀ r ∈ schCounters, t.rd r = 0) ∧ t.rd Obj.schFaults = s.rd Obj.schFaults ∧ { t with od := s.od, answers := s.answers } = s := by
  have hexec := exec_schClearCounters hs (p := p)
  rw [schClearBits_two] at hexec
  refine ⟨_, hexec, accepted_told p _ _ (tidy_zeroRegs _ hs.1), fun r hr => ?_, ?_, ?_⟩
  · rw [told_rd, rd_zeroRegs_of_dflt schCounters_dflt hs.1 hr]
  · rw [told_rd, rd_zeroRegs_ne _ s _ schFaults_ne_schCounters]
  · rw [told_rest, zeroRegs_rest]

end

/-- Settles O16: each write reaches the command of the node or edge that its path has selected. An enable binds the ends that its
header names, which the readiness scan behind it leaves bound (`SameEnds.readyScan`); a clear sets a list of registers to 0. -/
theorem nodesAndEdges : Obligations.NodesAndEdges := by
  intro p s hs slot e h
  refine ⟨writes_nodeEnable hs, fun r hslot hstate hr hne => ?_, fun hslot => ?_, fun hslot hoff => ?_, writes_nodeClear hs,
    writes_edgeEnable hs, fun hoff hplaced => ?_, fun hon hprod => ?_, exec_edgeClear hs, writes_schClearFaults hs, ?_⟩
  · rw [exec_nodeEnableWrite hs (by decide), show (1 : Byte).toNat = 1 from rfl, writeNodeEnable_one hslot hstate]
    rw [if_pos (by rw [← hr] at hne; exact hne), ← hr]
    rfl
  · rw [exec_nodeEnableWrite hs (by decide), writeNodeEnable_reserved _ hslot]
    rfl
  · rw [exec_nodeEnableWrite hs (by decide), show (0 : Byte).toNat = 0 from rfl, writeNodeEnable_zero hslot hoff]
    rfl
  · rw [exec_edgeEnableWrite hs (by decide), show (1 : Byte).toNat = 1 from rfl, writeEdgeEnable_misplaced hoff hplaced]
    rfl
  · rw [exec_edgeEnableWrite hs (by decide), show (0 : Byte).toNat = 0 from rfl, writeEdgeEnable_bound hon hprod]
    rfl
  · obtain ⟨t, hexec, hacc, hzero, hfaults, hrest⟩ := writes_schClearCounters hs (p := p)
    refine ⟨t, hexec, hacc, hzero _ sch_mem_schCounters.1, hzero _ sch_mem_schCounters.2, hfaults, fun i hi => ?_,
      fun i hi => hzero _ (edgePosted_mem_schCounters hi), fun r hr => ?_, hrest⟩
    · exact ⟨hzero _ (nodeCounters_sub hi (by simp [nodeCounters])), hzero _ (nodeCounters_sub hi (by simp [nodeCounters])),
        hzero _ (nodeCounters_sub hi (by simp [nodeCounters])), hzero _ (nodeCounters_sub hi (by simp [nodeCounters]))⟩
    · exact ⟨hzero _ (rpLate_mem_schCounters hr).1, hzero _ (rpLate_mem_schCounters hr).2⟩

end Sys2Proof.Machine
end

section
/-! The dispatch of firings to engines and cores (R215, R217 to R219, R246). -/

namespace Sys2Proof.Machine
open Sys2Proof Sys2Proof.Claims

/-! ## The choice of a firing and of a core -/

/-- A fold whose every step keeps its choice or takes the item before it ends with its first choice or one of the list. -/
theorem foldl_choice {α : Type} {g : Option α → α → Option α} (hg : ∀ b x y, g b x = some y → b = some y ∨ x = y) (l : List α) :
    ∀ {b : Option α} {y : α}, l.foldl g b = some y → b = some y ∨ y ∈ l := by
  induction l with
  | nil => exact fun h => .inl h
  | cons x l ih =>
    intro b y h
    rcases ih h with hb | hl
    · rcases hg b x y hb with hb | rfl
      · exact .inl hb
      · exact .inr List.mem_cons_self
    · exact .inr (List.mem_cons_of_mem x hl)

/-- What is picked is a firing of the list that the condition accepts (R217). -/
theorem pickFiring_mem {p : Firing → Bool} {s : State} {f : Firing} (h : pickFiring p s = some f) : f ∈ s.firings ∧ p f = true := by
  unfold pickFiring at h
  refine Or.elim (foldl_choice (fun b x y hy => ?_) _ h) nofun fun hmem => ?_
  · cases b with
    | none => exact .inr (Option.some.inj hy)
    | some b =>
      dsimp only at hy
      split at hy
      · exact .inr (Option.some.inj hy)
      · exact .inl hy
  · obtain ⟨hf, hp⟩ := List.mem_filter.1 hmem
    exact ⟨hf, (Bool.and_eq_true_iff.1 hp).2⟩

/-- The core that has waited longest is one of those asked (R218). -/
theorem longestWaiting_mem {s : State} {cs : List Nat} {c : Nat} (h : longestWaiting s cs = some c) : c ∈ cs := by
  unfold longestWaiting at h
  refine Or.elim (foldl_choice (fun b x y hy => ?_) _ h) nofun id
  cases b with
  | none => exact .inr (Option.some.inj hy)
  | some b =>
    dsimp only at hy
    split at hy
    · exact .inr (Option.some.inj hy)
    · exact .inl hy

/-! ## The void bits at dispatch (R215, R225) -/

/-- The state without the registers and the ring pairs. -/
def besideRings (s : State) : State := { s with od := [], rings := [] }

theorem Keeps.refreshVoid (f : Firing) (s : State) :
    Keeps (fun q => q.key ≠ (Obj.nodeVoids f.slot).key) besideRings s (refreshVoid f s).2 := by
  unfold Machine.refreshVoid
  dsimp only
  split
  · exact Keeps.refl s
  · refine Keeps.trans (Keeps.forList _ _ (fun x _ t => ?_) s) (Keeps.ite (Keeps.wr _ _ (fun _ hq => hq) rfl) (Keeps.refl _))
    split
    · exact Keeps.refl t
    · exact Keeps.of_rd (tidy_setRing _ _) (fun _ => rfl) rfl

/-- Dispatch changes of a firing its void bits alone. -/
theorem refreshVoid_firing (f : Firing) (s : State) : (refreshVoid f s).1 = { f with void := (refreshVoid f s).1.void } := by
  unfold refreshVoid
  dsimp only
  split <;> rfl

theorem refreshVoid_rest (f : Firing) (s : State) : { (refreshVoid f s).2 with od := s.od, rings := s.rings } = s :=
  (congrArg (fun x : State => { x with od := s.od, rings := s.rings }) (Keeps.refreshVoid f s).view :)

/-! ## A firing in the list -/

theorem sameFiring_self (f : Firing) : sameFiring f f = true := by simp [sameFiring]

theorem mem_putFiring {f g : Firing} {s : State} (hg : g ∈ s.firings) (h : sameFiring g f = true) : f ∈ (putFiring f s).firings :=
  List.mem_map.2 ⟨g, hg, if_pos h⟩

theorem mem_putFiring_other {f g : Firing} {s : State} (hg : g ∈ s.firings) (h : sameFiring g f = false) :
    g ∈ (putFiring f s).firings := List.mem_map.2 ⟨g, hg, if_neg (by rw [h]; decide)⟩

theorem length_putFiring (f : Firing) (s : State) : (putFiring f s).firings.length = s.firings.length := List.length_map _

/-! ## Class E (R215, R217, R219) -/

/-- The registers that a dispatch to engine `h` writes: the node's state, of a firing of rung 0, and that of a crystallizer. -/
def noteDispatch (f : Firing) (h st : Nat) (s : State) : State :=
  let s := if f.rung = 0 then s.wr (Obj.nodeState f.slot) st else s
  if 0x10 ≤ h ∧ h < 0x20 then s.wr (Obj.cxState (h - 0x10)) 1 else s

theorem noteDispatch_rest (f : Firing) (h st : Nat) (s : State) : { noteDispatch f h st s with od := s.od } = s := by
  unfold noteDispatch
  dsimp only
  split <;> split <;> rfl

theorem noteDispatch_says {f : Firing} {h st : Nat} {s : State} (ht : s.tidy = true) :
    (f.rung = 0 → (noteDispatch f h st s).rd (Obj.nodeState f.slot) = st) ∧
      (0x10 ≤ h ∧ h < 0x20 → (noteDispatch f h st s).rd (Obj.cxState (h - 0x10)) = 1) := by
  have hnode : (if f.rung = 0 then s.wr (Obj.nodeState f.slot) st else s).tidy = true := by
    split
    · exact tidy_wr _ _ ht
    · exact ht
  refine ⟨fun hrung => ?_, fun hcx => ?_⟩
  · have hself := State.rd_wr_self (Obj.nodeState f.slot) st ((tidy_iff s).1 ht).od
    unfold noteDispatch
    rw [if_pos hrung]
    split
    next hcx => rw [State.rd_wr_ne _ _ (by simp only [Obj.nodeState, Obj.cxState]; omega), hself]
    next => exact hself
  · unfold noteDispatch
    rw [if_pos hcx]
    exact State.rd_wr_self _ _ ((tidy_iff _).1 hnode).od

/-- A firing as it stands on the engine that it goes to. -/
def onEngine (f : Firing) (h st : Nat) (ops : List Word) : Firing :=
  { f with state := st, holder := h, ops := ops, done := false, status := 0 }

theorem exec_classEPrefetch {s : State} {f : Firing} {h : Nat}
    (hpick : pickFiring (fun f => mayDispatch s f && firingClassE s f && (engineFor s f).isSome) s = some f)
    (hengine : engineFor s f = some h) :
    let st := if engineLoad s h = 0 then 4 else 3
    let r := refreshVoid f s
    ∃ ops, exec .classEPrefetch s = .next (noteDispatch r.1 h st (putFiring (onEngine r.1 h st ops) r.2)) := by
  intro st r
  refine ⟨if 272 ≤ f.slot then opBlock s f.slot else f.ops, ?_⟩
  show execClassEPrefetch s = _
  unfold execClassEPrefetch
  rw [hpick]
  dsimp only
  rw [hengine]
  rfl

theorem engineDispatch : Sys2Proof.Claims.EngineDispatch := by
  intro s f h ht hpick hengine st r
  obtain ⟨ops, hexec⟩ := exec_classEPrefetch hpick hengine
  have hkeep := Keeps.refreshVoid f s
  have hsame : r.1 = { f with void := r.1.void } := refreshVoid_firing f s
  have hslot : r.1.slot = f.slot := (congrArg Firing.slot hsame :)
  have hrung : r.1.rung = f.rung := (congrArg Firing.rung hsame :)
  have hfirings : r.2.firings = s.firings := (congrArg State.firings (refreshVoid_rest f s) :)
  have hrest := noteDispatch_rest r.1 h st (putFiring (onEngine r.1 h st ops) r.2)
  have htfirings := (congrArg State.firings hrest :)
  obtain ⟨hnode, hcx⟩ := noteDispatch_says (f := r.1) (h := h) (st := st) (s := putFiring (onEngine r.1 h st ops) r.2) (hkeep.tidy ht)
  have hid : ∀ g, sameFiring g (onEngine r.1 h st ops) = sameFiring g f := fun g => by
    simp only [sameFiring, onEngine, hslot, hrung]
  refine ⟨_, hexec, ⟨onEngine r.1 h st ops, ?_, ?_, rfl, rfl, rfl, (congrArg Firing.prio hsame :), rfl⟩, fun g hg hne => ?_, ?_,
    fun h0 => ?_, hcx, (congrArg State.rings hrest :), ?_⟩
  · exact htfirings ▸ mem_putFiring (hfirings ▸ (pickFiring_mem hpick).1) ((hid f).trans (sameFiring_self f))
  · simp only [sameFiring, onEngine, hslot, hrung, beq_self_eq_true, Bool.and_self]
  · exact htfirings ▸ mem_putFiring_other (hfirings ▸ hg) ((hid g).trans hne)
  · exact (congrArg List.length htfirings).trans ((length_putFiring _ _).trans (congrArg List.length hfirings))
  · exact hslot ▸ hnode (hrung.trans h0)
  · exact ((congrArg (fun x : State => { x with od := s.od, firings := s.firings, rings := s.rings }) hrest :).trans
      (congrArg (fun x : State => { x with firings := s.firings }) (refreshVoid_rest f s) :))

/-! ## The words in the mailbox of a core (R218) -/

/-- A word outside the bytes that change reads the same. -/
theorem memWord_of_sameOutside {s t : State} {lo hi a : Nat} (h : SameOutside s t lo hi) (ha : a + 4 ≤ lo ∨ hi ≤ a) :
    t.memWord a = s.memWord a := by
  unfold State.memWord readWord
  rw [h a (by omega), h (a + 1) (by omega), h (a + 2) (by omega), h (a + 3) (by omega)]

theorem holdsWords_of_mem {s t : State} {a : Nat} {ws : List Word} (hm : t.mem = s.mem) (h : HoldsWords s a ws) : HoldsWords t a ws :=
  fun k w hk => (congrArg (readWord · (a + 4 * k)) hm).trans (h k w hk)

/-- Words written one behind the other stand there, and no other byte of memory and nothing beside it changes. -/
theorem storeWords_says (b : Nat) (ws : List Word) : ∀ (i : Nat) {s : State}, s.tidy = true →
    let t := forList (ws.zipIdx i) (fun x s => s.setMemWord (b + 4 * (0x3FF0 + x.2)) x.1) s
    t.tidy = true ∧ { t with mem := s.mem } = s ∧ HoldsWords t (b + 4 * (0x3FF0 + i)) ws ∧
      SameOutside s t (b + 4 * (0x3FF0 + i)) (b + 4 * (0x3FF0 + (i + ws.length))) := by
  induction ws with
  | nil => exact fun i s ht => ⟨ht, rfl, fun k w hk => by simp at hk, fun _ _ => rfl⟩
  | cons w ws ih =>
    intro i s ht
    obtain ⟨htidy, hrest, hholds, hout⟩ := ih (i + 1) (tidy_setMemWord (b + 4 * (0x3FF0 + i)) w ht)
    refine ⟨htidy, (congrArg (fun x : State => { x with mem := s.mem }) hrest :), fun k v hk => ?_, fun a ha => ?_⟩
    · cases k with
      | zero =>
        obtain rfl : w = v := by simpa using hk
        exact (memWord_of_sameOutside hout (.inl (by omega))).trans (memWord_setMemWord_self _ w ((tidy_iff s).1 ht).mem)
      | succ k =>
        have ha : b + 4 * (0x3FF0 + i) + 4 * (k + 1) = b + 4 * (0x3FF0 + (i + 1)) + 4 * k := by omega
        rw [ha]
        exact hholds k v (by simpa using hk)
    · rw [List.length_cons] at ha
      exact (hout a (by omega)).trans (readByte_writeWord_outside s.mem w (by omega))

section
variable {s t : State} (hnodes : t.nodes = s.nodes) (hmem : t.mem = s.mem) (hpans : t.pans = s.pans)
  (hrd : ∀ q : Reg, q.key % 256 ≠ 9 → t.rd q = s.rd q)

include hpans hrd in
/-- The check of an access is a matter of the pan groups and of registers that no count of void firings is. -/
theorem fabCheck_of_same (own : Nat) (write : Bool) (a : Nat) : fabCheck own write a t = fabCheck own write a s := by
  have hbanks : ∀ g, t.rd (Obj.tgXchBanks g) = s.rd (Obj.tgXchBanks g) := fun g => hrd _ (by simp only [Obj.tgXchBanks]; omega)
  have hgroup : ∀ n, t.rd (Obj.triggerGroup n) = s.rd (Obj.triggerGroup n) := fun n => hrd _ (by simp only [Obj.triggerGroup]; omega)
  have hlane : ∀ n, t.rd (Obj.laneState n) = s.rd (Obj.laneState n) := fun n => hrd _ (by simp only [Obj.laneState]; omega)
  have hcore : ∀ c, t.rd (Obj.coreState c) = s.rd (Obj.coreState c) := fun c => hrd _ (by simp only [Obj.coreState]; omega)
  have hstate : ∀ g, t.rd (Obj.pgState g) = s.rd (Obj.pgState g) := fun g => hrd _ (by simp only [Obj.pgState]; omega)
  have hpan : ∀ g, t.pan g = s.pan g := fun g =>
    congrArg (fun m : Map PanGroup => m.get ({} : PanGroup) g) hpans
  have hfree : ∀ bank, bankFree t bank = bankFree s bank := fun bank => by simp only [bankFree, hbanks, hgroup, hlane]
  unfold fabCheck
  cases regionOf a <;> simp only [hfree, hcore, hstate, hpan]

include hmem hpans hrd in
theorem homeWord_of_same (slot k : Nat) : homeWord t slot k = homeWord s slot k := by
  unfold homeWord State.memWord
  rw [hrd (Obj.nodeHome slot) (by simp only [Obj.nodeHome]; omega), hmem]
  dsimp only
  rw [fabCheck_of_same hpans hrd]

include hnodes hmem hpans hrd in
theorem handedWords_of_same (f : Firing) : handedWords t f = handedWords s f := by
  have hnode : t.node f.slot = s.node f.slot := congrArg (fun m : Map Node => m.get ({} : Node) f.slot) hnodes
  unfold handedWords opBlock
  rw [hnode]
  simp only [homeWord_of_same hmem hpans hrd]

end

/-- What is handed over is the descriptor as it stands before the void bits are set. -/
theorem handedWords_refreshVoid (f g : Firing) (s : State) : handedWords (refreshVoid f s).2 g = handedWords s g := by
  have hview := (Keeps.refreshVoid f s).view
  have hnodes : (refreshVoid f s).2.nodes = s.nodes := (congrArg State.nodes hview :)
  have hmem : (refreshVoid f s).2.mem = s.mem := (congrArg State.mem hview :)
  have hpans : (refreshVoid f s).2.pans = s.pans := (congrArg State.pans hview :)
  refine handedWords_of_same hnodes hmem hpans (fun q hq => (Keeps.refreshVoid f s).rd q ?_) g
  simp only [Obj.nodeVoids]
  omega

/-! ## Class S (R218, R246) -/

/-- The end of a core's instruction is a matter of the core alone, and of what it holds no matter. -/
theorem coreFinish_says (c : Fin 8) (len : Nat) (e : Eff) {s : State} (ht : s.tidy = true) :
    Keeps (fun _ => True) (fun t => { t with cores := [] }) s (coreFinish c len e s) ∧
      ((coreFinish c len e s).core c.val).node = (s.core c.val).node :=
  ⟨Keeps.of_rd (tidy_setCore c.val _) (fun _ => rfl) rfl,
    (congrArg Core.node (State.core_setCore_self c.val _ ((tidy_iff s).1 ht).cores) :)⟩

/-- The words of a firing stand in the mailbox of core `c`. -/
def mailed (f : Firing) (c : Nat) (s : State) : State :=
  forList ((handedWords s f).zipIdx) (fun x s => s.setMemWord (0x3000000 + 0x40000 * c + 0x20000 + 4 * (0x3FF0 + x.2)) x.1) s

/-- A firing runs on core `c`. -/
def onCore (f : Firing) (c : Nat) : Firing := { f with state := 4, holder := c }

/-- A core that is handed a firing runs, holds its node and has its words; the firing runs on it (R218, R246). -/
theorem handOver_says {f g : Firing} {c : Nat} {s : State} (ht : s.tidy = true) (hc : c < 8) (hg : g ∈ s.firings)
    (hsame : sameFiring g f = true) :
    let t := handOver f c s
    let box := 0x3000000 + 0x40000 * c + 0x20000
    t.rd (Obj.coreState c) = 1 ∧ (t.core c).node = some f.slot ∧ t.rd (Obj.nodeState f.slot) = 4 ∧
      HoldsWords t (box + 4 * 0x3FF0) (handedWords s f) ∧
      SameOutside s t (box + 4 * 0x3FF0) (box + 4 * (0x3FF0 + (handedWords s f).length)) ∧ onCore f c ∈ t.firings := by
  obtain ⟨hmailTidy, hmailRest, hholds, hout⟩ := storeWords_says (0x3000000 + 0x40000 * c + 0x20000) (handedWords s f) 0 ht
  rw [← mailed] at hmailTidy hmailRest hholds hout
  have hfirings : (mailed f c s).firings = s.firings := (congrArg State.firings hmailRest :)
  have hmem := mem_putFiring (f := onCore f c) (hfirings.symm ▸ hg) hsame
  have hput : (putFiring (onCore f c) (mailed f c s)).tidy = true := hmailTidy
  generalize hu : putFiring (onCore f c) (mailed f c s) = u at hput hmem
  have hnode := tidy_wr (Obj.nodeState f.slot) 4 hput
  generalize hv : (u.wr (Obj.nodeState f.slot) 4).setCore c { u.core c with
    node := some f.slot, regs := writeReg false (u.core c).getwReg.val 0x803FF0 (u.core c).regs } = v
  have hvTidy : v.tidy = true := hv ▸ tidy_setCore c _ hnode
  have hrun := tidy_wr (Obj.coreState c) 1 hvTidy
  have hover : handOver f c s = coreFinish (Fin.ofNat 8 c) (u.core c).getwLen { xfer := true } (v.wr (Obj.coreState c) 1) := by
    rw [← hv, ← hu]
    rfl
  obtain ⟨hkeep, hheld⟩ := coreFinish_says (Fin.ofNat 8 c) (u.core c).getwLen { xfer := true } hrun
  have hfin : (Fin.ofNat 8 c).val = c := Nat.mod_eq_of_lt hc
  have htmem : (handOver f c s).mem = (mailed f c s).mem := by
    rw [hover]
    exact (congrArg State.mem hkeep.view :).trans (by rw [State.wr_mem, ← hv, ← hu]; rfl)
  rw [hfin] at hheld
  refine ⟨?_, ?_, ?_, holdsWords_of_mem htmem hholds, fun a ha => ?_, ?_⟩
  · rw [hover, hkeep.rd _ trivial, State.rd_wr_self _ _ ((tidy_iff v).1 hvTidy).od]
  · rw [hover, hheld, State.wr_core, ← hv, State.core_setCore_self c _ ((tidy_iff _).1 hnode).cores]
  · rw [hover, hkeep.rd _ trivial, State.rd_wr_ne _ _ (by simp only [Obj.nodeState, Obj.coreState]; omega), ← hv, State.setCore_rd,
      State.rd_wr_self _ _ ((tidy_iff u).1 hput).od]
  · rw [Nat.zero_add] at hout
    exact (congrArg (readByte · a) htmem).trans (hout a ha)
  · have htf : (handOver f c s).firings = u.firings := by
      rw [hover]
      exact (congrArg State.firings hkeep.view :).trans (by rw [State.wr_firings, ← hv]; rfl)
    exact htf ▸ hmem

theorem exec_classSHandover {s : State} {f : Firing} {c : Nat}
    (hpick : pickFiring (fun f => mayDispatch s f && !firingClassE s f && !(eligibleCores s f).isEmpty) s = some f)
    (hcore : longestWaiting s (eligibleCores s f) = some c) :
    exec .classSHandover s = .next (handOver (refreshVoid f s).1 c (refreshVoid f s).2) := by
  show execClassSHandover s = _
  unfold execClassSHandover
  rw [hpick]
  dsimp only
  rw [hcore]

theorem coreHandover : Sys2Proof.Claims.CoreHandover := by
  intro s f c ht hpick hcore f'
  have hc : c < 8 := List.mem_range.1 (List.mem_filter.1 (longestWaiting_mem hcore)).1
  have hrest := refreshVoid_rest f s
  have hsame : f' = { f with void := f'.void } := refreshVoid_firing f s
  have hslot : f'.slot = f.slot := (congrArg Firing.slot hsame :)
  have hrung : f'.rung = f.rung := (congrArg Firing.rung hsame :)
  have hid : sameFiring f f' = true := by simp only [sameFiring, hslot, hrung, beq_self_eq_true, Bool.and_self]
  have hmem : f ∈ (refreshVoid f s).2.firings := (congrArg State.firings hrest :) ▸ (pickFiring_mem hpick).1
  obtain ⟨hstate, hnode, hnodeState, hholds, hout, hin⟩ := handOver_says ((Keeps.refreshVoid f s).tidy ht) hc hmem hid
  rw [handedWords_refreshVoid] at hholds hout
  have hsmem : (refreshVoid f s).2.mem = s.mem := (congrArg State.mem hrest :)
  refine ⟨_, exec_classSHandover hpick hcore, hstate, hslot ▸ hnode, hslot ▸ hnodeState, hholds,
    fun a ha => (hout a ha).trans (congrArg (readByte · a) hsmem), onCore f' c, hin, ?_, rfl, rfl⟩
  simp only [sameFiring, onCore, hslot, hrung, beq_self_eq_true, Bool.and_self]

/-- Settles O43: the firing that is picked stands in the list (`pickFiring_mem`), its void bits are refreshed, which no other part of
the state sees but its ring pairs, and it takes its place on the engine or in the mailbox. -/
theorem handovers : Obligations.Handovers := ⟨engineDispatch, coreHandover⟩

end Sys2Proof.Machine
end

section
/-! The supervisor's resets (R228, R384 to R389) and its commands (R390). -/

namespace Sys2Proof.Machine
open Sys2Proof Sys2Proof.Claims

/-! ## The firings of a holder go back to READY (R197, R228) -/

/-- No firing of the holder is but READY. -/
def NoneHeld (holder : Nat) (s : State) : Prop := ∀ f ∈ s.firings, f.holder = holder → f.state = 2

theorem NoneHeld.of_firings {holder : Nat} {s t : State} (h : NoneHeld holder s) (he : t.firings = s.firings) : NoneHeld holder t :=
  fun f hf => h f (he ▸ hf)

/-- A reservation of a token or a return block makes no firing. -/
theorem firings_reserves (ins : List (Nat × Token)) (outs : List (Nat × Nat × Bool)) (s : State) :
    (forList outs (fun x => reserveOut x.1 x.2) (forList ins (fun x => reserveIn x.1 x.2) s)).firings = s.firings := by
  have hout : ∀ (x : Nat × Nat × Bool) (t : State), (reserveOut x.1 x.2 t).firings = t.firings := fun x t => by
    unfold reserveOut
    dsimp only
    split
    · split
      · rfl
      · rfl
    · rfl
  exact (forList_keep (fun t => t.firings = _) outs _ (fun x _ t ht => (hout x t).trans ht) _ rfl).trans
    (forList_keep (fun t => t.firings = s.firings) ins (fun x => reserveIn x.1 x.2) (fun _ _ _ ht => ht) s rfl)

theorem NoneHeld.makeReady {holder : Nat} {s : State} (h : NoneHeld holder s) (slot index : Nat) (toks : List Token)
    (creds : List (Nat × Bool)) (ops : List Word) : NoneHeld holder (makeReady slot index toks creds ops s) := by
  intro f hf hh
  have hres := firings_reserves ((hdrIns (s.node slot).hdr).zip toks) ((hdrOuts (s.node slot).hdr).zip creds) s
  unfold Machine.makeReady at hf
  rw [State.wr_firings] at hf
  rcases List.mem_append.1 hf with hold | hnew
  · refine h f ?_ hh
    rw [← hres]
    split at hold
    · exact hold
    · exact hold
  · rw [List.mem_singleton.1 hnew]

theorem NoneHeld.readyScan {holder : Nat} {s : State} (h : NoneHeld holder s) : NoneHeld holder (readyScan s) := by
  refine forList_keep (NoneHeld holder) _ _ (fun slot _ t ht => ?_) s h
  rcases tryReady_cases slot t with hk | ⟨-, index, toks, creds, ops, hk⟩ <;> rw [hk]
  · exact ht
  · exact ht.makeReady slot index toks creds ops

theorem firings_rerunFiring (f : Firing) (s : State) :
    (rerunFiring f s).firings = { f with state := 2, holder := 0xFF, done := false, order := 0, ops := f.ops.take 1 } ::
      s.firings.filter fun g => !sameFiring g f := by
  unfold rerunFiring
  dsimp only
  split
  · rfl
  · rfl

/-- Once all that a holder has not READY run again, it holds none. -/
theorem noneHeld_rerun {holder : Nat} (l : List Firing) {s : State}
    (h : ∀ f ∈ s.firings, f.holder = holder → f.state = 2 ∨ f ∈ l) : NoneHeld holder (forList l rerunFiring s) := by
  induction l generalizing s with
  | nil => exact fun f hf hh => (h f hf hh).resolve_right List.not_mem_nil
  | cons f l ih =>
    refine ih (s := rerunFiring f s) fun g hg hh => ?_
    rw [firings_rerunFiring] at hg
    rcases List.mem_cons.1 hg with rfl | hg
    · exact .inl rfl
    · obtain ⟨hold, hne⟩ := List.mem_filter.1 hg
      refine (h g hold hh).imp_right fun hm => (List.mem_cons.1 hm).resolve_left ?_
      rintro rfl
      rw [sameFiring_self] at hne
      exact absurd hne (by decide)

theorem noneHeld_rerunHeld {holder : Nat} (s : State) {l : List Firing}
    (hl : ∀ f, f ∈ s.firings.filter (fun f => f.holder == holder && f.state != 2) → f ∈ l) :
    NoneHeld holder (forList l rerunFiring s) := by
  refine noneHeld_rerun l fun f hf hh => ?_
  by_cases hst : f.state = 2
  · exact .inl hst
  · exact .inr (hl f (List.mem_filter.2 ⟨hf, by simp [hh, hst]⟩))

theorem Keeps.rerunFiring (f : Firing) (s : State) : Keeps PlainReg besideSluice s (rerunFiring f s) := by
  have hput := Keeps.firings (regs := PlainReg) ({ f with state := 2, holder := 0xFF, done := false, order := 0, ops := f.ops.take 1 } ::
    s.firings.filter fun g => !sameFiring g f) s.fireSeq s
  have hne : ∀ q, PlainReg q → q.key ≠ (Obj.nodeState f.slot).key ∧ q.key ≠ (Obj.nodeReruns f.slot).key := fun q hq => by
    unfold PlainReg at hq
    simp only [Obj.nodeState, Obj.nodeReruns]
    omega
  exact (hput.trans (Keeps.ite (Keeps.setReg _ 2 fun q hq => (hne q hq).1) (Keeps.refl _))).trans
    (Keeps.setReg _ _ fun q hq => (hne q hq).2)

theorem Keeps.reruns (l : List Firing) (s : State) :
    Keeps PlainReg besideSluice s (Machine.forList l Machine.rerunFiring s) :=
  Keeps.forList l Machine.rerunFiring (fun f _ t => Keeps.rerunFiring f t) s

theorem Keeps.plainScan (s : State) : Keeps PlainReg besideSluice s (Machine.readyScan s) :=
  (Keeps.readyScan s).weaken id fun _ => PlainReg.offScan

/-! ## The reset of an engine (R196, R197) -/

theorem offLog_obj {i k d : Nat} (hi : i ≠ 0x3A00) (hk : k < 256) : OffLog ⟨i * 256 + k, d⟩ := by
  unfold OffLog
  simp only
  omega

theorem offLog_supActions : OffLog Obj.supActions := by simp [OffLog, Obj.supActions]
theorem plainReg_supActions : PlainReg Obj.supActions := by simp [PlainReg, Obj.supActions]
theorem offLog_asResets : OffLog Obj.asResets := by simp [OffLog, Obj.asResets]

/-- The count of an engine's resets. -/
def engineResets : Engine → Reg
  | .cx k => Obj.cxResets k.val
  | .asrc => Obj.asResets

/-- The reset of an engine counts and is raised; a crystallizer is idle. -/
def noteEngineReset (e : Engine) (by' : Nat) (s : State) : State :=
  match e with
  | .cx k => raise 0x5004 k.val by' 0 ((s.inc (Obj.cxResets k.val)).wr (Obj.cxState k.val) 0)
  | .asrc => raise 0x5015 0x20 by' 0 (s.inc Obj.asResets)

theorem noteEngineReset_only (e : Engine) (by' : Nat) (s : State) : FaultOnly s (noteEngineReset e by' s) := by
  cases e with
  | cx k => exact ((FaultOnly.inc s _).trans (FaultOnly.wr _ _ _)).trans (FaultOnly.raise _ _ _ _ _)
  | asrc => exact (FaultOnly.inc s _).trans (FaultOnly.raise _ _ _ _ _)

theorem noteEngineReset_says (e : Engine) (by' : Nat) {s : State} (ht : s.tidy = true) :
    (noteEngineReset e by' s).tidy = true ∧
      (noteEngineReset e by' s).rd (engineResets e) = min (s.rd (engineResets e) + 1) 0xFFFFFFFF ∧
      (noteEngineReset e by' s).rd Obj.supActions = s.rd Obj.supActions := by
  cases e with
  | cx k =>
    have hcount := tidy_inc (Obj.cxResets k.val) ht
    have hoff : OffLog (Obj.cxResets k.val) := offLog_obj (by omega) (by decide)
    refine ⟨tidy_raise _ _ _ _ (tidy_wr _ _ hcount), ?_, ?_⟩
    · exact (rd_raise hoff _ _ _ _ _).trans ((State.rd_wr_ne _ _ (by simp [Obj.cxResets, Obj.cxState])).trans
        (rd_inc_self _ ht))
    · refine (rd_raise offLog_supActions _ _ _ _ _).trans ((State.rd_wr_ne _ _ ?_).trans (State.rd_wr_ne _ _ ?_)) <;>
        · simp only [Obj.supActions, Obj.cxResets, Obj.cxState]
          omega
  | asrc =>
    exact ⟨tidy_raise _ _ _ _ (tidy_inc _ ht), (rd_raise offLog_asResets _ _ _ _ _).trans (rd_inc_self _ ht),
      (rd_raise offLog_supActions _ _ _ _ _).trans (State.rd_wr_ne _ _ (by decide))⟩

theorem cxState_noteEngineReset (k : Fin 16) (by' : Nat) {s : State} (ht : s.tidy = true) :
    (noteEngineReset (.cx k) by' s).rd (Obj.cxState k.val) = 0 := by
  have hoff : OffLog (Obj.cxState k.val) := offLog_obj (by omega) (by decide)
  exact (rd_raise hoff _ _ _ _ _).trans (State.rd_wr_self _ _ ((tidy_iff _).1 (tidy_inc _ ht)).od)

/-- The firings that a holder has and that are not READY. -/
def heldFirings (holder : Nat) (s : State) : List Firing := s.firings.filter fun f => f.holder == holder && f.state != 2

theorem resetEngine_eq (e : Engine) (by' : Nat) (s : State) : resetEngine e by' s =
    readyScan (noteEngineReset e by' (forList (heldFirings (holderOf e) (supAct s)).reverse rerunFiring (supAct s))) := by
  cases e <;> rfl

theorem plainReg_engineResets (e : Engine) : PlainReg (engineResets e) := by
  cases e with
  | cx k =>
    simp only [PlainReg, engineResets, Obj.cxResets]
    omega
  | asrc =>
    unfold PlainReg
    decide

/-- The reset of an engine is an action of the supervisor; its firings run again. -/
theorem resetEngine_says (e : Engine) (by' : Nat) {s t : State} (ht : s.tidy = true) (he : resetEngine e by' s = t) :
    t.tidy = true ∧ NoneHeld (holderOf e) t ∧ t.mem = s.mem ∧ t.rd Obj.supActions = min (s.rd Obj.supActions + 1) 0xFFFFFFFF ∧
      t.rd (engineResets e) = min (s.rd (engineResets e) + 1) 0xFFFFFFFF ∧
      ∀ k, e = .cx k → t.rd (Obj.cxState k.val) = 0 := by
  have hact := tidy_inc Obj.supActions ht
  have hruns := Keeps.reruns (heldFirings (holderOf e) (supAct s)).reverse (supAct s)
  have hnone : NoneHeld (holderOf e) (forList (heldFirings (holderOf e) (supAct s)).reverse rerunFiring (supAct s)) :=
    noneHeld_rerunHeld _ fun f hf => List.mem_reverse.2 hf
  have hne : (engineResets e).key ≠ Obj.supActions.key := by
    cases e with
    | cx k =>
      simp only [engineResets, Obj.cxResets, Obj.supActions]
      omega
    | asrc => decide
  rw [resetEngine_eq] at he
  generalize forList (heldFirings (holderOf e) (supAct s)).reverse rerunFiring (supAct s) = u at hruns hnone he
  have hu := hruns.tidy hact
  obtain ⟨hntidy, hcount, hacts⟩ := noteEngineReset_says e by' hu
  have honly := noteEngineReset_only e by' u
  have hscan := Keeps.plainScan (noteEngineReset e by' u)
  rw [he] at hscan
  refine ⟨hscan.tidy hntidy, he ▸ (hnone.of_firings honly.firings).readyScan, ?_, ?_, ?_, ?_⟩
  · exact (congrArg State.mem hscan.view :).trans (honly.mem.trans (congrArg State.mem hruns.view :))
  · rw [hscan.rd _ plainReg_supActions, hacts, hruns.rd _ plainReg_supActions]
    exact rd_inc_self _ ht
  · rw [hscan.rd _ (plainReg_engineResets e), hcount, hruns.rd _ (plainReg_engineResets e), supAct, State.inc, State.rd_wr_ne _ _ hne]
  · rintro k rfl
    have hplain : PlainReg (Obj.cxState k.val) := by
      simp only [PlainReg, Obj.cxState]
      omega
    rw [hscan.rd _ hplain]
    exact cxState_noteEngineReset k by' hu

/-! ## The revocation of a pan group (R260) -/

/-- A register outside the objects of the pan groups. -/
def OffPans (q : Reg) : Prop := q.key / 256 < 0x3410 ∨ 0x3418 ≤ q.key / 256

/-- From a state in canonical form, `t` has the memory and the firings of `s`, the registers of core `c`, and those outside the
pan groups. -/
def Revokes (c : Nat) (s t : State) : Prop := s.tidy = true → t.tidy = true ∧ (t.mem = s.mem ∧ t.firings = s.firings) ∧
  (t.core c).regs = (s.core c).regs ∧ ∀ q, OffPans q → t.rd q = s.rd q

section
variable {c : Nat}

theorem Revokes.refl (s : State) : Revokes c s s := fun h => ⟨h, ⟨rfl, rfl⟩, rfl, fun _ _ => rfl⟩

theorem Revokes.trans {s t u : State} (h : Revokes c s t) (k : Revokes c t u) : Revokes c s u := fun hs => by
  obtain ⟨ht, ⟨hm, hf⟩, hr, hq⟩ := h hs
  obtain ⟨hu, ⟨hm', hf'⟩, hr', hq'⟩ := k ht
  exact ⟨hu, ⟨hm'.trans hm, hf'.trans hf⟩, hr'.trans hr, fun q h => (hq' q h).trans (hq q h)⟩

theorem Revokes.wr {g k : Nat} (hg : g < 8) (hk : k < 256) (d v : Nat) (s : State) :
    Revokes c s (s.wr ⟨(0x3410 + g) * 256 + k, d⟩ v) := fun h => by
  refine ⟨tidy_wr _ _ h, ⟨rfl, rfl⟩, rfl, fun q hq => State.rd_wr_ne _ _ ?_⟩
  unfold OffPans at hq
  simp only
  omega

theorem Revokes.setPan (g : Nat) (x : PanGroup) (s : State) : Revokes c s (s.setPan g x) := fun h =>
  ⟨tidy_setPan g x h, ⟨rfl, rfl⟩, rfl, fun _ _ => rfl⟩

theorem Revokes.setRevoked (d : Nat) (m : Byte) (s : State) : Revokes c s (s.setCore d { s.core d with revoked := m }) := fun h => by
  refine ⟨tidy_setCore d _ h, ⟨rfl, rfl⟩, ?_, fun _ _ => rfl⟩
  by_cases hd : c = d
  · rw [hd, State.core_setCore_self d _ ((tidy_iff s).1 h).cores]
  · rw [State.core_setCore_ne s _ hd]

theorem Revokes.ite {s a b : State} {p : Prop} [Decidable p] (ha : Revokes c s a) (hb : Revokes c s b) :
    Revokes c s (if p then a else b) := by
  split
  · exact ha
  · exact hb

theorem Revokes.ownerTaken (g owner : Nat) (s : State) : Revokes c s (ownerTaken g owner s) :=
  (Revokes.setPan g _ s).trans (Revokes.ite (Revokes.setRevoked _ _ _) (Revokes.refl _))

/-- The core that owned a group meets REASON 0x24 from now on. -/
def markRevoked (g : Nat) (s : State) : State :=
  let old := (s.pan g).code.toNat
  if 0x10 ≤ old ∧ old < 0x18 then
    s.setCore (old - 0x10) { s.core (old - 0x10) with revoked := (s.core (old - 0x10)).revoked ||| BitVec.ofNat 8 (2 ^ g) }
  else s

theorem Revokes.markRevoked (g : Nat) (s : State) : Revokes c s (markRevoked g s) :=
  Revokes.ite (Revokes.setRevoked _ _ _) (Revokes.refl _)

/-- The group gets its new owner at the end of the handover. -/
def handoverTo (g owner : Nat) (clear : Bool) (x : PanGroup) (s : State) : State := s.setPan g { x with
  newOwner := BitVec.ofNat 8 owner, revoked := true, thenClear := x.thenClear || (clear && !x.compatNow) }

theorem revokeGroup_eq (g owner : Nat) (clear : Bool) (s : State) : revokeGroup g owner clear s =
    let t := markRevoked g (s.wr (Obj.pgOwner g) owner)
    if s.rd (Obj.pgState g) = 0 ∨ s.rd (Obj.pgState g) = 4 then (ownerTaken g owner t).inc (Obj.pgHandovers g)
    else (handoverTo g owner clear (s.pan g) t).wr (Obj.pgState g) (if s.rd (Obj.pgState g) = 3 then 3 else 2) := rfl

theorem Revokes.revokeGroup {g : Nat} (hg : g < 8) (owner : Nat) (clear : Bool) (s : State) :
    Revokes c s (revokeGroup g owner clear s) := by
  have hmark := (Revokes.wr (c := c) hg (k := 1) (by decide) 0 owner s).trans (Revokes.markRevoked g _)
  rw [revokeGroup_eq]
  exact Revokes.ite ((hmark.trans (Revokes.ownerTaken g owner _)).trans (Revokes.wr hg (by decide) _ _ _))
    ((hmark.trans (Revokes.setPan g _ _)).trans (Revokes.wr hg (by decide) _ _ _))

theorem Revokes.revokeOwned (d : Nat) (s : State) : Revokes c s (revokeOwned d s) :=
  forUpto_keep (Revokes c s) 8 _ (fun _ hg _ ht => ht.trans (Revokes.ite (Revokes.revokeGroup hg _ _ _) (Revokes.refl _))) s
    (Revokes.refl s)

end

/-! ## The reset of a core by the supervisor (R237, R386) -/

theorem coreReg_offPans {c k d : Nat} (hk : k < 256) : OffPans ⟨(0x3A40 + c) * 256 + k, d⟩ := .inr (by
  simp only
  omega)

/-- A register that the supervisor's reset of a core leaves. -/
def OffReset (q : Reg) : Prop := PlainReg q ∧ OffLog q ∧ OffPans q ∧ q.key ≠ Obj.supActions.key ∧ q.key / 256 < 0x3A40

/-- The supervisor has reset core `c`, which starts again at vector 0. -/
structure CoreReset (c : Nat) (s t : State) : Prop where
  tidy : t.tidy = true
  state : t.rd (Obj.coreState c) = 1
  regs : (t.core c).regs = { ({} : Regs) with pc := (iWord s c 0x20000).truncate 20 }
  resets : t.rd (Obj.coreResets c) = min (s.rd (Obj.coreResets c) + 1) 0xFFFFFFFF
  actions : t.rd Obj.supActions = min (s.rd Obj.supActions + 1) 0xFFFFFFFF
  mem : t.mem = s.mem
  held : NoneHeld c t
  rd : ∀ q, OffReset q → t.rd q = s.rd q

/-- The core is fresh but for its traps and revoked groups. -/
def freshCore (c : Nat) (s : State) : State :=
  s.setCore c { ({} : Core) with
    revoked := (s.core c).revoked, lastTrap := (s.core c).lastTrap, everTrap := (s.core c).everTrap }

theorem resetCoreRegs_says {c : Nat} {s t : State} (ht : s.tidy = true) (he : resetCoreRegs c s = t) :
    t.tidy = true ∧ (t.core c).regs = {} ∧ t.mem = s.mem ∧ NoneHeld c t ∧ ∀ q, PlainReg q → t.rd q = s.rd q := by
  have hfresh : (freshCore c s).tidy = true := tidy_setCore c _ ht
  have hself : ((freshCore c s).core c).regs = {} := congrArg Core.regs (State.core_setCore_self c _ ((tidy_iff s).1 ht).cores)
  have hruns := Keeps.reruns (heldFirings c (freshCore c s)) (freshCore c s)
  have hnone : NoneHeld c (forList (heldFirings c (freshCore c s)) rerunFiring (freshCore c s)) := noneHeld_rerunHeld _ fun f hf => hf
  have hscan := Keeps.plainScan (forList (heldFirings c (freshCore c s)) rerunFiring (freshCore c s))
  have heq : readyScan (forList (heldFirings c (freshCore c s)) rerunFiring (freshCore c s)) = t := he
  have hall := hruns.trans hscan
  rw [heq] at hall
  refine ⟨hall.tidy hfresh, ?_, (congrArg State.mem hall.view :), heq ▸ hnone.readyScan, fun q hq => hall.rd q hq⟩
  exact ((congrArg (fun x : State => (x.core c).regs) hall.view :) : (t.core c).regs = ((freshCore c s).core c).regs).trans hself

/-- A reset of a core counts and is raised. -/
def noteCoreReset (c pc : Nat) (s : State) : State :=
  raise 0x5022 c 0 pc ((s.setBit (Obj.coreFaults c) 1).inc (Obj.coreResets c))

theorem noteCoreReset_says {c : Nat} (pc : Nat) {s t : State} (ht : s.tidy = true) (he : noteCoreReset c pc s = t) :
    t.tidy = true ∧ (t.core c).regs = (s.core c).regs ∧ FaultOnly s t ∧
      t.rd (Obj.coreResets c) = min (s.rd (Obj.coreResets c) + 1) 0xFFFFFFFF ∧
      ∀ q, OffLog q → q.key / 256 < 0x3A40 → t.rd q = s.rd q := by
  subst he
  have hbit := tidy_setBit (Obj.coreFaults c) 1 ht
  have hcore : CoreIs c (s.core c) (noteCoreReset c pc s) := CoreIs.raise _ _ _ _ (((coreIs_self ht).wr _ _).wr _ _)
  refine ⟨hcore.1, (congrArg Core.regs hcore.2 :), ((FaultOnly.setBit s _ _).trans (FaultOnly.inc _ _)).trans (FaultOnly.raise _ _ _ _ _),
    ?_, fun q hq hlt => ?_⟩
  · refine (rd_raise (offLog_obj (by omega) (by decide)) _ _ _ _ _).trans ((rd_inc_self _ hbit).trans ?_)
    rw [State.setBit, State.rd_wr_ne _ _ (by simp [Obj.coreResets, Obj.coreFaults])]
  · refine (rd_raise hq _ _ _ _ _).trans ((State.rd_wr_ne _ _ ?_).trans (State.rd_wr_ne _ _ ?_)) <;>
      · simp only [Obj.coreResets, Obj.coreFaults]
        omega

theorem releaseCore_says {c : Nat} (hc : 2 ≤ c) {s t : State} (ht : s.tidy = true) (he : releaseCore c s = t) :
    t.tidy = true ∧ t.rd (Obj.coreState c) = 1 ∧
      (t.core c).regs = { (s.core c).regs with pc := (iWord s c 0x20000).truncate 20 } ∧ t.mem = s.mem ∧ t.firings = s.firings ∧
      ∀ q, q.key ≠ (Obj.coreState c).key → t.rd q = s.rd q := by
  unfold releaseCore at he
  simp only [if_neg (show ¬ c < 2 by omega)] at he
  subst he
  have hset := tidy_setCore c { s.core c with
    vbase := 0x20000, regs := { (s.core c).regs with pc := (iWord s c 0x20000).truncate 20 } } ht
  refine ⟨tidy_wr _ _ hset, State.rd_wr_self _ _ ((tidy_iff _).1 hset).od, ?_, rfl, rfl, fun q hq => State.rd_wr_ne _ _ hq⟩
  exact congrArg Core.regs (State.core_setCore_self c _ ((tidy_iff s).1 ht).cores)

theorem supResetCore_eq {c : Nat} (hc : 2 ≤ c) (s : State) : supResetCore c s =
    releaseCore c (noteCoreReset c (s.core c).regs.pc.toNat (revokeOwned c (resetCoreRegs c (supAct s)))) := by
  unfold supResetCore noteCoreReset
  simp only [if_neg (show ¬ c < 2 by omega)]

theorem supResetCore_says {c : Nat} (hc : 2 ≤ c) (hc8 : c < 8) {s : State} (ht : s.tidy = true) : CoreReset c s (supResetCore c s) := by
  rw [supResetCore_eq hc]
  generalize ha : resetCoreRegs c (supAct s) = a
  generalize hb : revokeOwned c a = b
  generalize hd : noteCoreReset c (s.core c).regs.pc.toNat b = d
  obtain ⟨hat, har, ham, hah, haq⟩ := resetCoreRegs_says (tidy_inc Obj.supActions ht) ha
  obtain ⟨hbt, ⟨hbm, hbf⟩, hbr, hbq⟩ := hb ▸ Revokes.revokeOwned (c := c) c a hat
  obtain ⟨hdt, hdr, hdo, hdc, hdq⟩ := noteCoreReset_says (s.core c).regs.pc.toNat hbt hd
  obtain ⟨htt, htst, htr, htm, htf, htq⟩ := releaseCore_says hc hdt rfl
  have hmem : d.mem = s.mem := hdo.mem.trans (hbm.trans ham)
  have hne : ∀ q : Reg, q.key / 256 < 0x3A40 → q.key ≠ (Obj.coreState c).key := fun q hq => by
    simp only [Obj.coreState]
    omega
  have hresets : PlainReg (Obj.coreResets c) := by
    simp only [PlainReg, Obj.coreResets]
    omega
  refine ⟨htt, htst, ?_, ?_, ?_, htm.trans hmem, ?_, fun q hq => ?_⟩
  · rw [htr, hdr, hbr, har, iWord_of_mem hmem]
  · rw [htq _ (by simp [Obj.coreResets, Obj.coreState]), hdc, hbq (Obj.coreResets c) (coreReg_offPans (by decide)), haq _ hresets]
    exact congrArg (fun n => min (n + 1) 0xFFFFFFFF) (State.rd_wr_ne _ _ (by
      simp only [Obj.coreResets, Obj.supActions]
      omega))
  · rw [htq _ (hne _ (by decide)), hdq _ offLog_supActions (by decide), hbq _ (.inr (by decide)), haq _ plainReg_supActions]
    exact rd_inc_self _ ht
  · exact ((hah.of_firings hbf).of_firings hdo.firings).of_firings htf
  · obtain ⟨hplain, hlog, hpans, hact, hlt⟩ := hq
    rw [htq q (hne q hlt), hdq q hlog hlt, hbq q hpans, haq q hplain]
    exact State.rd_wr_ne _ _ hact

/-! ## Timeouts (R228, R384 to R386) -/

theorem exec_supGraceExpiry {c : Fin 8} {s : State} (ha : awake s = true) (hg : (s.core c.val).grace = true) :
    exec (.supGraceExpiry c) s = .next
      (if (s.core c.val).node.isNone ∧ s.rd (Obj.coreState c.val) = 2 then s.setCore c.val { s.core c.val with grace := false }
      else supResetCore c.val (s.setCore c.val { s.core c.val with grace := false })) := by
  change execSupGraceExpiry c s = _
  unfold execSupGraceExpiry
  simp only [ha, hg, Bool.not_true, Bool.or_self, Bool.false_eq_true, if_false]
  rfl

theorem exec_supEngineLimitExpiry {e : Engine} {s : State} (hp : (s.rd Obj.supPolicy).testBit 2 = true)
    (hr : (runningOn s (holderOf e)).isSome = true) : exec (.supEngineLimitExpiry e) s = .next (resetEngine e 0 s) := by
  change execSupEngineLimitExpiry e s = _
  unfold execSupEngineLimitExpiry
  rw [hp, hr]
  rfl

/-- A firing is held too long: it is marked, counted and raised (R228). -/
def noteOverdue (f : Firing) (slot : Nat) (s : State) : State :=
  raise 0x6005 0 slot 0 (((putFiring { f with overdue := true } s).inc Obj.schHoldOver).setBit Obj.schFaults 4)

theorem exec_schHoldLimitExpiry {slot : Fin 512} {s : State} {f : Firing} (ha : awake s = true)
    (hf : s.firings.find? (fun f => f.slot == slot.val && f.rung == 0 && f.state == 4 && decide (f.holder < 8) && !f.overdue) = some f) :
    exec (.schHoldLimitExpiry slot) s =
      let u := noteOverdue f slot.val s
      .next (if f.holder < 2 || !(u.rd Obj.supPolicy).testBit 1 then u
        else if u.rd (Obj.coreState f.holder) = 4 then supResetCore f.holder u
        else u.setCore f.holder { u.core f.holder with notice := true, grace := true }) := by
  change execSchHoldLimitExpiry slot s = _
  unfold execSchHoldLimitExpiry
  simp only [ha, Bool.and_true, hf]
  rfl

theorem noteOverdue_says (f : Firing) (slot : Nat) {s u : State} (ht : s.tidy = true) (he : noteOverdue f slot s = u) :
    u.tidy = true ∧ u.mem = s.mem ∧ (∀ c, (u.core c).regs = (s.core c).regs) ∧
      u.rd Obj.schHoldOver = min (s.rd Obj.schHoldOver + 1) 0xFFFFFFFF ∧ (u.rd Obj.schFaults).testBit 4 = true ∧
      ∀ q, OffLog q → q.key / 256 ≠ 0x3000 → u.rd q = s.rd q := by
  subst he
  have hput : (putFiring { f with overdue := true } s).tidy = true := ht
  have hcount := tidy_inc Obj.schHoldOver hput
  have hbit := tidy_setBit Obj.schFaults 4 hcount
  have hcore : ∀ c, CoreIs c (s.core c) (noteOverdue f slot s) := fun c =>
    CoreIs.raise _ _ _ _ ((((coreIs_self ht).of_cores hput rfl).wr _ _).wr _ _)
  refine ⟨(hcore 0).1, ?_, fun c => (congrArg Core.regs (hcore c).2 :), ?_, ?_, fun q hq hne => ?_⟩
  · exact (FaultOnly.raise _ _ _ _ _).mem
  · refine (rd_raise (by simp [OffLog, Obj.schHoldOver]) _ _ _ _ _).trans ((State.rd_wr_ne _ _ (by decide)).trans ?_)
    exact rd_inc_self _ hput
  · refine (congrArg (fun n => Nat.testBit n 4) (rd_raise offLog_schFaults _ _ _ _ _)).trans ?_
    rw [State.setBit, State.rd_wr_self _ _ ((tidy_iff _).1 hcount).od, Nat.testBit_or, Nat.testBit_two_pow_self, Bool.or_true]
  · refine (rd_raise hq _ _ _ _ _).trans ((State.rd_wr_ne _ _ ?_).trans (State.rd_wr_ne _ _ ?_)) <;>
      · simp only [Obj.schFaults, Obj.schHoldOver]
        omega

theorem offReset_sch {k d : Nat} (hk : k < 256) : OffReset ⟨0x3000 * 256 + k, d⟩ := by
  simp only [OffReset, PlainReg, OffLog, OffPans, Obj.supActions]
  omega

theorem holdLimit_says (slot : Fin 512) {s : State} {f : Firing} (ht : s.tidy = true) (ha : awake s = true)
    (hf : s.firings.find? (fun f => f.slot == slot.val && f.rung == 0 && f.state == 4 && decide (f.holder < 8) && !f.overdue) = some f) :
    Does (.schHoldLimitExpiry slot) s fun t =>
      t.rd Obj.schHoldOver = min (s.rd Obj.schHoldOver + 1) 0xFFFFFFFF ∧ (t.rd Obj.schFaults).testBit 4 = true ∧ t.mem = s.mem ∧
      (2 ≤ f.holder → (s.rd Obj.supPolicy).testBit 1 = true → s.rd (Obj.coreState f.holder) ≠ 4 →
        (t.core f.holder).notice = true ∧ (t.core f.holder).grace = true ∧ (t.core f.holder).regs = (s.core f.holder).regs) := by
  have hholder : f.holder < 8 := by
    have hp := List.find?_some hf
    simp only [Bool.and_eq_true, decide_eq_true_eq] at hp
    exact hp.1.2
  have hexec := exec_schHoldLimitExpiry ha hf
  generalize hu : noteOverdue f slot.val s = u at hexec
  obtain ⟨hut, hum, hur, huover, hufault, huq⟩ := noteOverdue_says f slot.val ht hu
  have hpolicy : u.rd Obj.supPolicy = s.rd Obj.supPolicy := huq _ (by simp [OffLog, Obj.supPolicy]) (by decide)
  have hstate : u.rd (Obj.coreState f.holder) = s.rd (Obj.coreState f.holder) := huq _ (offLog_obj (by omega) (by decide)) (by
    simp only [Obj.coreState]
    omega)
  simp only [hpolicy, hstate] at hexec
  refine ⟨_, hexec, ?_⟩
  by_cases hact : (decide (f.holder < 2) || !(s.rd Obj.supPolicy).testBit 1) = true
  · rw [if_pos hact]
    refine ⟨huover, hufault, hum, fun h2 hb => ?_⟩
    simp only [hb, Bool.not_true, Bool.or_false, decide_eq_true_eq] at hact
    omega
  · have h2 : 2 ≤ f.holder := by
      simp only [Bool.or_eq_true, decide_eq_true_eq, not_or] at hact
      omega
    rw [if_neg hact]
    by_cases hst : s.rd (Obj.coreState f.holder) = 4
    · rw [if_pos hst]
      have hreset := supResetCore_says h2 hholder hut
      refine ⟨(hreset.rd _ (offReset_sch (by decide))).trans huover, ?_, hreset.mem.trans hum, fun _ _ hne => absurd hst hne⟩
      rw [hreset.rd Obj.schFaults (offReset_sch (by decide))]
      exact hufault
    · rw [if_neg hst]
      have hself := State.core_setCore_self f.holder { u.core f.holder with notice := true, grace := true } ((tidy_iff u).1 hut).cores
      refine ⟨huover, hufault, hum, fun _ _ _ => ?_⟩
      rw [hself]
      exact ⟨rfl, rfl, hur f.holder⟩

theorem supervisorCauses : SupervisorCauses := by
  refine ⟨fun slot s f ht ha hf => holdLimit_says slot ht ha hf, fun c s ht ha hg => ⟨fun hn hst => ?_, fun hc hn => ?_⟩,
    fun e s ht hp hr => ?_, fun s ht hp hr => ?_⟩
  · rw [exec_supGraceExpiry ha hg, if_pos ⟨by rw [hn]; rfl, hst⟩]
  · have hset := tidy_setCore c.val { s.core c.val with grace := false } ht
    have hreset := supResetCore_says hc c.isLt hset
    refine ⟨_, exec_supGraceExpiry ha hg, ?_⟩
    rw [if_neg fun h => hn (Option.isNone_iff_eq_none.1 h.1)]
    refine ⟨hreset.state, ?_, hreset.resets, hreset.actions, hreset.mem, hreset.held⟩
    rw [hreset.regs, iWord_of_mem (State.setCore_mem (s := s) _ _)]
  · obtain ⟨-, hheld, hmem, hacts, hcount, hidle⟩ := resetEngine_says (.cx e) 0 ht rfl
    exact ⟨_, exec_supEngineLimitExpiry (e := .cx e) hp hr, hidle e rfl, hcount, hacts, hheld, hmem⟩
  · obtain ⟨-, hheld, hmem, -, hcount, -⟩ := resetEngine_says .asrc 0 ht rfl
    exact ⟨_, exec_supEngineLimitExpiry (e := .asrc) hp hr, hcount, hheld, hmem⟩

/-! ## A group that is ON is revoked (R260) -/

theorem pan_markRevoked (g k : Nat) (s : State) : (markRevoked g s).pan k = s.pan k := by
  unfold markRevoked
  dsimp only
  split
  · rfl
  · rfl

theorem rd_markRevoked (g : Nat) (s : State) (q : Reg) : (markRevoked g s).rd q = s.rd q := by
  unfold markRevoked
  dsimp only
  split
  · rfl
  · rfl

theorem revokeGroup_says {g : Nat} (hg : g < 8) {owner : Nat} {clear : Bool} {s t : State} (ht : s.tidy = true)
    (hst : s.rd (Obj.pgState g) = 1) (he : revokeGroup g owner clear s = t) :
    (t.tidy = true ∧ t.mem = s.mem ∧ t.rd Obj.supActions = s.rd Obj.supActions) ∧
      t.rd (Obj.pgOwner g) = owner ∧ t.rd (Obj.pgState g) = 2 ∧ t.pan g = { s.pan g with
        newOwner := BitVec.ofNat 8 owner, revoked := true,
        thenClear := (s.pan g).thenClear || (clear && !(s.pan g).compatNow) } := by
  obtain ⟨htt, ⟨hmem, -⟩, -, hrd⟩ := Revokes.revokeGroup (c := 0) hg owner clear s ht
  rw [he] at htt hmem hrd
  refine ⟨⟨htt, hmem, hrd _ (.inr (by decide))⟩, ?_⟩
  have hmark := (Revokes.markRevoked (c := 0) g (s.wr (Obj.pgOwner g) owner) (tidy_wr _ _ ht)).1
  have hnot : ¬(s.rd (Obj.pgState g) = 0 ∨ s.rd (Obj.pgState g) = 4) := by omega
  have hnot3 : s.rd (Obj.pgState g) ≠ 3 := by omega
  rw [revokeGroup_eq] at he
  simp only [if_neg hnot, if_neg hnot3] at he
  subst he
  refine ⟨?_, ?_, ?_⟩
  · rw [State.rd_wr_ne _ _ (by simp [Obj.pgOwner, Obj.pgState]), handoverTo, State.setPan_rd, rd_markRevoked,
      State.rd_wr_self _ _ ((tidy_iff s).1 ht).od]
  · exact State.rd_wr_self _ _ ((tidy_iff _).1 (tidy_setPan g _ hmark)).od
  · rw [State.wr_pan, handoverTo, State.pan_setPan_self g _ ((tidy_iff _).1 hmark).pans]

/-! ## The abort of an idle channel (R283) -/

theorem dmaStop_says (ch status : Nat) {s t : State} (ht : s.tidy = true) (he : dmaStop ch status s = t) :
    t.tidy = true ∧ t.mem = s.mem ∧ t.rd (Obj.dmaState ch) = dmaHalted ∧ t.rd (Obj.dmaLastStatus ch) = status ∧
      ∀ q : Reg, q.key / 256 ≠ 0x3210 + ch → t.rd q = s.rd q := by
  subst he
  have hset := tidy_setDma ch {} ht
  have hstatus := tidy_wr (Obj.dmaLastStatus ch) status hset
  refine ⟨tidy_wr _ _ hstatus, rfl, State.rd_wr_self _ _ ((tidy_iff _).1 hstatus).od, ?_, fun q hq => ?_⟩
  · exact (State.rd_wr_ne _ _ (by simp [Obj.dmaLastStatus, Obj.dmaState])).trans (State.rd_wr_self _ _ ((tidy_iff _).1 hset).od)
  · refine (State.rd_wr_ne _ _ ?_).trans (State.rd_wr_ne _ _ ?_) <;>
      · simp only [Obj.dmaState, Obj.dmaLastStatus]
        omega

theorem dmaFault_says {ch : Nat} (hch : ch < 32) (k status : Nat) {s t : State} (ht : s.tidy = true) (he : dmaFault k ch status s = t) :
    t.tidy = true ∧ t.mem = s.mem ∧ (t.rd (Obj.dmaFaults ch)).testBit (k - 1) = true ∧
      ∀ q, OffLog q → q.key ≠ (Obj.dmaFaults ch).key → t.rd q = s.rd q := by
  have hoff : OffLog (Obj.dmaFaults ch) := offLog_obj (by omega) (by decide)
  subst he
  unfold dmaFault
  split
  next hbit => exact ⟨ht, rfl, hbit, fun _ _ _ => rfl⟩
  next =>
    exact ⟨tidy_raiseSticky _ _ _ _ _ _ ht, (FaultOnly.raiseSticky _ _ _ _ _ _ _).mem, testBit_raiseSticky hoff _ _ _ _ _ ht,
      fun q hq hne => rd_raiseSticky_ne hq hne _ _ _ _ _ s⟩

theorem dmaAbort_of_idle {ch : Nat} {s : State} (hst : s.rd (Obj.dmaState ch) = dmaIdle) :
    dmaAbort ch true s = pendAll 6 (dmaFault 4 ch 0x7004 (dmaStop ch 0x7004 s)) := if_pos hst

theorem dmaAbort_says {ch : Nat} (hch : ch < 32) {s t : State} (ht : s.tidy = true) (hst : s.rd (Obj.dmaState ch) = dmaIdle)
    (he : dmaAbort ch true s = t) :
    (t.tidy = true ∧ t.mem = s.mem ∧ t.rd Obj.supActions = s.rd Obj.supActions) ∧ t.rd (Obj.dmaState ch) = dmaHalted ∧
      t.rd (Obj.dmaLastStatus ch) = 0x7004 ∧ (t.rd (Obj.dmaFaults ch)).testBit 3 = true := by
  rw [dmaAbort_of_idle hst] at he
  generalize hu : dmaStop ch 0x7004 s = u at he
  generalize hv : dmaFault 4 ch 0x7004 u = v at he
  obtain ⟨hut, hum, hustate, hulast, huq⟩ := dmaStop_says ch 0x7004 ht hu
  obtain ⟨hvt, hvm, hvbit, hvq⟩ := dmaFault_says hch 4 0x7004 hut hv
  have hvreg : ∀ k, k < 14 → v.rd ⟨(0x3210 + ch) * 256 + k, 0⟩ = u.rd ⟨(0x3210 + ch) * 256 + k, 0⟩ := fun k hk => by
    refine hvq _ (offLog_obj (by omega) (by omega)) ?_
    simp only [Obj.dmaFaults]
    omega
  have hacts : v.rd Obj.supActions = s.rd Obj.supActions := by
    refine (hvq _ offLog_supActions ?_).trans (huq _ ?_) <;>
      · simp only [Obj.supActions, Obj.dmaFaults]
        omega
  subst he
  refine ⟨⟨tidy_pendAll 6 hvt, (FaultOnly.pendAll 6 v).mem.trans (hvm.trans hum), (rd_pendAll 6 v _).trans hacts⟩, ?_, ?_, ?_⟩
  · exact (rd_pendAll 6 v _).trans ((hvreg 8 (by decide)).trans hustate)
  · exact (rd_pendAll 6 v _).trans ((hvreg 13 (by decide)).trans hulast)
  · exact (congrArg (fun n => Nat.testBit n 3) (rd_pendAll 6 v _)).trans hvbit

/-! ## A lane that triggers may run is forced to SAFE (R54, R57) -/

/-- In SAFE no fault asks for SAFE again. -/
theorem laneFault_of_safe {n : Nat} (hn : n < 64) (slot : Nat) {s : State} (hst : laneSt s n = laneSafe) :
    laneFault n 8 slot s = raiseSticky (Obj.laneFaults n) 8 0x4009 n slot 0 s := by
  have hoff : OffLog (Obj.laneState n) := offLog_obj (by omega) (by decide)
  have hsafe : laneSt (raiseSticky (Obj.laneFaults n) 8 0x4009 n slot 0 s) n = laneSafe :=
    (rd_raiseSticky_ne hoff (by simp [Obj.laneState, Obj.laneFaults]) _ _ _ _ _ s).trans hst
  rw [laneFault_eq]
  exact if_neg fun h => h.2.1 hsafe

/-- The lane that a safe request sends to SAFE. -/
def safeLane (l : Lane) : Lane := { l with safePending := false, safeBy := 1, ran := false, faded := true }

theorem safeRequest_of_armed {n : Nat} (hn : n < 64) {s : State} (ht : s.tidy = true) (hst : laneSt s n = laneArmed) :
    ∃ slot, safeRequest 1 n s =
      raiseSticky (Obj.laneFaults n) 8 0x4009 n slot 0 ((s.setLane n (safeLane (s.lane n))).wr (Obj.laneState n) laneSafe) := by
  have hl := ((tidy_iff s).1 ht).lanes
  have hself := State.lane_setLane_self n { s.lane n with safePending := true, safeBy := 1 } hl
  have hset := tidy_setLane n (safeLane (s.lane n)) ht
  have hsafe : laneSt ((s.setLane n (safeLane (s.lane n))).wr (Obj.laneState n) laneSafe) n = laneSafe :=
    State.rd_wr_self _ _ ((tidy_iff _).1 hset).od
  refine ⟨slotNow n ((s.setLane n (safeLane (s.lane n))).wr (Obj.laneState n) laneSafe), ?_⟩
  rw [← laneFault_of_safe hn _ hsafe]
  unfold safeRequest enterSafe
  simp only [hst, hself, if_neg (show laneArmed ≠ laneSafe by decide), true_or, if_true, State.setLane_lane_twice n _ _ hl]
  rfl

theorem safeRequest_says {n : Nat} (hn : n < 64) {s t : State} (ht : s.tidy = true) (hst : laneSt s n = laneArmed)
    (he : safeRequest 1 n s = t) :
    (t.tidy = true ∧ t.mem = s.mem ∧ t.rd Obj.supActions = s.rd Obj.supActions) ∧ laneSt t n = laneSafe ∧
      (t.lane n).ran = false ∧ (t.rd (Obj.laneFaults n)).testBit 8 = true := by
  obtain ⟨slot, heq⟩ := safeRequest_of_armed hn ht hst
  rw [he] at heq
  have hset := tidy_setLane n (safeLane (s.lane n)) ht
  have hself : (s.setLane n (safeLane (s.lane n))).lane n = safeLane (s.lane n) :=
    State.lane_setLane_self n _ ((tidy_iff s).1 ht).lanes
  have hwr := tidy_wr (Obj.laneState n) laneSafe hset
  have hstate : OffLog (Obj.laneState n) := offLog_obj (by omega) (by decide)
  have honly := FaultOnly.raiseSticky (Obj.laneFaults n) 8 0x4009 n slot 0
    ((s.setLane n (safeLane (s.lane n))).wr (Obj.laneState n) laneSafe)
  rw [← heq] at honly
  refine ⟨⟨heq ▸ tidy_raiseSticky _ _ _ _ _ _ hwr, honly.mem, ?_⟩, ?_, ?_, ?_⟩
  · rw [heq, rd_raiseSticky_ne offLog_supActions (by
      simp only [Obj.supActions, Obj.laneFaults]
      omega)]
    exact State.rd_wr_ne _ _ (by
      simp only [Obj.supActions, Obj.laneState]
      omega)
  · rw [laneSt, heq, rd_raiseSticky_ne hstate (by simp [Obj.laneState, Obj.laneFaults])]
    exact State.rd_wr_self _ _ ((tidy_iff _).1 hset).od
  · rw [honly.lane n, State.wr_lane, hself]
    rfl
  · rw [heq]
    exact testBit_raiseSticky (laneFaults_offLog hn) _ _ _ _ _ hwr

/-! ## The cancel of a load of impulse responses (R195, R305, R390) -/

theorem cancelLoad_says {k : Handle} {q src fmt status : Nat} {s t : State} (ht : s.tidy = true) (hop : k.op = .irLoad q src fmt)
    (he : cancelHandle k status s = t) :
    (t.tidy = true ∧ t.mem = s.mem ∧ t.rd Obj.supActions = s.rd Obj.supActions) ∧ Posted s t k status 0 s.slate ∧
      ((s.path q).on = false → t.rd (Obj.cpState q) = 0) := by
  have heq : completeHandle k status 0 s.slate (if (s.path q).on then s else s.wr (Obj.cpState q) 0) = t := by
    rw [← he]
    unfold cancelHandle
    rw [hop]
    rfl
  generalize hu : (if (s.path q).on then s else s.wr (Obj.cpState q) 0) = u at heq
  have hstop : u.tidy = true ∧ u.mem = s.mem ∧ u.handles = s.handles ∧ ((s.path q).on = false → u.rd (Obj.cpState q) = 0) ∧
      ∀ r : Reg, r.key ≠ (Obj.cpState q).key → u.rd r = s.rd r := by
    rw [← hu]
    cases hon : (s.path q).on with
    | true => exact ⟨ht, rfl, rfl, fun h => absurd h (by decide), fun _ _ => rfl⟩
    | false =>
      exact ⟨tidy_wr _ _ ht, rfl, rfl, fun _ => State.rd_wr_self _ _ ((tidy_iff s).1 ht).od, fun r hr => State.rd_wr_ne _ _ hr⟩
  obtain ⟨hut, hum, huh, hustate, huq⟩ := hstop
  obtain ⟨-, hhead, hused⟩ := cpState_ne_ring q
  have hacts : Obj.supActions.key ≠ (Obj.cpState q).key := by
    simp only [Obj.supActions, Obj.cpState]
    omega
  subst heq
  refine ⟨⟨(aside_completeHandle (le_refl 64) k status 0 s.slate u).tidy hut, (completeHandle_view _ _ _ _ u).1.trans hum, ?_⟩,
    Posted.of_same (posted_completeHandle status 0 s.slate hut) (huq _ hhead.symm) (huq _ hused.symm) huh, fun hoff => ?_⟩
  · exact (rd_completeHandle_ne (by decide) _ _ _ _ _).trans (huq _ hacts)
  · exact (rd_completeHandle_ne (cpState_ne_ring q) _ _ _ _ _).trans (hustate hoff)

/-! ## The commands to the supervisor (R390) -/

/-- SUP_CMD and HANDLE_CANCEL. -/
def supCmdRow : ObjRow := ⟨0x3A01, 1, 1, 5, 1, .uint 4, .wo, 0, .custom⟩
def handleCancelRow : ObjRow := ⟨0x5F00, 1, 1, 5, 1, .handle16, .wo, 0, .custom⟩

theorem lookup_supCmd : lookup 0x3A01 5 = .ok supCmdRow := by decide +kernel
theorem lookup_handleCancel : lookup 0x5F00 5 = .ok handleCancelRow := by decide +kernel

theorem dropReserved_supCmd (v : Nat) : dropReserved supCmdRow 0x3A01 5 v = v := by simp [dropReserved, supCmdRow]

theorem command_supCmd (p item v : Nat) (data : List Byte) (s : State) :
    command p item 0x3A01 5 v data s = some (writeSupCmd v s) := by
  simp [command, command2]

/-- An action that succeeds leaves SUP_RESULT 0. -/
def supDone (s : State) : State × Nat := (s.wr Obj.supResult 0, abNone)

/-- An action of SUP_CMD on an argument that is no reserved encoding. -/
def supAction (action arg : Nat) (s : State) : State × Nat :=
  match action with
  | 1 => supDone (revokeGroup arg 0 true (supAct s))
  | 2 => supDone (revokeGroup arg 0x7F false (supAct s))
  | 3 => supDone (dmaAbort arg true (supAct s))
  | 4 => if arg < 2 then (s.wr Obj.supResult 0xC021, abState) else supDone (supResetCore arg s)
  | 5 => supDone (resetEngine (supEngine arg) 1 s)
  | 6 => supDone (safeRequest 1 arg (supAct s))
  | 7 => supDone (safeRelease arg (supAct s))
  | _ => match findHandle s arg with
    | none => (s.wr Obj.supResult 0xC022, abState)
    | some h => supDone (cancelHandle h 0xB103 (supAct s))

theorem writeSupCmd_eq {action arg : Nat} (harg : arg < 2 ^ 16) (hgood : supCmdGood action arg = true) (s : State) :
    writeSupCmd (action * 2 ^ 24 + arg) s = supAction action arg s := by
  have ha : (action * 2 ^ 24 + arg) / 2 ^ 24 = action := by omega
  have hr : (action * 2 ^ 24 + arg) % 2 ^ 16 = arg := by omega
  unfold writeSupCmd
  simp only [ha, hr, hgood, Bool.not_true, Bool.false_eq_true, if_false]
  rfl

section
variable {p : Path} {s : State} (hs : Ready s)
include hs

theorem supCommand_eq {action arg : Nat} (ha : action < 9) (harg : arg < 2 ^ 16) (hgood : supCmdGood action arg = true) :
    supCommand p action arg s = answer (pathCode p) (0x3A01 * 256 + 5) (supAction action arg s).2 [] (supAction action arg s).1 := by
  refine writeNat_command hs lookup_supCmd (by decide) (by decide) rfl (by decide) (by omega) rfl fun item data => ?_
  rw [dropReserved_supCmd, command_supCmd, writeSupCmd_eq harg hgood]

theorem exec_handleCancelWrite (h : BitVec 16) : exec (.handleCancelWrite p h) s =
    .next (answer (pathCode p) (0x5F00 * 256 + 5) (writeHandleCancel h.toNat s).2 [] (writeHandleCancel h.toNat s).1) :=
  congrArg Host.Outcome.next
    (writeNat_command hs lookup_handleCancel (by decide) (by decide) rfl (by decide) h.isLt rfl fun _ _ => rfl)

/-- An action that succeeds: its effect, SUP_RESULT 0 and an accepted write. -/
theorem writes_supAction {c : Instr} {action arg : Nat} {u : State} {P : State → Prop} (ha : action < 9) (harg : arg < 2 ^ 16)
    (hgood : supCmdGood action arg = true) (he : exec c s = .next (supCommand p action arg s))
    (hu : supAction action arg s = supDone u) (ht : u.tidy = true) (hP : P (told p 0x3A01 5 (u.wr Obj.supResult 0))) :
    Writes c p s P := by
  rw [supCommand_eq hs ha harg hgood, hu] at he
  exact ⟨_, he, accepted_told p _ _ (tidy_wr _ _ ht), hP⟩

end

/-- What an answered action leaves of the state that it made. -/
theorem told_supResult_rd {p : Path} {q : Reg} (u : State) (hq : q.key ≠ Obj.supResult.key) :
    (told p 0x3A01 5 (u.wr Obj.supResult 0)).rd q = u.rd q := (told_rd _ _ _ _ _).trans (State.rd_wr_ne _ _ hq)

theorem told_supResult {p : Path} {u : State} (ht : u.tidy = true) : (told p 0x3A01 5 (u.wr Obj.supResult 0)).rd Obj.supResult = 0 :=
  (told_rd _ _ _ _ _).trans (State.rd_wr_self _ _ ((tidy_iff u).1 ht).od)

theorem told_supResult_acts {p : Path} {s u : State} (ht : s.tidy = true) (hu : u.rd Obj.supActions = (supAct s).rd Obj.supActions) :
    (told p 0x3A01 5 (u.wr Obj.supResult 0)).rd Obj.supActions = min (s.rd Obj.supActions + 1) 0xFFFFFFFF :=
  (told_supResult_rd u (by decide)).trans (hu.trans (rd_inc_self _ ht))

theorem objKey_ne_sup {i k d : Nat} (hi : i ≠ 0x3A01) (hk : k < 256) (r : Reg) (hr : r.key / 256 = 0x3A01) :
    (⟨i * 256 + k, d⟩ : Reg).key ≠ r.key := by
  simp only
  omega

theorem supEngine_engineArg (e : Engine) : supEngine (engineArg e) = e := by
  cases e with
  | asrc => rfl
  | cx k => revert k; decide

theorem supCmdGood_engineArg (e : Engine) : supCmdGood 5 (engineArg e) = true := by
  cases e with
  | asrc => rfl
  | cx k => revert k; decide

/-- A record that is posted before the answer to the write stays. -/
theorem Posted.told {p : Path} {idx sub : Nat} {s t : State} {h : Handle} {status detail : Nat} {slate : Slate}
    (hp : Posted s t h status detail slate) : Posted s (Claims.told p idx sub t) h status detail slate := hp

theorem Posted.wr {s t : State} {h : Handle} {status detail v : Nat} {slate : Slate} {r : Reg} (hp : Posted s t h status detail slate)
    (hhead : Obj.hvHead.key ≠ r.key) (hused : Obj.hvUsed.key ≠ r.key) : Posted s (t.wr r v) h status detail slate := by
  obtain ⟨hrec, hh, hu, hs⟩ := hp
  exact ⟨hrec, (State.rd_wr_ne t v hhead).trans hh, (State.rd_wr_ne t v hused).trans hu, hs⟩

theorem writeHandleCancel_load {h : Nat} {k : Handle} {q src fmt : Nat} {s : State} (hvalid : handleValid h = true)
    (hfind : findHandle s h = some k) (hop : k.op = .irLoad q src fmt) : writeHandleCancel h s = (cancelHandle k 0xB102 s, abNone) := by
  unfold writeHandleCancel
  simp only [hvalid, Bool.not_true, Bool.false_eq_true, if_false, hfind, hop]

theorem writeHandleCancel_none {h : Nat} {s : State} (hvalid : handleValid h = true) (hfind : findHandle s h = none) :
    writeHandleCancel h s = (s, abState) := by
  unfold writeHandleCancel
  simp only [hvalid, Bool.not_true, Bool.false_eq_true, if_false, hfind]

theorem supAction_cancel (h : Nat) (s : State) : supAction 8 h s = match findHandle s h with
    | none => (s.wr Obj.supResult 0xC022, abState)
    | some k => supDone (cancelHandle k 0xB103 (supAct s)) := rfl

section
variable {p : Path} {s : State} (hs : Ready s)
include hs

theorem writes_supRevoke {c : Instr} {action owner : Nat} {clear : Bool} {g : Fin 8} (ha : action < 9)
    (hgood : supCmdGood action g.val = true) (he : exec c s = .next (supCommand p action g.val s))
    (hact : supAction action g.val s = supDone (revokeGroup g.val owner clear (supAct s))) (hst : s.rd (Obj.pgState g.val) = 1) :
    Writes c p s fun t => t.rd (Obj.pgOwner g.val) = owner ∧ t.rd (Obj.pgState g.val) = 2 ∧ t.pan g.val = { s.pan g.val with
      newOwner := BitVec.ofNat 8 owner, revoked := true,
      thenClear := (s.pan g.val).thenClear || (clear && !(s.pan g.val).compatNow) } ∧ t.rd Obj.supResult = 0 ∧
      t.rd Obj.supActions = min (s.rd Obj.supActions + 1) 0xFFFFFFFF ∧ t.mem = s.mem := by
  have hreg := fun k hk => objKey_ne_sup (k := k) (d := 0) (show 0x3410 + g.val ≠ 0x3A01 by omega) hk
  have hst' : (supAct s).rd (Obj.pgState g.val) = 1 := (State.rd_wr_ne _ _ (hreg 2 (by decide) _ (by decide))).trans hst
  generalize hu : revokeGroup g.val owner clear (supAct s) = u at hact
  obtain ⟨⟨hut, hum, hua⟩, howner, hstate, hpan⟩ := revokeGroup_says g.isLt (tidy_inc _ hs.1) hst' hu
  refine writes_supAction hs ha (by omega) hgood he hact hut ⟨?_, ?_, hpan, told_supResult hut, told_supResult_acts hs.1 hua, hum⟩
  · exact (told_supResult_rd u (hreg 1 (by decide) _ (by decide))).trans howner
  · exact (told_supResult_rd u (hreg 2 (by decide) _ (by decide))).trans hstate

theorem writes_supAbortDma {ch : Fin 32} (hst : s.rd (Obj.dmaState ch.val) = dmaIdle) : Writes (.supAbortDma p ch) p s fun t =>
    t.rd (Obj.dmaState ch.val) = dmaHalted ∧ t.rd (Obj.dmaLastStatus ch.val) = 0x7004 ∧
      (t.rd (Obj.dmaFaults ch.val)).testBit 3 = true ∧ t.rd Obj.supResult = 0 ∧
      t.rd Obj.supActions = min (s.rd Obj.supActions + 1) 0xFFFFFFFF ∧ t.mem = s.mem := by
  have hreg := fun k hk => objKey_ne_sup (k := k) (d := 0) (show 0x3210 + ch.val ≠ 0x3A01 by omega) hk
  have hst' : (supAct s).rd (Obj.dmaState ch.val) = dmaIdle := (State.rd_wr_ne _ _ (hreg 8 (by decide) _ (by decide))).trans hst
  generalize hu : dmaAbort ch.val true (supAct s) = u
  obtain ⟨⟨hut, hum, hua⟩, hstate, hlast, hfault⟩ := dmaAbort_says ch.isLt (tidy_inc _ hs.1) hst' hu
  refine writes_supAction (action := 3) (arg := ch.val) hs (by decide) (by omega) (by simp [supCmdGood]) rfl (congrArg supDone hu) hut
    ⟨?_, ?_, ?_, told_supResult hut, told_supResult_acts hs.1 hua, hum⟩
  · exact (told_supResult_rd u (hreg 8 (by decide) _ (by decide))).trans hstate
  · exact (told_supResult_rd u (hreg 13 (by decide) _ (by decide))).trans hlast
  · exact (congrArg (fun n => Nat.testBit n 3) (told_supResult_rd u (hreg 14 (by decide) _ (by decide)))).trans hfault

theorem writes_supResetCore {c : Fin 8} (hc : 2 ≤ c.val) : Writes (.supResetCore p c) p s fun t =>
    t.rd (Obj.coreState c.val) = 1 ∧ (t.core c.val).regs = { ({} : Regs) with pc := (iWord s c.val 0x20000).truncate 20 } ∧
      t.rd Obj.supResult = 0 ∧ t.rd Obj.supActions = min (s.rd Obj.supActions + 1) 0xFFFFFFFF ∧ t.mem = s.mem := by
  have hreset := supResetCore_says hc c.isLt hs.1
  have hact : supAction 4 c.val s = supDone (supResetCore c.val s) := if_neg (by omega)
  generalize supResetCore c.val s = u at hreset hact
  refine writes_supAction (action := 4) (arg := c.val) hs (by decide) (by omega) (by simp [supCmdGood]) rfl hact hreset.tidy
    ⟨?_, hreset.regs, told_supResult hreset.tidy, (told_supResult_rd u (by decide)).trans hreset.actions, hreset.mem⟩
  refine (told_supResult_rd u ?_).trans hreset.state
  simp only [Obj.coreState, Obj.supResult]
  omega

theorem exec_supResetCore_denied {c : Fin 8} (hc : c.val < 2) :
    exec (.supResetCore p c) s = .next (denied p 0x3A01 5 0x08000022 (s.wr Obj.supResult 0xC021)) := by
  have hact : supAction 4 c.val s = (s.wr Obj.supResult 0xC021, abState) := if_pos hc
  have he := supCommand_eq (p := p) hs (action := 4) (arg := c.val) (by decide) (by omega) (by simp [supCmdGood])
  rw [hact] at he
  exact congrArg Host.Outcome.next he

theorem writes_supResetEngine (e : Engine) : Writes (.supResetEngine p e) p s fun t =>
    (∀ f ∈ t.firings, f.holder = holderOf e → f.state = 2) ∧ t.rd Obj.supResult = 0 ∧
      t.rd Obj.supActions = min (s.rd Obj.supActions + 1) 0xFFFFFFFF ∧ t.mem = s.mem := by
  have hact : supAction 5 (engineArg e) s = supDone (resetEngine e 1 s) :=
    congrArg (fun e => supDone (resetEngine e 1 s)) (supEngine_engineArg e)
  have harg : engineArg e < 2 ^ 16 := by
    cases e with
    | asrc => decide
    | cx k =>
      simp only [engineArg]
      omega
  generalize hu : resetEngine e 1 s = u at hact
  obtain ⟨hut, hheld, hum, hua, -⟩ := resetEngine_says e 1 hs.1 hu
  exact writes_supAction (action := 5) hs (by decide) harg (supCmdGood_engineArg e) rfl hact hut
    ⟨hheld, told_supResult hut, (told_supResult_rd u (by decide)).trans hua, hum⟩

theorem writes_supForceSafe {n : Fin 64} (hst : laneSt s n.val = laneArmed) : Writes (.supForceSafe p n) p s fun t =>
    laneSt t n.val = laneSafe ∧ (t.lane n.val).ran = false ∧ (t.rd (Obj.laneFaults n.val)).testBit 8 = true ∧
      t.rd Obj.supResult = 0 ∧ t.rd Obj.supActions = min (s.rd Obj.supActions + 1) 0xFFFFFFFF ∧ t.mem = s.mem := by
  have hreg := fun k hk => objKey_ne_sup (k := k) (d := 0) (show 0x2600 + n.val ≠ 0x3A01 by omega) hk
  have hst' : laneSt (supAct s) n.val = laneArmed := (State.rd_wr_ne _ _ (hreg 1 (by decide) _ (by decide))).trans hst
  generalize hu : safeRequest 1 n.val (supAct s) = u
  obtain ⟨⟨hut, hum, hua⟩, hstate, hran, hfault⟩ := safeRequest_says n.isLt (tidy_inc _ hs.1) hst' hu
  refine writes_supAction (action := 6) (arg := n.val) hs (by decide) (by omega) (by simp [supCmdGood]) rfl (congrArg supDone hu) hut
    ⟨?_, hran, ?_, told_supResult hut, told_supResult_acts hs.1 hua, hum⟩
  · exact (told_supResult_rd u (hreg 1 (by decide) _ (by decide))).trans hstate
  · exact (congrArg (fun n => Nat.testBit n 8) (told_supResult_rd u (hreg 8 (by decide) _ (by decide)))).trans hfault

theorem exec_supReleaseSafe {n : Fin 64} (hst : laneSt s n.val = laneSafe) : exec (.supReleaseSafe p n) s = .next
    (told p 0x3A01 5 (((s.inc Obj.supActions).wr (Obj.laneState n.val) laneArmed).wr Obj.supResult 0)) := by
  have hst' : laneSt (supAct s) n.val = laneSafe := (State.rd_wr_ne _ _ (by
    simp only [Obj.laneState, Obj.supActions]
    omega)).trans hst
  have hact : supAction 7 n.val s = supDone ((supAct s).wr (Obj.laneState n.val) laneArmed) := congrArg supDone (if_pos hst')
  have he := supCommand_eq (p := p) hs (action := 7) (arg := n.val) (by decide) (by omega) (by simp [supCmdGood])
  rw [hact] at he
  exact congrArg Host.Outcome.next he

theorem exec_supCancelHandle_denied {h : BitVec 16} (hvalid : handleValid h.toNat = true) (hfind : findHandle s h.toNat = none) :
    exec (.supCancelHandle p h) s = .next (denied p 0x3A01 5 0x08000022 (s.wr Obj.supResult 0xC022)) := by
  have he := supCommand_eq (p := p) hs (action := 8) (by decide) h.isLt hvalid
  rw [supAction_cancel, hfind] at he
  exact congrArg Host.Outcome.next he

theorem writes_supCancelHandle {h : BitVec 16} {k : Handle} {q src fmt : Nat} (hvalid : handleValid h.toNat = true)
    (hfind : findHandle s h.toNat = some k) (hop : k.op = .irLoad q src fmt) : Writes (.supCancelHandle p h) p s fun t =>
      Posted s t k 0xB103 0 s.slate ∧ ((s.path q).on = false → t.rd (Obj.cpState q) = 0) ∧ t.rd Obj.supResult = 0 ∧
        t.rd Obj.supActions = min (s.rd Obj.supActions + 1) 0xFFFFFFFF ∧ t.mem = s.mem := by
  have hact : supAction 8 h.toNat s = supDone (cancelHandle k 0xB103 (supAct s)) := by rw [supAction_cancel, hfind]
  generalize hu : cancelHandle k 0xB103 (supAct s) = u at hact
  obtain ⟨⟨hut, hum, hua⟩, hposted, hstate⟩ := cancelLoad_says (tidy_inc _ hs.1) hop hu
  have hfrom : Posted s u k 0xB103 0 s.slate :=
    Posted.of_same hposted (State.rd_wr_ne _ _ (by decide)) (State.rd_wr_ne _ _ (by decide)) rfl
  refine writes_supAction (action := 8) hs (by decide) h.isLt hvalid rfl hact hut
    ⟨Posted.told (Posted.wr hfrom (by decide) (by decide)), fun hoff => ?_, told_supResult hut, told_supResult_acts hs.1 hua, hum⟩
  refine (told_supResult_rd u ?_).trans (hstate hoff)
  simp only [Obj.cpState, Obj.supResult]
  omega

theorem writes_handleCancel {h : BitVec 16} {k : Handle} {q src fmt : Nat} (hvalid : handleValid h.toNat = true)
    (hfind : findHandle s h.toNat = some k) (hop : k.op = .irLoad q src fmt) : Writes (.handleCancelWrite p h) p s fun t =>
      Posted s t k 0xB102 0 s.slate ∧ ((s.path q).on = false → t.rd (Obj.cpState q) = 0) ∧
        t.rd Obj.supActions = s.rd Obj.supActions ∧ t.mem = s.mem := by
  have he := exec_handleCancelWrite (p := p) hs h
  rw [writeHandleCancel_load hvalid hfind hop] at he
  generalize hu : cancelHandle k 0xB102 s = u at he
  obtain ⟨⟨hut, hum, hua⟩, hposted, hstate⟩ := cancelLoad_says hs.1 hop hu
  exact ⟨_, he, accepted_told p _ _ hut, Posted.told hposted, fun hoff => (told_rd _ _ _ _ _).trans (hstate hoff),
    (told_rd _ _ _ _ _).trans hua, hum⟩

theorem exec_handleCancel_denied {h : BitVec 16} (hvalid : handleValid h.toNat = true) (hfind : findHandle s h.toNat = none) :
    exec (.handleCancelWrite p h) s = .next (denied p 0x5F00 5 0x08000022 s) := by
  rw [exec_handleCancelWrite hs, writeHandleCancel_none hvalid hfind]
  rfl

end

theorem supervisorCommands : SupervisorCommands := by
  intro p g ch c e n h s hs
  refine ⟨fun hst => ⟨?_, ?_⟩, writes_supAbortDma hs, exec_supResetCore_denied hs, writes_supResetCore hs, writes_supResetEngine hs e,
    writes_supForceSafe hs, exec_supReleaseSafe hs, exec_supCancelHandle_denied hs, fun k q src fmt hvalid hfind hop =>
      ⟨writes_supCancelHandle hs hvalid hfind hop, writes_handleCancel hs hvalid hfind hop⟩, exec_handleCancel_denied hs⟩
  · obtain ⟨t, he, hacc, howner, hstate, hpan, hres, hacts, hmem⟩ := writes_supRevoke (p := p) (c := .supRevokeClear p g) (action := 1)
      (g := g) hs (by decide) (by simp [supCmdGood]) rfl rfl hst
    refine ⟨t, he, hacc, howner, hstate, ?_, ?_, hres, hacts, fun hn => ?_, hmem⟩
    · rw [hpan]
      rfl
    · rw [hpan]
    · simp [hpan, hn]
  · obtain ⟨t, he, hacc, howner, hstate, hpan, hres, hacts, hmem⟩ := writes_supRevoke (p := p) (c := .supRevokeKeep p g) (action := 2)
      (g := g) hs (by decide) (by simp [supCmdGood]) rfl rfl hst
    refine ⟨t, he, hacc, howner, hstate, ?_, ?_, hres, hacts, hmem⟩
    · rw [hpan]
      rfl
    · simp [hpan]

/-- Settles O54, from what a reset of a core (`supResetCore_says`) and of an engine (`resetEngine_says`) bring about, and from one lemma
per action of SUP_CMD. -/
theorem supervisor : Obligations.Supervisor := ⟨supervisorCauses, supervisorCommands⟩

end Sys2Proof.Machine
end

section
/-! The commands to a control core: CORE_CMD and CORE_CLEAR (R237, R238, R380). -/

namespace Sys2Proof.Machine
open Sys2Proof Sys2Proof.Claims

/-! ## The objects of a core (R238) -/

/-- CORE_CMD and CORE_CLEAR. -/
def coreCmdRow : ObjRow := ⟨0x3A40, 8, 1, 2, 1, .uint 1, .wo, 0, .range 1 2⟩
def coreClearRow : ObjRow := ⟨0x3A40, 8, 1, 6, 1, .uint 1, .wo, 0, .bits 3⟩

theorem lookup_coreCmd (c : Fin 8) : lookup (0x3A40 + c.val) 2 = .ok coreCmdRow :=
  lookup_of_blockApart (base := 0x3A40) (cnt := 8) (by decide +kernel) (by omega) (by omega) (by decide +kernel)

theorem lookup_coreClear (c : Fin 8) : lookup (0x3A40 + c.val) 6 = .ok coreClearRow :=
  lookup_of_blockApart (base := 0x3A40) (cnt := 8) (by decide +kernel) (by omega) (by omega) (by decide +kernel)

/-- An object from 0x3000 on keeps the bits that its row names (R10). -/
theorem dropReserved_highBits {idx : Nat} (h : 0x3000 ≤ idx) {r : ObjRow} {m : Nat} (hd : r.dom = .bits m) (sub v : Nat) :
    dropReserved r idx sub v = v &&& m := by
  unfold dropReserved
  rw [if_neg (by omega), if_neg (by omega), if_neg (by omega), if_neg (by omega), if_neg (by omega), if_neg (by omega), hd]

/-- The commands among the objects of a core. -/
theorem command_core {c : Nat} (hc : c < 8) (p item v : Nat) (data : List Byte) (s : State) :
    command p item (0x3A40 + c) 2 v data s = some (writeCoreCmd c v s) ∧
    command p item (0x3A40 + c) 6 v data s = some (coreClearBits c v s, abNone) := by
  have hlow : ¬0x3A40 + c < 0x3000 ∧ ¬0x3A40 + c < 0x3A00 := by omega
  have hne : ∀ k, k < 0x3A40 → 0x3A40 + c ≠ k := by omega
  have hin : 0x3A40 ≤ 0x3A40 + c ∧ 0x3A40 + c < 0x3A48 := by omega
  simp [command, command2, hlow, hne, hin]

section
variable {p : Path} {c : Fin 8} {s : State} (hs : Ready s)
include hs

theorem writeNat_coreCmd {v : Nat} (hv : 1 ≤ v ∧ v ≤ 2) : writeNat p (0x3A40 + c.val) 2 1 v s =
    answer (pathCode p) ((0x3A40 + c.val) * 256 + 2) (writeCoreCmd c.val v s).2 [] (writeCoreCmd c.val v s).1 := by
  refine writeNat_command hs (lookup_coreCmd c) (by decide) (by decide) rfl (by decide) (by omega) ?_ fun item data => ?_
  · simpa [domGood, coreCmdRow] using hv
  · rw [dropReserved_high (by omega) (lo := 1) (hi := 2) rfl]
    exact (command_core c.isLt _ _ _ _ s).1

theorem writeNat_coreClear {v : Nat} (hv : v &&& 3 = v) (hlt : v < 256) :
    writeNat p (0x3A40 + c.val) 6 1 v s = told p (0x3A40 + c.val) 6 (coreClearBits c.val v s) := by
  refine writeNat_command hs (lookup_coreClear c) (by decide) (by decide) rfl (by decide) (by omega) rfl fun item data => ?_
  rw [dropReserved_highBits (by omega) (m := 3) rfl, hv]
  exact (command_core c.isLt _ _ _ _ s).2

theorem exec_coreHoldReset : exec (.coreHoldReset p c) s =
    .next (answer (pathCode p) ((0x3A40 + c.val) * 256 + 2) (writeCoreCmd c.val 1 s).2 [] (writeCoreCmd c.val 1 s).1) :=
  congrArg Host.Outcome.next (writeNat_coreCmd hs (by decide))

theorem exec_coreRelease : exec (.coreRelease p c) s =
    .next (answer (pathCode p) ((0x3A40 + c.val) * 256 + 2) (writeCoreCmd c.val 2 s).2 [] (writeCoreCmd c.val 2 s).1) :=
  congrArg Host.Outcome.next (writeNat_coreCmd hs (by decide))

theorem exec_coreClearFaults : exec (.coreClearFaults p c) s = .next (told p (0x3A40 + c.val) 6 (coreClearBits c.val 1 s)) :=
  congrArg Host.Outcome.next (writeNat_coreClear hs (by decide) (by decide))

theorem exec_coreClearResets : exec (.coreClearResets p c) s = .next (told p (0x3A40 + c.val) 6 (coreClearBits c.val 2 s)) :=
  congrArg Host.Outcome.next (writeNat_coreClear hs (by decide) (by decide))

end

/-! ## CORE_CMD (R237, R238) -/

section
variable {c : Nat} {s : State}

theorem writeCoreCmd_firmware (hc : c < 2) (v : Nat) : writeCoreCmd c v s = (s, abState) := if_pos hc

theorem writeCoreCmd_hold (hc : 2 ≤ c) : writeCoreCmd c 1 s =
    (noteCoreReset c (s.core c).regs.pc.toNat ((resetCoreRegs c s).wr (Obj.coreState c) 0), abNone) :=
  (if_neg (by omega)).trans (if_pos rfl)

theorem writeCoreCmd_release (hc : 2 ≤ c) (hst : s.rd (Obj.coreState c) = 0) : writeCoreCmd c 2 s = (releaseCore c s, abNone) :=
  (if_neg (by omega)).trans ((if_neg (by decide)).trans (if_neg (not_not.2 hst)))

theorem writeCoreCmd_running (hc : 2 ≤ c) (hst : s.rd (Obj.coreState c) ≠ 0) : writeCoreCmd c 2 s = (s, abState) :=
  (if_neg (by omega)).trans ((if_neg (by decide)).trans (if_pos hst))

theorem releaseCore_eq (hc : 2 ≤ c) : releaseCore c s = (s.setCore c { s.core c with
    vbase := 0x20000, regs := { (s.core c).regs with pc := (iWord s c 0x20000).truncate 20 } }).wr (Obj.coreState c) 1 := by
  simp only [releaseCore, if_neg (show ¬c < 2 by omega)]
  rfl

/-- A reset of a core leaves SCH_ACCEPT at its reset value (R237). -/
theorem accept_resetCoreRegs (ht : s.tidy = true) : ((resetCoreRegs c s).core c).accept = 0xFF := by
  have hkeep : Keeps PlainReg besideSluice (freshCore c s) (resetCoreRegs c s) :=
    (Keeps.reruns (heldFirings c (freshCore c s)) (freshCore c s)).trans (Keeps.plainScan _)
  have hfresh : (freshCore c s).core c = _ := State.core_setCore_self c _ ((tidy_iff s).1 ht).cores
  exact (congrArg (fun x : State => (x.core c).accept) hkeep.view :).trans (congrArg Core.accept hfresh)

theorem accept_noteCoreReset (pc : Nat) (ht : s.tidy = true) : ((noteCoreReset c pc s).core c).accept = (s.core c).accept := by
  have hcore : CoreIs c (s.core c) (noteCoreReset c pc s) := CoreIs.raise _ _ _ _ (((coreIs_self ht).wr _ _).wr _ _)
  exact (congrArg Core.accept hcore.2 :)

/-- A reset of a core sets CORE_FAULTS bit 1 and leaves CORE_STATE. -/
theorem rd_noteCoreReset (pc : Nat) (ht : s.tidy = true) :
    ((noteCoreReset c pc s).rd (Obj.coreFaults c)).testBit 1 = true ∧
      (noteCoreReset c pc s).rd (Obj.coreState c) = s.rd (Obj.coreState c) := by
  have hfaults : OffLog (Obj.coreFaults c) := offLog_obj (by omega) (by decide)
  have hstate : OffLog (Obj.coreState c) := offLog_obj (by omega) (by decide)
  have hcount : ∀ {q : Reg}, OffLog q → q.key ≠ (Obj.coreResets c).key →
      (noteCoreReset c pc s).rd q = (s.setBit (Obj.coreFaults c) 1).rd q := fun hq hne =>
    (rd_raise hq _ _ _ _ _).trans (State.rd_wr_ne _ _ hne)
  refine ⟨?_, (hcount hstate (by simp [Obj.coreState, Obj.coreResets])).trans
    (State.rd_wr_ne _ _ (by simp [Obj.coreState, Obj.coreFaults]))⟩
  rw [hcount hfaults (by simp [Obj.coreFaults, Obj.coreResets]), State.setBit, State.rd_wr_self _ _ ((tidy_iff s).1 ht).od,
    Nat.testBit_or, Nat.testBit_two_pow_self, Bool.or_true]

end

section
variable {p : Path} {c : Fin 8} {s : State} (hs : Ready s)
include hs

theorem exec_coreCmd_firmware (hc : c.val < 2) :
    exec (.coreHoldReset p c) s = .next (denied p (0x3A40 + c.val) 2 0x08000022 s) ∧
      exec (.coreRelease p c) s = .next (denied p (0x3A40 + c.val) 2 0x08000022 s) := by
  rw [exec_coreHoldReset hs, exec_coreRelease hs, writeCoreCmd_firmware hc, writeCoreCmd_firmware hc]
  exact ⟨rfl, rfl⟩

theorem writes_coreHoldReset (hc : 2 ≤ c.val) : Writes (.coreHoldReset p c) p s fun t =>
    t.rd (Obj.coreState c.val) = 0 ∧ (t.core c.val).regs = {} ∧ (t.core c.val).accept = 0xFF ∧
      (t.rd (Obj.coreFaults c.val)).testBit 1 = true ∧
      t.rd (Obj.coreResets c.val) = min (s.rd (Obj.coreResets c.val) + 1) 0xFFFFFFFF ∧ t.mem = s.mem := by
  have hexec := exec_coreHoldReset (p := p) (c := c) hs
  rw [writeCoreCmd_hold hc] at hexec
  obtain ⟨hrt, hregs, hmem, -, hrd⟩ := resetCoreRegs_says (c := c.val) hs.1 rfl
  have hwr := tidy_wr (Obj.coreState c.val) 0 hrt
  obtain ⟨htidy, hkeep, honly, hcount, -⟩ := noteCoreReset_says (c := c.val) (s.core c.val).regs.pc.toNat hwr rfl
  obtain ⟨hfault, hstate⟩ := rd_noteCoreReset (c := c.val) (s.core c.val).regs.pc.toNat hwr
  have hresets : PlainReg (Obj.coreResets c.val) := by
    simp only [PlainReg, Obj.coreResets]
    omega
  refine ⟨_, hexec, accepted_told p _ _ htidy, ?_, hkeep.trans hregs, ?_, hfault, ?_, honly.mem.trans hmem⟩
  · exact hstate.trans (State.rd_wr_self _ _ ((tidy_iff _).1 hrt).od)
  · exact (accept_noteCoreReset _ hwr).trans (accept_resetCoreRegs hs.1)
  · refine hcount.trans (congrArg (fun n => min (n + 1) 0xFFFFFFFF) ?_)
    exact (State.rd_wr_ne _ _ (by simp [Obj.coreResets, Obj.coreState])).trans (hrd _ hresets)

theorem exec_coreRelease_held (hc : 2 ≤ c.val) (hst : s.rd (Obj.coreState c.val) = 0) :
    exec (.coreRelease p c) s = .next (told p (0x3A40 + c.val) 2 ((s.setCore c.val { s.core c.val with
      vbase := 0x20000, regs := { (s.core c.val).regs with pc := (iWord s c.val 0x20000).truncate 20 } }).wr
        (Obj.coreState c.val) 1)) := by
  rw [exec_coreRelease hs, writeCoreCmd_release hc hst, releaseCore_eq hc]
  rfl

theorem exec_coreRelease_running (hc : 2 ≤ c.val) (hst : s.rd (Obj.coreState c.val) ≠ 0) :
    exec (.coreRelease p c) s = .next (denied p (0x3A40 + c.val) 2 0x08000022 s) := by
  rw [exec_coreRelease hs, writeCoreCmd_running hc hst]
  rfl

end

/-! ## CORE_CLEAR (R238, R380) -/

theorem cores_repeatFault (code unit info : Nat) (s : State) : (repeatFault code unit info s).cores = s.cores := by
  unfold repeatFault bumpRepeat
  dsimp only
  split <;> rfl

/-- A record whose class has no source of R240 pends none. -/
theorem cores_logFault_of_none {code : Nat} (h : classSource (faultClass code) = none) (unit info extra : Nat) (s : State) :
    (logFault code unit info extra s).cores = s.cores := by
  have hcount : ∀ t : State, (logCount t).cores = t.cores := fun t => by unfold logCount; split <;> rfl
  have hactive : ∀ (k : BitVec 16) (t : State), (logActive k t).cores = t.cores := fun k t => by unfold logActive; split <;> rfl
  rw [logFault_eq, logSources, h]
  exact (hactive _ _).trans (hcount _)

/-- An EMCY message pends no interrupt source, nor does 0xB005, the overflow of its queue. -/
theorem cores_queueEmcy (err code detail : Nat) (s : State) : (queueEmcy err code detail s).cores = s.cores := by
  unfold queueEmcy
  split
  · rfl
  · split
    · rfl
    · split
      · exact cores_repeatFault _ _ _ s
      · dsimp only
        split
        · exact cores_repeatFault _ _ _ _
        · exact cores_logFault_of_none rfl _ _ _ _

theorem cores_clearActive (p : Nat → Bool) (s : State) : (clearActive p s).cores = s.cores := by
  unfold clearActive errCleared
  split
  · exact cores_queueEmcy _ _ _ _
  · rfl

theorem cores_clearSticky (base bits : Nat) (regs clear : List Reg) (s : State) :
    (clearSticky base bits regs clear s).cores = s.cores := by
  rw [clearSticky_eq]
  refine forUpto_keep (fun t => t.cores = s.cores) bits (clearCode base regs clear s) (fun k _ t h => ?_) _
    (forList_keep (fun t => t.cores = s.cores) clear (fun r s => s.wr r 0) (fun r _ t h => h) s rfl)
  unfold clearCode
  split
  · exact (cores_clearActive _ t).trans h
  · exact h

/-- A fault that one unit of `n` has, and no other unit, loses its last holder when the unit's bits clear. -/
theorem codeEnds_of_only {obj : Nat → Reg} (hobj : ∀ m g, m ≠ g → (obj m).key ≠ (obj g).key) {n g k : Nat} {s : State} (hg : g < n)
    (ht : s.tidy = true) (hk : (s.rd (obj g)).testBit k = true)
    (hother : ∀ m, m < n → m ≠ g → (s.rd (obj m)).testBit k = false) :
    codeEnds ((List.range n).map obj) [obj g] s k = true := by
  have hnone : ∀ m < n, ((s.wr (obj g) 0).rd (obj m)).testBit k = false := fun m hm => by
    by_cases e : m = g
    · rw [e, State.rd_wr_self _ _ ((tidy_iff s).1 ht).od, Nat.zero_testBit]
    · rw [State.rd_wr_ne s _ (hobj m g e), hother m hm e]
  simp only [codeEnds, List.any_map, Bool.and_eq_true, List.any_eq_true, List.mem_range, Function.comp_apply, Bool.not_eq_true',
    List.any_eq_false, Bool.not_eq_true]
  exact ⟨⟨g, hg, hk⟩, hnone⟩

theorem coreFaults_injective (m g : Nat) (h : m ≠ g) : (Obj.coreFaults m).key ≠ (Obj.coreFaults g).key := by
  simp only [Obj.coreFaults]
  omega

theorem coreClearBits_one (c : Nat) (s : State) :
    coreClearBits c 1 s = clearSticky 0x5021 2 ((List.range 8).map Obj.coreFaults) [Obj.coreFaults c] s := rfl

theorem coreClearBits_two (c : Nat) (s : State) : coreClearBits c 2 s = s.wr (Obj.coreResets c) 0 := rfl

theorem writes_coreClearFaults {p : Path} {c : Fin 8} {s : State} (hs : Ready s) :
    Writes (.coreClearFaults p c) p s fun t => t.rd (Obj.coreFaults c.val) = 0 ∧ t.cores = s.cores ∧ t.mem = s.mem ∧
      ∀ k, k < 2 → (s.rd (Obj.coreFaults c.val)).testBit k = true →
        (∀ m, m < 8 → m ≠ c.val → (s.rd (Obj.coreFaults m)).testBit k = false) → ∀ a ∈ t.active, a.1.toNat ≠ 0x5021 + k := by
  have hexec := exec_coreClearFaults (p := p) (c := c) hs
  rw [coreClearBits_one] at hexec
  have honly := clearSticky_only 0x5021 2 ((List.range 8).map Obj.coreFaults) [Obj.coreFaults c.val] s
  refine ⟨_, hexec, accepted_told p _ _ (tidy_clearSticky _ _ _ _ s hs.1), ?_, cores_clearSticky _ _ _ _ s, honly.mem,
    fun k hk hbit hother => ?_⟩
  · have hoff : OffLog (Obj.coreFaults c.val) := offLog_obj (by omega) (by decide)
    exact (rd_clearSticky _ _ _ _ s hoff).trans (State.rd_wr_self _ _ ((tidy_iff s).1 hs.1).od)
  · exact active_clearSticky hk (by omega) (codeEnds_of_only coreFaults_injective c.isLt hs.1 hbit hother)

theorem coreCommands : CoreCommands := by
  intro p c s hs
  refine ⟨exec_coreCmd_firmware hs, writes_coreHoldReset hs, exec_coreRelease_held hs, exec_coreRelease_running hs,
    writes_coreClearFaults hs, ?_⟩
  rw [exec_coreClearResets hs, coreClearBits_two]

end Sys2Proof.Machine
end

section
/-! The interrupt controller of a core (R239, R240): interrupt sources pended on the cores of a mask, and RING, ICLR and TCMP. -/

namespace Sys2Proof.Machine
open Sys2Proof Sys2Proof.Claims

/-! ## A source pended on the cores of a mask (R240) -/

/-- Pend source `k` on the cores below `n` that `on` accepts. -/
def pendWhere (on : Nat → Bool) (k n : Nat) : State → State := forUpto n fun c s => if on c then pendCore c k s else s

theorem pendWhere_succ (on : Nat → Bool) (k n : Nat) (s : State) :
    pendWhere on k (n + 1) s = if on n then pendCore n k (pendWhere on k n s) else pendWhere on k n s := by
  unfold pendWhere forUpto
  rw [List.range_succ, List.foldl_append]
  rfl

theorem pendAll_eq (k : Nat) (s : State) : pendAll k s = pendWhere (fun _ => true) k 8 s := rfl

theorem opRing_eq (c : Nat) (w : Word) (s : State) : opRing c w s = pendWhere (fun k => w.getLsbD k) (16 + c) 8 s := rfl

section
variable {on : Nat → Bool} {k : Nat} {s : State} (ht : s.tidy = true)
include ht

theorem core_pendCore (c d : Nat) : (pendCore c k s).core d =
    { s.core d with ipend := if d = c then (s.core d).ipend ||| BitVec.ofNat 32 (2 ^ k) else (s.core d).ipend } := by
  unfold pendCore
  by_cases h : d = c
  · subst h
    rw [State.core_setCore_self d _ ((tidy_iff s).1 ht).cores, if_pos rfl]
  · rw [State.core_setCore_ne s _ h, if_neg h]

theorem tidy_pendWhere (n : Nat) : (pendWhere on k n s).tidy = true := by
  refine forUpto_keep (fun t => t.tidy = true) n _ (fun c _ t h => ?_) s ht
  split
  · exact tidy_pendCore c k h
  · exact h

/-- Each core below `n` that `on` accepts has the source pending; no core changes otherwise. -/
theorem core_pendWhere (n d : Nat) : (pendWhere on k n s).core d = { s.core d with
    ipend := if d < n ∧ on d = true then (s.core d).ipend ||| BitVec.ofNat 32 (2 ^ k) else (s.core d).ipend } := by
  induction n with
  | zero => rw [if_neg (by omega)]; rfl
  | succ n ih =>
    rw [pendWhere_succ]
    by_cases hd : d = n
    · subst hd
      rw [if_neg (by omega)] at ih
      cases hon : on d with
      | true => simp [core_pendCore (tidy_pendWhere ht d), ih]
      | false => simp [ih]
    · have hlt : d < n + 1 ↔ d < n := by omega
      cases hon : on n with
      | true => simp [core_pendCore (tidy_pendWhere ht n), hd, ih, hlt]
      | false => simp [ih, hlt]

end

theorem pendWhere_rest (on : Nat → Bool) (k n : Nat) (s : State) : { pendWhere on k n s with cores := s.cores } = s := by
  refine forUpto_keep (fun t => { t with cores := s.cores } = s) n _ (fun c _ t h => ?_) s rfl
  split
  · exact h
  · exact h

/-! ## RING, ICLR and TCMP (R239) -/

theorem does_ring {c : Fin 8} {w : Word} {s : State} (ht : s.tidy = true) (hr : coreRuns s c.val = true) :
    Does (.ring c w) s fun t =>
      (∀ k, k < 8 → t.core k = { s.core k with
        ipend := if w.getLsbD k then (s.core k).ipend ||| BitVec.ofNat 32 (2 ^ (16 + c.val)) else (s.core k).ipend }) ∧
      { t with cores := s.cores } = s := by
  refine ⟨opRing c.val w s, congrArg Host.Outcome.next (if_pos hr), fun k hk => ?_, ?_⟩
  · rw [opRing_eq, core_pendWhere ht]
    simp [hk]
  · rw [opRing_eq]
    exact pendWhere_rest _ _ _ s

theorem timerCheck_reached {c : Nat} {s : State} (ht : s.tidy = true) (ha : (s.core c).tArmed = true)
    (hr : (s.core c).tcmp.toNat ≤ s.slate.toNat) :
    timerCheck c s = s.setCore c { s.core c with tArmed := false, ipend := (s.core c).ipend ||| 1 } := by
  have hc := ((tidy_iff s).1 ht).cores
  refine (if_pos ⟨ha, hr⟩).trans ?_
  rw [pendCore, State.core_setCore_self c _ hc, State.setCore_core_twice c _ _ hc]
  rfl

theorem timerCheck_waiting {c : Nat} {s : State} (h : (s.core c).tArmed = false ∨ s.slate.toNat < (s.core c).tcmp.toNat) :
    timerCheck c s = s := by
  refine if_neg ?_
  rintro ⟨hon, hle⟩
  rcases h with hoff | hlt
  · exact absurd (hon.symm.trans hoff) (by decide)
  · omega

theorem exec_timerCompare (c : Fin 8) (s : State) :
    exec (.timerCompare c) s = .next (if awake s then timerCheck c.val s else s) := rfl

theorem interruptWrites : InterruptWrites := by
  intro c w s ht
  refine ⟨does_ring ht, fun hr => congrArg Host.Outcome.next (if_pos hr), fun hr => congrArg Host.Outcome.next (if_pos hr),
    fun ha harm hle => ?_, fun h => ?_⟩
  · rw [exec_timerCompare, if_pos ha, timerCheck_reached ht harm hle]
  · rcases h with hasleep | hwait
    · rw [exec_timerCompare, if_neg (by rw [hasleep]; decide)]
    · rw [exec_timerCompare, timerCheck_waiting hwait, ite_self]

/-- Settles O47: a write of CORE_CMD by the command it reaches, a clear by the sticky bits whose last holder it takes, RING by the
cores of its mask (`core_pendWhere`). -/
theorem coreControls : Obligations.CoreControls := ⟨coreCommands, interruptWrites⟩

end Sys2Proof.Machine
end

section
/-! USDO (R240, R293, R294, R297): segments of a download, the answers to a download and an upload, the limit of the sessions and
their idle timeout. -/

namespace Sys2Proof.Machine
open Sys2Proof Sys2Proof.Claims

/-! ## A frame that the controller hears (R240) -/

/-- Where no request of the link waits, the server has none to serve first (R289). -/
theorem serveLink_of_noneWaits {s : State} (h : NoneWaits s) : serveLink s = s := by
  have hnone : (!served s || s.link.reqState != 1 || s.link.odServed) = true := by
    rcases h with hr | ho
    · rw [bne_iff_ne.2 hr, Bool.or_true, Bool.true_or]
    · rw [ho, Bool.or_true]
  exact if_pos hnone

section
variable {s : State} (hserves : canServes s = true)
include hserves

theorem canUp_of_canServes : canUp s = true := (Bool.and_eq_true_iff.1 hserves).1

theorem canHeard_eq : canHeard s = pendWhere (fun _ => true) 2 8 s :=
  (if_pos (canUp_of_canServes hserves)).trans (pendAll_eq 2 s)

/-- A frame pends source 2 on every core and leaves all else. -/
theorem canHeard_rest : { canHeard s with cores := s.cores } = s := by
  rw [canHeard_eq hserves]
  exact pendWhere_rest _ _ _ s

theorem ipend_canHeard (ht : s.tidy = true) {k : Nat} (hk : k < 8) : ((canHeard s).core k).ipend.getLsbD 2 = true := by
  rw [canHeard_eq hserves, core_pendWhere ht, if_pos ⟨hk, rfl⟩, BitVec.getLsbD_or]
  simp

theorem can_canHeard : (canHeard s).can = s.can := (congrArg State.can (canHeard_rest hserves) :)

theorem canServes_canHeard : canServes (canHeard s) = true := (congrArg canServes (canHeard_rest hserves) :).trans hserves

/-- The controller may send, and its clocks run. -/
theorem sends_of_canServes : (s.can.silent || s.can.busOff) = false ∧ awake s = true := by
  have hup := canUp_of_canServes hserves
  simp only [canUp, served, Bool.and_eq_true, Bool.not_eq_true'] at hup
  obtain ⟨⟨⟨⟨-, hawake⟩, hsilent⟩, hoff⟩, -⟩ := hup
  exact ⟨by rw [hsilent, hoff]; rfl, hawake⟩

end

/-- A state whose bus state is `x` already. -/
theorem withCan_self {s : State} {x : Can} (h : s.can = x) : { s with can := x } = s := by rw [← h]

theorem withAnswers_self {s : State} {x : Map Answer} (h : s.answers = x) : { s with answers := x } = s := by rw [← h]

theorem withAnswers_trans {s t u : State} {x : Map Answer} (h : s = t) (k : { t with answers := x } = u) :
    { s with answers := x } = u := by rw [h, k]

/-- What a client's frame leaves before its object is reached: the frame is heard, and the client's session has ended. -/
def usdoOpen (client : Byte) (s : State) : State := endSession client (canHeard s)

/-- The bytes of an object that have come from a client are kept for its next segment. -/
def usdoKept (client : Byte) (key : Nat) (bs : List Byte) (s : State) : State :=
  setCan { s.can with sessions := s.can.sessions ++ [(client, key, bs)] } s

theorem endSession_rest (client : Byte) (s : State) (x : Can) : { endSession client s with can := x } = { s with can := x } := rfl

theorem usdoKept_rest (client : Byte) (key : Nat) (bs : List Byte) (s : State) (x : Can) :
    { usdoKept client key bs s with can := x } = { s with can := x } := rfl

/-- The state and the abort code of a write by a client: of the bytes of its session so far, and then `data`. -/
def usdoWrite (client : Byte) (index : BitVec 16) (sub : Byte) (data : List Byte) (s : State) : State × Nat :=
  dictWrite fieldPath index.toNat sub.toNat (sessionBytes s client (index.toNat * 256 + sub.toNat) ++ data) (usdoOpen client s)

/-- The answer of the server, kept for the path and sent to the client. -/
def usdoAnswer (client : Byte) (key a : Nat) (b : List Byte) (s : State) : State :=
  canSend (.usdo client (BitVec.ofNat 32 a) b) (answer fieldPath key a b s)

/-- The controller is on the bus in `t` as in `s`, and has sent as much. -/
def SameBus (s t : State) : Prop :=
  t.can.silent = s.can.silent ∧ t.can.busOff = s.can.busOff ∧ t.can.sent = s.can.sent

theorem SameBus.of_can {s t : State} (h : t.can = s.can) : SameBus s t := by
  unfold SameBus
  rw [h]
  exact ⟨rfl, rfl, rfl⟩

/-- On the bus a message is sent, and nothing else changes. -/
theorem canSend_says {s t u : State} {m : CanMsg} (hbus : (s.can.silent || s.can.busOff) = false) (h : SameBus s t)
    (he : canSend m t = u) :
    Sent s u [m] ∧ u.can.sessions = t.can.sessions ∧ ∀ x, { u with can := x } = { t with can := x } := by
  obtain ⟨hsilent, hoff, hsent⟩ := h
  have hopen : ¬(t.can.silent || t.can.busOff) = true := by rw [hsilent, hoff, hbus]; decide
  have heq : canSend m t = { t with can := { t.can with sent := t.can.sent ++ [m] } } := if_neg hopen
  rw [← he, heq]
  exact ⟨congrArg (· ++ [m]) hsent, rfl, fun _ => rfl⟩

/-! ## Downloads and uploads (R293, R297) -/

section
variable {client : Byte} {index : BitVec 16} {sub : Byte} {data : List Byte} {s : State} (hserves : canServes s = true)
include hserves

theorem sessionFree_canHeard : sessionFree (canHeard s) client = sessionFree s client := by
  unfold sessionFree
  rw [can_canHeard hserves]

theorem sessionBytes_canHeard (key : Nat) : sessionBytes (canHeard s) client key = sessionBytes s client key := by
  unfold sessionBytes
  rw [can_canHeard hserves]

theorem noneWaits_usdoOpen (h : NoneWaits s) : NoneWaits (usdoOpen client s) := by
  have hlink : (usdoOpen client s).link = s.link := (congrArg State.link (canHeard_rest hserves) :)
  unfold NoneWaits
  rwa [hlink]

/-- A frame of a client that has no session, and can have none, is answered BUSY. -/
theorem exec_usdoDownload_busy (hfull : sessionFree s client = false) (more : Bool) :
    exec (.usdoDownload client index sub data more) s =
      .next (canSend (.usdo client (BitVec.ofNat 32 abBusy) []) (canHeard s)) := by
  refine congrArg Host.Outcome.next ((if_neg ?_).trans (if_pos ?_))
  · rw [canServes_canHeard hserves]; decide
  · rw [sessionFree_canHeard hserves, hfull]; rfl

/-- A frame of a client with a session reaches its object. -/
theorem usdo_of_free {α : Sort*} (hfree : sessionFree s client = true) (silent busy run : α) :
    (if !canServes (canHeard s) then silent else if !sessionFree (canHeard s) client then busy else run) = run := by
  rw [canServes_canHeard hserves, sessionFree_canHeard hserves, hfree]
  rfl

theorem exec_usdoDownload_more (hfree : sessionFree s client = true) :
    exec (.usdoDownload client index sub data true) s = .next (canSend (.usdo client 0 [])
      (usdoKept client (index.toNat * 256 + sub.toNat) (sessionBytes s client (index.toNat * 256 + sub.toNat) ++ data)
        (usdoOpen client s))) := by
  rw [← sessionBytes_canHeard hserves]
  exact congrArg Host.Outcome.next (usdo_of_free hserves hfree _ _ _)

theorem exec_usdoDownload_last (hwait : NoneWaits s) (hfree : sessionFree s client = true) :
    exec (.usdoDownload client index sub data false) s = .next (usdoAnswer client (index.toNat * 256 + sub.toNat)
      (usdoWrite client index sub data s).2 [] (usdoWrite client index sub data s).1) := by
  refine congrArg Host.Outcome.next ((usdo_of_free hserves hfree _ _ _).trans ?_)
  unfold usdoWrite
  rw [← sessionBytes_canHeard hserves, ← serveLink_of_noneWaits (noneWaits_usdoOpen (client := client) hserves hwait)]
  rfl

theorem exec_usdoUpload (hwait : NoneWaits s) (hfree : sessionFree s client = true) {b : List Byte} {t : State} {a : Nat}
    (hread : dictRead fieldPath index.toNat sub.toNat (usdoOpen client s) = (b, t, a)) :
    exec (.usdoUpload client index sub) s = .next (usdoAnswer client (index.toNat * 256 + sub.toNat) a b t) := by
  refine congrArg Host.Outcome.next ((usdo_of_free hserves hfree _ _ _).trans ?_)
  rw [← serveLink_of_noneWaits (noneWaits_usdoOpen (client := client) hserves hwait)] at hread
  exact congrArg (fun x : List Byte × State × Nat => usdoAnswer client (index.toNat * 256 + sub.toNat) x.2.2 x.1 x.2.1) hread

theorem sameBus_usdoOpen : SameBus s (usdoOpen client s) :=
  SameBus.of_can (t := canHeard s) (can_canHeard hserves)

/-- Beside its session the client's frame leaves what hearing it leaves. -/
theorem usdoOpen_rest : { usdoOpen client s with can := s.can } = canHeard s :=
  (endSession_rest client (canHeard s) s.can).trans (withCan_self (can_canHeard hserves))

/-- An answer to an access that leaves the server's state as the client's frame found it. -/
theorem usdoAnswer_says {key a : Nat} {b : List Byte} {t : State} (he : usdoAnswer client key a b (usdoOpen client s) = t) :
    Sent s t [.usdo client (BitVec.ofNat 32 a) b] ∧ { t with can := s.can, answers := s.answers } = canHeard s := by
  have hanswers : (canHeard s).answers = s.answers := (congrArg State.answers (canHeard_rest hserves) :)
  have hopen := usdoOpen_rest (client := client) hserves
  have hbus := sameBus_usdoOpen (client := client) hserves
  generalize usdoOpen client s = u at he hopen hbus
  obtain ⟨hsent, -, hrest⟩ := canSend_says (t := answer fieldPath key a b u) (sends_of_canServes hserves).1 hbus he
  have hanswered : { t with can := s.can, answers := s.answers } = { u with can := s.can, answers := s.answers } :=
    (congrArg (fun x : State => { x with answers := s.answers }) (hrest s.can) :)
  exact ⟨hsent, hanswered.trans (withAnswers_trans hopen (withAnswers_self hanswers))⟩

end

theorem dictWrite_missing {p idx sub a : Nat} (h : lookup idx sub = .error a) (data : List Byte) (s : State) :
    dictWrite p idx sub data s = (s, a) := by
  unfold dictWrite
  rw [h]

theorem dictRead_missing {p idx sub a : Nat} (h : lookup idx sub = .error a) (s : State) : dictRead p idx sub s = ([], s, a) := by
  unfold dictRead
  rw [h]

/-- A read of an object outside the codec port changes nothing (R338). -/
theorem dictRead_plain {idx sub : Nat} {r : ObjRow} (h : lookup idx sub = .ok r) (hacc : r.acc ≠ .wo) (hidx : idx ≠ 0x3C60) (p : Nat)
    (s : State) : dictRead p idx sub s = (objBytes s p (selected s p idx) r idx sub, s, abNone) := by
  have hreadable : (r.acc == .wo) = false := beq_eq_false_iff_ne.2 hacc
  unfold dictRead
  simp [h, hreadable, hidx]

theorem selected_usdoOpen {s : State} (hserves : canServes s = true) (client : Byte) (p idx : Nat) :
    selected (usdoOpen client s) p idx = selected s p idx :=
  (congrArg (fun x : State => selected x p idx) (canHeard_rest hserves) :)

/-- The session that a segment leaves holds what has come, and is the client's only one. -/
theorem sessionBytes_appended {client : Byte} {key : Nat} {bs : List Byte} {s : State} {l : List (Byte × Nat × List Byte)}
    (h : s.can.sessions = (l.filter fun x => x.1 != client) ++ [(client, key, bs)]) : sessionBytes s client key = bs := by
  have hnone : (l.filter fun x => x.1 != client).find? (fun x => x.1 == client && x.2.1 == key) = none := by
    refine List.find?_eq_none.2 fun x hx => ?_
    have hne := (List.mem_filter.1 hx).2
    simp only [bne_iff_ne] at hne
    simp [hne]
  unfold sessionBytes
  rw [h, List.find?_append, hnone]
  simp

section
variable {client : Byte} {index : BitVec 16} {sub : Byte} {data : List Byte} {s : State} (hserves : canServes s = true)
include hserves

theorem does_usdoDownload_more (hfree : sessionFree s client = true) :
    Does (.usdoDownload client index sub data true) s fun t =>
      sessionBytes t client (index.toNat * 256 + sub.toNat) = sessionBytes s client (index.toNat * 256 + sub.toNat) ++ data ∧
        Sent s t [.usdo client 0 []] ∧ { t with can := s.can } = canHeard s := by
  have hexec := exec_usdoDownload_more (index := index) (sub := sub) (data := data) hserves hfree
  have hopen := usdoOpen_rest (client := client) hserves
  have hbus := sameBus_usdoOpen (client := client) hserves
  have hsessions : (usdoOpen client s).can.sessions = (canHeard s).can.sessions.filter fun x => x.1 != client := rfl
  generalize usdoOpen client s = u at hexec hopen hbus hsessions
  generalize he : canSend _ _ = t at hexec
  obtain ⟨hsent, hkept, hrest⟩ := canSend_says (t := usdoKept client _ _ u) (sends_of_canServes hserves).1 hbus he
  refine ⟨t, hexec, sessionBytes_appended (hkept.trans (congrArg (· ++ _) hsessions)), hsent, ?_⟩
  exact (hrest s.can).trans ((usdoKept_rest _ _ _ u s.can).trans hopen)

theorem does_usdoDownload_busy (hfull : sessionFree s client = false) (more : Bool) :
    Does (.usdoDownload client index sub data more) s fun t =>
      Sent s t [.usdo client 0x08000000 []] ∧ { t with can := s.can } = canHeard s := by
  have hcan := can_canHeard hserves
  have hexec := exec_usdoDownload_busy (index := index) (sub := sub) (data := data) hserves hfull more
  generalize he : canSend _ _ = t at hexec
  obtain ⟨hsent, -, hrest⟩ := canSend_says (sends_of_canServes hserves).1 (SameBus.of_can hcan) he
  exact ⟨t, hexec, hsent, (hrest s.can).trans (withCan_self hcan)⟩

theorem does_usdoIdleTimeout (hsession : s.can.sessions.any (fun x => x.1 == client) = true) :
    Does (.usdoIdleTimeout client) s fun t =>
      Sent s t [.usdo client 0x05040000 []] ∧ (∀ x ∈ t.can.sessions, x.1 ≠ client) ∧ { t with can := s.can } = s := by
  obtain ⟨hbus, hawake⟩ := sends_of_canServes hserves
  have hexec : exec (.usdoIdleTimeout client) s = .next (canSend (.usdo client 0x05040000 []) (endSession client s)) :=
    congrArg Host.Outcome.next (if_pos (by rw [hawake, hsession]; rfl))
  generalize he : canSend _ _ = t at hexec
  obtain ⟨hsent, hsessions, hrest⟩ := canSend_says (t := endSession client s) hbus ⟨rfl, rfl, rfl⟩ he
  refine ⟨t, hexec, hsent, fun x hx => ?_, hrest s.can⟩
  rw [hsessions] at hx
  simpa using (List.mem_filter.1 hx).2

end

/-- Settles O18: every frame is heard (`canHeard_rest`); where a session is free it reaches its object, and the answer that the
server gives is kept and sent (`usdoAnswer_says`). That a frame pends source 2 (assumption 136) is the model's choice; the limit of
the sessions and their idle timeout, 0x0504_0000, are R297's. -/
theorem usdoAccess : Obligations.UsdoAccess := by
  intro client index sub data s ht hserves h key bs
  refine ⟨⟨fun k => ipend_canHeard hserves ht, canHeard_rest hserves⟩, does_usdoDownload_more hserves, fun u a hwait hfree hw => ?_,
    fun a hwait hfree hl => ⟨?_, ?_⟩, fun r hwait hfree hl hacc hidx => ?_, does_usdoDownload_busy hserves,
    does_usdoIdleTimeout hserves⟩
  · have hwrite : usdoWrite client index sub data s = (u, a) := hw
    rw [exec_usdoDownload_last hserves hwait hfree, hwrite]
    rfl
  · have hwrite : usdoWrite client index sub data s = (usdoOpen client s, a) := dictWrite_missing hl _ _
    refine ⟨_, exec_usdoDownload_last hserves hwait hfree, ?_⟩
    rw [hwrite]
    exact usdoAnswer_says hserves rfl
  · exact ⟨_, exec_usdoUpload hserves hwait hfree (dictRead_missing hl _), usdoAnswer_says hserves rfl⟩
  · refine ⟨_, exec_usdoUpload hserves hwait hfree (dictRead_plain hl hacc hidx _ _), ?_⟩
    rw [selected_usdoOpen hserves]
    exact usdoAnswer_says hserves rfl

end Sys2Proof.Machine
end

section
/-! Shared pan groups: PG_OWNER and handovers, the clear of a revoked group, PG_POWER and PG_CLEAR (R257, R259 to R263). -/

namespace Sys2Proof.Machine
open Sys2Proof Sys2Proof.Claims

/-! ## The objects of a pan group (R257, R262) -/

/-- PG_OWNER, PG_POWER and PG_CLEAR. -/
def pgOwnerRow : ObjRow := ⟨0x3410, 8, 1, 1, 1, .uint 1, .rws, 0, .custom⟩
def pgPowerRow : ObjRow := ⟨0x3410, 8, 1, 3, 1, .uint 1, .rws, 1, .range 0 2⟩
def pgClearRow : ObjRow := ⟨0x3410, 8, 1, 8, 1, .uint 1, .wo, 0, .bits 1⟩

theorem blockApart_pans : blockApart 0x3410 8 = true := by decide +kernel

theorem lookup_pgOwner (g : Fin 8) : lookup (0x3410 + g.val) 1 = .ok pgOwnerRow :=
  lookup_of_blockApart blockApart_pans (by omega) (by omega) (by decide +kernel)

theorem lookup_pgPower (g : Fin 8) : lookup (0x3410 + g.val) 3 = .ok pgPowerRow :=
  lookup_of_blockApart blockApart_pans (by omega) (by omega) (by decide +kernel)

theorem lookup_pgClear (g : Fin 8) : lookup (0x3410 + g.val) 8 = .ok pgClearRow :=
  lookup_of_blockApart blockApart_pans (by omega) (by omega) (by decide +kernel)

/-- An object from 0x3000 on whose values its own chapter checks has no reserved bits (R10). -/
theorem dropReserved_highCustom {idx : Nat} (h : 0x3000 ≤ idx) {r : ObjRow} (hd : r.dom = .custom) (sub v : Nat) :
    dropReserved r idx sub v = v := by
  unfold dropReserved
  rw [if_neg (by omega), if_neg (by omega), if_neg (by omega), if_neg (by omega), if_neg (by omega), if_neg (by omega), hd]

/-- The commands among the objects of a pan group. -/
theorem command_pan {g : Nat} (hg : g < 8) (p item v : Nat) (data : List Byte) (s : State) :
    command p item (0x3410 + g) 1 v data s = some (writePgOwner g v s) ∧
    command p item (0x3410 + g) 3 v data s = some (writePgPower g v s) ∧
    command p item (0x3410 + g) 8 v data s = some (pgClearBits g v s, abNone) := by
  have hne : ∀ k, k < 0x3410 → 0x3410 + g ≠ k := by omega
  have hring : ¬0x3410 + g < 0x3100 := by omega
  have hdma : ¬0x3410 + g < 0x3230 := by omega
  have hin : 0x3410 ≤ 0x3410 + g ∧ 0x3410 + g < 0x3418 := by omega
  have hrange : ¬0x3410 + g < 0x3000 ∧ 0x3410 + g < 0x3A00 := by omega
  simp [command, command1, hne, hring, hdma, hin, hrange]

section
variable {p : Path} {g : Fin 8} {s : State} (hs : Ready s)
include hs

theorem exec_pgOwnerWrite (v : Byte) : exec (.pgOwnerWrite p g v) s = .next (answer (pathCode p) ((0x3410 + g.val) * 256 + 1)
    (writePgOwner g.val v.toNat s).2 [] (writePgOwner g.val v.toNat s).1) := by
  refine congrArg Host.Outcome.next (writeNat_command hs (lookup_pgOwner g) (by decide) (by decide) rfl (by decide) v.isLt rfl
    fun item data => ?_)
  rw [dropReserved_highCustom (by omega) rfl]
  exact (command_pan g.isLt _ _ _ _ s).1

theorem writeNat_pgPower {v : Nat} (hv : v ≤ 2) : writeNat p (0x3410 + g.val) 3 1 v s =
    answer (pathCode p) ((0x3410 + g.val) * 256 + 3) (writePgPower g.val v s).2 [] (writePgPower g.val v s).1 := by
  refine writeNat_command hs (lookup_pgPower g) (by decide) (by decide) rfl (by decide) (by omega) ?_ fun item data => ?_
  · simpa [domGood, pgPowerRow] using hv
  · rw [dropReserved_high (by omega) (lo := 0) (hi := 2) rfl]
    exact (command_pan g.isLt _ _ _ _ s).2.1

theorem exec_pgPowerOff : exec (.pgPowerOff p g) s = .next (answer (pathCode p) ((0x3410 + g.val) * 256 + 3)
    (writePgPower g.val 0 s).2 [] (writePgPower g.val 0 s).1) :=
  congrArg Host.Outcome.next (writeNat_pgPower hs (by decide))

theorem exec_pgPowerOn : exec (.pgPowerOn p g) s = .next (answer (pathCode p) ((0x3410 + g.val) * 256 + 3)
    (writePgPower g.val 1 s).2 [] (writePgPower g.val 1 s).1) :=
  congrArg Host.Outcome.next (writeNat_pgPower hs (by decide))

theorem exec_pgPowerRetention : exec (.pgPowerRetention p g) s = .next (answer (pathCode p) ((0x3410 + g.val) * 256 + 3)
    (writePgPower g.val 2 s).2 [] (writePgPower g.val 2 s).1) :=
  congrArg Host.Outcome.next (writeNat_pgPower hs (by decide))

theorem exec_pgClear : exec (.pgClear p g) s = .next (told p (0x3410 + g.val) 8 (pgClearBits g.val 1 s)) := by
  refine congrArg Host.Outcome.next (writeNat_command hs (lookup_pgClear g) (by decide) (by decide) rfl (by decide) (by omega) rfl
    fun item data => ?_)
  rw [dropReserved_highBits (by omega) (m := 1) rfl]
  exact (command_pan g.isLt _ _ _ _ s).2.2

end

/-! ## Handovers (R259, R260) -/

section
variable {g : Nat} {s t : State}

theorem writePgOwner_on {v : Byte} (hv : ownerGood v.toNat = true) (hst : s.rd (Obj.pgState g) = 1) :
    writePgOwner g v.toNat s =
      (((s.wr (Obj.pgOwner g) v.toNat).setPan g { s.pan g with newOwner := v }).wr (Obj.pgState g) 2, abNone) := by
  simp [writePgOwner, hv, hst]

theorem writePgOwner_moving {v : Nat} (hv : ownerGood v = true) (hst : s.rd (Obj.pgState g) = 2 ∨ s.rd (Obj.pgState g) = 3) :
    writePgOwner g v s = (s, abState) := by
  simp [writePgOwner, hv, hst]

theorem writePgOwner_reserved {v : Nat} (hv : ownerGood v = false) : writePgOwner g v s = (s, abValue) := by
  simp [writePgOwner, hv]

theorem rd_ownerTaken (owner : Nat) (s : State) (q : Reg) : (ownerTaken g owner s).rd q = s.rd q := by
  unfold ownerTaken
  dsimp only
  split
  · rfl
  · rfl

theorem pan_ownerTaken (owner : Nat) (ht : s.tidy = true) : (ownerTaken g owner s).pan g =
    { s.pan g with code := BitVec.ofNat 8 owner, newOwner := BitVec.ofNat 8 owner, revoked := false } := by
  have hself := fun x => State.pan_setPan_self g x ((tidy_iff s).1 ht).pans
  unfold ownerTaken
  dsimp only
  split
  · exact hself _
  · exact hself _

/-- At the end of a handover the group is ON, its banks hold the new code, and the handover is counted. -/
theorem finishHandover_says (ht : s.tidy = true) (he : finishHandover g s = t) :
    (t.rd (Obj.pgState g) = 1 ∧ (t.pan g).code = (s.pan g).newOwner ∧ (t.pan g).revoked = false ∧ (t.pan g).clearing = false) ∧
      t.rd (Obj.pgHandovers g) = min (s.rd (Obj.pgHandovers g) + 1) 0xFFFFFFFF ∧ t.mem = s.mem := by
  obtain ⟨htaken, ⟨hmem, -⟩, -⟩ := Revokes.ownerTaken (c := 0) g (s.pan g).newOwner.toNat s ht
  have hpan := pan_ownerTaken (g := g) (s.pan g).newOwner.toNat ht
  have hrd := rd_ownerTaken (g := g) (s.pan g).newOwner.toNat s
  unfold finishHandover at he
  generalize ownerTaken g (s.pan g).newOwner.toNat s = u at htaken hmem hpan hrd he
  have hset := tidy_setPan g { u.pan g with clearing := false, thenClear := false } htaken
  have hend : t.pan g = { u.pan g with clearing := false, thenClear := false } :=
    he ▸ State.pan_setPan_self g _ ((tidy_iff u).1 htaken).pans
  refine ⟨⟨?_, ?_, ?_, ?_⟩, ?_, ?_⟩
  · rw [← he]
    exact State.rd_wr_self _ _ ((tidy_iff _).1 (tidy_inc _ hset)).od
  · rw [hend, hpan, BitVec.ofNat_toNat, BitVec.setWidth_eq]
  · rw [hend, hpan]
  · rw [hend]
  · rw [← he, State.rd_wr_ne _ _ (by simp [Obj.pgHandovers, Obj.pgState]), State.inc, State.rd_wr_self _ _ ((tidy_iff _).1 hset).od,
      State.setPan_rd, hrd]
  · rw [← he]
    exact hmem

theorem does_handover {g : Fin 8} (ht : s.tidy = true) (ha : awake s = true) (hst : s.rd (Obj.pgState g.val) = 2)
    (hclear : (s.pan g.val).thenClear = false) :
    Does (.pgHandoverComplete g) s fun t =>
      t.rd (Obj.pgState g.val) = 1 ∧ (t.pan g.val).code = (s.pan g.val).newOwner ∧ (t.pan g.val).revoked = false ∧
      t.rd (Obj.pgHandovers g.val) = min (s.rd (Obj.pgHandovers g.val) + 1) 0xFFFFFFFF ∧ t.mem = s.mem := by
  have hexec : exec (.pgHandoverComplete g) s = .next (finishHandover g.val s) := by
    show execPgHandoverComplete g s = _
    simp [execPgHandoverComplete, clocked, ha, hst, hclear]
  obtain ⟨⟨hstate, hcode, hrevoked, -⟩, hcount, hmem⟩ := finishHandover_says (g := g.val) ht rfl
  exact ⟨_, hexec, hstate, hcode, hrevoked, hcount, hmem⟩

theorem exec_handover_clears {g : Fin 8} (ha : awake s = true) (hst : s.rd (Obj.pgState g.val) = 2)
    (hclear : (s.pan g.val).thenClear = true) : exec (.pgHandoverComplete g) s =
      .next ((s.setPan g.val { s.pan g.val with clearing := true, clearRow := 0 }).wr (Obj.pgState g.val) 3) := by
  show execPgHandoverComplete g s = _
  simp [execPgHandoverComplete, clocked, ha, hst, hclear]

/-! ## The clear of a revoked group (R260) -/

/-- What a clear of the memory from `lo` up to `hi` leaves. -/
theorem clearMem_says {lo hi : Nat} (ht : s.tidy = true) (hm : t.mem = clearMem s.mem lo hi) :
    (∀ a, lo ≤ a → a < hi → readByte t.mem a = 0) ∧ SameOutside s t lo hi := by
  have hread := fun a => readByte_clearMem lo hi a ((tidy_iff s).1 ht).mem
  refine ⟨fun a hlo hhi => ?_, fun a hout => ?_⟩
  · rw [hm, hread, if_pos ⟨hlo, hhi⟩]
  · rw [hm, hread, if_neg (by omega)]

/-- A group ends where its last row, the 65,536th, ends. -/
theorem groupLo_succ (g : Nat) : groupLo (g + 1) = groupLo g + 32 * 65536 := by
  unfold groupLo
  omega

theorem tidy_clearRows (n : Nat) (ht : s.tidy = true) : (clearRows g n s).tidy = true := tidy_setPan g _ (tidy_clearMem _ _ ht :)

theorem pan_clearRows (n : Nat) (ht : s.tidy = true) : (clearRows g n s).pan g = { s.pan g with clearRow := min n 65536 } :=
  State.pan_setPan_self g _ ((tidy_iff s).1 ht).pans

/-- A clear that reaches the last row has cleared the rows it had left. -/
theorem mem_clearRows_all : (clearRows g 65536 s).mem = clearMem s.mem (groupLo g + 32 * (s.pan g).clearRow) (groupLo (g + 1)) := by
  rw [groupLo_succ]
  rfl

theorem does_groupClear {g : Fin 8} (ht : s.tidy = true) (hst : s.rd (Obj.pgState g.val) = 3)
    (hclear : (s.pan g.val).clearing = true) (ha : awake s = true) :
    Does (.pgGroupClearComplete g) s fun t =>
      t.rd (Obj.pgState g.val) = 1 ∧ (t.pan g.val).code = (s.pan g.val).newOwner ∧ (t.pan g.val).clearing = false ∧
      (∀ a, groupLo g.val + 32 * (s.pan g.val).clearRow ≤ a → a < groupLo (g.val + 1) → readByte t.mem a = 0) ∧
      SameOutside s t (groupLo g.val + 32 * (s.pan g.val).clearRow) (groupLo (g.val + 1)) := by
  have hexec : exec (.pgGroupClearComplete g) s = .next (finishHandover g.val (clearRows g.val 65536 s)) :=
    congrArg Host.Outcome.next (if_pos ⟨hst, hclear, ha⟩)
  obtain ⟨⟨hstate, hcode, -, hended⟩, -, hmem⟩ := finishHandover_says (g := g.val) (tidy_clearRows 65536 ht) rfl
  rw [pan_clearRows _ ht] at hcode
  exact ⟨_, hexec, hstate, hcode, hended, clearMem_says ht (hmem.trans mem_clearRows_all)⟩

/-! ## Power (R262, R263) -/

/-- A group that is ON and in no use goes to OFF, or in compatibility mode to RETENTION. -/
theorem writePgPower_leavesOn {v : Nat} (hv : v = 0 ∨ v = 2 ∧ s.rd (Obj.pgCompat g) ≠ 0) (hst : s.rd (Obj.pgState g) = 1)
    (huse : groupInUse s g = false) : writePgPower g v s =
      (((s.setPan g { s.pan g with compatNow := s.rd (Obj.pgCompat g) == 1, powering := true }).wr (Obj.pgPower g) v).wr
        (Obj.pgState g) (if v = 2 then 4 else v), abNone) := by
  rcases hv with rfl | ⟨rfl, hcompat⟩
  · simp [writePgPower, hst, huse]
  · simp [writePgPower, hst, huse, hcompat]

theorem writePgPower_inUse (hst : s.rd (Obj.pgState g) = 1) (huse : groupInUse s g = true) : writePgPower g 0 s = (s, abState) := by
  simp [writePgPower, hst, huse]

/-- Native mode has no RETENTION (R261). -/
theorem writePgPower_nativeRetention (hcompat : s.rd (Obj.pgCompat g) = 0) : writePgPower g 2 s = (s, abValue) :=
  if_pos ⟨rfl, hcompat⟩

theorem writePgPower_on (hst : s.rd (Obj.pgState g) = 0) : writePgPower g 1 s = (powerUp g (s.wr (Obj.pgPower g) 1), abNone) := by
  simp [writePgPower, hst]

/-- In native mode a group powers up cleared. -/
theorem powerUp_native (hcompat : s.rd (Obj.pgCompat g) = 0) : powerUp g s =
    ((clearGroup g s).setPan g { s.pan g with compatNow := false, powering := true }).wr (Obj.pgState g) 3 := by
  simp only [powerUp, hcompat]
  rfl

theorem powerUp_says (ht : s.tidy = true) (hcompat : s.rd (Obj.pgCompat g) = 0) (he : powerUp g s = t) :
    (t.tidy = true ∧ t.mem = clearMem s.mem (groupLo g) (groupLo (g + 1))) ∧ t.rd (Obj.pgPower g) = s.rd (Obj.pgPower g) ∧
      t.rd (Obj.pgState g) = 3 ∧ t.pan g = { s.pan g with compatNow := false, powering := true } := by
  rw [powerUp_native hcompat] at he
  have hclear : (clearGroup g s).tidy = true := tidy_clearMem _ _ ht
  have hset := tidy_setPan g { s.pan g with compatNow := false, powering := true } hclear
  subst he
  refine ⟨⟨tidy_wr _ _ hset, rfl⟩, ?_, ?_, ?_⟩
  · rw [State.rd_wr_ne _ _ (by simp [Obj.pgPower, Obj.pgState])]
    rfl
  · exact State.rd_wr_self _ _ ((tidy_iff _).1 hset).od
  · exact State.pan_setPan_self g _ ((tidy_iff _).1 hclear).pans

theorem writes_pgPowerOn {p : Path} {g : Fin 8} (hs : Ready s) (hst : s.rd (Obj.pgState g.val) = 0)
    (hcompat : s.rd (Obj.pgCompat g.val) = 0) : Writes (.pgPowerOn p g) p s fun t =>
      t.rd (Obj.pgPower g.val) = 1 ∧ t.rd (Obj.pgState g.val) = 3 ∧ (t.pan g.val).powering = true ∧
      (t.pan g.val).compatNow = false ∧ (∀ a, groupLo g.val ≤ a → a < groupLo (g.val + 1) → readByte t.mem a = 0) ∧
      SameOutside s t (groupLo g.val) (groupLo (g.val + 1)) := by
  have hexec : exec (.pgPowerOn p g) s = .next (told p (0x3410 + g.val) 3 (powerUp g.val (s.wr (Obj.pgPower g.val) 1))) := by
    rw [exec_pgPowerOn hs, writePgPower_on hst]
    rfl
  have hkept : (s.wr (Obj.pgPower g.val) 1).rd (Obj.pgCompat g.val) = 0 :=
    (State.rd_wr_ne s 1 (by simp [Obj.pgCompat, Obj.pgPower])).trans hcompat
  obtain ⟨⟨htidy, hmem⟩, hpower, hstate, hpan⟩ := powerUp_says (tidy_wr (Obj.pgPower g.val) 1 hs.1) hkept rfl
  exact ⟨_, hexec, accepted_told p _ _ htidy, hpower.trans (State.rd_wr_self _ _ ((tidy_iff s).1 hs.1).od), hstate,
    congrArg PanGroup.powering hpan, congrArg PanGroup.compatNow hpan, clearMem_says hs.1 hmem⟩

theorem exec_powerTransition_on {g : Fin 8} (hp : (s.pan g.val).powering = true) (ha : awake s = true)
    (hst : s.rd (Obj.pgState g.val) = 3) (hrev : (s.pan g.val).revoked = false) : exec (.pgPowerTransitionComplete g) s =
      .next ((s.setPan g.val { s.pan g.val with powering := false }).wr (Obj.pgState g.val) 1) := by
  show execPgPowerTransitionComplete g s = _
  simp [execPgPowerTransitionComplete, hp, ha, hst, hrev]

/-! ## PG_CLEAR -/

/-- The counters that PG_CLEAR clears. -/
def pgCounters (g : Nat) : List Reg := [Obj.pgClashes g, Obj.pgRefused g, Obj.pgHandovers g]

theorem pgClearBits_one : pgClearBits g 1 s = zeroRegs (pgCounters g) s := rfl

theorem pgCounters_pairwise (g : Nat) : (pgCounters g).Pairwise fun r q => r.key ≠ q.key := by
  simp [pgCounters, Obj.pgClashes, Obj.pgRefused, Obj.pgHandovers]

theorem writes_pgClear {p : Path} {g : Fin 8} (hs : Ready s) : Writes (.pgClear p g) p s fun t =>
    (∀ r ∈ pgCounters g.val, t.rd r = 0) ∧ RegsBut s t (pgCounters g.val) ∧ { t with od := s.od, answers := s.answers } = s := by
  have hexec := exec_pgClear (p := p) (g := g) hs
  rw [pgClearBits_one] at hexec
  refine ⟨_, hexec, accepted_told p _ _ (tidy_zeroRegs _ hs.1), fun r hr => ?_, fun r hr => ?_, ?_⟩
  · rw [told_rd, rd_zeroRegs_mem (pgCounters_pairwise g.val) hs.1 r hr]
  · rw [told_rd, rd_zeroRegs_ne _ s r hr]
  · rw [told_rest, zeroRegs_rest]

end

/-- Settles O17: a write of PG_OWNER and of PG_POWER by the command that it reaches; a handover, and the clear of a revoked group, by
their one end (`finishHandover_says`) and what a clear leaves of the memory (`clearMem_says`). -/
theorem panGroups : Obligations.PanGroups := by
  intro p g v s ht
  refine ⟨fun hs hv hst => ?_, fun hs hv hst => ?_, fun hs hv => ?_, does_handover ht, exec_handover_clears, does_groupClear ht,
    fun hs hst huse => ?_, fun hs hst huse => ?_, writes_pgPowerOn, fun hs hcompat => ?_, fun hs hst hcompat huse => ?_,
    exec_powerTransition_on, writes_pgClear⟩
  · rw [exec_pgOwnerWrite hs, writePgOwner_on hv hst]
    rfl
  · rw [exec_pgOwnerWrite hs, writePgOwner_moving hv hst]
    rfl
  · rw [exec_pgOwnerWrite hs, writePgOwner_reserved hv]
    rfl
  · rw [exec_pgPowerOff hs, writePgPower_leavesOn (.inl rfl) hst huse]
    rfl
  · rw [exec_pgPowerOff hs, writePgPower_inUse hst huse]
    rfl
  · rw [exec_pgPowerRetention hs, writePgPower_nativeRetention hcompat]
    rfl
  · rw [exec_pgPowerRetention hs, writePgPower_leavesOn (.inr ⟨rfl, by omega⟩) hst huse, hcompat]
    rfl

end Sys2Proof.Machine
end
